-- ==== Sys2Proof/Word.lean ====
section
/-! DEFINITION. The register word of the module (14 R463), and the byte and time units that operands use. -/

namespace Sys2Proof

/-- Every set-up register is 32 bits wide (14 R463). -/
abbrev Word := BitVec 32

/-- A byte of a frame, a record or host memory, as its value 0 to 255. -/
abbrev Byte := Nat

/-- Device time or a span of it, in units of 0.25 ns (02 R50). -/
abbrev Q := Nat

/-- One nanosecond in device time units (02 R50). -/
def qPerNs : Nat := 4

/-- One millisecond in device time units. -/
def qPerMs : Nat := 4000000

/-- One second in device time units. -/
def qPerS : Nat := 4000000000

end Sys2Proof
end

