-- ==== Sys2Proof/Syntax/Operands.lean ====
section
/-! DEFINITION. The operand types of the rows of the table: what the outside world hands the module with a command or an event. -/

namespace Sys2Proof

/-- One 64-byte command entry with its generic header (12 R414), and what the device reads for it from host
memory: the extension of an officer command (18 R571) and the data the command reads at acceptance. -/
structure CmdEntry where
  /-- Command ring that supplied it, 0 to 31. -/
  ring : Nat := 0
  /-- Tag, unique among the ring's commands in flight. -/
  tag : Nat := 0
  /-- Fence bit (12 R416). -/
  fence : Bool := false
  /-- ext bit: the extension address is valid. -/
  ext : Bool := false
  /-- Cookie, returned in every completion. -/
  cookie : Nat := 0
  /-- Bytes 16 to 63 of the entry as one little-endian number. -/
  body : Nat := 0
  /-- The 128 bytes of the extension as read. -/
  extBytes : List Byte := []
  /-- Host memory the command reads at acceptance (a rule image, a group mask, a firmware image). -/
  mem : List Byte := []
  /-- The read of the extension or of that memory ended in an error completion or poisoned data (12 R412). -/
  readFail : Bool := false
  deriving DecidableEq, Repr

/-- What the on-die monitors and the manufacture-fixed power model give the governor at a bell (11 R375, R377,
R389), energies in 1/256 microjoule. -/
structure BellInput where
  /-- Committed energy of the period just ended. -/
  eCommitted : Nat := 0
  /-- Forwarding share of the elastic energy. -/
  eFwd : Nat := 0
  /-- Recorder share of the elastic energy. -/
  eRec : Nat := 0
  /-- Spill, recall, list pages and host DMA share of the elastic energy. -/
  eDram : Nat := 0
  /-- Background energy. -/
  eBackground : Nat := 0
  /-- Committed floor in W, as the power model estimates it (11 R375). -/
  floorW : Nat := 0
  /-- Hottest junction site (11 R389). -/
  site : Nat := 0
  /-- Its temperature in degrees Celsius. -/
  tempC : Nat := 0
  /-- Core current of each quadrant in A. -/
  amps : List Nat := []
  deriving DecidableEq, Repr

/-- One 66-bit block of a 64b/66b stream: sync header and content (04 R122). Octet k of a block is bits 8k to 8k + 7 of the content,
as IEEE 802.3 Clause 82 numbers the octets of a data block. -/
structure Block where
  /-- Sync header, 0b01 or 0b10. -/
  hdr : Nat := 1
  /-- 64-bit content. -/
  content : Nat := 0
  deriving DecidableEq, Repr

/-- Blocks received at a frame's place (04 R122 to R130): its four overhead blocks as they came, and its payload. A payload list
shorter than 20,480 blocks is filled with stuff blocks. -/
structure ZFrame where
  /-- Blocks 0 to 3. -/
  head : List Block := []
  /-- Payload blocks in order of frame block index 4 upward. -/
  payload : List Block := []
  /-- Receive reference time of the frame's block 0. -/
  start : Q := 0
  deriving DecidableEq, Repr

/-- One FlexE overhead frame, by the fields that OIF FlexE 2.x gives it (04 R154): sent, or received. Its two management channels
are sent as 0 and ignored on receipt. -/
structure FlexeOh where
  /-- The overhead CRC-16 is good and the overhead multiframe is in lock. -/
  lock : Bool := true
  /-- The PHY map: the PHY numbers that it names. -/
  map : List Nat := []
  /-- Slots that calendars A and B give the client; the others are unavailable. -/
  calA : Nat := 0
  calB : Nat := 0
  /-- Remote PHY fault. -/
  rpf : Bool := false
  /-- Group number received. -/
  group : Nat := 0
  /-- PHY number received. -/
  phy : Nat := 0
  /-- Calendar configuration in use (CCC): false A, true B. -/
  ccc : Bool := false
  /-- Calendar switch request. -/
  cr : Bool := false
  /-- Calendar switch acknowledge. -/
  ca : Bool := false
  deriving DecidableEq, Repr

/-- One lane's eye reading (03 R92, 17 R528): lane index, from 1,152 on of a buddy lane, vertical margin in 0.1 mV, horizontal margin in 0.001 UI. -/
structure EyeReading where
  lane : Nat := 0
  vert : Nat := 0
  horiz : Nat := 0
  /-- The partner asked for a coefficient change that a pinned transmitter refused since the last reading (03 R94). -/
  refused : Bool := false
  deriving DecidableEq, Repr

/-- What the sweeps of one DRAM byte lane have found (10 R359): of the 128 steps of the write and of the read delay, those that passed. -/
structure LaneTrain where
  lane : Nat := 0
  wrPass : Nat := 0
  rdPass : Nat := 0
  deriving DecidableEq, Repr

/-- The place of a DRAM burst (10 R347, R348). -/
structure BurstAt where
  /-- Physical channel index i. -/
  chan : Nat := 0
  bank : Nat := 0
  row : Nat := 0
  burst : Nat := 0
  deriving DecidableEq, Repr

/-- The seven clients of the far store (10 R350). -/
inductive DrcClient where
  | retrainCopy | recallReader | tableExtension | spillWriter | recorderWriter | hostDma | scrubber
  deriving DecidableEq, Repr

/-- What the decoder finds in a burst (10 R364). -/
inductive EccOutcome where
  /-- No error. -/
  | clean
  /-- An error confined to one device, corrected. -/
  | corrected (device : Nat)
  /-- An error it cannot attribute to one device. -/
  | uncorrectable
  deriving DecidableEq, Repr

/-- Which host memory read failed (12 R412). -/
inductive ReadItem where
  /-- The ring entry at this index. -/
  | entry (index : Nat)
  /-- Data of the command of this tag. -/
  | commandData (tag : Nat)
  /-- Frame data of the descriptor at this index. -/
  | frameData (index : Nat)
  deriving DecidableEq, Repr

/-- A finding of roll call in one store (08 R311). -/
structure RollFinding where
  /-- 0 near store, 1 far store. -/
  store : Nat := 0
  unit : Nat := 0
  /-- True: free and reachable (crossed). False: neither (leaked). -/
  crossed : Bool := false
  deriving DecidableEq, Repr

/-- The bell summary of a heartbeat from the buddy (17 R540). -/
structure Heartbeat where
  /-- TAI of the bell and its sequence number. -/
  bellTai : Nat := 0
  bellSeq : Nat := 0
  /-- Time the heartbeat left the buddy, in the buddy's device time. -/
  sent : Nat := 0
  /-- Time the buddy received this module's previous heartbeat, in the buddy's device time. -/
  prevArrived : Nat := 0
  /-- Arrival time here. -/
  arrived : Nat := 0
  state : Nat := 0
  servo : Nat := 0
  /-- Highest record sequence stored from this module, and the written mark. -/
  storedSeq : Nat := 0
  writtenMark : Nat := 0
  /-- Fetch index per TX ring of the sender. -/
  txFetch : List (Nat × Nat) := []
  /-- Progress window entries: ring, tag, position, basis points. -/
  progress : List (Nat × Nat × Nat × Nat) := []
  /-- Frames held per queue, non-zero entries. -/
  queues : List (Nat × Nat) := []
  /-- The values of 17 R539, bits 0 to 5. -/
  regs : List Nat := []
  deriving DecidableEq, Repr

/-- What the buddy says of itself when the link has come up (17 R548). -/
structure BuddyId where
  part : Nat := 0x1024
  serial : Nat := 0
  index : Nat := 0
  period : Nat := 0
  epoch : Nat := 0
  /-- Major firmware version. -/
  major : Nat := 0
  /-- It has survived a take-over and is the authority (17 R545). -/
  survivor : Bool := false
  deriving DecidableEq, Repr

/-- The buddy's answer to a journal record (17 R535): its place, the TAI of the bell that opened the period in which it was stored,
or the status and result of the step that refused it. -/
structure JournalAck where
  ring : Nat := 0
  tag : Nat := 0
  seq : Nat := 0
  stampTai : Nat := 0
  refused : Bool := false
  status : Nat := 0
  result : Nat := 0
  deriving DecidableEq, Repr

/-- A journal record of the buddy (17 R535): the command's opcode and entry, and the entry index. -/
structure JournalRecord where
  opcode : Nat := 0
  entry : CmdEntry := {}
  index : Nat := 0
  /-- Record sequence number. -/
  seq : Nat := 0
  deriving DecidableEq, Repr

/-- A completion record or fetch record of the buddy (17 R537). -/
inductive BuddyRecord where
  /-- A completion: kind, opcode, tag, status, ring, result, cookie, value, index; sequence. -/
  | completion (kind opcode tag status ring result cookie value index seq : Nat)
  /-- A TX ring's new fetch index, and the entries of the ring. -/
  | fetch (ring index entries seq : Nat)
  deriving DecidableEq, Repr

/-- A transit frame from the buddy (17 R533). -/
structure TransitFrame where
  cls : Nat := 0
  /-- Egress port, or group number when isGroup. -/
  dest : Nat := 0
  isGroup : Bool := false
  /-- FRER stream handle, when the frame belongs to one. -/
  stream : Option Nat := none
  ingress : Nat := 0
  sof : Q := 0
  /-- For classes 12 to 14: TAI of the bell that opened the assigned period. -/
  periodTai : Nat := 0
  /-- A frame from a TX descriptor of the sender: the number by which its fate is reported, and whether one-step insertion is asked for. -/
  home : Option Nat := none
  onestep : Bool := false
  data : List Byte := []
  deriving DecidableEq, Repr

/-- An FDB or shadow update from the buddy, or its report on a TX frame that crossed (17 R533, R538, 07 R246). -/
inductive BuddyUpdate where
  /-- A learn or move: mac, fid, port, reference timestamp of the frame that taught it. -/
  | learn (mac fid port : Nat) (sof : Q)
  | hit (mac fid : Nat)
  | remove (mac fid : Nat)
  /-- A shadow item: opcode and command body of the local command applied on the buddy. -/
  | shadow (opcode body : Nat)
  /-- The fate of a TX frame that crossed, by its number: whether a copy has left, copies flushed, and the transmit message time. -/
  | fate (frame : Nat) (left : Bool) (flushed : Nat) (time : Nat)
  deriving DecidableEq, Repr

/-- One item of rejoin data (17 R549). -/
inductive RejoinItem where
  /-- The source gives notice: the rejoin starts at the next bell. -/
  | start (restoreLocal : Bool)
  /-- The source has aborted the rejoin. -/
  | abort
  /-- A pair-wide FDB entry in the layout of 07 R239. -/
  | fdb (lo hi : Nat)
  /-- A VLAN entry: VID, FID, learning, flood group. -/
  | vlan (vid fid : Nat) (learn : Bool) (flood : Nat)
  /-- A meter configuration as the body of PRS.SET_METER. -/
  | meter (body : Nat)
  /-- A rule entry: index, image, valid, member bits. -/
  | rule (index : Nat) (image : List Byte) (valid m0 m1 : Bool)
  /-- A profile of one parity: parity, profile, header word and eight window words. -/
  | profile (parity p : Nat) (words : List Nat)
  /-- The EtherType table of one parity. -/
  | etypes (parity : Nat) (vals : List Nat)
  /-- The generation number. -/
  | generation (gen : Nat)
  /-- A local command of the shadow: opcode and body. -/
  | localCmd (opcode body : Nat)
  deriving DecidableEq, Repr

/-- A write that reaches a set-up register (14 R463, R467): the alias of its first byte, its length in bytes, its
data, and whether the write carries poisoned data. -/
structure RegWrite where
  /-- Byte offset from the register's 16-byte-aligned offset, 0 to 15. -/
  off : Nat := 0
  len : Nat := 4
  data : Nat := 0
  poisoned : Bool := false
  deriving DecidableEq, Repr

/-- A received Sync, with its Follow_Up from a two-step sender (02 R63). -/
structure SyncMsg where
  port : Nat := 0
  clockId : Nat := 0
  portNum : Nat := 0
  domain : Nat := 0
  seq : Nat := 0
  /-- Origin timestamp in 0.25 ns, and the sum of the correction fields in 2^-16 ns. -/
  t1 : Nat := 0
  corr : Int := 0
  /-- Reference timestamp of its receipt. -/
  rxRef : Q := 0
  /-- The message's frame, from the destination address to before the FCS. -/
  data : List Byte := []
  deriving DecidableEq, Repr

/-- A received Delay_Req or Pdelay_Req (02 R56). -/
structure DelayReq where
  port : Nat := 0
  clockId : Nat := 0
  portNum : Nat := 0
  seq : Nat := 0
  corr : Int := 0
  rxRef : Q := 0
  domain : Nat := 0
  data : List Byte := []
  deriving DecidableEq, Repr

/-- A received Delay_Resp or Pdelay_Resp (02 R54, R63). For Delay_Resp, t4 is the partner's receive time; for
Pdelay_Resp, corr is the turnaround in 2^-16 ns. -/
structure DelayResp where
  port : Nat := 0
  seq : Nat := 0
  t4 : Nat := 0
  corr : Int := 0
  rxRef : Q := 0
  domain : Nat := 0
  data : List Byte := []
  deriving DecidableEq, Repr

/-- A frame whose head enters the parser (01 R17): ingress port, reference timestamp, and its bytes from the
destination address to before the FCS. -/
structure FrameHead where
  port : Nat := 0
  sof : Q := 0
  data : List Byte := []
  deriving DecidableEq, Repr

/-- The end of the frame that a port is receiving (03 R96). -/
structure FrameEnd where
  port : Nat := 0
  fcsBad : Bool := false
  /-- A PCS code error, or an uncorrectable FEC codeword. -/
  codeErr : Bool := false
  /-- The frame was cut off when its lanes powered down. -/
  cutOff : Bool := false
  /-- FEC symbols corrected and codewords not correctable since the port's last frame (03 R121). -/
  fecCorrected : Nat := 0
  fecUncorrectable : Nat := 0
  deriving DecidableEq, Repr

/-- A slot container that the buddy forwards for a protection copy (17 R534). -/
structure BuddyContainer where
  index : Nat := 0
  blocks : List Block := []
  /-- Conditions of the slot on the buddy: bit 0 slot SF, 1 slot SD, 2 slot TIM, 3 packet slot, 4 no Zuben port (05 R177). -/
  cond : Nat := 0
  /-- The frame it came from was bad, errored or off alignment, so that its blocks are invalid (05 R181). -/
  bad : Bool := false
  deriving DecidableEq, Repr

/-- What an external programmer has written to the flash while RESET_N and FLASH_SEL_N were low (20 R609): the bytes from the start of bank
0 A or 1 B, or of 2 the active-bank marker; no bytes are an erased bank. -/
structure FlashImage where
  bank : Nat := 0
  image : List Byte := []
  deriving DecidableEq, Repr

end Sys2Proof
end

