-- ==== Sys2Proof/Syntax.lean ====
section
/-! DEFINITION. The commands and events of the module: one constructor per row of the table, in the table's order. Every
row carries first `dt`, the device time in units of 0.25 ns that passed since the row before it. -/

namespace Sys2Proof

/-- The rows of the command and event table. -/
inductive Instr where
  /-- R28: A bell instant is reached and, in its bell cycle, every change due at that bell is applied in the fixed order. -/
  | bell (dt : Nat) (b : BellInput)
  /-- R327: The guard after a bell ends and cyclic frames become eligible for selection. -/
  | cyclicGuardEnd (dt : Nat)
  /-- R42: Command that schedules a period and epoch change at a qualifying common bell after admission checks. -/
  | belSetPeriod (dt : Nat) (e : CmdEntry)
  /-- R43: Commit that sets a port's passing window, clamped to half the period. -/
  | belSetPassing (dt : Nat) (e : CmdEntry)
  /-- R44: Commit that sets a port's cyclic budget or class 15 reserve, admitted under R31. -/
  | belSetBudget (dt : Nat) (e : CmdEntry)
  /-- R45: Command that orders one lengthen-only step at the next bell. -/
  | belRealign (dt : Nat) (e : CmdEntry)
  /-- R31: Write to BEL_CTRL whose slew or guard change is checked against every port's budgets and ignored if it would overfill one. -/
  | belCtrlWrite (dt : Nat) (w : RegWrite)
  /-- R76: Command that sets a port's PTP role, delay mechanism, transport, intervals and asymmetry. -/
  | timSetPort (dt : Nat) (e : CmdEntry)
  /-- R77: Command that selects the servo source and parent. -/
  | timSelectSource (dt : Nat) (e : CmdEntry)
  /-- R78: Command that orders or releases a host holdover of the servo. -/
  | timSetHoldover (dt : Nat) (e : CmdEntry)
  /-- R79: Command that enables the EEC and selects its SyncE lane and option. -/
  | timSetSynce (dt : Nat) (e : CmdEntry)
  /-- R80: Command that sets device time absolutely or relatively by a step at the next bell. -/
  | timSetTime (dt : Nat) (e : CmdEntry)
  /-- R81: Command that feeds one host offset sample to the servo. -/
  | timFeedOffset (dt : Nat) (e : CmdEntry)
  /-- R63: A Sync (with its Follow_Up) from the parent port identity is received and timestamped. -/
  | syncRx (dt : Nat) (m : SyncMsg)
  /-- R56: A Delay_Req received on a role-1 port is answered with Delay_Resp. -/
  | delayReqRx (dt : Nat) (m : DelayReq)
  /-- R63: A Delay_Resp completes an E2E delay exchange and updates the averaged mean link delay. -/
  | delayRespRx (dt : Nat) (m : DelayResp)
  /-- R56: A received Pdelay_Req is answered with Pdelay_Resp. -/
  | pdelayReqRx (dt : Nat) (m : DelayReq)
  /-- R54: A Pdelay_Resp completes a peer delay exchange and updates D and the reference delay. -/
  | pdelayRespRx (dt : Nat) (m : DelayResp)
  /-- R56: The Sync interval of a role-1 port expires and a Sync is sent. -/
  | syncTxTimer (dt : Nat) (port : Nat)
  /-- R56: The Delay_Req interval of a role-2 E2E port expires and a Delay_Req is sent. -/
  | delayReqTxTimer (dt : Nat) (port : Nat)
  /-- R56: The Pdelay_Req interval of a P2P port expires and a Pdelay_Req is sent. -/
  | pdelayReqTxTimer (dt : Nat) (port : Nat)
  /-- R65: No valid sample arrives for the sample timeout and the servo leaves ACQUIRING or LOCKED. -/
  | sampleTimeout (dt : Nat)
  /-- R65: Holdover lasts the holdover limit and the servo enters FREERUN. -/
  | holdoverLimit (dt : Nat)
  /-- R72: Device time reaches a whole second minus the offset and PPS_OUT rises. -/
  | ppsOutRise (dt : Nat)
  /-- R72: The PPS_OUT pulse width elapses and the output falls. -/
  | ppsOutFall (dt : Nat)
  /-- R73: A rising edge on PPS_IN is timestamped and may serve as a servo sample. -/
  | ppsInEdge (dt : Nat)
  /-- R73: No PPS_IN edge arrives within 1.5 s and tim:pps_in_missing is posted. -/
  | ppsInMissing (dt : Nat)
  /-- R74: 1 ms after a PPS_OUT rise the time-of-day line for that second is sent. -/
  | todLineTx (dt : Nat)
  /-- R74: A received time-of-day line is checked and assigned to the last PPS_IN edge. -/
  | todLineRx (dt : Nat) (line : List Byte)
  /-- R69: Loss of signal or lock on the selected SyncE lane puts the EEC in holdover. -/
  | synceLaneLoss (dt : Nat)
  /-- R69: The EEC locks to the selected lane's recovered clock. -/
  | eecLocked (dt : Nat)
  /-- R87: Commit that forms a port from lanes of one cluster. -/
  | lneFormPort (dt : Nat) (e : CmdEntry)
  /-- R89: Commit that dissolves a disabled port with no cyclic budget or assigned slots. -/
  | lneDissolvePort (dt : Nat) (e : CmdEntry)
  /-- R93: Command that pins or releases a lane's transmitter taps or receiver adaptation. -/
  | lnePinTaps (dt : Nat) (e : CmdEntry)
  /-- R91: A lane in WAIT_SIGNAL detects signal and proceeds to AN, TRAIN or ADAPT. -/
  | laneSignalDetected (dt : Nat) (lane : Nat)
  /-- R91: Clause 73 priority resolution yields the configured mode and the lane enters TRAIN. -/
  | anResolved (dt : Nat) (lane : Nat) (lacksMode : Bool)
  /-- R91: Both ends report receiver ready and the lane enters LOCK. -/
  | trainingComplete (dt : Nat) (lane : Nat)
  /-- R91: The training timer expires and the lane returns to WAIT_SIGNAL. -/
  | trainingTimeout (dt : Nat) (lane : Nat)
  /-- R91: A module-attachment receiver adapts and the lane enters LOCK. -/
  | adaptationComplete (dt : Nat) (lane : Nat)
  /-- R91: 100 ms pass without adaptation and the lane returns to WAIT_SIGNAL. -/
  | adaptationTimeout (dt : Nat) (lane : Nat)
  /-- R91: Block lock, marker lock and deskew are reached and the lane enters UP. -/
  | lockAchieved (dt : Nat) (lane : Nat)
  /-- R91: 10 ms pass in LOCK without lock and the lane returns to WAIT_SIGNAL. -/
  | lockTimeout (dt : Nat) (lane : Nat)
  /-- R91: A lane in UP loses signal, block lock or alignment and returns to WAIT_SIGNAL; its port leaves UP. -/
  | laneLinkLoss (dt : Nat) (lane : Nat)
  /-- R92: The eye_ms interval expires, each lane's eye margin is measured and a low margin starts in-place adaptation. -/
  | eyeMeasurement (dt : Nat) (rs : List EyeReading)
  /-- R108: Command that enables or disables a port, applied in order after earlier requests. -/
  | macSetPortState (dt : Nat) (e : CmdEntry)
  /-- R117: Command that sets flow-control mode, quanta, PFC masks and source address. -/
  | macSetFlowControl (dt : Nat) (e : CmdEntry)
  /-- R118: Command that enables LPI and sets wake and idle hold times. -/
  | macSetLpi (dt : Nat) (e : CmdEntry)
  /-- R119: Command that sets a port's maximum frame length. -/
  | macSetFrame (dt : Nat) (e : CmdEntry)
  /-- R107: An enabled port's lanes are powered and the port enters TRAINING. -/
  | lanesPowered (dt : Nat) (port : Nat)
  /-- R107: Every lane is UP and aligned with no fault for 1 ms and the port enters UP. -/
  | portUpQualified (dt : Nat) (port : Nat)
  /-- R107: A local or remote fault is received and a port in UP enters HOLD or DRAINING ends. -/
  | faultRx (dt : Nat) (port : Nat) (localFault remoteFault : Bool)
  /-- R308: A port's hold-down timer expires and it enters FLUSHING, releasing every copy and its FDB entries. -/
  | holdDownExpiry (dt : Nat) (port : Nat)
  /-- R308: A port's flush completes and it moves to TRAINING or POWERING_DOWN. -/
  | portFlushEnd (dt : Nat) (port : Nat)
  /-- R107: A draining port's last frame leaves and it enters FLUSHING. -/
  | portEmpty (dt : Nat) (port : Nat)
  /-- R107: A powering-down port's lanes reach OFF and it enters DISABLED. -/
  | powerDownComplete (dt : Nat) (port : Nat)
  /-- R110: The port mismatch bit has been set at three consecutive bells and mac:port_mismatch is posted. -/
  | portMismatchHeld (dt : Nat) (port : Nat)
  /-- R102: A frame of EtherType 0x8808 is terminated and a PAUSE or PFC is acted on, ignored or punted. -/
  | macControlFrameRx (dt : Nat) (port : Nat) (data : List Byte)
  /-- R104: A pause timer runs out and its classes resume. -/
  | pauseTimerExpiry (dt : Nat) (port : Nat)
  /-- R106: An XOFF change is sent as a PAUSE or PFC frame at the next frame boundary. -/
  | flowControlFrameTx (dt : Nat) (port : Nat)
  /-- R106: The repeat interval passes while XOFF holds and the flow-control frame is sent again. -/
  | flowControlRepeat (dt : Nat) (port : Nat)
  /-- R99: A port has had nothing to send for the idle hold time and its transmitter enters LPI. -/
  | lpiIdleHoldExpiry (dt : Nat) (port : Nat)
  /-- R100: Tw_sys_tx before a bell a cyclic port's transmitter starts to wake. -/
  | lpiPreBellWake (dt : Nat) (port : Nat)
  /-- R17: A received frame's head enters the parser at its decision point and is parsed, looked up, metered, classed, replicated and admitted. -/
  | frameRxHead (dt : Nat) (h : FrameHead)
  /-- R96: A received frame's last byte arrives; FCS and length are checked and held decisions completed. -/
  | frameRxEnd (dt : Nat) (r : FrameEnd)
  /-- R322: At a frame boundary, or when a frame becomes eligible on an idle line, the port selects the next frame by rank. -/
  | egressSelect (dt : Nat) (port : Nat)
  /-- R249: A frame copy has fully left; cells, references and XOFF are released and completions posted. -/
  | frameTxEnd (dt : Nat) (port : Nat)
  /-- R335: A refill interval passes and every shaper credit is refilled and clamped. -/
  | shaperRefill (dt : Nat) (port : Nat)
  /-- R342: Commit that sets a queue's weight and shaper. -/
  | schSetQueue (dt : Nat) (e : CmdEntry)
  /-- R343: Commit that sets a port's overhead, refill interval and port shaper. -/
  | schSetPort (dt : Nat) (e : CmdEntry)
  /-- R344: Command that writes a port's scheduler and shaper state to host memory. -/
  | schReadPort (dt : Nat) (e : CmdEntry)
  /-- R126: A Zuben frame is received and its overhead, BIP, pointers, justification, handshake and defects processed. -/
  | zubenFrameRx (dt : Nat) (lane : Nat) (z : ZFrame)
  /-- R125: Each frame time a Zuben frame is sent with overhead, justification and containers. -/
  | zubenFrameTx (dt : Nat) (port : Nat)
  /-- R142: An alignment-word match outside SYNC creates an alignment candidate. -/
  | candidateCreated (dt : Nat) (lane : Nat) (block : Nat) (z : ZFrame)
  /-- R142: One frame spacing after a candidate the frame there is checked; the candidate is confirmed, dropped or qualifies for SYNC.
  The candidate was created at block `born`, and `z` starts at `block`. -/
  | candidateCheck (dt : Nat) (lane : Nat) (born : Nat) (block : Nat) (z : ZFrame)
  /-- R143: Five consecutive bad frames in SYNC return the lane to HUNT. -/
  | syncLoss (dt : Nat) (lane : Nat)
  /-- R146: A BIP window completes and SD or SF is cleared if it held at most one error. -/
  | bipWindowEnd (dt : Nat) (lane : Nat) (sf : Bool)
  /-- R150: A second of device time ends and ES, SES, BBE, UAS and far-end counts are updated. -/
  | pmSecond (dt : Nat)
  /-- R151: At the first bell 10 s after a boundary a PM bin closes and moves to previous and history. -/
  | pmBinClose (dt : Nat) (day : Bool)
  /-- R137: No ACK arrives one frame time before T and the handshake fails. -/
  | handshakeAckDeadline (dt : Nat) (lane : Nat)
  /-- R137: NAK has been sent in three frames and the handshake returns to IDLE. -/
  | nakSentThree (dt : Nat) (lane : Nat)
  /-- R141: page_mismatch has been set at three consecutive bells and zbn:page_mismatch is posted. -/
  | pageMismatchHeld (dt : Nat) (lane : Nat)
  /-- R153: A management HDLC frame is received and punted or counted bad. The row names the frame that the channel has brought: its
  content, or that it is bad. -/
  | mgmtFrameRx (dt : Nat) (lane : Nat) (content : List Byte) (good : Bool)
  /-- R161: The closing flag of a queued management frame is sent and ZBN.SEND_MGMT completes. -/
  | mgmtFrameSent (dt : Nat) (lane : Nat)
  /-- R155: The new FlexE calendar takes effect where the protocol places it and port rate and slopes change. -/
  | flexeCalendarSwitch (dt : Nat) (port : Nat)
  /-- R155: The partner does not acknowledge within 10 ms and the calendar switch fails. -/
  | flexeAckTimeout (dt : Nat) (port : Nat)
  /-- R157: Command that sets a lane's SD exponent, trace comparison and traces. -/
  | zbnSetLane (dt : Nat) (e : CmdEntry)
  /-- R158: Command that sets a slot's transmitted and expected path traces. -/
  | zbnSetSlotTrace (dt : Nat) (e : CmdEntry)
  /-- R159: Command that writes one performance bin record to host memory. -/
  | zbnReadPm (dt : Nat) (e : CmdEntry)
  /-- R160: Command that writes a lane's accepted traces to host memory. -/
  | zbnReadTrace (dt : Nat) (e : CmdEntry)
  /-- R161: Command that queues one management frame on a lane. -/
  | zbnSendMgmt (dt : Nat) (e : CmdEntry)
  /-- R162: Command that loads a standby FlexE calendar and optionally switches to it. -/
  | zbnSetFlexe (dt : Nat) (e : CmdEntry)
  /-- R189: Commit that writes a slot entry of a lane's standby page. -/
  | ttbWriteSlot (dt : Nat) (e : CmdEntry)
  /-- R190: Commit that writes seat entries of a lane's standby page. -/
  | ttbWriteSeats (dt : Nat) (e : CmdEntry)
  /-- R174: Command that arms the standby page and switches it at an agreed bell. -/
  | ttbSwitchPage (dt : Nat) (e : CmdEntry)
  /-- R192: Commit that copies the active page into the standby page. -/
  | ttbCopyPage (dt : Nat) (e : CmdEntry)
  /-- R180: Commit that enables, configures or disables a protection index. -/
  | ttbSetProtection (dt : Nat) (e : CmdEntry)
  /-- R194: Commit that applies a host protection request to an index. -/
  | ttbProtectCommand (dt : Nat) (e : CmdEntry)
  /-- R195: Command that writes a timetable page to host memory. -/
  | ttbReadPage (dt : Nat) (e : CmdEntry)
  /-- R176: arm_ms elapses for a responder and TTB.SWITCH_PAGE fails with reason 3. -/
  | armTimeout (dt : Nat) (lane : Nat)
  /-- R184: A new SF-W or SD-W condition has held for the hold-off time and becomes a request. -/
  | holdOffExpiry (dt : Nat) (index : Nat) (degraded : Bool)
  /-- R185: The wait-to-restore timer runs out and the index goes to NR. -/
  | wtrExpiry (dt : Nat) (index : Nat)
  /-- R182: An index has spent 1 s in ACQUIRING and ttb:prot_unaligned is posted. -/
  | protUnalignedTimer (dt : Nat) (index : Nat)
  /-- R182: A copy of an aligned index has failed for 1 s and the index becomes UNALIGNED. -/
  | protCopyFailedTimer (dt : Nat) (index : Nat) (protection : Bool)
  /-- R172: TTB_RX_MISMATCH has been non-zero at three consecutive bells and ttb:rx_mismatch is posted. -/
  | rxMismatchHeld (dt : Nat) (lane : Nat)
  /-- R223: Commit that writes a standby parser profile. -/
  | prsWriteProfile (dt : Nat) (e : CmdEntry)
  /-- R224: Commit that writes a port's standby profile map and dei_color. -/
  | prsWritePortMap (dt : Nat) (e : CmdEntry)
  /-- R225: Commit that writes the standby EtherType table. -/
  | prsWriteEtypes (dt : Nat) (e : CmdEntry)
  /-- R214: Commit that writes a rule entry into the standby generation. -/
  | prsWriteRule (dt : Nat) (e : CmdEntry)
  /-- R227: Commit that sets standby membership of a range of rule entries. -/
  | prsSetMember (dt : Nat) (e : CmdEntry)
  /-- R228: Commit that returns the standby generation to a copy of the current one. -/
  | prsDiscardStaged (dt : Nat) (e : CmdEntry)
  /-- R215: Commit that flips the classifier generation. -/
  | prsCommit (dt : Nat) (e : CmdEntry)
  /-- R221: Commit that configures a meter. -/
  | prsSetMeter (dt : Nat) (e : CmdEntry)
  /-- R230: Command that writes a rule entry to host memory. -/
  | prsReadRule (dt : Nat) (e : CmdEntry)
  /-- R231: Command that writes a meter's configuration and bucket levels to host memory. -/
  | prsReadMeter (dt : Nat) (e : CmdEntry)
  /-- R245: Commit that inserts or replaces an FDB entry. -/
  | fwdWriteFdb (dt : Nat) (e : CmdEntry)
  /-- R270: Commit that removes an FDB entry. -/
  | fwdDeleteFdb (dt : Nat) (e : CmdEntry)
  /-- R271: Long operation that scans the FDB and removes matching entries. -/
  | fwdFlushFdb (dt : Nat) (e : CmdEntry)
  /-- R271: The FDB flush scan reaches its end and the command completes with the count removed. -/
  | fdbFlushDone (dt : Nat) (ring tag : Nat)
  /-- R272: Command that writes an FDB entry to host memory. -/
  | fwdReadFdb (dt : Nat) (e : CmdEntry)
  /-- R273: Commit that sets a VLAN entry. -/
  | fwdSetVlan (dt : Nat) (e : CmdEntry)
  /-- R274: Commit that sets a port's PVID, learning, trust, class map and mirror sessions. -/
  | fwdSetPort (dt : Nat) (e : CmdEntry)
  /-- R275: Commit that sets a class-map set. -/
  | fwdSetClassMap (dt : Nat) (e : CmdEntry)
  /-- R276: Commit that sets a replication group's port mask. -/
  | fwdSetGroup (dt : Nat) (e : CmdEntry)
  /-- R277: Commit that configures an FRER stream. -/
  | fwdSetStream (dt : Nat) (e : CmdEntry)
  /-- R278: Commit that configures a mirror session. -/
  | fwdSetMirror (dt : Nat) (e : CmdEntry)
  /-- R279: Commit that enables, configures or disables a recorder region. -/
  | fwdSetRecorder (dt : Nat) (e : CmdEntry)
  /-- R280: Command that raises trigger 0 and completes when the region is FROZEN. -/
  | fwdFreezeRecorder (dt : Nat) (e : CmdEntry)
  /-- R281: Command that returns a region to RECORDING. -/
  | fwdRearmRecorder (dt : Nat) (e : CmdEntry)
  /-- R282: Long operation that copies recorder pages to host memory. -/
  | fwdReadRecorder (dt : Nat) (e : CmdEntry)
  /-- R267: The recorder readout ends and the region returns to FROZEN. -/
  | recorderReadDone (dt : Nat) (region : Nat)
  /-- R265: post_pages further pages are written and the region enters FROZEN. -/
  | recorderPostDone (dt : Nat) (region : Nat)
  /-- R244: The ager visits a dynamic FDB entry, clears its hit, ages it or removes it. -/
  | agerVisit (dt : Nat) (location : Nat)
  /-- R255: reset_ms passes with no frame passed and the stream sets take_any. -/
  | frerResetTimer (dt : Nat) (stream : Nat)
  /-- R316: Commit that sets an accounting point's admission settings. -/
  | bufSetAdmit (dt : Nat) (e : CmdEntry)
  /-- R317: Commit that sets a queue's spill and recall settings. -/
  | bufSetSpill (dt : Nat) (e : CmdEntry)
  /-- R312: Long operation that audits the free lists of both stores. -/
  | bufRollCall (dt : Nat) (e : CmdEntry)
  /-- R312: Roll call finishes its confirmation pass, writes its record and posts buf:rollcall_done. -/
  | rollCallDone (dt : Nat) (fs : List RollFinding)
  /-- R313: Commit that enters or leaves VOQ compatibility mode. -/
  | bufSetVoq (dt : Nat) (e : CmdEntry)
  /-- R299: DRC acknowledges a spilled page and its cells are released. -/
  | spillPageAck (dt : Nat) (queue : Nat)
  /-- R300: A recalled page returns and joins H in F order, and further recall may be fetched. -/
  | recallPageReturn (dt : Nat) (queue : Nat)
  /-- R364: A DRAM burst read returns and is decoded, corrected or reported uncorrectable. -/
  | dramReadReturn (dt : Nat) (at_ : BurstAt) (client : DrcClient) (r : EccOutcome)
  /-- R357: A bank's refresh interval passes and a refresh is issued, postponed or forced. -/
  | refreshDue (dt : Nat) (chan bank : Nat) (pending : Bool)
  /-- R366: The scrubber's pace reaches the next burst and it reads and corrects it. -/
  | scrubRead (dt : Nat) (at_ : BurstAt) (r : EccOutcome)
  /-- R358: A stack crosses 85 °C or falls below 83 °C and its refresh rate changes. -/
  | stackTemperatureChange (dt : Nat) (stack temp : Nat)
  /-- R360: Start-up training ends, channels are mapped, stacks may go out of service and ready is set. -/
  | drcTrainingDone (dt : Nat) (ts : List LaneTrain)
  /-- R362: A source channel's retraining ends and the copy back begins, or it fails. -/
  | channelRetrainDone (dt : Nat) (stack slot : Nat) (ts : List LaneTrain)
  /-- R367: Post-package repair of a quarantined row completes and its page returns to the free list. -/
  | pprDone (dt : Nat) (chan bank row : Nat)
  /-- R362: Long operation that retrains a DRAM channel through a spare. -/
  | drcRetrainChannel (dt : Nat) (e : CmdEntry)
  /-- R370: Command that quarantines a page's row. -/
  | drcQuarantinePage (dt : Nat) (e : CmdEntry)
  /-- R371: Command that writes a stack's byte-lane eyes to host memory. -/
  | drcReadEyes (dt : Nat) (e : CmdEntry)
  /-- R395: Commit that sets envelope, thermal ceiling and maximum step. -/
  | govSetPolicy (dt : Nat) (e : CmdEntry)
  /-- R396: Commit that sets a quadrant's voltage bounds. -/
  | govSetVbound (dt : Nat) (e : CmdEntry)
  /-- R382: hold_bells consecutive low-energy bells pass and the ladder step falls by one. -/
  | govStepDescend (dt : Nat)
  /-- R376: The floor has exceeded the envelope at three consecutive bells and gov:floor_raised is posted. -/
  | floorMismatchHeld (dt : Nat)
  /-- R386: A junction reaches 120 °C; THERMTRIP_N falls and all processing stops. -/
  | thermalTrip (dt : Nat) (site : Nat)
  /-- R386: A quadrant's core current reaches its limit and gating and XOFF apply to it. -/
  | railCurrentLimit (dt : Nat) (quadrant amps : Nat)
  /-- R391: avs_us passes and each rail's target voltage is computed and moved towards. -/
  | avsEvaluation (dt : Nat) (targets : List Nat)
  /-- R393: A regulator fails three attempts and the AVS fault is set and posted. -/
  | avsTransactionFail (dt : Nat) (quadrant : Nat)
  /-- R475: Write to a write-once GOV_RAIL_LIMIT that locks it, or is ignored and audited once locked. -/
  | govRailLimitWrite (dt : Nat) (quadrant : Nat) (w : RegWrite)
  /-- R406: A doorbell write updates a ring's host index, clamped, and may arm its interrupt. -/
  | doorbellWrite (dt : Nat) (ring data : Nat) (posted : List (Nat × Nat))
  /-- R409: Write to HIF_RING_CTRL that starts or stops a ring. -/
  | ringCtrlWrite (dt : Nat) (ring : Nat) (w : RegWrite)
  /-- R410: A stopping ring's outstanding work is finished and it reaches OFF. -/
  | ringStopped (dt : Nat) (ring : Nat)
  /-- R412: A host memory read fails and the ring stops or the item fails. -/
  | ringReadError (dt : Nat) (ring : Nat) (item : ReadItem) (poisoned : Bool)
  /-- R415: The device fetches a command from the next eligible ring and runs steps 1 and 2. -/
  | commandFetch (dt : Nat) (ring : Nat) (raw : List Byte) (e : CmdEntry)
  /-- R441: A fetched command passes steps 3 to 9 and is accepted or completes with a failure status. -/
  | commandAccept (dt : Nat) (ring : Nat)
  /-- R425: The device fetches a TX descriptor and reads its frame into the near store. -/
  | txDescriptorFetch (dt : Nat) (ring : Nat) (raw : List Byte) (data : List Byte)
  /-- R425: A read TX frame is admitted and enqueued in ring order once its class is not in XOFF. -/
  | txDispatch (dt : Nat) (ring : Nat)
  /-- R431: An entry comes free in an event ring after losses and hif:events_lost is written. -/
  | eventsLostRecord (dt : Nat) (ring : Nat)
  /-- R432: An armed ring meets its moderation count or time and raises its vector. -/
  | msixRaise (dt : Nat) (ring : Nat)
  /-- R420: 1 ms passes and a long operation's progress entry updates and an interim completion is written. -/
  | longOpInterim (dt : Nat) (ring tag pos : Nat)
  /-- R434: A function-level reset restarts the host interface and moves items into the reset ledger. -/
  | flr (dt : Nat)
  /-- R433: Entry to D3hot acts on the host interface as an FLR. -/
  | d3hotEntry (dt : Nat)
  /-- R435: An FLR ends, configuration is answered again and hif:flr_done is posted. -/
  | flrDone (dt : Nat)
  /-- R435: The ledger ring is RUNNING and the reset ledger is written to it. -/
  | ledgerWrite (dt : Nat)
  /-- R437: The PCI Express link's generation or width changes. -/
  | pcieLinkChanged (dt : Nat) (gen width : Nat)
  /-- R449: Command that writes the device record or reports a command's state. -/
  | glbQuery (dt : Nat) (e : CmdEntry)
  /-- R450: Commit that flips the counter banks at its bell. -/
  | glbSnapshot (dt : Nat) (e : CmdEntry)
  /-- R451: Command that waits for earlier commands in its scope to complete. -/
  | glbBarrier (dt : Nat) (e : CmdEntry)
  /-- R451: The last awaited command completes and the barrier completes. -/
  | barrierRelease (dt : Nat) (ring tag : Nat)
  /-- R452: Command that holds or releases a long operation. -/
  | glbHoldOp (dt : Nat) (e : CmdEntry)
  /-- R453: Command that aborts a target command where allowed. -/
  | glbAbort (dt : Nat) (e : CmdEntry)
  /-- R464: Write to a BAR0 register without a row of its own, through an alias, applied to its RW fields with clamping. -/
  | registerWrite (dt : Nat) (addr len : Nat) (data : Nat) (poisoned : Bool)
  /-- R466: Full-dword direct read of a _LO register that latches its _HI partner. -/
  | loRegisterRead (dt : Nat) (addr : Nat)
  /-- R481: Keyed write to GLB_RESET_CTRL that starts a warm reset. -/
  | glbResetCtrlWrite (dt : Nat) (w : RegWrite)
  /-- R592: A warm reset stops the module, discards frames, aborts commands and restarts from phase 0. -/
  | warmReset (dt : Nat) (cause : Nat)
  /-- R493: Commit that configures a threshold monitor. -/
  | cntSetMonitor (dt : Nat) (e : CmdEntry)
  /-- R495: Commit that configures an event counter. -/
  | cntSetEventCounter (dt : Nat) (e : CmdEntry)
  /-- R498: Command that enables or disables a BAR4 counter window. -/
  | cntSetWindow (dt : Nat) (e : CmdEntry)
  /-- R503: Command that writes counter values and marks to host memory. -/
  | cntReadCounters (dt : Nat) (e : CmdEntry)
  /-- R488: BEL_SEQ reaches a multiple of auto_bells and the counter banks flip. -/
  | autoSnapshot (dt : Nat)
  /-- R507: A wear monitor's evaluation falls due and the unit's wear level may change. -/
  | wearEvaluation (dt : Nat) (kind unit value : Nat)
  /-- R509: At the next bell after a unit reaches level 2 under automatic policy, a substitution starts. -/
  | autoSubstitutionStart (dt : Nat) (kind unit : Nat)
  /-- R523: Command that sets a monitor kind's report and act thresholds. -/
  | subSetThreshold (dt : Nat) (e : CmdEntry)
  /-- R524: Command that sets substitution policies per unit kind. -/
  | subSetPolicy (dt : Nat) (e : CmdEntry)
  /-- R525: Long operation that brings a spare unit in place of a unit in service. -/
  | subSubstitute (dt : Nat) (e : CmdEntry)
  /-- R513: A bank, table or pipeline copy writes its last location and the cut-over falls due. -/
  | subCopyDone (dt : Nat) (slot : Nat)
  /-- R516: Three consecutive matching frames show the partner bridging and the lane substitution reaches step 3. -/
  | subLaneAgreed (dt : Nat) (slot : Nat)
  /-- R517: agree_ms passes before agreement and the lane substitution fails. -/
  | agreeTimeout (dt : Nat) (slot : Nat)
  /-- R516: linger_ms after cut-over the bridge stops and the worn lane enters OFF. -/
  | lingerExpiry (dt : Nat) (lane : Nat)
  /-- R548: Command that trains the buddy link, identifies the buddy and reserves the shadow. -/
  | bdyPair (dt : Nat) (e : CmdEntry)
  /-- R549: Long operation that copies state to the buddy and brings both modules to PAIRED. -/
  | bdyRejoin (dt : Nat) (e : CmdEntry)
  /-- R550: Pair-wide commit that ends the pair. -/
  | bdyUnpair (dt : Nat) (e : CmdEntry)
  /-- R548: The buddy link is not up within link_ms and BDY.PAIR fails. -/
  | pairLinkTimeout (dt : Nat)
  /-- R529: All 16 buddy lane positions are in SYNC and deskewed and the link is up. -/
  | buddyLinkUp (dt : Nat) (b : BuddyId)
  /-- R529: A position is lost without substitute and the buddy link goes down. A number of 16 or more stands for the link as a whole:
  its deskew, or its bound on messages (R530). -/
  | buddyLinkDown (dt : Nat) (position : Nat)
  /-- R540: A link heartbeat with bell summary arrives from the buddy. -/
  | buddyHeartbeatRx (dt : Nat) (h : Heartbeat)
  /-- R541: An edge on BUDDY_BEAT_IN counts as a pin-path heartbeat. -/
  | buddyBeatEdge (dt : Nat)
  /-- R535: A journal record from the buddy is checked, stored and acknowledged, or refused. -/
  | journalRecordRx (dt : Nat) (r : JournalRecord)
  /-- R535: The buddy's acknowledgement accepts a journalled command with its stamp. -/
  | journalAckRx (dt : Nat) (a : JournalAck)
  /-- R537: A completion or fetch record from the buddy is stored and acknowledged. -/
  | completionRecordRx (dt : Nat) (r : BuddyRecord)
  /-- R537: The buddy stores a completion or fetch record and the completion is written or descriptors dispatched. -/
  | completionRecordAck (dt : Nat) (seq : Nat)
  /-- R533: A transit frame from the buddy is charged to the buddy-link point and enqueued. -/
  | buddyFrameRx (dt : Nat) (f : TransitFrame)
  /-- R531: Returned credit for a class arrives and waiting transit frames may be sent. -/
  | buddyCreditRx (dt : Nat) (cls cells : Nat)
  /-- R536: 1 µs after bell B+1 a paired module settles the commits of both modules for period B. -/
  | pairSettlement (dt : Nat)
  /-- R544: Three bells without link heartbeat while the pin path beats move a paired module to ISOLATED. -/
  | linkHeartbeatsMissed (dt : Nat)
  /-- R546: Three bells without any heartbeat make the survivor take over and enter SOLO. -/
  | takeOver (dt : Nat)
  /-- R547: Room in the take-over ring lets the survivor write report entries and ring marks. -/
  | takeoverReportWrite (dt : Nat)
  /-- R543: Link heartbeats at three consecutive bells return an ISOLATED module to LINKED. -/
  | isolatedHeartbeatsBack (dt : Nat)
  /-- R542: The buddy offset has exceeded 20 ns at three consecutive bells and bdy:bell_skew is posted. -/
  | buddySkewAlarm (dt : Nat)
  /-- R539: cfg_mismatch has been set at three consecutive bells and bdy:cfg_mismatch is posted. -/
  | cfgMismatchHeld (dt : Nat)
  /-- R549: The copy and backlog are applied and at the next bell both modules enter PAIRED. -/
  | rejoinCutover (dt : Nat)
  /-- R550: Copies queued for the buddy drain and the module enters OFF, completing BDY.UNPAIR. -/
  | unpairDrained (dt : Nat)
  /-- R573: Command that writes a signed transcript or the certificate chain. -/
  | prcGetTranscript (dt : Nat) (e : CmdEntry)
  /-- R567: Officer long operation that verifies and stages a firmware image. -/
  | prcUpdateFirmware (dt : Nat) (e : CmdEntry)
  /-- R567: The image is written and the bank marked active, and the update completes. -/
  | firmwareStaged (dt : Nat)
  /-- R567: 10 ms after an activating update completes the module resets with cause fw_update. -/
  | firmwareActivation (dt : Nat)
  /-- R578: Officer command that starts zeroization. -/
  | prcZeroize (dt : Nat) (e : CmdEntry)
  /-- R582: Command that writes the audit log records, signed when approved. -/
  | prcExportAudit (dt : Nat) (e : CmdEntry)
  /-- R577: Officer command that seals or releases configuration scopes. -/
  | prcSealConfig (dt : Nat) (e : CmdEntry)
  /-- R577: The seal image digest is compared and the seal takes hold or is refused. -/
  | sealDigestChecked (dt : Nat)
  /-- R574: Command that writes DRBG output or raw noise samples. -/
  | prcGetRandom (dt : Nat) (e : CmdEntry)
  /-- R570: Write to a PRC_OFFICER_KEY word that locks it and, at the sixteenth word, checks the key. -/
  | officerKeyWrite (dt : Nat) (word : Nat) (w : RegWrite)
  /-- R568: A repetition-count or adaptive-proportion test fails and the Proctor enters ERROR. -/
  | noiseHealthFail (dt : Nat) (test : Nat)
  /-- R578: ZEROIZE_N has been held low for 1 ms and zeroization starts. -/
  | zeroizeNQualified (dt : Nat)
  /-- R578: An erasure attempt ends; on verification the module cold-resets, otherwise it retries or halts. -/
  | zeroizeAttemptDone (dt : Nat) (verified : Bool)
  /-- R589: Supplies rise and the module starts with a cold reset of cause power_on. -/
  | powerOn (dt : Nat) (flashSel : Bool) (flash : List FlashImage)
  /-- R587: A low pulse on RESET_N causes a cold reset. -/
  | resetPin (dt : Nat) (flashSel : Bool) (flash : List FlashImage)
  /-- R588: A rail stays out of tolerance for over 10 µs and all processing stops. -/
  | railOutOfTolerance (dt : Nat) (rail : Nat)
  /-- R606: REFCLK_SYS or REFCLK_AUX is lost for over 10 µs and processing stops. -/
  | refclkLoss (dt : Nat) (aux : Bool)
  /-- R606: Loss of REFCLK_PCIE takes the PCI Express link down, acting as an FLR. -/
  | refclkPcieLoss (dt : Nat)
  /-- R606: A lost clock has been stable for 10 ms and the module starts with cause power_on. -/
  | clockRestored (dt : Nat)
  /-- R589: PERST_N low, a hot reset or link-down while RESET_N is high acts as an FLR. -/
  | perstAssert (dt : Nat)
  /-- R589: The management firmware watchdog runs 500 ms without service and a warm reset starts. -/
  | watchdogExpiry (dt : Nat)
  /-- R565: The boot ROM verifies a firmware bank and the start-up enters phase 2, or halts. The row names the bank, or
  says that none is valid. -/
  | firmwareVerified (dt : Nat) (bank : Nat) (good : Bool)
  /-- R568: Power-up self-tests finish, the Proctor state is set and start-up enters phase 3. -/
  | selftestsDone (dt : Nat) (failed : Nat) (ms : Nat)
  /-- R595: BIST and clearing finish, failed units are replaced or the module halts, and start-up enters phase 4. -/
  | memoryInitDone (dt : Nat) (failed : List (Nat × Nat))
  /-- R609: FLASH_SEL_N has been high for 1 ms after RESET_N rose and start-up leaves phase 0. -/
  | flashSelRelease (dt : Nat)
  /-- R594: In phase 0 the core PLLs lock and the core clock becomes stable, so the bells begin and start-up moves to phase 1, or the module halts with code 0x02. -/
  | coreClockStable (dt : Nat) (ok : Bool)
  /-- R545: In ISOLATED, BUF_HOLDDOWN expires for the copies queued for the buddy link; they are flushed under reason 3 and FDB entries naming the other module are removed. -/
  | isolatedHolddownExpiry (dt : Nat)
  /-- R99: Tw_sys_tx after an LPI transmitter starts to wake, it is active and sends the eligible frame. -/
  | lpiWakeComplete (dt : Nat) (port : Nat)
  /-- R99: The link partner enters or leaves low-power idle, and the receiver honours it, updating lpi_rx and counting mac_lpi_rx_entries. -/
  | rxLpiChange (dt : Nat) (port : Nat) (enter : Bool)
  /-- R154: A FlexE overhead frame is received on a FlexE port, updating overhead lock, RPF, group and PHY number check, calendar in use for reception and the CR/CA exchange. -/
  | flexeOverheadRx (dt : Nat) (port : Nat) (f : FlexeOh)
  /-- R578: The ZEROIZE_N contact changes level; PRC_STATUS.zeroize_low follows it and its 1 ms low or high qualification restarts. -/
  | zeroizeNChange (dt : Nat) (low : Bool)
  /-- R538: An FDB or shadow update from the buddy arrives over the buddy stream and is applied as an operation mirrored from the buddy or to the shadow. -/
  | buddyUpdateRx (dt : Nat) (u : BuddyUpdate)
  /-- R549: Rejoin data from the source arrives at the target and is built into its pair-wide state or the source's shadow. -/
  | rejoinDataRx (dt : Nat) (item : RejoinItem)
  /-- R534: A forwarded slot container of a protection copy arrives from the buddy and is written, stamped and validated in its protection ring. -/
  | buddyContainerRx (dt : Nat) (k : BuddyContainer)
  deriving DecidableEq, Repr

end Sys2Proof
end

