-- ==== Sys2Proof/Decode.lean ====
section
/-! DEFINITION. The table gives its rows no bits: no word spells a command. -/

namespace Sys2Proof

/-- The command that a word of the table's bits spells: none, since no row of the table states bits. Commands come in
ring entries (12 R414), as events on contacts and lines, and as register writes, which are operands here. -/
def decodeTableWord (_nbits _w : Nat) : Option Instr := none

end Sys2Proof
end

