-- ==== Sys2Proof/Machine/Bits.lean ====
section
/-! DEFINITION. Bit fields, clamps, sign extension and byte order, each in one place. -/

namespace Sys2Proof

/-- Bits hi down to lo of a number. -/
def bits (x hi lo : Nat) : Nat := (x >>> lo) % 2 ^ (hi + 1 - lo)

/-- One bit of a number. -/
def bit (x i : Nat) : Bool := (x >>> i) % 2 == 1

/-- A bit as a number. -/
def b2n (b : Bool) : Nat := if b then 1 else 0

/-- A value placed at bit lo, cut to its width. -/
def fld (v width lo : Nat) : Nat := (v % 2 ^ width) <<< lo

/-- The two's complement reading of a field of the given width. -/
def signed (width x : Nat) : Int := if x % 2 ^ width < 2 ^ (width - 1) then ((x % 2 ^ width : Nat) : Int) else ((x % 2 ^ width : Nat) : Int) - ((2 ^ width : Nat) : Int)

/-- A signed value as a two's complement field. -/
def twos (width : Nat) (x : Int) : Nat := (x % ((2 ^ width : Nat) : Int)).toNat

/-- Clamp to a range (13 R442). -/
def clamp (lo hi x : Nat) : Nat := if x < lo then lo else if hi < x then hi else x

/-- Clamp a signed value to a range. -/
def clampI (lo hi x : Int) : Int := if x < lo then lo else if hi < x then hi else x

/-- A count that stops at its highest value. -/
def satTo (hi x : Nat) : Nat := if hi < x then hi else x

/-- The least enumerated rule of 14 R470: a code not listed takes the highest listed code below it, or the lowest
listed code when none lies below. The codes are given in rising order. -/
def enumDown : List Nat → Nat → Nat
  | [], _ => 0
  | a :: r, x => r.foldl (fun acc c => if c ≤ x then c else acc) a

/-- Bytes of a number, least significant first. -/
def bytesLE : Nat → Nat → List Byte
  | 0, _ => []
  | n + 1, x => x % 256 :: bytesLE n (x / 256)

/-- Bytes of a number, most significant first. -/
def bytesBE (n x : Nat) : List Byte := (bytesLE n x).reverse

/-- The number whose bytes, least significant first, are listed. -/
def natLE : List Byte → Nat
  | [] => 0
  | b :: r => b % 256 + 256 * natLE r

/-- The number whose bytes, most significant first, are listed. -/
def natBE (bs : List Byte) : Nat := natLE bs.reverse

/-- The field at bits hi down to lo of the little-endian dword that starts at a byte offset of a command entry
(12 R414 and the layouts of the block chapters; offsets 16 to 63). -/
def CmdEntry.f (e : CmdEntry) (off hi lo : Nat) : Nat := bits (e.body >>> (8 * (off - 16))) hi lo

/-- One bit of a command entry. -/
def CmdEntry.b (e : CmdEntry) (off i : Nat) : Bool := bit (e.body >>> (8 * (off - 16))) i

/-- A signed field of a command entry. -/
def CmdEntry.i (e : CmdEntry) (off width : Nat) : Int := signed width (e.body >>> (8 * (off - 16)))

/-- Bytes of a command entry from an offset. -/
def CmdEntry.bytes (e : CmdEntry) (off n : Nat) : List Byte := bytesLE n (e.body >>> (8 * (off - 16)))

/-- The result that names a rejected field: its byte offset and its lowest bit (13 R443). -/
def rejField (off lo : Nat) : Nat := off + 256 * lo

/-- A condition that, holding, rejects or refuses with a result. -/
def failsIf (c : Bool) (r : Nat) : Option Nat := if c then some r else none

/-- Host address at byte 24, aligned down to 64 bytes. -/
def CmdEntry.addr (e : CmdEntry) : Nat := e.f 24 63 0 / 64 * 64

/-- A host address of 0 is rejected (13 R443). -/
def CmdEntry.needsAddr (e : CmdEntry) : Option Nat := failsIf (e.addr == 0) (rejField 24 0)

/-- Payload digest of the officer extension, bytes 24 to 55 (18 R571). -/
def CmdEntry.payload (e : CmdEntry) : List Byte := (e.extBytes.drop 24).take 32

/-- lo field of a shaper: signed bytes, clamped (09 R342). -/
def CmdEntry.loField (e : CmdEntry) : Int := clampI (-16777215) 0 (e.i 32 32)

/-- Quotient rounded down of a signed number. -/
def divFloor (a b : Int) : Int := Int.fdiv a b

/-- List element or a default. -/
def nth {α : Type} (l : List α) (i : Nat) (d : α) : α := l.getD i d

/-- Index of every element that satisfies a test. -/
def idxsOf {α : Type} (p : α → Bool) : List α → Nat → List Nat
  | [], _ => []
  | a :: r, i => if p a then i :: idxsOf p r (i + 1) else idxsOf p r (i + 1)

/-- Write bytes over a list at an offset, as far as the list reaches. -/
def setBytes (l : List Byte) (off : Nat) (bs : List Byte) : List Byte :=
  l.take off ++ (bs.take (l.length - off)) ++ l.drop (off + bs.length)

/-- n bytes of a list from an offset. -/
def subBytes (l : List Byte) (off n : Nat) : List Byte := (l.drop off).take n

/-- Decimal digits of a number, as characters: at most n of them. -/
def decDigits : Nat → Nat → List Byte
  | 0, _ => []
  | n + 1, x => if x < 10 then [48 + x] else decDigits n (x / 10) ++ [48 + x % 10]

/-- Bytes of a text. -/
def textBytes (s : String) : List Byte := s.toList.map fun c => c.toNat % 256

/-- Exclusive or of bytes. -/
def xorBytes (l : List Byte) : Nat := l.foldl (fun a b => Nat.xor a b) 0

/-- An upper-case hexadecimal digit. -/
def hexDigit (x : Nat) : Byte := if x < 10 then 48 + x else 55 + x

/-- Number of set bits among the low n bits. -/
def popcount : Nat → Nat → Nat
  | 0, _ => 0
  | n + 1, x => x % 2 + popcount n (x / 2)

/-- Set or clear one bit of a number. -/
def setBit (x i : Nat) (v : Bool) : Nat := if v then x ||| (1 <<< i) else if bit x i then x - (1 <<< i) else x

end Sys2Proof
end

