-- ==== Sys2Proof/Config.lean ====
section
/-! DEFINITION. What one module fixes at manufacture, and the values that the spec leaves open: constants without a body, of
which no proof can see more than the name. -/

namespace Sys2Proof.Config

/-- GLB_SERIAL, unique to each module and never 0 (14 R480). Free value. -/
opaque serialFree : Nat

/-- GLB_SERIAL as registers show it: 64 bits, never 0. -/
def serial : Nat := if serialFree % 2 ^ 64 = 0 then 1 else serialFree % 2 ^ 64

/-- GLB_ID.revision, 1 or higher (14 R480). Free value. -/
opaque revisionFree : Nat

/-- The revision field of GLB_ID: 8 bits, at least 1. -/
def revision : Nat := if revisionFree % 256 = 0 then 1 else revisionFree % 256

/-- Coefficients calibrated at manufacture (11 R377). Free values. -/
opaque coefPageFree : Nat
opaque coefByteFree : Nat

/-- GOV_COEF_PAGE, between 80 and 160 nJ (11 R377). -/
def coefPage : Nat := 80 + coefPageFree % 81

/-- GOV_COEF_BYTE, between 10 and 40 pJ (11 R377). -/
def coefByte : Nat := 10 + coefByteFree % 31

/-- fw_version and sec_version of the image the module ships with (20 R617). Free values. -/
opaque shippedVersion : Nat
opaque shippedSecFree : Nat

/-- The shipped image's security version, 0 to 64 (18 R565). -/
def shippedSec : Nat := shippedSecFree % 65

/-- The shipped image, header and body (18 R565). Free value. -/
opaque shippedImage : List Byte

/-- SM3 of a message (18 R561): its 32 bytes. A free value in place of the algorithm of GM/T 0004. -/
opaque sm3Free : List Byte → List Byte

/-- The first n elements, filled with zeros. -/
def padTo (n : Nat) (l : List Byte) : List Byte := (l ++ List.replicate n 0).take n

/-- SM3 of a message as 32 bytes. -/
def sm3 (m : List Byte) : List Byte := padTo 32 ((sm3Free m).map (· % 256))

/-- Verdicts of SM2 verification of a signature over a message under a public key (18 R561). Free value. -/
opaque sm2VerdictFree : (key message signature : List Byte) → Bool

/-- Some public key, as the 16 words of PRC_OFFICER_KEY, and for each message a signature under it. Free values. -/
opaque sm2SampleKey : List Nat
opaque sm2SampleFree : (message : List Byte) → List Byte

/-- The verdict of SM2 verification. Of its values only this much is known: under some key every message has a signature. -/
def sm2Verify (key message signature : List Byte) : Bool :=
  (key == (sm2SampleKey.flatMap fun w => bytesBE 4 w) && signature == padTo 64 (sm2SampleFree message)) || sm2VerdictFree key message signature

/-- An SM2 signature by the identity key over a message, with the per-signature value numbered (18 R561). Free value. -/
opaque sm2SignFree : (message : List Byte) → (k : Nat) → List Byte

/-- The 64 bytes of a signature. -/
def sm2Sign (m : List Byte) (k : Nat) : List Byte := padTo 64 ((sm2SignFree m k).map (· % 256))

/-- Whether a 64-byte public key is a point of the curve other than the point at infinity (18 R570). Free value. -/
opaque onCurve : List Byte → Bool

/-- The identity public key and the certificate chain (18 R564, R574). Free values. -/
opaque identityKeyFree : List Byte
opaque certChainFree : List Byte

/-- The 64 bytes of the identity public key. -/
def identityKey : List Byte := padTo 64 (identityKeyFree.map (· % 256))

/-- The certificate chain, at most 4,092 bytes (18 R574). -/
def certChain : List Byte := (certChainFree.map (· % 256)).take 4092

/-- SM3 of the boot ROM (18 R573). Free value. -/
opaque romDigestFree : List Byte

/-- The 32 bytes of the boot ROM's digest. -/
def romDigest : List Byte := padTo 32 (romDigestFree.map (· % 256))

/-- Vendor key digest in OTP (18 R565). Free value. -/
opaque vendorDigest : List Byte

/-- Output bytes of the DRBG and raw noise samples, by the number of the request (18 R569, R574). Free values. -/
opaque randomFree : (request index : Nat) → Nat
opaque noiseFree : (request index : Nat) → Nat

/-- Whether the write and the read-back of an image to the flash succeed, by the number of the update (18 R567). Free value. -/
opaque flashGood : Nat → Bool

/-- Minimum Tw_sys_tx in microseconds that IEEE 802.3 Clause 78 gives for a PHY: speed, kind and FEC (03 R118). Free value. -/
opaque minWake : (speed phy fec : Nat) → Nat

/-- Justification that a slot's transmitter picks from the fill of its source (04 R129): 0 none, 1 negative, 2 positive. Free value. -/
opaque justify : (fill : Nat) → Nat

/-- Blocks of a container slot whose source has none waiting (04 R129, 05 R169). Free value. -/
opaque idleBlock : Nat → Nat

/-- Total in KiB of pipeline state, or in entries of a table block, that a substitution copies (16 R456, R514). Free values. -/
opaque pipeTotal : Nat → Nat
opaque tableTotal : Nat → Nat

/-- Total in KiB of the mirrored state that a rejoin sends (13 R455). Free value. -/
opaque rejoinTotal : Nat → Nat

/-- Far-store page that a recorder writes, and whether its writer falls behind while a stack is in panic (07 R262, R263, 10 R355),
by region, page of its ring and device time. Free values. -/
opaque recorderPage : (region index time : Nat) → Nat
opaque recorderStalls : (region time : Nat) → Bool
/-- What a page of a recorder region holds before the region has written it (07 R282). -/
opaque staleByte : (region page index : Nat) → Nat

/-- Codes of outcomes in event records that no chapter lists, by event number and outcome (04 R163). Free values. -/
opaque outcomeCode : (event outcome : Nat) → Nat

/-- Far-store place of the units that a fault leaves unstated: a spare value for one open choice, by number. Free value. -/
opaque openValue : Nat → Nat

end Sys2Proof.Config
end

