-- ==== Sys2Proof/Machine/AMap.lean ====
section
/-! DEFINITION. Finite maps from numbers, kept as lists in rising key order: the form of every register array and table.
A key that is not listed holds the reset value that its reader names. -/

namespace Sys2Proof

/-- A map from keys to entries, in rising order of keys. -/
abbrev AMap (α : Type) := List (Nat × α)

/-- The entry at a key, if listed. -/
def AMap.find? {α : Type} : AMap α → Nat → Option α
  | [], _ => none
  | (k, v) :: r, i => if i = k then some v else AMap.find? r i

/-- The entry at a key, or the reset value. -/
def AMap.getD {α : Type} (m : AMap α) (i : Nat) (dflt : α) : α := (AMap.find? m i).getD dflt

/-- Write the entry at a key. -/
def AMap.set {α : Type} : AMap α → Nat → α → AMap α
  | [], i, v => [(i, v)]
  | (k, w) :: r, i, v =>
    if i < k then (i, v) :: (k, w) :: r
    else if i = k then (i, v) :: r
    else (k, w) :: AMap.set r i v

/-- Unlist a key, so that it reads as at reset. -/
def AMap.erase {α : Type} : AMap α → Nat → AMap α
  | [], _ => []
  | (k, w) :: r, i => if i = k then AMap.erase r i else (k, w) :: AMap.erase r i

/-- Change the entry at a key, starting from the reset value where it is not listed. -/
def AMap.upd {α : Type} (m : AMap α) (i : Nat) (dflt : α) (f : α → α) : AMap α :=
  AMap.set m i (f (AMap.getD m i dflt))

/-- Change the entry at a key that is listed. -/
def AMap.adjust {α : Type} (m : AMap α) (i : Nat) (f : α → α) : AMap α :=
  match AMap.find? m i with
  | some v => AMap.set m i (f v)
  | none => m

/-- Change every listed entry. -/
def AMap.mapV {α β : Type} (m : AMap α) (f : Nat → α → β) : AMap β := m.map (fun p => (p.1, f p.1 p.2))

/-- The keys in strictly rising order: the one form in which a map is written. -/
def AMap.rising {α : Type} : AMap α → Bool
  | [] => true
  | [_] => true
  | a :: b :: r => decide (a.1 < b.1) && AMap.rising (b :: r)

end Sys2Proof
end

