-- ==== Sys2Proof/Machine/Parts/Hif.lean ====
section
/-! DEFINITION. State of the host interface: rings, commands in flight, completions owed, the reset ledger (12). -/

namespace Sys2Proof.Machine

/-- Ring states (12 R409). -/
inductive RingState where
  | off | running | stopping
  deriving DecidableEq, Repr

/-- One ring, by its global index g (12 R403, R436). -/
structure Ring where
  /-- HIF_RING_BASE bits 63:12. -/
  base : Nat := 0
  sizeLog : Nat := 0
  cring : Nat := 0
  vector : Nat := 0
  user : Bool := false
  /-- HIF_RING_CTRL.en. -/
  en : Bool := false
  /-- A write with en 1 has been made since the ring last entered STOPPING, or since reset (12 R409). -/
  enWritten : Bool := false
  state : RingState := .off
  armed : Bool := false
  error : Bool := false
  hostIdx : Nat := 0
  devIdx : Nat := 0
  /-- The doorbell register, as last written. -/
  doorbell : Nat := 0
  /-- Base, size, binding, vector and user as read when the ring was enabled (12 R408). -/
  lBase : Nat := 0
  lSize : Nat := 0
  lCring : Nat := 0
  modCount : Nat := 1
  modTime : Nat := 0
  /-- Entries written since the last interrupt, and when the oldest was written (12 R432). -/
  unsignalled : Nat := 0
  oldest : Nat := 0
  /-- Events lost since the ring last took one (12 R431). -/
  lost : Nat := 0
  /-- Address and length in the entries of an RX ring, as the host last wrote them, by entry (12 R427). -/
  posted : AMap (Nat × Nat) := []
  /-- Host index of a TX ring when a port began to flush, by port: the entries before it that name the port end flushed (08 R308). -/
  flushMarks : AMap Nat := []
  /-- Fetching has ended at a failed entry (12 R412). -/
  fetchEnded : Bool := false
  deriving DecidableEq, Repr

/-- Where a command in flight stands (13 R449). -/
inductive CmdStage where
  /-- Fetched and not accepted. -/
  | fetched
  /-- Sent to the buddy, awaiting its acknowledgement (17 R535). -/
  | journalled
  /-- A commit accepted in the period opened by this BEL_SEQ. -/
  | accepted (seq : Nat)
  /-- A commit that won its claims, due at the bell of this BEL_SEQ. -/
  | won (due : Nat)
  /-- Waiting on a condition, or on a bell of its own rule. -/
  | waiting
  /-- A long operation. -/
  | long
  deriving DecidableEq, Repr

/-- One command in flight (12 R415). -/
structure Cmd where
  e : CmdEntry := {}
  op : Nat := 0
  stage : CmdStage := .fetched
  /-- Mirrored from the buddy (13 R445). -/
  mirrored : Bool := false
  /-- Completion ring bound to its command ring when it was fetched. -/
  cring : Nat := 0
  /-- Ring entry index it was fetched from. -/
  entry : Nat := 0
  /-- Order of acceptance, counting from reset. -/
  order : Nat := 0
  /-- When it was accepted. -/
  since : Nat := 0
  /-- The reservation that it makes at its bell does not fit (08 R286). -/
  noRoom : Bool := false
  /-- Position, total, progress window entry and hold of a long operation (12 R420, 13 R452). -/
  pos : Nat := 0
  total : Nat := 0
  prog : Nat := 0
  held : Bool := false
  /-- Entries that a flush has removed so far (07 R271). -/
  tally : Nat := 0
  /-- Its writes to host memory were stopped by an FLR (12 R434). -/
  flr : Bool := false
  /-- A barrier's awaited commands, by ring and tag, and how many they were at first (13 R451). -/
  waits : List (Nat × Nat) := []
  waited : Nat := 0
  deriving DecidableEq, Repr

/-- One completion entry (12 R417), before its bell and phase fields. -/
structure Compl where
  op : Nat := 0
  tag : Nat := 0
  kind : Nat := 0
  status : Nat := 0
  ring : Nat := 0
  module : Nat := 0
  result : Nat := 0
  cookie : Nat := 0
  value : Nat := 0
  index : Nat := 0
  ledger : Bool := false
  deriving DecidableEq, Repr

/-- Progress of one TX descriptor. -/
inductive TxStage where
  | read | dispatched
  deriving DecidableEq, Repr

/-- One TX descriptor in flight (12 R422, R425). -/
structure TxDesc where
  ring : Nat := 0
  index : Nat := 0
  mode : Nat := 0
  cls : Nat := 0
  ts : Bool := false
  onestep : Bool := false
  /-- The port lies on the buddy module. -/
  module : Bool := false
  port : Nat := 0
  cookie : Nat := 0
  /-- Frame from the destination address, padded, without FCS. -/
  data : List Byte := []
  stage : TxStage := .read
  deriving DecidableEq, Repr

/-- The host interface (12). -/
structure Hif where
  ledgerRing : Nat := 0
  /-- HIF_EVT_ROUTE[k]; entry 0 resets to all blocks. -/
  evtRoute : AMap Nat := []
  linkGen : Nat := 0
  linkWidth : Nat := 0
  rings : AMap Ring := []
  /-- Commands in flight, oldest first. -/
  inflight : List Cmd := []
  /-- Commands accepted since reset. -/
  accepted : Nat := 0
  /-- Progress window entry of each long operation: (tag, ring, bp, pos) by entry. -/
  prog : AMap (Nat × Nat × Nat × Nat) := []
  /-- TX descriptors in flight, oldest first. -/
  tx : List TxDesc := []
  /-- Entries that a full completion ring could not take yet, with the ring, oldest first. -/
  owed : List (Nat × Compl) := []
  /-- The reset ledger (12 R435). -/
  ledger : List Compl := []
  /-- The MSI-X table, sixteen bytes an entry as a number, and the pending bits (12 R402). -/
  msixTable : AMap Nat := []
  msixPending : List Nat := []
  /-- Local commands that have ended with ST_OK since the cold reset, in order: opcode and body. They are this module's local
  configuration as its buddy's shadow holds it (17 R538, R549). -/
  applied : List (Nat × Nat) := []
  /-- An FLR, D3hot entry or link-down is in progress (12 R433). -/
  flr : Bool := false
  deriving DecidableEq, Repr

end Sys2Proof.Machine
end

