-- ==== Sys2Proof/Machine/Parts/Bdy.lean ====
section
/-! DEFINITION. State of the buddy pair (17) and of the Proctor (18). -/

namespace Sys2Proof.Machine

/-- Pair states (17 R543). -/
inductive PairState where
  | off | linking | linked | syncing | paired | isolated | solo
  deriving DecidableEq, Repr

/-- One buddy lane (17 R528, R552). -/
structure BuddyLane where
  /-- Lane position; 31 none. -/
  position : Nat := 31
  deriving DecidableEq, Repr

/-- A record of the buddy that this module holds (17 R535). -/
structure HeldRecord where
  opcode : Nat := 0
  entry : CmdEntry := {}
  index : Nat := 0
  seq : Nat := 0
  /-- BEL_SEQ of the bell that opened the period in which it was stored. -/
  stamp : Nat := 0
  /-- How the mirrored command ended here: 0 not yet, else one more than its status. -/
  fate : Nat := 0
  deriving DecidableEq, Repr

/-- A record of this module that waits for the buddy to store it (17 R537). -/
inductive OwnRecord where
  /-- A final completion, held back until stored: sequence, completion ring, completion. -/
  | completion (seq ring : Nat) (c : Compl)
  /-- A TX ring's new fetch index. -/
  | fetch (seq ring index : Nat)
  deriving DecidableEq, Repr

/-- A rejoin in progress (17 R549). -/
structure Rejoin where
  /-- This module is the source; its command then stands in ring and tag. -/
  source : Bool := true
  ring : Nat := 0
  tag : Nat := 0
  restoreLocal : Bool := false
  /-- The start bell has rung. -/
  started : Bool := false
  /-- FDB keys that a live update has changed since the start bell. -/
  liveKeys : List Nat := []
  /-- Local commands received for the cut-over, in order of application: opcode and body. -/
  restore : List (Nat × Nat) := []
  deriving DecidableEq, Repr

/-- A pairing in progress (17 R548). -/
structure Pairing where
  ring : Nat := 0
  tag : Nat := 0
  previous : PairState := .off
  prevIndex : Nat := 0
  deadline : Nat := 0
  peerSerial : Nat := 0
  deriving DecidableEq, Repr

/-- A copy queued for the buddy link (17 R533): the stored frame, its class, destination and period. -/
structure BuddyCopy where
  frame : Nat := 0
  cls : Nat := 0
  dest : Nat := 0
  isGroup : Bool := false
  stream : Option Nat := none
  /-- Bytes of the copy. -/
  data : List Byte := []
  periodTai : Nat := 0
  /-- It comes from a TX descriptor: one-step insertion is asked for. -/
  onestep : Bool := false
  deriving DecidableEq, Repr

/-- The buddy block (17 R552). -/
structure Bdy where
  takeoverRing : Nat := 0
  timeFollow : Bool := false
  beatEn : Bool := true
  state : PairState := .off
  index : Nat := 0
  authority : Bool := false
  linkUp : Bool := false
  beatSeen : Bool := false
  /-- A link heartbeat has arrived since the last bell. -/
  linkSeen : Bool := false
  skewBells : Nat := 0
  skewPosted : Bool := false
  cfgMismatch : Bool := false
  cfgBells : Nat := 0
  cfgPosted : Bool := false
  /-- The registers that the last bdy:cfg_mismatch named. -/
  cfgSet : Nat := 0
  reportPending : Bool := false
  peerSerial : Nat := 0
  /-- R542, in 0.25 ns. -/
  offset : Int := 0
  delay : Int := 0
  linkMissed : Nat := 0
  missed : Nat := 0
  /-- Consecutive bells with a link heartbeat while ISOLATED. -/
  backBells : Nat := 0
  lanes : AMap BuddyLane := []
  /-- Credit per class (17 R531). -/
  credit : AMap Nat := []
  /-- Credit not yet returned to the buddy, per class (08 R292). -/
  creditOwed : AMap Nat := []
  /-- Sequence of the next record sent. -/
  nextSeq : Nat := 1
  /-- Highest sequence of a record stored from the buddy (17 R540). -/
  lastStored : Nat := 0
  /-- BEL_SEQ of the last bell at which heartbeats were counted (17 R544). -/
  countedFor : Option Nat := none
  own : List OwnRecord := []
  held : List HeldRecord := []
  /-- Completion records of the buddy stored here: sequence and completion, oldest first. -/
  stored : List (Nat × Compl) := []
  /-- Stored fetch index of each TX ring of the buddy. -/
  fetchIdx : AMap Nat := []
  /-- Descriptors of the buddy fetched and not completed: ring and entry index, oldest first. -/
  txOpen : List (Nat × Nat) := []
  /-- One past the entry index of the last record stored, per command ring of the buddy. -/
  cmdMark : AMap Nat := []
  /-- FDB keys that operations mirrored from the buddy have changed: BEL_SEQ of the period, and the key (13 R445). -/
  hwKeys : List (Nat × Nat) := []
  /-- Sequence of this module's last completion record whose completion has been written. -/
  writtenMark : Nat := 0
  summary : Option Heartbeat := none
  /-- Times at which the own heartbeat last left, and the one before it. -/
  sentAt : Nat := 0
  sentPrev : Nat := 0
  /-- The buddy's local configuration: opcode and command body, in order of application. -/
  shadow : List (Nat × Nat) := []
  pairing : Option Pairing := none
  rejoin : Option Rejoin := none
  unpairing : Option (Nat × Nat) := none
  unpairDraining : Bool := false
  /-- Copies queued for the buddy link, oldest first, and the slots forwarded to it. -/
  txq : List BuddyCopy := []
  /-- Class of 0 to 11 that the round robin of transit frames served last (17 R531). -/
  rr : Nat := 11
  /-- End of the hold-down of the copies queued for the link in ISOLATED. -/
  holdUntil : Nat := 0
  /-- Report entries still to be written (17 R547), each with whether its outcome is awaited, and how many have been. -/
  report : List (Compl × Bool) := []
  reported : Nat := 0
  echoes : Nat := 0
  /-- The far-store pages of the shadow are reserved (17 R538). -/
  shadowReserved : Bool := false
  deriving DecidableEq, Repr

/-- Proctor states (18 R562). -/
inductive PrcState where
  | boot | selftest | operational | error | zeroizing | zeroized
  deriving DecidableEq, Repr

/-- One audit record (18 R580). -/
structure AuditRec where
  seq : Nat := 0
  code : Nat := 0
  count : Nat := 1
  time : Nat := 0
  bellSeq : Nat := 0
  arg0 : Nat := 0
  arg1 : Nat := 0
  deriving DecidableEq, Repr

/-- A firmware bank: whether it is valid, its header's versions, and the image (18 R565). -/
structure FwBank where
  valid : Bool := true
  version : Nat := 0
  secVersion : Nat := 0
  image : List Byte := []
  deriving DecidableEq, Repr

/-- Bank A as the module ships (20 R617). -/
def shippedBank : FwBank := { version := Config.shippedVersion % 2 ^ 32, secVersion := Config.shippedSec, image := Config.shippedImage }

/-- An update in progress (18 R567). -/
structure FwUpdate where
  ring : Nat := 0
  tag : Nat := 0
  activate : Bool := false
  version : Nat := 0
  secVersion : Nat := 0
  image : List Byte := []
  deriving DecidableEq, Repr

/-- A seal being computed (18 R577). -/
structure SealPending where
  ring : Nat := 0
  tag : Nat := 0
  scope : Nat := 0
  payload : List Byte := []
  /-- BEL_SEQ of the bell after which the image is computed. -/
  due : Nat := 0
  /-- Digest of the image, once computed. -/
  computed : Option (List Byte) := none
  deriving DecidableEq, Repr

/-- A zeroization in progress (18 R578). -/
structure Zeroizing where
  /-- The contact began it, not a command. -/
  contact : Bool := false
  /-- Rings and tags of the commands that await its end. -/
  commands : List (Nat × Nat) := []
  /-- Proctor state when it began, as its code. -/
  began : Nat := 0
  attempts : Nat := 0
  deriving DecidableEq, Repr

/-- The Proctor (18 R583). -/
structure Prc where
  state : PrcState := .boot
  /-- Officer key words and which of them are locked (persistent). -/
  key : List Nat := [0, 0, 0, 0, 0, 0, 0, 0, 0, 0, 0, 0, 0, 0, 0, 0]
  keyLocks : Nat := 0
  /-- 0 none, 1 partial, 2 valid, 3 invalid. -/
  keyState : Nat := 0
  sealed : Nat := 0
  sealDigest : List Byte := []
  /-- Seals being set, oldest first. -/
  sealing : List SealPending := []
  update : Option FwUpdate := none
  /-- Versions of the image that waits for the next reset. -/
  staged : Option (Nat × Nat) := none
  /-- Time of the reset that an activating update has ordered (18 R567). -/
  activateAt : Option Nat := none
  bank : Nat := 0
  /-- Bank marked active for the next boot. -/
  activeBank : Nat := 0
  bankA : FwBank := shippedBank
  bankB : FwBank := { valid := false }
  identity : Bool := true
  zeroizeLow : Bool := false
  /-- Since when ZEROIZE_N has been high; it must be high for 1 ms before it can qualify again. -/
  zeroizeArmed : Bool := true
  zeroizeSince : Nat := 0
  passed : Nat := 0
  failed : Nat := 0
  powerUpMs : Nat := 0
  rollback : Nat := Config.shippedSec
  running : Nat := 0
  /-- Held audit records, oldest first, at most 1,024. -/
  audit : List AuditRec := []
  auditNext : Nat := 0
  /-- Registers and opcodes audited in the current period: key and index of the record (14 R476, 18 R581). -/
  folded : List (Nat × Nat) := []
  officerSeq : Nat := 0
  zeroizing : Option Zeroizing := none
  /-- Generate requests made since the last reseed and in all (18 R569). -/
  generated : Nat := 0
  deriving DecidableEq, Repr

end Sys2Proof.Machine
end

