-- ==== Sys2Proof/Machine/Parts/Bel.lean ====
section
/-! DEFINITION. State of the bell block (01) and of network time (02). -/

namespace Sys2Proof.Machine

/-- Bell state of one port: passing window and budgets (01 R30 to R33). -/
structure BelPort where
  /-- Passing window W in ns (BEL_PASS). -/
  pass : Nat := 0
  /-- W in force at the bell that opened the current period (01 R33). -/
  passOpen : Nat := 0
  /-- W in force at the bell before that one. -/
  passPrev : Nat := 0
  /-- Budgets of classes 12, 13, 14 and the class 15 reserve, in wire bytes. -/
  b12 : Nat := 0
  b13 : Nat := 0
  b14 : Nat := 0
  b15 : Nat := 0
  deriving DecidableEq, Repr

/-- A pending period change (01 R23 to R25). -/
structure PendPeriod where
  period : Nat := 0
  epoch : Nat := 0
  tai : Nat := 0
  ring : Nat := 0
  tag : Nat := 0
  deriving DecidableEq, Repr

/-- The bell block (01 R16 to R47). -/
structure Bel where
  slew : Nat := 4
  guard : Nat := 16
  stepEn : Bool := true
  stepThresh : Nat := 1000
  overrun : Bool := false
  period : Nat := 10000
  epoch : Nat := 0
  pend : Option PendPeriod := none
  seq : Nat := 0
  lastTai : Nat := 0
  /-- BEL_PHASE_ERR in 0.25 ns. -/
  phaseErr : Int := 0
  /-- BEL_LAST_LEN in ns. -/
  lastLen : Nat := 10000
  /-- Device time of the last bell instant and of the next one, in 0.25 ns. -/
  lastAt : Nat := 0
  nextAt : Nat := 40000
  /-- Device time of the bell before the last one. -/
  prevAt : Nat := 0
  /-- A REALIGN step is being made in the period under way (01 R45). -/
  realigning : Bool := false
  /-- Source that BEL_STATUS last showed (01 R67 through 02 R67). -/
  source : Nat := 0
  /-- The guard after the last bell is running (01 R36). -/
  guarding : Bool := false
  ports : AMap BelPort := []
  deriving DecidableEq, Repr

/-- Servo states (02 R65). -/
inductive ServoState where
  | freerun | acquiring | locked | holdover
  deriving DecidableEq, Repr

/-- The servo (02 R63 to R68). Rates are in 2^-28 ppb, offsets in 2^-16 ns. -/
structure Servo where
  state : ServoState := .freerun
  hostHoldover : Bool := false
  /-- A valid sample has come since the selection or the last timeout (02 R65). -/
  sourceValid : Bool := false
  everLocked : Bool := false
  srcKind : Nat := 0
  srcPort : Nat := 0
  parentClock : Nat := 0
  parentPort : Nat := 0
  integ : Int := 0
  f : Int := 0
  /-- f of the last 64 samples taken in LOCKED, newest first. -/
  history : List Int := []
  lockRun : Nat := 0
  unlockRun : Nat := 0
  regainRun : Nat := 0
  /-- Time of the last valid sample or of the selection, whichever is later. -/
  since : Nat := 0
  holdSince : Nat := 0
  /-- Step of the time base due at the next bell, in 0.25 ns (02 R66). -/
  pendingStep : Option Int := none
  /-- TIM_OFFSET and TIM_MEAN_DELAY, in 0.25 ns. -/
  offset : Int := 0
  meanDelay : Nat := 0
  deriving DecidableEq, Repr

/-- Parameters of TIM.SET_PORT that the receipt of a message depends on (02 R76). -/
structure TimCfg where
  role : Nat := 0
  p2p : Bool := false
  transport : Nat := 0
  asym : Int := 0
  deriving DecidableEq, Repr

/-- Time state of one port (02 R52 to R56, R75). -/
structure TimPort where
  role : Nat := 0
  p2p : Bool := false
  transport : Nat := 0
  twoStep : Bool := false
  logSync : Int := 0
  logDelayReq : Int := 0
  logPdelayReq : Int := 0
  /-- Cable asymmetry A in 0.25 ns. -/
  asym : Int := 0
  ingLat : Nat := 0
  egrLat : Nat := 0
  /-- partner_egr_q as given. -/
  partner : Nat := 0
  /-- The last delay samples, newest first, as twice the delay in 2^-16 ns. -/
  delays : List Int := []
  /-- The latest averaged D, in 2^-16 ns (02 R54). -/
  avgD : Option Int := none
  /-- Settings that a TIM.SET_PORT has replaced, each with the instant at which it ended, newest first (02 R76). -/
  past : List (Nat × TimCfg) := []
  /-- Instants at which the intervals of Sync, Delay_Req and Pdelay_Req last expired (02 R56). -/
  syncAt : Nat := 0
  delayReqAt : Nat := 0
  pdelayReqAt : Nat := 0
  /-- Value reported by the last tim:delay_changed, in 2^-16 ns (02 R54). -/
  reported : Option Int := none
  seqSync : Nat := 0
  seqDelayReq : Nat := 0
  seqPdelayReq : Nat := 0
  /-- t2 - t1 - corr of the last Sync, in 2^-16 ns. -/
  syncDiff : Option Int := none
  /-- sequenceId and transmit message time of the Delay_Req and the Pdelay_Req that await an answer. -/
  delayReq : Option (Nat × Nat) := none
  pdelayReq : Option (Nat × Nat) := none
  deriving DecidableEq, Repr

/-- Network time (02). -/
structure Tim where
  hwEn : Bool := false
  tcEn : Bool := false
  tcP2p : Bool := false
  profile : Nat := 0
  nonfwd : Bool := false
  hybrid : Bool := false
  domain : Nat := 0
  puntRing : Nat := 0
  clockLo : Nat := 0
  clockHi : Nat := 0
  utcOffset : Nat := 37
  utcValid : Bool := false
  leap61 : Bool := false
  leap59 : Bool := false
  kp : Nat := 0x8000
  ki : Nat := 0x0400
  lockNs : Nat := 20
  unlockNs : Nat := 100
  lockCount : Nat := 16
  unlockCount : Nat := 4
  regainCount : Nat := 8
  delayAvg : Nat := 16
  stepNs : Nat := 1000
  servoStepEn : Bool := true
  flim : Nat := 100000
  sampleTimeout : Nat := 1500
  holdoverLimit : Nat := 0
  servo : Servo := {}
  ppsOutEn : Bool := false
  ppsInEn : Bool := false
  ppsWidth : Nat := 100
  /-- TIM_PPS_OUT_OFS and TIM_PPS_IN_OFS in ns. -/
  ppsOutOfs : Int := 0
  ppsInOfs : Int := 0
  ppsInTs : Nat := 0
  /-- Instant of that edge on the time base in force (02 R73, R74). -/
  ppsInAt : Nat := 0
  /-- An edge has been stamped since PPS_IN was enabled, so that a missing one can be told (02 R73). -/
  ppsInSeen : Bool := false
  clk10m : Bool := false
  todTx : Bool := false
  todRx : Bool := false
  baud9600 : Bool := false
  /-- TAI seconds that the last accepted line gave for the last PPS_IN edge (02 R63, R74). -/
  todSeconds : Option Nat := none
  /-- The whole second that began at the last PPS_OUT rising edge, and its instant. -/
  ppsSecond : Nat := 0
  ppsRiseAt : Nat := 0
  syncState : Nat := 0
  syncLane : Nat := 0
  syncEn : Bool := false
  syncOption2 : Bool := false
  rclk0Lane : Nat := 0
  rclk0Freq : Nat := 0
  rclk1Lane : Nat := 0
  rclk1Freq : Nat := 0
  delayAlarm : Nat := 4
  ports : AMap TimPort := []
  deriving DecidableEq, Repr

end Sys2Proof.Machine
end

