-- ==== Sys2Proof/Machine/Parts/Out.lean ====
section
/-! DEFINITION. What the module sends to the outside world: writes of host memory, interrupts, frames, messages and levels. -/

namespace Sys2Proof.Machine

/-- The PTP messages the module forms (02 R56). -/
inductive PtpKind where
  | sync | delayReq | delayResp | pdelayReq | pdelayResp | followUp | pdelayRespFollowUp
  deriving DecidableEq, Repr

/-- One act of the module towards the outside world. -/
inductive Out where
  /-- Readout, transcript, log or frame data written to host memory (12 R400). -/
  | data (addr : Nat) (bytes : List Byte)
  /-- A 32-byte ring entry: global ring index, entry index mod N, and the entry as a little-endian number. -/
  | entry (ring index : Nat) (bytes : Nat)
  /-- An MSI-X vector raised (12 R432). -/
  | msix (vector : Nat)
  /-- A frame sent on a port, with FCS made bad on purpose or not, and its start reference. -/
  | frame (port : Nat) (bytes : List Byte) (stomped : Bool)
  /-- A PAUSE or PFC frame sent on a port: source address, and quanta of PAUSE or of the eight priorities (03 R102 to R106, R618). -/
  | flow (port sa : Nat) (pfc : Bool) (enable : Nat) (quanta : List Nat)
  /-- The answer to a coefficient request of a lane's partner that a pinned transmitter refuses: the status of a request that cannot be applied (03 R93). -/
  | coefficientRefused (lane : Nat)
  /-- The four overhead blocks of a Zuben frame begin to leave on a lane (04 R122, R123). -/
  | zubenHead (lane : Nat) (blocks : List Block)
  /-- The 20,480 payload blocks of the frame whose overhead left last on a lane have been sent (04 R128). -/
  | zubenPayload (lane : Nat) (blocks : List Block)
  /-- The blocks of a Zuben port's packet client that one frame of its lanes brought, in their order (04 R134). -/
  | client (port : Nat) (blocks : List Block)
  /-- A management frame sent on a lane (04 R153). -/
  | mgmt (lane : Nat) (content : List Byte)
  /-- FlexE overhead sent on a port (04 R154, R155). -/
  | flexe (port : Nat) (f : FlexeOh)
  /-- A time-of-day line (02 R74). -/
  | todLine (bytes : List Byte)
  /-- A regulator transaction of a quadrant's rail (11 R391). -/
  | avs (quadrant mv : Nat)
  /-- A frame to the buddy (17 R533): class, destination, and the frame. -/
  | buddyFrame (f : TransitFrame)
  /-- The container of a slot for the buddy's protection ring (17 R534): its blocks, and the slot's conditions as in 05 R177, bit 0
  slot SF, 1 slot SD, 2 slot TIM, 3 packet slot, 4 no Zuben port; bad says that the blocks are invalid. -/
  | buddyContainer (lane slot : Nat) (blocks : List Block) (bad : Bool) (cond : Nat)
  /-- A message to the buddy: its kind by name and its items in order (17 R535 to R549). -/
  | buddyMsg (kind : Nat) (items : List Nat)
  /-- A burst of the far store written or read for a client, or a refresh of a bank (10 R350, R357). -/
  | dram (refresh : Bool) (b : BurstAt)
  /-- The value that a read of a BAR0 dword returns (14 R466, R467). -/
  | readData (addr value : Nat)
  deriving DecidableEq, Repr

/-- One item of an event record, by its kind and width (13 R461). -/
inductive Item where
  | code (v : Nat)
  | index (v : Nat)
  | set (v : Nat)
  | value (v : Nat)
  | wide (v : Nat)
  | address (v : Nat)
  deriving DecidableEq, Repr

end Sys2Proof.Machine
end

