-- ==== Sys2Proof/Machine/Parts/Buf.lean ====
section
/-! DEFINITION. State of the stores, the queues and the scheduler (08, 09). -/

namespace Sys2Proof.Machine

/-- One pair of accounting point and class (08 R288 to R291). -/
structure Account where
  minCells : Nat := 0
  headroom : Nat := 0
  alphaExp : Int := 0
  xonGap : Nat := 64
  /-- Cells in use of each source. -/
  useMin : Nat := 0
  useShared : Nat := 0
  useHead : Nat := 0
  xoff : Bool := false
  deriving DecidableEq, Repr

/-- Where a stored frame's cells came from (08 R290). -/
inductive CellSource where
  | guaranteed | shared | headroom
  /-- Charged to no point: mirror copies, and frames the device originates. -/
  | own
  deriving DecidableEq, Repr

/-- Which mirror session a mirror copy belongs to, and what its record or descriptor says (07 R260 to R264). -/
structure MirrorTag where
  session : Nat := 0
  /-- Port at which the copy was taken, and the direction. -/
  port : Nat := 0
  egress : Bool := false
  cls : Nat := 0
  origLen : Nat := 0
  deriving DecidableEq, Repr

/-- A PTP message that the device forms: its kind, sequenceId, timestamp and correction in 2^-16 ns, and the port identity of the request
that it answers (02 R56 to R62). -/
structure PtpMsg where
  kind : PtpKind := .sync
  seq : Nat := 0
  ts : Nat := 0
  corr : Int := 0
  reqClock : Nat := 0
  reqPort : Nat := 0
  deriving DecidableEq, Repr

/-- One stored frame (08 R285, R289). -/
structure Frame where
  /-- Accounting point, as 13 R461 encodes it, and the class charged. -/
  point : Nat := 0
  cls : Nat := 0
  source : CellSource := .shared
  /-- Cells charged now. -/
  cells : Nat := 0
  /-- The frame from the destination address to before the FCS, as far as it is stored. -/
  data : List Byte := []
  /-- Ingress port and module, reference timestamp. -/
  ingress : Nat := 0
  sof : Nat := 0
  /-- The last byte has arrived, and the FCS proved bad after the frame began to leave. -/
  complete : Bool := true
  bad : Bool := false
  /-- Original copies not yet left or flushed, those of them that hold the near-store cells, and those that the buddy has and reports on
  (07 R249, 08 R301, 17 R533). A frame held for a decision counts as a copy until then. -/
  refs : Nat := 0
  holds : Nat := 0
  away : Nat := 0
  /-- Mirror copies waiting: session and cells of each; the session charged for cells that only they hold, with how many; and cells that the
  last original copy to hold any has given up (08 R289, R299). -/
  mirrors : List (Nat × Nat) := []
  owner : Option (Nat × Nat) := none
  given : Nat := 0
  /-- TX descriptor of a host frame: ring, entry index, cookie; ts and onestep asked. -/
  tx : Option (Nat × Nat × Nat) := none
  /-- Frame of the buddy that this one carries on for a TX descriptor there (17 R533). -/
  fate : Option Nat := none
  ts : Bool := false
  onestep : Bool := false
  /-- PTP message that the device formed (02 R56), sent as it leaves. -/
  ptp : Option PtpMsg := none
  /-- two_step of its port as its departure time was fixed (02 R76). -/
  twoStep : Bool := false
  /-- A copy has left; copies flushed; transmit message time of the copy (12 R426). -/
  sent : Bool := false
  flushed : Nat := 0
  txTime : Nat := 0
  deriving DecidableEq, Repr

/-- One copy of a stored frame in a queue. -/
structure Copy where
  frame : Nat := 0
  /-- Cells it occupies in a queue's segments. -/
  cells : Nat := 0
  len : Nat := 0
  /-- Data of this copy where it differs from the stored frame (FRER, truncation). -/
  data : Option (List Byte) := none
  mirror : Option MirrorTag := none
  /-- BEL_SEQ of the bell that opened the period it is assigned to (01 R33). -/
  period : Nat := 0
  /-- Its reference on the near-store cells has been given up (08 R301), or was never taken. -/
  spilled : Bool := false
  /-- It may leave before its frame is complete (09). -/
  cutThrough : Bool := true
  deriving DecidableEq, Repr

/-- A run of consecutive cells of one copy in a segment. -/
structure Run where
  copy : Copy := {}
  n : Nat := 0
  /-- The run ends the copy. -/
  last : Bool := true
  /-- Its cells came back from the far store and are charged to no point. -/
  recalled : Bool := false
  deriving DecidableEq, Repr

/-- One far-store page of a queue: its runs and whether DRC has acknowledged it (08 R299). -/
structure FarPage where
  /-- Page number (10 R348). -/
  page : Nat := 0
  runs : List Run := []
  acked : Bool := false
  /-- Recall has been asked of DRC, and the page has come back (08 R300). -/
  asked : Bool := false
  deriving DecidableEq, Repr

/-- One list page of a queue: its two copies, and which of them have failed (10 R349, R365). -/
structure ListPage where
  a : Nat := 0
  b : Nat := 0
  badA : Bool := false
  badB : Bool := false
  deriving DecidableEq, Repr

/-- Spill states (08 R298). -/
inductive SpillState where
  | near | spilling | recalling
  deriving DecidableEq, Repr

/-- One egress queue (08 R296 to R303, 01 R34, 09 R342). -/
structure Queue where
  h : List Run := []
  f : List FarPage := []
  t : List Run := []
  /-- List pages of F, and the word of the first of them that describes F's head (10 R349). -/
  lists : List ListPage := []
  listPos : Nat := 0
  state : SpillState := .near
  absorb : Bool := true
  /-- The absorb value in force for the pause under way (08 R317). -/
  absorbNow : Bool := true
  paused : Bool := false
  spillOn : Nat := 8192
  spillOff : Nat := 4096
  recallLo : Nat := 512
  farMax : Nat := 0
  /-- Cyclic bins by role, and the hold list (01 R34, 08 R307). -/
  recv : List Copy := []
  tran : List Copy := []
  pass : List Copy := []
  hold : List Copy := []
  /-- Wire bytes of the frames assigned to the period under way, and to the one before it (01 R32). -/
  binNow : Nat := 0
  binPrev : Nat := 0
  /-- Weight, shaper and credit (09 R341, R342); the credit in 1/32,000,000 byte, 1/125,000 of the unit of R333, so that no part of a rise is lost. -/
  weight : Nat := 16
  shaperEn : Bool := false
  idleReq : Nat := 0
  hi : Nat := 0
  lo : Int := -9299
  credit : Int := 0
  /-- Virtual start (09 R328). -/
  sched : Nat := 0
  deriving DecidableEq, Repr

/-- The copy on a port's line (09). -/
structure OnLine where
  cls : Nat := 0
  copy : Copy := {}
  start : Nat := 0
  /-- End of the frame with its gap on the wire. -/
  finish : Nat := 0
  deriving DecidableEq, Repr

/-- Scheduler state of one port (09 R341, R343). -/
structure SchPort where
  overhead : Int := 20
  refillNs : Nat := 64
  shaperEn : Bool := false
  idleReq : Nat := 0
  hi : Nat := 0
  lo : Int := -9299
  /-- As a queue's. -/
  credit : Int := 0
  /-- Virtual time of the fair queueing. -/
  vtime : Nat := 0
  lastRefill : Nat := 0
  line : Option OnLine := none
  /-- End of the last frame put on the line, and by how many 2^-20 of a unit of device time that end is rounded up. -/
  lineEnd : Nat := 0
  lineOver : Nat := 0
  /-- Mirror copies waiting, by class 0 to 11. -/
  mirrors : AMap (List Copy) := []
  /-- Round-robin position of VOQ service, by class (08 R314). -/
  rr : AMap Nat := []
  deriving DecidableEq, Repr

/-- The scheduler block (09). -/
structure Sch where
  ctEn : Bool := true
  ports : AMap SchPort := []
  deriving DecidableEq, Repr

/-- Roll call in progress (08 R310 to R312). -/
structure RollCall where
  ring : Nat := 0
  tag : Nat := 0
  near : Bool := true
  far : Bool := true
  reclaim : Bool := false
  addr : Nat := 0
  /-- BEL_SEQ of the start bell, and the cells and pages that were neither free nor reachable at it (08 R311). -/
  startSeq : Nat := 0
  cells : List Nat := []
  pages : List Nat := []
  deriving DecidableEq, Repr

/-- Hold-down of one port (08 R306). -/
structure HoldDown where
  expires : Nat := 0
  deriving DecidableEq, Repr

/-- The buffer block (08 R315). -/
structure Buf where
  holddown : Nat := 50
  farStop : Nat := 1048576
  voq : Bool := false
  voqMax : Nat := 0
  spillStopped : Bool := false
  /-- Far-store pages in service and free, before reservations are taken off the free ones. -/
  farTotal : Nat := 536870912
  farUsed : Nat := 0
  farReserved : Nat := 0
  /-- Cells and pages that are neither free nor reachable, among them pages that list failures have cut off, and those of them that a roll
  call returns at the next bell (10 R365, 08 R311). -/
  nearLeaks : List Nat := []
  farLeaks : List Nat := []
  cellsDue : List Nat := []
  pagesDue : List Nat := []
  /-- Cells recalled to the near store and charged to no point (08 R289). -/
  recalled : Nat := 0
  /-- Keyed by point times 16 plus class. -/
  accounts : AMap Account := []
  frames : AMap Frame := []
  nextFrame : Nat := 0
  /-- Keyed by port times 16 plus class. -/
  queues : AMap Queue := []
  /-- Virtual output queues, keyed by ingress times 2,048 plus egress times 8 plus class (08 R314). -/
  voqs : AMap (List Copy) := []
  holds : AMap HoldDown := []
  roll : Option RollCall := none
  hdrmPosted : Bool := false
  noCellPosted : Bool := false
  deriving DecidableEq, Repr

end Sys2Proof.Machine
end

