-- ==== Sys2Proof/Machine/Parts/Drc.lean ====
section
/-! DEFINITION. State of the far-store controller (10), of the energy governor (11) and of substitutes (16). -/

namespace Sys2Proof.Machine

/-- Physical channel states (10 R361). -/
inductive ChanState where
  | spare | service | source | target | retraining | failed
  deriving DecidableEq, Repr

/-- A client's request to a channel for bursts of one row: first to first + n - 1 (10 R350, R351). -/
structure DramReq where
  id : Nat := 0
  /-- Device time at which it entered its queue. -/
  at_ : Nat := 0
  /-- Rank of the client. -/
  rank : Nat := 0
  write : Bool := false
  bank : Nat := 0
  row : Nat := 0
  first : Nat := 0
  n : Nat := 0
  deriving DecidableEq, Repr

/-- One physical channel (10 R368). Channels 0 to 31 of a stack serve their own number at cold reset. -/
structure Chan where
  state : ChanState := .spare
  logical : Nat := 0
  /-- Correctable errors of the last completed scrub cycle and of the cycle under way. -/
  ceLast : Nat := 0
  ceNow : Nat := 0
  /-- Bursts that the scrubber has read in this cycle (10 R366). -/
  scrubbed : Nat := 0
  /-- Per row: correctable errors of the scrub cycle, keyed by bank times 32,768 plus row (10 R367). -/
  rowCe : AMap Nat := []
  /-- Quarantined and retired rows, same key, and spare rows used by bank. -/
  quarantined : List Nat := []
  retired : List Nat := []
  sparesUsed : AMap Nat := []
  /-- Owed refreshes of each bank, plus 8 so that none is negative. -/
  owed : AMap Nat := []
  /-- The read and the write queue, and requests refused for want of room (10 R351). -/
  reads : List DramReq := []
  writes : List DramReq := []
  waits : List DramReq := []
  /-- Row that each bank has open. -/
  openRow : AMap Nat := []
  /-- Drain mode (10 R352). -/
  drain : Bool := false
  /-- Banks in in-order mode, with the write that ends it (10 R353). -/
  inOrder : AMap Nat := []
  /-- Bursts written with check bits that report an error (10 R362), as row key times 64 plus burst. -/
  poison : List Nat := []
  /-- When each bank's next refresh is due (10 R357). -/
  refreshDue : AMap Nat := []
  /-- When the scrubber last read, and when by its even pace the next read is due, in 1/67,108,864 of a unit of device time (10 R366). -/
  scrubAt : Nat := 0
  scrubDue : Nat := 0
  /-- Logical channel whose dual writes outlast the cut-over away from this one (10 R362). -/
  lasting : Option Nat := none
  deriving DecidableEq, Repr

/-- One byte lane (10 R359, R368). -/
structure DramLane where
  wrDly : Nat := 0
  failed : Bool := false
  rdDly : Nat := 0
  wrWidth : Nat := 0
  rdWidth : Nat := 0
  deriving DecidableEq, Repr

/-- One retrain slot of a stack (10 R362, R368). -/
structure Retrain where
  phase : Nat := 0
  logical : Nat := 0
  source : Nat := 0
  target : Nat := 0
  permanent : Bool := false
  /-- Command that runs it; none for an automatic substitution. -/
  command : Option (Nat × Nat) := none
  /-- KiB copied; the copy of the present direction is whole. -/
  pos : Nat := 0
  copied : Bool := false
  /-- Aborted after the first cut-over (10 R363). -/
  aborted : Bool := false
  deriving DecidableEq, Repr

/-- One stack (10 R368). -/
structure Stack where
  temp : Nat := 0
  hot : Bool := false
  panic : Bool := false
  out : Bool := false
  prefetch : Nat := 0
  repaired : Nat := 0
  retired : Nat := 0
  deriving DecidableEq, Repr

/-- The far-store controller (10 R368). -/
structure Drc where
  scrubH : Nat := 24
  pprCe : Nat := 8
  pprEn : Bool := true
  wqHi : Nat := 48
  wqLo : Nat := 16
  panicLo : Nat := 16
  panicHi : Nat := 32
  ready : Bool := false
  training : Bool := false
  drainLimit : Nat := 0
  /-- Pages moved in this period under the drain limit (10 R356). -/
  drained : Nat := 0
  uePosted : Bool := false
  /-- Requests made to channels so far. -/
  asked : Nat := 0
  /-- Quarantined or retired pages that a recorder region or the buddy shadow holds. -/
  keptBad : List Nat := []
  /-- Rows in which the recorder readout under way has met a UE, as channel times 2^20 plus row key (10 R365). -/
  dmaRows : List Nat := []
  stackUnits : AMap Stack := []
  /-- Keyed by physical channel index i. -/
  chans : AMap Chan := []
  lanes : AMap DramLane := []
  /-- Keyed by stack times 2 plus slot. -/
  retrains : AMap Retrain := []
  deriving DecidableEq, Repr

/-- One quadrant (11 R386 to R393). -/
structure Quadrant where
  limit : Nat := 160
  mv : Nat := 720
  /-- Last voltage that the regulator acknowledged (11 R393). -/
  acked : Nat := 720
  amps : Nat := 0
  limited : Bool := false
  avsFault : Bool := false
  /-- Target of the last evaluation, before the host's bounds (11 R391, R392). -/
  want : Nat := 0
  vmin : Nat := 650
  vmax : Nat := 800
  /-- Consecutive evaluations with a lower target (11 R391). -/
  lowRun : Nat := 0
  deriving DecidableEq, Repr

/-- The governor (11 R394). Energies are in 1/256 microjoule. -/
structure Gov where
  holdBells : Nat := 16
  downPct : Nat := 10
  debtPeriods : Nat := 1
  envelope : Nat := 1200
  thermal : Nat := 95
  maxStep : Nat := 5
  step : Nat := 0
  hwThermal : Bool := false
  beHold : Bool := false
  /-- The best-effort XOFF was asserted at some time in the period under way (11 R381). -/
  held : Bool := false
  /-- Effective power, in 1/10000 W as the thermal limit. -/
  pEff : Nat := 12000000
  floor : Nat := 0
  tj : Nat := 0
  site : Nat := 0
  /-- Thermal limit in 1/10000 W. -/
  pThermal : Nat := 12000000
  allow : Nat := 3072000
  balance : Int := 0
  eCommitted : Nat := 0
  eElastic : Nat := 0
  eBackground : Nat := 0
  grant : Nat := 0
  beBudget : Nat := 0
  drainMin : Nat := 64
  conflict : Nat := 0
  thermStep : Nat := 10
  avsUs : Nat := 100
  stepMv : Nat := 5
  quads : AMap Quadrant := []
  /-- Best-effort bytes admitted in this period (11 R385). -/
  beBytes : Nat := 0
  /-- Energy forgiven below 1 microjoule, in 1/256 (11 R378). -/
  forgiven : Nat := 0
  /-- Device time of the last voltage evaluation (11 R391). -/
  avsAt : Nat := 0
  /-- Consecutive bells that count towards a descent (11 R382). -/
  lowBells : Nat := 0
  /-- Conflict causes and instances of the period under way (11 R388). -/
  conflictNow : Nat := 0
  conflicts : Nat := 0
  mmBells : Nat := 0
  mmPosted : Bool := false
  deriving DecidableEq, Repr

/-- Wear of one unit under one monitor kind (16 R507). -/
structure Wear where
  level : Nat := 0
  value : Int := 0
  worse : Nat := 0
  worseAct : Nat := 0
  better : Nat := 0
  /-- A reading has come since the last evaluation: eye margins, and the CEs of a scrub cycle (16 R506). -/
  fresh : Bool := false
  /-- When the unit was evaluated last. -/
  lastAt : Option Nat := none
  deriving DecidableEq, Repr

/-- One unit of banks, pipelines or table blocks (16 R522): 0 spare, 1 in service, 2 copying, 3 retired. -/
structure SpareUnit where
  state : Nat := 1
  logical : Nat := 0
  deriving DecidableEq, Repr

/-- Spare lane of a cluster (16 R522). -/
structure Cluster where
  spareState : Nat := 0
  replaces : Nat := 0
  /-- A bridge without a local substitution has been reported (16 R518). -/
  seen : Bool := false
  deriving DecidableEq, Repr

/-- One substitution slot (16 R511). -/
structure SubSlot where
  /-- The spare has been claimed. -/
  claimed : Bool := false
  kind : Nat := 0
  auto : Bool := false
  step : Nat := 0
  unit : Nat := 0
  spare : Nat := 0
  /-- Good frames in a row in which a spare lane gave what the worn lane gives (16 R516 step 3). -/
  matched : Nat := 0
  /-- A frame of the spare lane whose frame on the worn lane has not come yet: MFC, BIP8, and whether it was good. -/
  ahead : Option (Nat × Nat × Bool) := none
  pos : Nat := 0
  total : Nat := 0
  /-- TAI of the cut-over bell, and the time agreement was reached. -/
  target : Nat := 0
  agreedAt : Nat := 0
  deadline : Nat := 0
  command : Option (Nat × Nat) := none
  deriving DecidableEq, Repr

/-- The substitute block (16 R522). -/
structure Sub where
  persist : Nat := 3
  lingerMs : Nat := 100
  windowS : Nat := 3600
  policy : Nat := 0x555
  autoAgree : Nat := 10
  /-- Report and act thresholds of kinds 0 to 6. -/
  thresh : List (Nat × Nat) := [(150, 80), (100, 50), (64, 1024), (16, 256), (300, 500), (50, 100), (16, 256)]
  clusters : AMap Cluster := []
  banks : AMap SpareUnit := []
  pipes : AMap SpareUnit := []
  tables : AMap SpareUnit := []
  /-- Keyed by monitor kind times 4,096 plus unit. -/
  wear : AMap Wear := []
  slots : AMap SubSlot := []
  /-- Units that reached level 2 under automatic policy, by unit kind and unit: due at the next bell (16 R509). -/
  autoDue : List (Nat × Nat) := []
  /-- Lanes that still bridge after their cut-over, with the end of the linger. -/
  linger : AMap Nat := []
  deriving DecidableEq, Repr

/-- Contacts and supplies (19, 20 R607). -/
structure Pins where
  thermtripN : Bool := true
  buddyBeatOut : Bool := false
  ppsOut : Bool := false
  /-- FLASH_SEL_N was low when RESET_N rose, and has not yet been high for 1 ms (20 R609). -/
  flashSelHeld : Bool := false
  deriving DecidableEq, Repr

/-- What has stopped processing outside the start-up phases (11 R386, 19 R588, 20 R606, 18 R578). -/
inductive Stopped where
  | no | trip | supply | clock | erase
  deriving DecidableEq, Repr

/-- Reset and start-up (19). -/
structure Boot where
  /-- The start under way is a warm one. -/
  warm : Bool := false
  /-- A warm reset is under way, until phase 5 (14 R481). -/
  resetting : Bool := false
  stopped : Stopped := .no
  /-- Consecutive starts that the watchdog ended before phase 5 (19 R597). -/
  watchdogs : Nat := 0
  /-- Erasure must be repeated before phase 0 (18 R578). -/
  eraseFirst : Bool := false
  /-- Cause bit of a warm reset that has been asked for and has not yet been carried out (19 R589). -/
  warmDue : Option Nat := none
  /-- Rails that have been out of tolerance since the last start (19 R588, 20 R608). -/
  railsOut : List Nat := []
  /-- The core clock is stable: bells run. -/
  clockOn : Bool := false
  deriving DecidableEq, Repr

end Sys2Proof.Machine
end

