-- ==== Sys2Proof/Machine/Parts/Fwd.lean ====
section
/-! DEFINITION. State of forwarding, replication, mirroring and the recorder (07). -/

namespace Sys2Proof.Machine

/-- One FDB entry (07 R239). -/
structure FdbEntry where
  mac : Nat := 0
  fid : Nat := 0
  static : Bool := false
  group : Bool := false
  dest : Nat := 0
  module : Nat := 0
  stream : Nat := 0
  streamEn : Bool := false
  age : Nat := 0
  hit : Bool := false
  learned : Bool := false
  /-- Reference timestamp of the frame that taught it (07 R246). -/
  taught : Nat := 0
  /-- BEL_SEQ of the bell that opened the period in which it was learned or moved. -/
  period : Nat := 0
  deriving DecidableEq, Repr

/-- One VLAN entry (07 R235). The FID of an entry not listed is its VID. -/
structure Vlan where
  fid : Nat := 0
  learn : Bool := true
  flood : Nat := 0
  deriving DecidableEq, Repr

/-- Forwarding settings of one port (07 R268). -/
structure FwdPort where
  pvid : Nat := 1
  learn : Bool := true
  trust : Nat := 0
  mapSet : Nat := 0
  defClass : Nat := 0
  ingSession : Nat := 0
  ingEn : Bool := false
  egrSession : Nat := 0
  egrEn : Bool := false
  deriving DecidableEq, Repr

/-- One class-map set (07 R248): sixteen and sixty-four 4-bit classes as numbers. -/
structure ClassMap where
  pcpDei : Nat := 0xFFCCAA8866442200
  dscp : Nat := 0xFFFFFFFFCCCCCCCCAAAAAAAA8888888866666666444444442222222200000000
  deriving DecidableEq, Repr

/-- One replication group (07 R276): a mask of 1,024 ports, and replication on the buddy. -/
structure Group where
  mask : Nat := 0
  buddy : Bool := false
  deriving DecidableEq, Repr

/-- One FRER stream (07 R254, R268). -/
structure Stream where
  num : Nat := 0
  takeAny : Bool := true
  rcvEn : Bool := false
  genEn : Bool := false
  strip : Bool := false
  takeNoSeq : Bool := false
  histM1 : Nat := 1
  hist : Nat := 0
  resetMs : Nat := 1
  gen : Nat := 0
  /-- When a frame last passed, while the reset timer runs. -/
  passedAt : Option Nat := none
  deriving DecidableEq, Repr

/-- One mirror session (07 R278). -/
structure Mirror where
  en : Bool := false
  dir : Bool := false
  kind : Nat := 0
  target : Nat := 0
  cls : Nat := 0
  trunc : Nat := 0
  sample : Nat := 1
  /-- Frames seen since the last one copied. -/
  seen : Nat := 0
  quota : Nat := 1
  /-- Cells charged to the session, and cells that its waiting copies may come to hold (08 R289). -/
  cells : Nat := 0
  claims : Nat := 0
  deriving DecidableEq, Repr

/-- Recorder region states (07 R265). -/
inductive RecState where
  | off | recording | post | frozen | reading
  deriving DecidableEq, Repr

/-- One recorder region (07 R263 to R267). -/
structure Region where
  state : RecState := .off
  trigger : Nat := 0
  pages : Nat := 0
  postPages : Nat := 0
  trigMask : Nat := 0
  trigTime : Nat := 0
  trigSeq : Nat := 0
  /-- Pages written since enabled or rearmed; record number; copies discarded since the last record. -/
  pageSeq : Nat := 0
  recSeq : Nat := 0
  missed : Nat := 0
  /-- The page under way: its bytes after the header, and the offset of the first record that starts in it. -/
  cur : List Byte := []
  firstRec : Option Nat := none
  postLeft : Nat := 0
  /-- Pages written, by position in the ring. -/
  store : AMap (List Byte) := []
  /-- Commands that wait for FROZEN, and orders that wait for the end of a readout. -/
  freezeWait : List (Nat × Nat) := []
  rearmWait : List (Nat × Nat) := []
  disableWait : List (Nat × Nat) := []
  reader : Option (Nat × Nat) := none
  deriving DecidableEq, Repr

/-- A frame for an RX ring: the ring, its reason and aux, and the bytes as they stood then (12 R428, R429). -/
structure Punt where
  ring : Nat := 0
  reason : Nat := 0
  aux : Nat := 0
  data : List Byte := []
  deriving DecidableEq, Repr

/-- A mirror copy for a ring or a recorder, taken and not yet written, under the settings of its session at the decision (07 R238, R260). -/
structure MirrorOut where
  session : Nat := 0
  set : Mirror := {}
  port : Nat := 0
  egress : Bool := false
  cls : Nat := 0
  data : List Byte := []
  deriving DecidableEq, Repr

/-- What remains to be done with a frame whose color or whose recovery is known only at its end (06 R218, 07 R253): its
copy set, stream and ingress session as the state at its decision point gives them (07 R238). -/
structure FwdPlan where
  /-- Settings of the port and its class map. -/
  cfg : FwdPort := {}
  cmap : ClassMap := {}
  /-- Ports of this module, and the destination on the buddy with whether it is a group. -/
  ports : List Nat := []
  buddy : Option (Nat × Bool) := none
  stream : Option Nat := none
  /-- Settings of that stream, and whether recovery holds the frame. -/
  strm : Stream := {}
  recover : Bool := false
  /-- Ingress session with its settings, and those of the ports' egress sessions. -/
  ingress : Option (Nat × Mirror) := none
  egr : AMap (Nat × Mirror) := []
  /-- Rings for frames without a destination and for frames taken out of a stream. -/
  emptyRing : Nat := 0
  frerRing : Nat := 0
  /-- It is forwarded nowhere (02 R59). -/
  stay : Bool := false
  /-- Stored frame that waits for the decision. -/
  frame : Option Nat := none
  /-- Frame as re-marked, and its class, once its color is known. -/
  data : List Byte := []
  cls : Nat := 0
  deriving DecidableEq, Repr

/-- What was decided for the frame that a port is receiving, and waits for its last byte (01 R17, 03 R96). -/
structure RxFrame where
  head : FrameHead := {}
  /-- Period that its arrival belongs to as a cyclic frame (01 R33). -/
  period : Nat := 0
  /-- Maximum length that applies to it: the one in force as its first byte arrived (03 R119). -/
  limit : Nat := 9216
  /-- Stored frame whose copies are queued, and the stored frame of an ingress mirror copy for a port. -/
  frame : Option Nat := none
  mframe : Option Nat := none
  cls : Nat := 0
  /-- Deliveries to RX rings, once the frame proves good. -/
  punts : List Punt := []
  /-- Mirror copies for rings and recorders. -/
  mirrors : List MirrorOut := []
  /-- It may teach the FDB: FID (07 R242). -/
  learn : Option Nat := none
  /-- Flow counter and meter captured at the lookup (06 R210). -/
  flow : Option Nat := none
  meter : Option Nat := none
  /-- Length charged, and the mode and len_adj under which it was; none while the meter decision waits (06 R218). -/
  charged : Option (Nat × Nat × Int) := none
  /-- Color: 0 green, 1 yellow, 2 red. -/
  color : Nat := 0
  /-- Initial color is yellow (06 R217). -/
  preYellow : Bool := false
  /-- It was cut off for want of cells (08 R293). -/
  cut : Bool := false
  /-- Held until its end: what forwards it then. -/
  plan : Option FwdPlan := none
  deriving DecidableEq, Repr

/-- The forwarding block (07 R268). -/
structure Fwd where
  emptyRing : Nat := 0
  frerRing : Nat := 0
  age : Nat := 300
  /-- Ageing time of the sweep under way, when it began or would have begun without pauses, the location it visits next, and since when
  the background pool has been paused (07 R244). -/
  sweepAge : Nat := 300
  sweepAt : Nat := 0
  sweepPos : Nat := 0
  sweepHeld : Option Nat := none
  /-- Keyed by (bank times 65,536 plus bucket) times 4 plus entry. -/
  fdb : AMap FdbEntry := []
  /-- Learning allowance in units of 1/40 learn, and when it was last credited (07 R242). -/
  allowance : Nat := 163840
  allowAt : Nat := 0
  fullPosted : Bool := false
  movedPosted : Bool := false
  /-- FDB keys that a flush or a take-over has removed since the last bell (13 R446). -/
  flushedKeys : List Nat := []
  vlans : AMap Vlan := []
  ports : AMap FwdPort := []
  maps : AMap ClassMap := []
  groups : AMap Group := []
  streams : AMap Stream := []
  mirrors : AMap Mirror := []
  regions : AMap Region := []
  /-- The frame that each port is receiving. -/
  rx : AMap RxFrame := []
  deriving DecidableEq, Repr

/-- What reaches the module, or is taken up by it, in a core-clock cycle whose decisions have an order among ports and rings (06 R220, 07 R257,
08 R294). -/
inductive Arrival where
  | buddy (f : TransitFrame)
  | tx (ring : Nat)
  | head (h : FrameHead)
  | ending (r : FrameEnd)
  deriving DecidableEq, Repr

end Sys2Proof.Machine
end

