-- ==== Sys2Proof/Machine/Parts/Glb.lean ====
section
/-! DEFINITION. State of the GLB block and of the counter block (14 R480, 15 R485 to R499). -/

namespace Sys2Proof.Machine

/-- The three variants (00 R1). -/
inductive Part where
  | u1024 | u512 | u256
  deriving DecidableEq, Repr

/-- GLB registers and the register space's own state (14). -/
structure Glb where
  /-- The variant of this module (00 R1). -/
  part : Part := .u1024
  /-- GLB_BOOT_STATUS.phase: 0 to 6, or 15 halted. -/
  phase : Nat := 0
  hifReady : Bool := false
  haltCode : Nat := 0
  /-- GLB_RESET_CAUSE: one of bits 5:0, and bit 6 cold. Bit 7, after_trip, is kept apart. -/
  cause : Nat := 0x41
  afterTrip : Bool := false
  /-- GLB_RESET_COUNT.warm. -/
  warmCount : Nat := 0
  scratch : Nat := 0
  /-- The fw_version of the running image (18 R565). -/
  fwVersion : Nat := 0
  /-- Last value latched by a full-dword read of a _LO register, by its BAR0 offset (14 R466). -/
  latches : AMap Nat := []
  /-- GOV_RAIL_LIMIT locks taken (14 R475). -/
  railLocks : List Nat := []
  /-- Registers audited for a locked write in the current period, with the writes so far (14 R476). -/
  lockedWrites : AMap Nat := []
  deriving DecidableEq, Repr

/-- One threshold monitor (15 R491). -/
structure Monitor where
  en : Bool := false
  below : Bool := false
  kind : Nat := 0
  index : Nat := 0
  thresh : Nat := 0
  deriving DecidableEq, Repr

/-- One event counter's configuration (15 R494). -/
structure EvCounter where
  event : Nat := 0
  en : Bool := false
  filterEn : Bool := false
  filter : Nat := 0
  deriving DecidableEq, Repr

/-- One counter window (15 R496). -/
structure Window where
  en : Bool := false
  family : Nat := 0
  first : Nat := 0
  deriving DecidableEq, Repr

/-- The counter block (15). Counters are keyed by family times 2^32 plus value index. -/
structure Cnt where
  /-- CNT_CTRL.auto_bells. -/
  autoBells : Nat := 0
  snapSeq : Nat := 0
  live : AMap Nat := []
  frozen : AMap Nat := []
  /-- Overflow marks set in each bank. -/
  liveMarks : List Nat := []
  frozenMarks : List Nat := []
  monitors : AMap Monitor := []
  evcs : AMap EvCounter := []
  windows : AMap Window := []
  /-- A flip has already been made for this BEL_SEQ (AUTO_SNAPSHOT ahead of its bell). -/
  flippedFor : Nat := 0
  deriving DecidableEq, Repr

end Sys2Proof.Machine
end

