-- ==== Sys2Proof/Machine/Parts/Mac.lean ====
section
/-! DEFINITION. State of lanes and of ports (03). -/

namespace Sys2Proof.Machine

/-- Lane states (03 R91). -/
inductive LaneState where
  | off | waitSignal | an | train | adapt | lock | up
  deriving DecidableEq, Repr

/-- One lane by its lane index: 0 to 1023, and 1024 + c for spare lane c (03 R111). -/
structure Lane where
  rate : Nat := 0
  pam4 : Bool := false
  port : Nat := 0
  /-- 0 free, 1 port lane, 2 substitute. -/
  use : Nat := 0
  pinTx : Bool := false
  pinRx : Bool := false
  replaces : Nat := 0
  state : LaneState := .off
  /-- When the lane entered its state (03 R91). -/
  since : Nat := 0
  signal : Bool := false
  cdrLock : Bool := false
  blockLock : Bool := false
  lpiTx : Bool := false
  lpiRx : Bool := false
  vert : Nat := 0
  horiz : Nat := 0
  /-- When its eye was measured last; 0 not yet. -/
  eyeAt : Nat := 0
  /-- Transmitter taps (LNE_TAPS). -/
  pre2 : Int := 0
  pre1 : Int := 0
  main : Nat := 0
  post1 : Int := 0
  /-- A full adaptation runs in place (03 R92). -/
  adapting : Bool := false
  /-- A pinned side met, since the last bell, a cause of the conflict of 03 R94. -/
  pinConflict : Bool := false
  /-- The partner's Clause 73 advertisement lacks the configured mode (03 R110). -/
  lacksMode : Bool := false
  deriving DecidableEq, Repr

/-- The lane block (03 R111). -/
structure Lne where
  eyeMs : Nat := 10
  readaptMv : Nat := 12
  lanes : AMap Lane := []
  deriving DecidableEq, Repr

/-- Port states (03 R107). -/
inductive PortState where
  | absent | disabled | training | up | hold | flushing | draining | poweringDown
  deriving DecidableEq, Repr

/-- A request of MAC.SET_PORT_STATE that waits its turn (03 R109): ring, tag, and enable or disable. -/
structure PortRequest where
  ring : Nat := 0
  tag : Nat := 0
  enable : Bool := false
  /-- Already applied, waiting for the state it demands. -/
  applied : Bool := false
  deriving DecidableEq, Repr

/-- One port (03 R107 to R112, R618). -/
structure Port where
  state : PortState := .absent
  admin : Bool := false
  fcMode : Nat := 0
  lpiEn : Bool := false
  anEn : Bool := false
  speed : Nat := 0
  framing : Nat := 0
  fec : Nat := 0
  /-- 0 one, 1 two, 2 four, 3 eight lanes. -/
  lanes : Nat := 0
  phy : Nat := 0
  localFault : Bool := false
  remoteFault : Bool := false
  /-- When a fault last ended (03 R107). -/
  faultEnd : Nat := 0
  /-- Transmitter in LPI; waking, and since when it has been in LPI. -/
  lpiTx : Bool := false
  lpiWaking : Bool := false
  lpiSince : Nat := 0
  /-- When the transmitter started to wake. -/
  lpiWakeAt : Nat := 0
  lpiRx : Bool := false
  maxLen : Nat := 9216
  /-- The maximum length before the last MAC.SET_FRAME, and when that was accepted (03 R119). -/
  maxLenOld : Nat := 9216
  maxLenAt : Nat := 0
  /-- Class masks of priorities 0 to 7 (MAC_PFC_MAP). -/
  pfcMap : List Nat := [0x0003, 0x000C, 0x0030, 0x00C0, 0x0300, 0x0C00, 0x7000, 0x8000]
  pfcTx : Nat := 0xFFFF
  twUs : Nat := 0
  holdUs : Nat := 0
  sa : Nat := 0
  /-- End of the pause of each priority, and of PAUSE, by device time; 0 none (03 R104). -/
  pfcUntil : List Nat := [0, 0, 0, 0, 0, 0, 0, 0]
  pauseUntil : Nat := 0
  /-- Class masks under which the pause of each priority was taken (03 R117). -/
  pfcHeld : List Nat := [0, 0, 0, 0, 0, 0, 0, 0]
  /-- A PAUSE or PFC frame that 03 R102 does not act on came in this period, in the one before. -/
  fcBadNow : Bool := false
  fcBadPrev : Bool := false
  /-- Consecutive bells with the mismatch bit set; the event has been posted (03 R110). -/
  mmBells : Nat := 0
  mmPosted : Bool := false
  /-- Requests not yet complete, oldest first (03 R109). -/
  requests : List PortRequest := []
  /-- FLUSHING was entered on hold-down expiry (03 R107). -/
  flushFromHold : Bool := false
  /-- Classes whose XOFF this port has sent, and the priorities named in the last flow-control frame (03 R106). -/
  xoffSent : Nat := 0
  prioSent : Nat := 0
  flowDue : Bool := false
  /-- Start of the last flow-control frame sent. -/
  flowAt : Nat := 0
  /-- Copies and bytes released and FDB entries removed by the flush under way (08 R320). -/
  flushFrames : Nat := 0
  flushBytes : Nat := 0
  flushFdb : Nat := 0
  /-- The last frame of the port has left and nothing has been sent since this time (03 R99). -/
  idleSince : Nat := 0
  deriving DecidableEq, Repr

/-- The MAC block (03 R112). -/
structure Mac where
  ctrlPunt : Bool := false
  ports : AMap Port := []
  deriving DecidableEq, Repr

end Sys2Proof.Machine
end

