-- ==== Sys2Proof/Machine/Parts/Prs.lean ====
section
/-! DEFINITION. State of parser, rules and meters (06). -/

namespace Sys2Proof.Machine

/-- A parser profile (06 R202): header fields and the eight window words. -/
structure Profile where
  loaded : Bool := false
  l3Kind : Nat := 0
  windows : List Nat := [3, 3, 3, 3, 3, 3, 3, 3]
  deriving DecidableEq, Repr

/-- Port map of one generation (06 R201): profile by EtherType class, and dei_color. -/
structure PortMap where
  profiles : List Nat := [0, 0, 0, 0, 0, 0, 0, 0, 0, 0, 0, 0, 0, 0, 0, 0]
  deiColor : Bool := false
  deriving DecidableEq, Repr

/-- What is held once per generation, memberships apart (06 R209). -/
structure Generation where
  profiles : AMap Profile := [(0, { loaded := true })]
  maps : AMap PortMap := []
  /-- EtherTypes of classes 3 to 15; 0 unused. -/
  etypes : List Nat := [0, 0, 0, 0, 0, 0, 0, 0, 0, 0, 0, 0, 0]
  deriving DecidableEq, Repr

/-- One rule entry (06 R206, R209). Keys are numbers whose byte k is key byte k. -/
structure Rule where
  keyValue : Nat := 0
  keyMask : Nat := 0
  metaValue : Nat := 0
  metaMask : Nat := 0
  counter : Nat := 0
  countEn : Bool := false
  meter : Nat := 0
  meterEn : Bool := false
  priority : Nat := 0
  valid : Bool := false
  /-- Membership of the even and the odd generation. -/
  m0 : Bool := false
  m1 : Bool := false
  deriving DecidableEq, Repr

/-- One meter (06 R216, R221). Buckets are in 1/256 byte. -/
structure Meter where
  mode : Nat := 0
  colorAware : Bool := false
  yellowMark : Nat := 0
  yellowPcp : Nat := 0
  lenAdj : Int := 0
  cir : Nat := 800000000
  pir : Nat := 0
  cbs : Nat := 16777215
  ebs : Nat := 16777215
  tc : Int := 4294967040
  te : Int := 4294967040
  /-- Parts of a credit below 1/256 byte, in 1/50,000 of it, for the two rates. -/
  fracC : Nat := 0
  fracP : Nat := 0
  /-- Device time of the last credit. -/
  last : Nat := 0
  deriving DecidableEq, Repr

/-- The parser block (06 R222). -/
structure Prs where
  slowRing : Nat := 0
  tpidEn : Bool := false
  tpid : Nat := 0x9100
  gen : Nat := 0
  /-- A generation was flipped out at the last bell and retires at the next (06 R213). -/
  retiring : Bool := false
  even : Generation := {}
  odd : Generation := {}
  rules : AMap Rule := []
  meters : AMap Meter := []
  deriving DecidableEq, Repr

end Sys2Proof.Machine
end

