-- ==== Sys2Proof/Machine/Parts/Ttb.lean ====
section
/-! DEFINITION. State of the timetable and the slot plane (05). -/

namespace Sys2Proof.Machine

/-- One timetable page of a lane (05 R166, R167): slot entries by slot, seat entries by slot times 32 plus seat. -/
structure Page where
  slots : AMap Nat := []
  seats : AMap Nat := []
  deriving DecidableEq, Repr

/-- A TTB.SWITCH_PAGE accepted or armed (05 R174). -/
structure SwitchCmd where
  ring : Nat := 0
  tag : Nat := 0
  initiate : Bool := false
  armMs : Nat := 0
  target : Nat := 0
  /-- BEL_SEQ of the bell at which it arms. -/
  due : Nat := 0
  armed : Bool := false
  /-- End of the wait as responder. -/
  deadline : Nat := 0
  /-- The switch takes the partner's earlier tag (04 R139). -/
  partnerTag : Bool := false
  deriving DecidableEq, Repr

/-- Timetable state of one lane (05 R188). -/
structure TtbLane where
  pageA : Page := {}
  pageB : Page := {}
  /-- Active page: false A, true B. -/
  active : Bool := false
  switch : Option SwitchCmd := none
  rxMismatch : Nat := 0
  mmBells : Nat := 0
  mmPosted : Bool := false
  prdiTx : Nat := 0
  deriving DecidableEq, Repr

/-- A block in a protection ring, with its arrival time and validity mark (05 R181). -/
structure PBlock where
  /-- Its number, counting the blocks of its copy or line, and its container number (04 R130). -/
  no : Nat := 0
  cont : Nat := 0
  block : Block := {}
  seen : Nat := 0
  valid : Bool := true
  deriving DecidableEq, Repr

/-- The container blocks of a source slot that egress slots may still take, oldest first, and the number of the next to arrive
(05 R169, R170). -/
structure Line where
  next : Nat := 0
  blocks : List PBlock := []
  deriving DecidableEq, Repr

/-- Alignment states of a protection index (05 R182). -/
inductive ProtAlign where
  | unaligned | acquiring | aligned
  deriving DecidableEq, Repr

/-- One enabled protection index (05 R180 to R188). -/
structure Prot where
  holdOff : Nat := 0
  wtrS : Nat := 10
  revertive : Bool := false
  maxDiff : Nat := 1
  request : Nat := 0
  selected : Bool := false
  align : ProtAlign := .unaligned
  wtrRunning : Bool := false
  wtrUntil : Nat := 0
  /-- Conditions as they hold: working failed and degraded, protection failed and degraded. -/
  sfW : Bool := false
  sdW : Bool := false
  sfP : Bool := false
  sdP : Bool := false
  /-- The working conditions have held for the hold-off time; end of the hold-off that runs. -/
  sfWReq : Bool := false
  sdWReq : Bool := false
  sfWUntil : Nat := 0
  sdWUntil : Nat := 0
  /-- Held host commands: bit 0 LO, 1 FS, 2 MS-P, 3 MS-W. -/
  host : Nat := 0
  /-- Differential delay in ns. -/
  diff : Int := 0
  differRun : Nat := 0
  acqSince : Nat := 0
  failWSince : Nat := 0
  failPSince : Nat := 0
  /-- Candidate offset: number of the protection copy's block less that of the working copy's; its confirmations. -/
  candidate : Option Int := none
  confirms : Nat := 0
  /-- First working block from which the next signature may be taken (05 R182). -/
  sigFrom : Nat := 0
  /-- The signature that is being searched: number and arrival of its first block, and its blocks; the offsets at which it has been
  found, and the first block of the protection copy that has not been looked at. -/
  sig : Option (Nat × Nat × List Block) := none
  sigHits : List (Int × Nat) := []
  sigUpTo : Nat := 0
  /-- ttb:prot_unaligned has been posted in this ACQUIRING. -/
  unalignedPosted : Bool := false
  /-- Container blocks held of each copy, oldest first; numbers of the next to arrive; the next to play out. -/
  ringW : List PBlock := []
  ringP : List PBlock := []
  countW : Nat := 0
  countP : Nat := 0
  playNext : Nat := 0
  /-- An entry of an active page uses the index: its egress slot, and its working and protection sources, as lane times
  32 plus slot; the buddy as protection source. -/
  wired : Bool := false
  egress : Nat := 0
  work : Nat := 0
  prot : Nat := 0
  buddy : Bool := false
  /-- What the buddy says of a protection source on its side: bit 0 slot SF, 1 slot SD, 2 slot TIM, 3 packet slot, 4 no Zuben port (05 R177). -/
  buddyCond : Nat := 0
  deriving DecidableEq, Repr

/-- The timetable block (05 R188). -/
structure Ttb where
  prdiEn : Bool := true
  aisOnTim : Bool := true
  alignConfirm : Nat := 3
  lanes : AMap TtbLane := []
  /-- The indices that are enabled. -/
  prots : AMap Prot := []
  /-- What has arrived of each source slot, keyed by lane times 32 plus slot. -/
  lines : AMap Line := []
  /-- Number of the block of its line that an egress slot takes next, keyed by lane times 32 plus slot (05 R169). -/
  flows : AMap Nat := []
  /-- The same for an egress seat, whose elastic store begins there, keyed by (lane times 32 plus slot) times 32 plus seat (05 R170). -/
  seatFlows : AMap Nat := []
  deriving DecidableEq, Repr

end Sys2Proof.Machine
end

