-- ==== Sys2Proof/Machine/Parts/Zbn.lean ====
section
/-! DEFINITION. State of Zuben framing (04). -/

namespace Sys2Proof.Machine

/-- Frame alignment states (04 R143). -/
inductive AlignState where
  | hunt | presync | sync
  deriving DecidableEq, Repr

/-- Page handshake states (04 R137). -/
inductive HsState where
  | idle | requesting | agreed | naking
  deriving DecidableEq, Repr

/-- Reception of one 16-byte trace (04 R147). -/
structure TraceRx where
  /-- Bytes of the cycle under way. -/
  buf : List Byte := []
  /-- The last complete valid cycle, and how many times in a row it came. -/
  last : List Byte := []
  run : Nat := 0
  accepted : List Byte := []
  deriving DecidableEq, Repr

/-- One alignment candidate (04 R142): its block, its count, and whether its MFCs ran in sequence. -/
structure Candidate where
  block : Nat := 0
  count : Nat := 1
  mfc : Nat := 0
  inSeq : Bool := true
  deriving DecidableEq, Repr

/-- A window of the BIP error ratio (04 R146). -/
structure BipWindow where
  /-- Exponent that this window uses. -/
  exp : Nat := 6
  frames : Nat := 0
  errors : Nat := 0
  raised : Bool := false
  deriving DecidableEq, Repr

/-- Counts of one slot in a performance bin (04 R152). -/
structure SlotPm where
  pos : Nat := 0
  neg : Nat := 0
  aisS : Nat := 0
  rdiS : Nat := 0
  timS : Nat := 0
  deriving DecidableEq, Repr

/-- One performance bin (04 R150 to R152). -/
structure PmBin where
  start : Nat := 0
  suspect : Bool := false
  valid : Bool := false
  seconds : Nat := 0
  es : Nat := 0
  ses : Nat := 0
  uas : Nat := 0
  bbe : Nat := 0
  feEs : Nat := 0
  feSes : Nat := 0
  feBbe : Nat := 0
  feUas : Nat := 0
  slots : AMap SlotPm := []
  deriving DecidableEq, Repr

/-- The verdict on one second, kept until the availability of its time is known (04 R150). -/
structure PmSecond where
  /-- Device second. -/
  at_ : Nat := 0
  es : Bool := false
  ses : Bool := false
  errored : Nat := 0
  deriving DecidableEq, Repr

/-- Availability tracking of one end (04 R150). -/
structure PmAvail where
  /-- Seconds not yet judged, oldest first: fewer than ten. -/
  waiting : List PmSecond := []
  unavailable : Bool := false
  deriving DecidableEq, Repr

/-- Performance monitoring of one lane (04 R150, R151). -/
structure PmLane where
  cur15 : PmBin := {}
  prev15 : PmBin := {}
  /-- History bins, most recent first. -/
  history : List PmBin := []
  cur24 : PmBin := {}
  prev24 : PmBin := {}
  /-- Errored frames near and far, by the second in which their block 0 arrived, and the conditions seen in the second under way. -/
  errored : AMap Nat := []
  feErrored : AMap Nat := []
  sawLoss : Bool := false
  sawSf : Bool := false
  sawRdi : Bool := false
  /-- The same for each slot: AIS, RDI-P and TIM-P seen, as bits 0 to 2. -/
  sawSlot : AMap Nat := []
  /-- Justifications received in the second under way, by slot. -/
  slotPos : AMap Nat := []
  slotNeg : AMap Nat := []
  /-- Bins whose boundary has passed and that close at a bell 10 s later: the bins that follow them (04 R151). -/
  next15 : Option PmBin := none
  next24 : Option PmBin := none
  /-- The first second that the lane spent whole in its Zuben port, where that is known: a bin that begins before it is suspect (04 R151). -/
  joined : Option Nat := none
  /-- A time step has entered the bin of each length that has not yet been begun. -/
  doubt15 : Bool := false
  doubt24 : Bool := false
  near : PmAvail := {}
  far : PmAvail := {}
  deriving DecidableEq, Repr

/-- A frame whose overhead has been sent and whose payload is on the line: what its overhead fixes of its payload (04 R128 to R140). -/
structure TxPlan where
  /-- Transmit reference time of its block 0. -/
  start : Nat := 0
  /-- Marked block of the agreed bell in a switch frame. -/
  mark : Option Nat := none
  /-- Entries in force up to the marked block and from it on; AIS that the frame inserts stands in them as force_ais. -/
  old : Page := {}
  new : Page := {}
  /-- JC code and number of the first container block of each slot. -/
  jcs : List Nat := []
  nos : List Nat := []
  deriving DecidableEq, Repr

/-- Transmission on a Zuben port (04 R124, R134). -/
structure ZPort where
  /-- Multiframe counter of the next frame, the same on all lanes. -/
  mfc : Nat := 0
  /-- Start of the last frame sent. -/
  sentAt : Option Nat := none
  /-- Blocks of the packet client's stream that wait to be sent. -/
  client : List Block := []
  deriving DecidableEq, Repr

/-- One Zuben lane (04 R156). -/
structure ZLane where
  sdExp : Nat := 6
  timSecEn : Bool := false
  timPathEn : Bool := false
  /-- 15 characters each. -/
  txTrace : List Byte := []
  expTrace : List Byte := []
  rxTrace : TraceRx := {}
  align : AlignState := .hunt
  candidates : List Candidate := []
  badRun : Nat := 0
  /-- Multiframe alignment IN; expected MFC; consecutive good frames that differ; last good MFC and its run (04 R144). -/
  mfIn : Bool := false
  mfc : Nat := 0
  mfMiss : Nat := 0
  mfLast : Option Nat := none
  /-- Parity over the payload of the last frame received, if known (04 R127). -/
  bip : Option Nat := none
  /-- BIP8 of the last good frame. -/
  rxBip : Nat := 0
  /-- Errored BIP bits of the last checked frame, sent back as REI. -/
  rei : Nat := 0
  sd : BipWindow := {}
  sf : BipWindow := { exp := 3 }
  rdi : Bool := false
  rdiRun : Nat := 0
  /-- Defect bits last reported: LOS 0, LOF 1, LOM 2, TIM 3, SD 4, SF 5, RDI 6. -/
  defects : Nat := 0
  gridMismatch : Bool := false
  pageMismatch : Bool := false
  pageBells : Nat := 0
  pagePosted : Bool := false
  /-- The next frame is the first after a switch frame, which 04 R141 and 05 R172 do not count. -/
  afterSwitch : Bool := false
  /-- Tag and TAI of an agreed switch bell whose switch frame is still to be received (04 R140). -/
  rxSwitch : Option (Nat × Nat) := none
  activeRx : Bool := false
  hs : HsState := .idle
  initiator : Bool := false
  /-- TAI of the switch bell T, and its tag. -/
  hsTai : Nat := 0
  hsTag : Nat := 0
  /-- NAKs still to be sent, and the tag they refuse. -/
  naksLeft : Nat := 0
  nakTag : Nat := 0
  /-- The first REQ has been sent, and T with it; the switch frame has been sent (04 R137, R140). -/
  reqSent : Bool := false
  switchSent : Bool := false
  /-- BEL skew in 0.25 ns, and whether the alarm is posted. -/
  skew : Int := 0
  skewOver : Bool := false
  /-- The frame whose payload is being sent. -/
  plan : Option TxPlan := none
  /-- Packet positions of the frame received last, by payload block index, until the port's other lanes have theirs (04 R134). -/
  packets : Option (List (Nat × Block)) := none
  /-- Management bytes received since the last flag, and frames received between two flags that wait to be looked at (04 R153). -/
  mgmtRx : List Byte := []
  mgmtIn : List (List Byte) := []
  /-- A trace that begins at the next trace cycle (04 R157), and the multiframe being sent, to tell the cycle. -/
  txNext : Option (List Byte) := none
  /-- Queued management frames: ring, tag, content, and whether the opening flag has been sent (04 R161). -/
  mgmt : List (Nat × Nat × List Byte × Bool) := []
  /-- Bytes of the first queued management frame sent so far. -/
  mgmtPos : Nat := 0
  pm : PmLane := {}
  deriving DecidableEq, Repr

/-- One slot of a Zuben lane, receive and transmit (04 R128 to R134, R156). -/
structure ZSlot where
  /-- Expected container number at the next frame. -/
  ptr : Nat := 0
  packet : Bool := false
  ais : Bool := false
  aisRun : Nat := 0
  rdi : Bool := false
  rdiRun : Nat := 0
  tim : Bool := false
  /-- A differing pointer report awaits its second (04 R132): the value it gives for the next report. -/
  pending : Option Nat := none
  rxTrace : TraceRx := {}
  txTrace : List Byte := []
  txNext : Option (List Byte) := none
  expTrace : List Byte := []
  txTracePos : Nat := 0
  /-- Transmit container number, NDF due, and whether it was a packet slot in the last frame sent. -/
  txPtr : Nat := 0
  ndf : Bool := false
  txPacket : Bool := true
  /-- Defect bits last reported: AIS 0, RDI-P 1, TIM-P 2. -/
  defects : Nat := 0
  deriving DecidableEq, Repr

/-- FlexE state of one port (04 R154 to R156). -/
structure FlexE where
  ohLock : Bool := false
  rpfRx : Bool := false
  calTx : Bool := false
  calRx : Bool := false
  idMismatch : Bool := false
  group : Nat := 1
  phy : Nat := 1
  /-- Client slots of calendars A and B. -/
  calA : Nat := 0
  calB : Nat := 0
  /-- The pending switches, the one under way first: their commands, and the BEL_SEQ of the bell after which CR goes out; and when
  CR of the first was first sent. -/
  pend : List (Nat × Nat × Nat) := []
  crAt : Option Nat := none
  acked : Bool := false
  /-- The partner's request is being acknowledged. -/
  ackTx : Bool := false
  deriving DecidableEq, Repr

/-- The Zuben block (04 R156). -/
structure Zbn where
  mgmtRing : Nat := 0
  skewNs : Nat := 8
  lanes : AMap ZLane := []
  /-- Keyed by lane times 32 plus slot. -/
  slots : AMap ZSlot := []
  ports : AMap ZPort := []
  flexe : AMap FlexE := []
  deriving DecidableEq, Repr

end Sys2Proof.Machine
end

