-- ==== Sys2Proof/Machine/State.lean ====
section
/-! DEFINITION. The state of the module: every block's registers, tables, stores and counters, and the queue of waiting commands. -/

namespace Sys2Proof.Machine

/-- The module itself: everything but the queue of commands that wait to be taken. -/
structure Dev where
  /-- Device time in 0.25 ns (02 R50). -/
  now : Nat := 0
  /-- Counter that numbers the free values taken (the model's own field). -/
  free : Nat := 0
  /-- What the core-clock cycle under way has brought and has not yet decided, in its order (06 R220, 07 R257, 08 R294). -/
  arrivals : List Arrival := []
  /-- What the module has sent to the outside world, newest first. -/
  out : List Out := []
  glb : Glb := {}
  cnt : Cnt := {}
  hif : Hif := {}
  bel : Bel := {}
  tim : Tim := {}
  lne : Lne := {}
  mac : Mac := {}
  zbn : Zbn := {}
  ttb : Ttb := {}
  prs : Prs := {}
  fwd : Fwd := {}
  buf : Buf := {}
  sch : Sch := {}
  drc : Drc := {}
  gov : Gov := {}
  sub : Sub := {}
  bdy : Bdy := {}
  prc : Prc := {}
  pins : Pins := {}
  boot : Boot := {}
  deriving DecidableEq, Repr

/-- The state of the model: the module and the commands that wait, first in, first out. -/
structure State where
  dev : Dev := {}
  pending : List Instr := []
  deriving DecidableEq, Repr

/-- No command of this block ends the machine: what the spec calls a halt, a stop or a refusal of a command is a state
or a completion status. -/
inductive Fault where
  /-- Raised by no command; it stands so that the type is inhabited. Safe: it can only stop a run. -/
  | unused
  deriving DecidableEq, Repr

/-- Why a command has no meaning in the model. -/
inductive Refusal where
  /-- Raised by an arm of exec whose row the model does not give a meaning. Safe: it can only stop a run. -/
  | notModelled (mnemonic : String)
  deriving DecidableEq, Repr

/-- The module right after a cold reset of cause power_on (19 R591, R594): phase 0, every register at its reset value,
every table empty, no ring running, and no command waiting. -/
def State.reset : State := {}

end Sys2Proof.Machine
end

