-- ==== Sys2Proof/Machine/Ops.lean ====
section
/-! DEFINITION. The shared operations: time, counters, events, ring entries, completions, audit records, and readers of ports,
lanes and rings. Every command acts through them. -/

namespace Sys2Proof.Machine

/-! ### Blocks -/

def Dev.glbM (d : Dev) (f : Glb → Glb) : Dev := { d with glb := f d.glb }
def Dev.cntM (d : Dev) (f : Cnt → Cnt) : Dev := { d with cnt := f d.cnt }
def Dev.hifM (d : Dev) (f : Hif → Hif) : Dev := { d with hif := f d.hif }
def Dev.belM (d : Dev) (f : Bel → Bel) : Dev := { d with bel := f d.bel }
def Dev.timM (d : Dev) (f : Tim → Tim) : Dev := { d with tim := f d.tim }
def Dev.servoM (d : Dev) (f : Servo → Servo) : Dev := { d with tim := { d.tim with servo := f d.tim.servo } }
def Dev.lneM (d : Dev) (f : Lne → Lne) : Dev := { d with lne := f d.lne }
def Dev.macM (d : Dev) (f : Mac → Mac) : Dev := { d with mac := f d.mac }
def Dev.zbnM (d : Dev) (f : Zbn → Zbn) : Dev := { d with zbn := f d.zbn }
def Dev.ttbM (d : Dev) (f : Ttb → Ttb) : Dev := { d with ttb := f d.ttb }
def Dev.prsM (d : Dev) (f : Prs → Prs) : Dev := { d with prs := f d.prs }
def Dev.fwdM (d : Dev) (f : Fwd → Fwd) : Dev := { d with fwd := f d.fwd }
def Dev.bufM (d : Dev) (f : Buf → Buf) : Dev := { d with buf := f d.buf }
def Dev.schM (d : Dev) (f : Sch → Sch) : Dev := { d with sch := f d.sch }
def Dev.drcM (d : Dev) (f : Drc → Drc) : Dev := { d with drc := f d.drc }
def Dev.govM (d : Dev) (f : Gov → Gov) : Dev := { d with gov := f d.gov }
def Dev.subM (d : Dev) (f : Sub → Sub) : Dev := { d with sub := f d.sub }
def Dev.bdyM (d : Dev) (f : Bdy → Bdy) : Dev := { d with bdy := f d.bdy }
def Dev.prcM (d : Dev) (f : Prc → Prc) : Dev := { d with prc := f d.prc }
def Dev.pinsM (d : Dev) (f : Pins → Pins) : Dev := { d with pins := f d.pins }
def Dev.bootM (d : Dev) (f : Boot → Boot) : Dev := { d with boot := f d.boot }

/-- Something sent to the outside world. -/
def Dev.emit (d : Dev) (o : Out) : Dev := { d with out := o :: d.out }

/-- Do a change for every element of a list, in order. -/
def Dev.each {α : Type} (d : Dev) (l : List α) (f : α → Dev → Dev) : Dev := l.foldl (fun d a => f a d) d

/-- Do a change only where a condition holds. -/
def Dev.when (d : Dev) (c : Bool) (f : Dev → Dev) : Dev := if c then f d else d

/-! ### Time -/

/-- TAI in ns (02 R50). -/
def Dev.tai (d : Dev) : Nat := d.now / qPerNs

/-- The module carries traffic and takes commands: phase 5 or 6 and nothing has stopped it (19 R594, 11 R386). -/
def Dev.inService (d : Dev) : Bool := (d.glb.phase == 5 || d.glb.phase == 6) && d.boot.stopped == .no

/-! ### The variant (00 R1) -/

def Part.lanes : Part → Nat
  | .u1024 => 1024 | .u512 => 512 | .u256 => 256
def Part.clusters (p : Part) : Nat := p.lanes / 8
def Part.pipelines (p : Part) : Nat := p.lanes / 64
def Part.stacks (p : Part) : Nat := p.lanes / 64
def Part.quads (p : Part) : Nat := p.lanes / 256
def Part.farPages (p : Part) : Nat := p.lanes * 524288
def Part.code : Part → Nat
  | .u1024 => 0x1024 | .u512 => 0x0512 | .u256 => 0x0256
def Part.rollcall (p : Part) : Bool := p == .u1024

/-- Clamp of a lane or port number (00 R3). -/
def Dev.clampLane (d : Dev) (n : Nat) : Nat := satTo (d.glb.part.lanes - 1) n

/-! ### Counters (15 R485 to R490) -/

/-- Key of a counter: family, stride, member and position. -/
def cKey (family stride member pos : Nat) : Nat := family * 2 ^ 32 + member * stride + pos

/-- Add to a live counter; passing 2^64 - 1 wraps and sets its overflow mark (15 R485). -/
def Dev.count (d : Dev) (key n : Nat) : Dev :=
  let v := AMap.getD d.cnt.live key 0 + n
  d.cntM fun c => { c with
    live := AMap.set c.live key (v % 2 ^ 64)
    liveMarks := if 2 ^ 64 ≤ v then (if c.liveMarks.contains key then c.liveMarks else key :: c.liveMarks) else c.liveMarks }

def cFlow (i pos : Nat) : Nat := cKey 1 2 i pos
def cPort (n pos : Nat) : Nat := cKey 2 64 n pos
def cQueue (q pos : Nat) : Nat := cKey 3 16 q pos
def cAcct (point cls pos : Nat) : Nat := cKey 4 4 (point * 16 + cls) pos
def cLane (l pos : Nat) : Nat := cKey 5 16 l pos
def cSlot (l s pos : Nat) : Nat := cKey 6 8 (l * 20 + s) pos
def cProt (i pos : Nat) : Nat := cKey 7 4 i pos
def cMeter (m pos : Nat) : Nat := cKey 8 8 m pos
def cStream (h pos : Nat) : Nat := cKey 9 8 h pos
def cMirror (s pos : Nat) : Nat := cKey 10 2 s pos
def cRegion (r pos : Nat) : Nat := cKey 11 4 r pos
def cStack (k pos : Nat) : Nat := cKey 12 8 k pos
def cChan (i pos : Nat) : Nat := cKey 13 16 i pos
def cRing (g pos : Nat) : Nat := cKey 14 8 g pos
def cQuad (q pos : Nat) : Nat := cKey 15 4 q pos
def cDev (pos : Nat) : Nat := cKey 16 512 0 pos
def cMon (m pos : Nat) : Nat := cKey 17 2 m pos
def cEvc (k : Nat) : Nat := cKey 18 1 k 0
def cCluster (c pos : Nat) : Nat := cKey 19 4 c pos
def cBuddyLane (k pos : Nat) : Nat := cKey 20 4 k pos
def cLost (q : Nat) : Nat := cKey 21 1 q 0

/-! ### Rings (12 R403 to R411) -/

def Dev.ring (d : Dev) (g : Nat) : Ring := AMap.getD d.hif.rings g {}
def Dev.ringM (d : Dev) (g : Nat) (f : Ring → Ring) : Dev :=
  d.hifM fun h => { h with rings := AMap.upd h.rings g {} f }

/-- Entries of a ring as enabled (12 R405). -/
def Ring.n (r : Ring) : Nat := 64 * 2 ^ r.lSize

/-- Entries written and not yet consumed of a ring that the device produces. -/
def Ring.filled (r : Ring) : Nat := (r.devIdx + 2 * r.n - r.hostIdx) % (2 * r.n)

/-- Entries that the host has produced and the device has not taken. -/
def Ring.waiting (r : Ring) : Nat := (r.hostIdx + 2 * r.n - r.devIdx) % (2 * r.n)

def Ring.room (r : Ring) : Bool := r.filled < r.n

/-- Write one 32-byte entry at the device index, with its phase bit (12 R407). -/
def Dev.writeEntry (d : Dev) (g : Nat) (bytes : Nat) : Dev :=
  let r := d.ring g
  let phase := b2n (r.devIdx < r.n)
  let d := d.emit (.entry g (r.devIdx % r.n) (bytes + phase * 2 ^ 255))
  let d := d.ringM g fun r => { r with
    devIdx := (r.devIdx + 1) % (2 * r.n)
    oldest := if r.unsignalled = 0 then d.now else r.oldest
    unsignalled := r.unsignalled + 1 }
  d.count (cRing g 2) 1

/-- Low 24 bits of BEL_SEQ, as entries carry it. -/
def Dev.bell24 (d : Dev) : Nat := d.bel.seq % 2 ^ 24

/-! ### Events (12 R431, 13 R460 to R462) -/

/-- Width in bytes of an item (13 R461). -/
def Item.width : Item → Nat
  | .code _ => 1 | .index _ => 2 | .set _ => 4 | .value _ => 4 | .wide _ => 8 | .address _ => 6

/-- Value of an item cut to its width; counts saturate (13 R461). -/
def Item.val : Item → Nat
  | .code v => v % 2 ^ 8 | .index v => v % 2 ^ 16 | .set v => v % 2 ^ 32 | .value v => satTo (2 ^ 32 - 1) v
  | .wide v => v % 2 ^ 64 | .address v => v % 2 ^ 48

/-- Place the items: each at the first free offset that is a multiple of the smaller of its width and 4 (13 R461). The
offset counts from byte 12, itself a multiple of 4. -/
def placeItems : List Item → Nat → Nat
  | [], _ => 0
  | i :: r, off =>
    let a := min i.width 4
    let o := (off + a - 1) / a * a
    i.val * 2 ^ (8 * o) + placeItems r (o + i.width)

/-- Module index of this module in its pair (17 R532). -/
def Dev.module (d : Dev) : Nat := d.bdy.index

/-- The 32 bytes of an event record, but for the phase bit (13 R460). -/
def eventBytes (time ev module onBehalf data bell : Nat) : Nat :=
  time % 2 ^ 64 + ev * 2 ^ 64 + module * 2 ^ 80 + onBehalf * 2 ^ 81 + (data % 2 ^ 128) * 2 ^ 96 + bell * 2 ^ 224

/-- Add an occurrence to the event counters that select it (15 R494). -/
def Dev.occur (d : Dev) (ev : Nat) (items : List Item) : Dev :=
  d.each d.cnt.evcs fun (k, c) d =>
    let hit := c.en && c.event == ev &&
      (!c.filterEn || (match items with | .index v :: _ => v == c.filter | _ => false))
    if hit then d.count (cEvc k) 1 else d

/-- The record that reports lost events, number 0x0203 (12 R431, R437). -/
def Dev.writeLost (d : Dev) (k : Nat) : Dev :=
  let r := d.ring (192 + k)
  let data := placeItems [.index k, .value r.lost] 0
  let d := d.occur 0x0203 [.index k, .value r.lost]
  let d := d.writeEntry (192 + k) (eventBytes d.now 0x0203 d.module 0 data d.bell24)
  d.ringM (192 + k) fun r => { r with lost := 0 }

/-- Write a record to event ring k, or count it lost (12 R431). -/
def Dev.writeEvent (d : Dev) (k : Nat) (bytes : Nat) : Dev :=
  let d := d.when ((d.ring (192 + k)).lost != 0 && (d.ring (192 + k)).room) fun d => d.writeLost k
  if (d.ring (192 + k)).room then d.writeEntry (192 + k) bytes
  else (d.ringM (192 + k) fun r => { r with lost := r.lost + 1 }).count (cRing (192 + k) 3) 1

/-- Mask of blocks that event ring k takes (12 R436). -/
def Dev.route (d : Dev) (k : Nat) : Nat := AMap.getD d.hif.evtRoute k (if k = 0 then 0x3FFFF else 0)

/-- Event rings that take an event of a block now. -/
def Dev.takers (d : Dev) (ev : Nat) : List Nat :=
  (List.range 8).filter fun k => (d.ring (192 + k)).state == .running && bit (d.route k) (ev / 256 - 1)

/-- Post an event: its occurrence is counted, and its record goes to every RUNNING ring that takes its block, or is
counted as unrouted (12 R431, 13 R460). -/
def Dev.postAs (d : Dev) (ev : Nat) (items : List Item) (module onBehalf : Nat) : Dev :=
  let d := d.occur ev items
  let bytes := eventBytes d.now ev module onBehalf (placeItems items 0) d.bell24
  match d.takers ev with
  | [] => d.count (cDev 2) 1
  | ks => d.each ks fun k d => d.writeEvent k bytes

/-- Post an event that concerns this module. -/
def Dev.post (d : Dev) (ev : Nat) (items : List Item) : Dev := d.postAs ev items d.module 0

/-! ### Completions (12 R417, R418) -/

/-- The 32 bytes of a completion entry, but for the phase bit. -/
def Compl.bytes (c : Compl) (bell : Nat) : Nat :=
  c.op % 2 ^ 16 + fld c.tag 12 16 + fld c.kind 4 28 + fld c.status 8 32 + fld c.ring 7 40 + fld c.module 1 47 +
  fld c.result 32 64 + fld c.cookie 32 96 + fld c.value 64 128 + fld c.index 16 192 + bell * 2 ^ 224 +
  b2n c.ledger * 2 ^ 248

/-- A descriptor dispatched before an FLR has its place in the ledger, where its outcome is filled in; anything else is
appended (12 R434, R435). -/
def toLedger (c : Compl) : List Compl → List Compl
  | [] => [{ c with ledger := true }]
  | x :: r =>
    if x.kind = 1 ∧ x.status = 1 ∧ c.kind = 1 ∧ x.ring = c.ring ∧ x.index = c.index then { c with ledger := true } :: r
    else x :: toLedger c r

/-- Write a completion to completion ring k, hold it while the ring is full, or keep it for the ledger while the ring is
OFF (12 R411, R434). Ring number 32 stands for the ledger: an FLR has ended the ring that the item was bound to. -/
def Dev.deliver (d : Dev) (k : Nat) (c : Compl) : Dev :=
  let r := d.ring (32 + k)
  if decide (32 ≤ k) || r.state == .off then d.hifM fun h => { h with ledger := toLedger c h.ledger }
  else if r.room && !(d.hif.owed.any fun p => p.1 == k) then d.writeEntry (32 + k) (c.bytes d.bell24)
  else d.hifM fun h => { h with owed := h.owed ++ [(k, c)] }

/-- Write what a completion ring owes, now that it has room. -/
def Dev.drainOwed (d : Dev) (k : Nat) : Dev :=
  let mine := d.hif.owed.filter fun p => p.1 == k
  let d := d.hifM fun h => { h with owed := h.owed.filter fun p => p.1 != k }
  d.each mine fun p d => d.deliver k p.2

/-- The buddy message kinds that leave the module (17 R535 to R549). -/
def bmJournal : Nat := 1
def bmAck : Nat := 2
def bmCompletion : Nat := 3
def bmFetch : Nat := 4
def bmHeartbeat : Nat := 5
def bmFdb : Nat := 6
def bmCredit : Nat := 7
def bmPair : Nat := 8
def bmRejoin : Nat := 9
def bmRecordAck : Nat := 10
def bmFate : Nat := 11

/-- Give a final completion to the host: while PAIRED, only once the buddy has stored its record (17 R537). -/
def Dev.complete (d : Dev) (k : Nat) (c : Compl) : Dev :=
  let c := { c with module := d.module }
  if d.bdy.state == .paired then
    let s := d.bdy.nextSeq
    let d := d.bdyM fun b => { b with nextSeq := s + 1, own := b.own ++ [.completion s k c] }
    (d.emit (.buddyMsg bmCompletion [s, c.kind, c.op, c.tag, c.status, c.ring, c.result, c.cookie, c.value, c.index])).count (cDev 291) 1
  else d.deliver k c

/-! ### Audit (18 R580, R581) -/

/-- Append an audit record, and post prc:audit. -/
def Dev.audit (d : Dev) (code arg0 arg1 : Nat) : Dev :=
  let s := d.prc.auditNext
  let r : AuditRec := { seq := s, code, time := d.now, bellSeq := d.bel.seq, arg0 := arg0 % 2 ^ 32, arg1 := arg1 % 2 ^ 32 }
  let d := d.prcM fun p => { p with
    audit := (if p.audit.length < 1024 then p.audit else p.audit.drop 1) ++ [r]
    auditNext := (s + 1) % 2 ^ 32 }
  d.post 0x1202 [.code code, .value s, .value arg0]

/-- A row comes at a bell: no time has passed since it. -/
def Dev.atBell (d : Dev) : Bool := d.now == d.bel.lastAt

/-- No background work is granted (11 R383 step 1). -/
def Dev.bgPaused (d : Dev) : Bool := d.gov.step != 0

/-- An audit record that folds with others of its register or opcode in one period (14 R476, 18 R581). -/
def Dev.auditFold (d : Dev) (key code arg0 arg1 : Nat) : Dev :=
  match d.prc.folded.find? fun p => p.1 == key with
  | some (_, s) => d.prcM fun p => { p with
      audit := p.audit.map fun r => if r.seq == s then { r with count := satTo 65535 (r.count + 1) } else r }
  | none =>
    let s := d.prc.auditNext
    (d.audit code arg0 arg1).prcM fun p => { p with folded := (key, s) :: p.folded }

/-! ### Ports and lanes -/

def Dev.port (d : Dev) (n : Nat) : Port := AMap.getD d.mac.ports n {}
def Dev.portM (d : Dev) (n : Nat) (f : Port → Port) : Dev :=
  d.macM fun m => { m with ports := AMap.upd m.ports n {} f }

/-- A port exists on this lane (03 R107). -/
def Dev.portExists (d : Dev) (n : Nat) : Bool := (d.port n).state != .absent

/-- Ports formed, in rising order. -/
def Dev.portList (d : Dev) : List Nat := (d.mac.ports.filter fun p => p.2.state != .absent).map (·.1)

def Port.laneCount (p : Port) : Nat := 2 ^ p.lanes

/-- Lane numbers of a port (00 R6). -/
def Dev.portLanes (d : Dev) (n : Nat) : List Nat := (List.range (d.port n).laneCount).map (n + ·)

def Dev.lane (d : Dev) (l : Nat) : Lane := AMap.getD d.lne.lanes l {}
/-- Buddy lane k among the lane indexes, which end at 1,151 (03 R111, 17 R528). -/
def buddyIx (k : Nat) : Nat := 1152 + k
def isBuddyIx (i : Nat) : Bool := decide (1152 ≤ i) && decide (i < 1170)

def Dev.laneM (d : Dev) (l : Nat) (f : Lane → Lane) : Dev :=
  d.lneM fun m => { m with lanes := AMap.upd m.lanes l {} f }

/-- Port that a lane number belongs to, if any (03 R111). -/
def Dev.portOf (d : Dev) (l : Nat) : Option Nat := if (d.lane l).use != 0 then some (d.lane l).port else none

/-- Nominal speed of a speed code in Gbit/s (03 R113). -/
def speedGbps : Nat → Nat
  | 0 => 10 | 1 => 25 | 2 => 50 | 3 => 100 | 4 => 200 | 5 => 400 | _ => 800

/-- Port speed in bit/s; a Zuben port counts 100 Gbit/s a lane (03 R85). -/
def Port.bps (p : Port) : Nat := if p.framing == 1 then p.laneCount * 100000000000 else speedGbps p.speed * 1000000000

def LaneState.code : LaneState → Nat
  | .off => 0 | .waitSignal => 1 | .an => 2 | .train => 3 | .adapt => 4 | .lock => 5 | .up => 6
def PortState.code : PortState → Nat
  | .absent => 0 | .disabled => 1 | .training => 2 | .up => 3 | .hold => 4 | .flushing => 5 | .draining => 6 | .poweringDown => 7
def RingState.code : RingState → Nat
  | .off => 0 | .running => 1 | .stopping => 2
def ServoState.code : ServoState → Nat
  | .freerun => 0 | .acquiring => 1 | .locked => 2 | .holdover => 3
def PairState.code : PairState → Nat
  | .off => 0 | .linking => 1 | .linked => 2 | .syncing => 3 | .paired => 4 | .isolated => 5 | .solo => 6
def PrcState.code : PrcState → Nat
  | .boot => 0 | .selftest => 1 | .operational => 2 | .error => 3 | .zeroizing => 4 | .zeroized => 5
def AlignState.code : AlignState → Nat
  | .hunt => 0 | .presync => 1 | .sync => 2
def HsState.code : HsState → Nat
  | .idle => 0 | .requesting => 1 | .agreed => 2 | .naking => 3
def ProtAlign.code : ProtAlign → Nat
  | .unaligned => 0 | .acquiring => 1 | .aligned => 2
def SpillState.code : SpillState → Nat
  | .near => 0 | .spilling => 1 | .recalling => 2
def RecState.code : RecState → Nat
  | .off => 0 | .recording => 1 | .post => 2 | .frozen => 3 | .reading => 4
def ChanState.code : ChanState → Nat
  | .spare => 0 | .service => 1 | .source => 2 | .target => 3 | .retraining => 4 | .failed => 5

/-! ### Wear readings (16 R506) -/

/-- Key of a unit under a monitor kind. -/
def wearKey (kind unit : Nat) : Nat := kind * 4096 + unit

/-- A reading of a unit has come, which its next evaluation takes. -/
def Dev.wearReading (d : Dev) (kind unit : Nat) : Dev :=
  d.subM fun s => { s with wear := AMap.upd s.wear (wearKey kind unit) {} fun w => { w with fresh := true } }

/-- A free value: the number of the next one, and the state that has taken it. -/
def Dev.fresh (d : Dev) : Nat × Dev := (d.free, { d with free := d.free + 1 })

end Sys2Proof.Machine
end

