-- ==== Sys2Proof/Machine/Occupancy.lean ====
section
/-! DEFINITION. Occupancies of stores, queues and rings (08 R285 to R303, 12 R406, 10 R355), as registers and monitors read them. -/

namespace Sys2Proof.Machine

/-- Sum of a measure over a list. -/
def sumBy {α : Type} (l : List α) (f : α → Nat) : Nat := l.foldl (fun n a => n + f a) 0

/-- Cells of the near store (08 R285): the same on all variants. -/
def nearCells : Nat := 4194304

/-- Cells of a frame of a stored length (08 R285). -/
def cellsOf (len : Nat) : Nat := (len + 255) / 256

/-- A queue by its index (00 R8). Classes 12 to 15 hold no absorb setting. -/
def Dev.queue (d : Dev) (q : Nat) : Queue := AMap.getD d.buf.queues q {}
def Dev.queueM (d : Dev) (q : Nat) (f : Queue → Queue) : Dev :=
  d.bufM fun b => { b with queues := AMap.upd b.queues q {} f }

/-- Queue index of a port and class (00 R8). -/
def qIx (port cls : Nat) : Nat := port * 16 + cls

def runCells (rs : List Run) : Nat := sumBy rs fun r => r.n

/-- Cells in H and T (08 R298, BUF_Q_STATUS). -/
def Queue.nearCells (q : Queue) : Nat := runCells q.h + runCells q.t

/-- Depth D of a queue: H, T and the pages of F (08 R298). -/
def Queue.depth (q : Queue) : Nat := q.nearCells + sumBy q.f fun p => runCells p.runs

/-- Wire bytes of a frame of a length (03 R97, 01 R30): 20 bytes of preamble and gap. -/
def wireBytes (len : Nat) : Nat := len + 20

/-- Wire bytes in the three bins of a cyclic queue. -/
def Queue.binBytes (q : Queue) : Nat :=
  sumBy (q.recv ++ q.tran ++ q.pass) fun c => wireBytes c.len

/-- Account of a point and class (08 R288): the point as 13 R461 encodes it. -/
def aIx (point cls : Nat) : Nat := point * 16 + cls
def Dev.acct (d : Dev) (point cls : Nat) : Account := AMap.getD d.buf.accounts (aIx point cls) {}
def Dev.acctM (d : Dev) (point cls : Nat) (f : Account → Account) : Dev :=
  d.bufM fun b => { b with accounts := AMap.upd b.accounts (aIx point cls) {} f }

def Account.use (a : Account) : Nat := a.useMin + a.useShared + a.useHead

/-- Accounting points as 13 R461 encodes them: ports 0 to 1023, TX rings 1024 to 1087 and the buddy link 2048. -/
def ptTx (r : Nat) : Nat := 1024 + r
def ptBuddy : Nat := 2048

/-- Cells that one protection index reserves (05 R180), by max_diff_us. -/
def protCells (maxDiff : Nat) : Nat := ((maxDiff + 64) * 80 + 30) / 31

/-- Reserved part of the near store (08 R286). -/
def Dev.nearReserved (d : Dev) : Nat :=
  sumBy d.buf.accounts (fun p => p.2.minCells + p.2.headroom) +
    sumBy d.ttb.prots (fun p => protCells p.2.maxDiff)

/-- Shared cells in use: those charged to points, to mirror quotas, and recalled cells. -/
def Dev.sharedUsed (d : Dev) : Nat :=
  sumBy d.buf.accounts (fun p => p.2.useShared) + sumBy d.fwd.mirrors (fun p => p.2.cells) + d.buf.recalled

/-- BUF_NEAR_FREE: free shared cells. -/
def Dev.nearFree (d : Dev) : Nat := nearCells - d.nearReserved - d.sharedUsed - d.buf.nearLeaks.length

/-! ### Pages of the far store (10 R347 to R349) -/

def Dev.stack (d : Dev) (k : Nat) : Stack := AMap.getD d.drc.stackUnits k {}
def Dev.chan (d : Dev) (i : Nat) : Chan := AMap.getD d.drc.chans i {}

/-- Stack of a page (10 R348). -/
def Dev.pageStack (d : Dev) (p : Nat) : Nat := p % d.glb.part.stacks

/-- A channel holds the pages of its logical channel. -/
def Chan.holds (c : Chan) : Bool := c.state == .service || c.state == .source

/-- Key of a row within a channel. -/
def rowKey (bank row : Nat) : Nat := bank * 32768 + row

/-- Page that a row of a channel holds (10 R348). -/
def Dev.pageAt (d : Dev) (i bank row : Nat) : Option Nat :=
  let c := d.chan i
  let s := d.glb.part.stacks
  if c.holds then some (((row * 32 + bank) * 32 + c.logical) * s + i / 34) else none

/-- Quarantined and retired pages (10 R367). -/
def Dev.badPages (d : Dev) : List Nat :=
  d.drc.chans.flatMap fun x => (x.2.quarantined ++ x.2.retired).filterMap fun k => d.pageAt x.1 (k / 32768) (k % 32768)

/-- Pages and list pages of a queue. -/
def Queue.pages (q : Queue) : List Nat := q.f.map (fun p => p.page) ++ q.lists.flatMap fun l => [l.a, l.b]

/-- A queue holds a page. -/
def Dev.pageHeld (d : Dev) (p : Nat) : Bool := d.buf.queues.any fun q => q.2.pages.contains p

/-- DRC_LIST_PAGES: list pages in use, both copies (10 R349). -/
def Dev.listPages (d : Dev) : Nat := sumBy d.buf.queues fun q => 2 * q.2.lists.length

/-- Quarantined and retired pages that nobody uses: out of the free list (10 R367). -/
def Dev.idleBad (d : Dev) : Nat := (d.badPages.filter fun p => !d.pageHeld p && !d.drc.keptBad.contains p).length

/-- BUF_FAR_FREE: pages in service that nobody holds or has reserved (08 R287). -/
def Dev.farFree (d : Dev) : Nat := d.buf.farTotal - d.buf.farUsed - d.buf.farReserved - d.listPages - d.idleBad

/-- Cells of the VOQs for an egress port and class (08 R314). -/
def Dev.voqCells (d : Dev) (port cls : Nat) : Nat :=
  sumBy d.buf.voqs fun p => if p.1 % 2048 == port * 8 + cls then sumBy p.2 (fun c => c.cells) else 0

/-- Outstanding entries of a ring (12 R406): what the consumer has not yet taken. Command and TX rings are produced by the
host, the others by the device. -/
def Dev.outstanding (d : Dev) (g : Nat) : Nat :=
  if g < 32 || (64 ≤ g && g < 128) then (d.ring g).waiting else (d.ring g).filled

/-- Pages in the recall prefetch buffer of a stack (10 R355). -/
def Dev.prefetch (d : Dev) (k : Nat) : Nat := (d.stack k).prefetch

/-- The occupancy that a monitor watches (15 R491). -/
def Dev.occupancy (d : Dev) (kind index : Nat) : Nat :=
  match kind with
  | 1 => if d.buf.voq && decide (index % 16 < 8) then d.voqCells (index / 16) (index % 16) else (d.queue index).nearCells
  | 2 => (d.queue index).f.length
  | 3 => (d.acct (index / 16) (index % 16)).use
  | 4 => d.nearFree
  | 5 => d.farFree
  | 6 => d.outstanding index
  | 7 => if index % 16 = 12 ∨ index % 16 = 13 ∨ index % 16 = 14 then (d.queue index).binBytes else 0
  | 8 => d.prefetch index
  | _ => 0

end Sys2Proof.Machine
end

