-- ==== Sys2Proof/Machine/Act.lean ====
section
/-! DEFINITION. Device time passes, and the monitors look at what they watch (15 R491, R492). -/

namespace Sys2Proof.Machine

/-- Core-clock cycles that begin in a span of device time (00, 01 R17): 1.6 GHz is two cycles in five units of 0.25 ns. -/
def coreCycles (start stop : Q) : Nat := stop * 2 / 5 - start * 2 / 5

/-- The peak restarted or raised (15 R492). -/
def Monitor.peak (m : Monitor) (old now : Nat) : Nat := if m.below then min old now else max old now

/-- Whether an occupancy counts towards a monitor's cycles (15 R492). -/
def Monitor.hits (m : Monitor) (occ : Nat) : Bool := if m.below then decide (occ < m.thresh) else decide (m.thresh < occ)

/-- A monitor that watches something (15 R491). -/
def Monitor.live (m : Monitor) : Bool := m.en && m.kind != 0

/-- Device time passes; an enabled monitor counts the cycles in which its occupancy lies beyond its threshold. -/
def Dev.elapse (d : Dev) (dt : Nat) : Dev :=
  let n := coreCycles d.now (d.now + dt)
  let d' := d.each d.cnt.monitors fun (m, mon) d' =>
    d'.when (mon.live && mon.hits (d.occupancy mon.kind mon.index)) fun d' => d'.count (cMon m 0) n
  { d' with now := d.now + dt }

/-- Device time reaches an instant that a timer of the module waited for. -/
def Dev.reach (d : Dev) (t : Q) : Dev := d.elapse (t - d.now)

/-- The live value of a counter set outright: monitors' peaks (15 R486). -/
def Dev.setLive (d : Dev) (key v : Nat) : Dev := d.cntM fun c => { c with live := AMap.set c.live key v }

/-- The peaks take what a row left behind. -/
def Dev.settle (d : Dev) : Dev :=
  d.each d.cnt.monitors fun (m, mon) d' =>
    d'.when mon.live fun d' =>
      d'.setLive (cMon m 1) (mon.peak (AMap.getD d'.cnt.live (cMon m 1) 0) (d.occupancy mon.kind mon.index))

end Sys2Proof.Machine
end

