-- ==== Sys2Proof/Machine/Command.lean ====
section
/-! DEFINITION. The mechanics that every command shares (12 R414 to R421, 13 R439 to R458, 17 R535): fetch, checks, acceptance,
claims, completion and abort. What one command does is a `CmdSpec` of its block. -/

namespace Sys2Proof.Machine

/-! ### Status codes (13 R444) -/

def stOk : Nat := 0x00
def stInterim : Nat := 0x01
def stRejected : Nat := 0x10
def stConflict : Nat := 0x11
def stLocked : Nat := 0x12
def stNotPermitted : Nat := 0x13
def stFailed : Nat := 0x20
def stTakenOver : Nat := 0x21
def stFlushed : Nat := 0x22
def stAborted : Nat := 0x23

/-- The four kinds of command (13 R439). -/
inductive CmdKind where
  | short | commit | waiting | long
  deriving DecidableEq, Repr

/-- A run of items of one kind that a commit claims (13 R445). -/
structure Claim where
  kind : Nat := 0
  lo : Nat := 0
  hi : Nat := 0
  deriving DecidableEq, Repr

/-- One item claimed. -/
def claim1 (kind i : Nat) : Claim := { kind, lo := i, hi := i }

def Claim.meets (a b : Claim) : Bool := a.kind == b.kind && decide (a.lo ≤ b.hi) && decide (b.lo ≤ a.hi)

/-- Kinds of item that commits claim, one number each. -/
def itPassing : Nat := 1
def itBudget : Nat := 2
def itLane : Nat := 3
def itSlot : Nat := 4
def itSeat : Nat := 5
def itProt : Nat := 6
def itPrs : Nat := 7
def itRule : Nat := 8
def itMeter : Nat := 9
def itFdbKey : Nat := 10
def itVlan : Nat := 11
def itFwdPort : Nat := 12
def itClassMap : Nat := 13
def itGroup : Nat := 14
def itStream : Nat := 15
def itMirror : Nat := 16
def itRegion : Nat := 17
def itPoint : Nat := 18
def itSpill : Nat := 19
def itVoq : Nat := 20
def itSchQueue : Nat := 21
def itSchPort : Nat := 22
def itPolicy : Nat := 23
def itVbound : Nat := 24
def itMonitor : Nat := 25
def itEvc : Nat := 26
def itPair : Nat := 27
def itProfile : Nat := 28
def itPortMap : Nat := 29
def itEtypes : Nat := 30
def itPort : Nat := 31

/-- What one command is: its row of the opcode index, its checks and its effects. -/
structure CmdSpec where
  op : Nat
  kind : Cmd → CmdKind := fun _ => .short
  /-- A user ring may issue it (13 R459). -/
  user : Bool := false
  /-- It needs the officer's signature (18 R571). -/
  officer : Bool := false
  pairWide : Bool := false
  /-- It is journalled while PAIRED (17 R535). -/
  journal : Bool := true
  /-- It reads host memory at acceptance, or writes it. -/
  reads : Bool := false
  writes : Bool := false
  /-- Seal scopes that refuse it (18 R575). -/
  seals : Nat := 0
  /-- Step 4 of 13 R441: result of the rejection, if it fails. -/
  check : Dev → CmdEntry → Option Nat := fun _ _ => none
  /-- Step 7: result of ST_NOT_PERMITTED, if it fails. -/
  permit : Dev → CmdEntry → Option Nat := fun _ _ => none
  /-- Step 8. -/
  admits : Dev → CmdEntry → Option Nat := fun _ _ => none
  /-- Items a commit claims, and whether it fits beside the winners before it (13 R445). -/
  claims : Dev → CmdEntry → List Claim := fun _ _ => []
  fits : Dev → CmdEntry → List Cmd → Bool := fun _ _ _ => true
  /-- Effect on acceptance. A short command completes itself here. -/
  accept : Cmd → Dev → Dev := fun _ d => d
  /-- Effect at its bell, completion included. -/
  apply : Cmd → Dev → Dev := fun _ d => d
  /-- Place among the changes of one bell (01 R28), ten to each item. -/
  rank : Nat := 76
  /-- Effect of an abort, if one is allowed (13 R454). -/
  abort : Cmd → Dev → Option Dev := fun _ _ => none

/-! ### Commands in flight -/

/-- Two records of one command. -/
def Cmd.same (a b : Cmd) : Bool := a.mirrored == b.mirrored && a.e.ring == b.e.ring && a.e.tag == b.e.tag

/-- The command in flight of a ring and tag (12 R415). -/
def Dev.cmdAt (d : Dev) (ring tag : Nat) : Option Cmd :=
  d.hif.inflight.find? fun c => !c.mirrored && c.e.ring == ring && c.e.tag == tag

/-- Final completions that wait to be written, for room or for the buddy to store their record, and satisfy a test (12 R411, 17 R537). -/
def Dev.unwritten (d : Dev) (p : Compl → Bool) : Nat :=
  sumBy d.hif.owed (fun x => b2n (p x.2)) + sumBy d.bdy.own fun o => match o with | .completion _ _ c => b2n (p c) | .fetch _ _ _ => 0

/-- Commands in flight of this module's rings. -/
def Dev.inflightCount (d : Dev) : Nat :=
  sumBy d.hif.inflight (fun c => b2n (!c.mirrored)) + d.unwritten fun c => c.kind == 0

/-- Change a command in flight. -/
def Dev.cmdM (d : Dev) (c : Cmd) (f : Cmd → Cmd) : Dev :=
  d.hifM fun h => { h with inflight := h.inflight.map fun x => if x.same c then f x else x }

/-- Progress in basis points (12 R420, 13 R455): an operation whose position counts down gives the part that has gone. -/
def Cmd.bp (c : Cmd) : Nat :=
  if c.total = 0 then 0
  else if c.op = 0x0601 then 10000 * (c.total - min c.pos c.total) / c.total
  else satTo 9999 (10000 * c.pos / c.total)

/-- Totals that completions carry in their result (13 R458). -/
def Cmd.reports (c : Cmd) : Bool := c.op == 0x1102 || c.op == 0x1202 || (c.op == 0x1003 && (c.e.f 16 2 0 == 5 || c.e.f 16 2 0 == 6))

/-- Take a command out of flight, its progress entry with it, and out of what barriers await. -/
def Dev.unflight (d : Dev) (c : Cmd) : Dev :=
  d.hifM fun h => { h with
    inflight := (h.inflight.filter fun x => !x.same c).map fun x =>
      if c.mirrored then x else { x with waits := x.waits.filter fun w => !(w.1 == c.e.ring && w.2 == c.e.tag) }
    prog := h.prog.filter fun p => c.mirrored || !(p.2.1 == c.e.tag && p.2.2.1 == c.e.ring) }

/-- The final completion entry of a command (12 R417). -/
def Cmd.completion (c : Cmd) (status result : Nat) : Compl :=
  { op := c.op, tag := c.e.tag, kind := 0, status, ring := c.e.ring, cookie := c.e.cookie
    result := if c.stage == .long && c.reports then c.total ||| result else result
    value := if c.stage == .long then c.pos else 0
    index := if c.stage == .long then (if status = stOk then 10000 else c.bp) else 0 }

/-- What became of a mirrored command: kept with the record for a take-over (17 R547). -/
def Dev.setFate (d : Dev) (c : Cmd) (fate : Nat) : Dev :=
  d.bdyM fun b => { b with held := b.held.map fun r =>
    if r.entry.ring == c.e.ring && r.entry.tag == c.e.tag && r.fate == 0 then { r with fate } else r }

/-- Opcodes whose commands are local configuration. -/
def shadowOps : List Nat :=
  [0x0302, 0x0303, 0x0401, 0x0402, 0x0403, 0x0404, 0x0501, 0x0502, 0x0503, 0x0601, 0x0602, 0x0603, 0x0604, 0x0701, 0x0702, 0x0706,
    0x0801, 0x0802, 0x0803, 0x0804, 0x0805, 0x0902, 0x0A06, 0x0A07, 0x0A08, 0x0A09, 0x0A0A, 0x0A0B, 0x0B01, 0x0B02, 0x0B04, 0x0C01,
    0x0C02, 0x0E01, 0x0E02]

/-- A command as the shadow holds it: bytes 16 to 63, and above them the host memory that it read. -/
def shadowBody (e : CmdEntry) : Nat := e.body % 2 ^ 384 + natLE e.mem * 2 ^ 384

/-- A local command that ends with ST_OK has changed this module's own local configuration, which a rejoin may send (17 R549). -/
def Dev.noteLocal (d : Dev) (c : Cmd) : Dev :=
  if shadowOps.contains c.op then d.hifM fun h => { h with applied := h.applied ++ [(c.op, shadowBody c.e)] } else d

/-- A command ends: its final completion is written, or, for one mirrored from the buddy, its fate is kept (12 R418). -/
def Dev.finish (d : Dev) (c : Cmd) (status result : Nat) : Dev :=
  let d := d.unflight c
  if c.mirrored then d.setFate c (status + 1)
  else
    let d := d.when (status == stOk) fun d => d.noteLocal c
    (d.when (status == stAborted) fun d => d.count (cRing c.e.ring 3) 1).complete c.cring (c.completion status result)

/-- The same, for a command named by ring and tag, with the command as it now stands. -/
def Dev.finishAt (d : Dev) (ring tag status result : Nat) : Dev :=
  match d.cmdAt ring tag with
  | some c => d.finish c status result
  | none => d

/-! ### Fetch (12 R411, R415, R416) -/

/-- Final completions owed to completion ring k. -/
def Dev.finalsOwed (d : Dev) (k : Nat) : Nat :=
  sumBy d.hif.inflight (fun c => b2n (!c.mirrored && c.cring == k)) +
    sumBy d.hif.tx (fun t => b2n (decide (t.ring < 64) && (d.ring (64 + t.ring)).lCring == k)) +
    sumBy d.hif.owed (fun p => b2n (p.1 == k)) +
    sumBy d.bdy.own (fun o => match o with | .completion _ r _ => b2n (r == k) | .fetch _ _ _ => 0)

/-- The bound completion ring of ring g has room for a final completion (12 R411). -/
def Dev.bindRoom (d : Dev) (g : Nat) : Bool :=
  let k := (d.ring g).lCring
  let r := d.ring (32 + k)
  r.state != .off && decide (r.filled + d.finalsOwed k < r.n)

/-- The head of a ring waits for earlier commands of the ring (12 R416). -/
def Dev.fenced (d : Dev) (g : Nat) : Bool :=
  d.hif.inflight.any fun c => !c.mirrored && c.e.ring == g && c.stage == .fetched && c.e.fence

/-- The device may fetch from command ring g (12 R415). -/
def Dev.mayFetch (d : Dev) (g : Nat) : Bool :=
  decide (g < 32) && (d.ring g).state != .off && !(d.ring g).fetchEnded && d.bindRoom g && !d.fenced g && decide (d.inflightCount < 4096)

/-- Fetch one entry of ring g: steps 1 and 2 of 13 R441. A ring that is STOPPING completes it unexecuted (12 R410). -/
def Dev.fetchCmd (d : Dev) (known : Bool) (op : Nat) (e : CmdEntry) : Dev :=
  let g := e.ring
  let r := d.ring g
  let d := (d.ringM g fun r => { r with devIdx := (r.devIdx + 1) % (2 * r.n) }).count (cRing g 2) 1
  let c : Cmd := { e, op, cring := r.lCring, entry := r.devIdx % r.n }
  if r.state == .stopping then (d.count (cRing g 3) 1).complete r.lCring (c.completion stAborted 0)
  else if !known then d.complete r.lCring (c.completion stRejected 0)
  else if (d.cmdAt g e.tag).isSome || d.unwritten (fun x => x.kind == 0 && x.ring == g && x.tag == e.tag) != 0 then d.complete r.lCring (c.completion stRejected 0xFFFFFFFF)
  else d.hifM fun h => { h with inflight := h.inflight ++ [c] }

/-! ### Officer signature (18 R571, R572) -/

/-- Why an officer command is denied: the reasons of 18 R572 in their order, or none. -/
def Dev.officerDenied (d : Dev) (op : Nat) (e : CmdEntry) : Option Nat :=
  let x := e.extBytes
  let seq := natLE ((x.drop 16).take 8)
  let msg := bytesLE 2 op ++ e.bytes 16 48 ++ x.take 64
  let key := d.prc.key.flatMap fun w => bytesBE 4 w
  if d.prc.state == .boot || d.prc.state == .selftest || d.prc.state == .error then some 6
  else if d.prc.keyState ≠ 2 then some 1
  else if !e.ext || x.length ≠ 128 || natLE (x.take 2) ≠ 1 then some 2
  else if natLE ((x.drop 8).take 8) ≠ Config.serial then some 3
  else if seq ≤ d.prc.officerSeq then some 4
  else if !Config.sm2Verify key msg ((x.drop 64).take 64) then some 5
  else none

/-- The officer's check with its records: none when it passes (18 R572). -/
def Dev.officerStep (d : Dev) (op : Nat) (e : CmdEntry) : Dev × Option Nat :=
  match d.officerDenied op e with
  | some r => ((d.audit 7 op r).count (cDev 313) 1, some r)
  | none =>
    let seq := natLE ((e.extBytes.drop 16).take 8)
    (((d.prcM fun p => { p with officerSeq := seq }).audit 6 op seq).count (cDev 312) 1, none)

/-- Scopes that refuse commands now: sealed, or being sealed (18 R575, R577). -/
def Dev.sealScopes (d : Dev) : Nat :=
  d.prc.sealing.foldl (fun acc s => acc ||| s.scope) d.prc.sealed

/-! ### Acceptance (13 R441 steps 3 to 9) -/

/-- Lowest free entry of the progress window (12 R420). -/
def Dev.freeProg (d : Dev) : Option Nat :=
  (List.range 64).find? fun k => !(d.hif.prog.any fun p => p.1 == k)

/-- The module takes the command on: a commit waits for its settlement, another acts now (12 R416). The first command
accepted after start-up makes the module operational (19 R594). -/
def Dev.takeUp (d : Dev) (sp : CmdSpec) (c : Cmd) : Dev :=
  let stage : CmdStage := match sp.kind c with
    | .commit => .accepted d.bel.seq
    | .long => .long
    | _ => .waiting
  let entry := d.freeProg.getD 0
  let c' : Cmd := { c with stage, order := d.hif.accepted, since := d.now, prog := entry }
  let d := d.cmdM c fun _ => c'
  let d := d.hifM fun h => { h with
    accepted := h.accepted + 1
    prog := if stage == .long && !c.mirrored then AMap.set h.prog entry (c.e.tag, c.e.ring, 0, 0) else h.prog }
  let d := d.glbM fun g => { g with phase := if g.phase = 5 then 6 else g.phase }
  sp.accept c' d

/-- The journal record of a command (17 R535). -/
def Dev.sendJournal (d : Dev) (c : Cmd) : Dev :=
  let s := d.bdy.nextSeq
  let d := d.bdyM fun b => { b with nextSeq := s + 1 }
  (d.emit (.buddyMsg bmJournal ([s, c.op, c.e.ring, c.entry, c.e.tag, c.e.cookie, c.e.body] ++ c.e.extBytes ++ c.e.mem))).count (cDev 290) 1

/-- Step 9 outside PAIRED (17 R545, R549): pair-wide commands only on the authority; in SYNCING the target takes neither
pair-wide nor, when its local state is being restored, local commands. -/
def Dev.pairRefuses (d : Dev) (sp : CmdSpec) : Bool :=
  match d.bdy.state with
  | .off => false
  | .paired => false
  | .syncing =>
    match d.bdy.rejoin with
    | some r => !r.source && (sp.pairWide || r.restoreLocal)
    | none => sp.pairWide && !d.bdy.authority
  | _ => sp.pairWide && !d.bdy.authority

/-- Step 9: journal the command, or take it up. -/
def Dev.stepNine (d : Dev) (sp : CmdSpec) (c : Cmd) : Dev :=
  if d.pairRefuses sp then d.finish c stNotPermitted 0
  else if d.bdy.state == .paired && sp.journal then
    (d.cmdM c fun c => { c with stage := .journalled }).sendJournal c
  else if d.bdy.state == .syncing && sp.journal && (match d.bdy.rejoin with | some r => r.source | none => false) then (d.takeUp sp c).sendJournal c
  else d.takeUp sp c

/-- Steps 4 to 8: the status and result of the first check that fails (13 R441). -/
def Dev.checks (d : Dev) (sp : CmdSpec) (e : CmdEntry) : Option (Nat × Nat) :=
  match sp.check d e with
  | some r => some (stRejected, r)
  | none =>
    if d.sealScopes &&& sp.seals ≠ 0 then some (stLocked, 0)
    else match sp.permit d e with
      | some r => some (stNotPermitted, r)
      | none =>
        match sp.admits d e with
        | some r => some (stRejected, r)
        | none => none

/-- Audit key of a locked command: its opcode, apart from register offsets (18 R581). -/
def lockedOpKey (op : Nat) : Nat := 2 ^ 32 + op

/-- Steps 4 to 9 for a command of this module's rings. -/
def Dev.stepsFour (d : Dev) (sp : CmdSpec) (c : Cmd) : Dev :=
  match d.checks sp c.e with
  | some (st, r) =>
    let d := d.when (st == stLocked) fun d =>
      (d.auditFold (lockedOpKey c.op) 5 c.op (c.e.ring * 2 ^ 16 + c.e.tag)).count (cDev 314) 1
    d.finish c st r
  | none =>
    if sp.kind c == .long && d.freeProg.isNone then d.finish c stNotPermitted 0
    else if sp.reads && c.e.readFail then d.finish c stFailed 0
    else d.stepNine sp c

/-- Steps 3 to 9 of 13 R441. -/
def Dev.acceptCmd (d : Dev) (sp : CmdSpec) (c : Cmd) : Dev :=
  if (d.ring c.e.ring).user && !sp.user then d.finish c stNotPermitted 0
  else if sp.officer then
    if c.e.ext && c.e.readFail && d.prc.keyState == 2 then d.finish c stFailed 0
    else
      match d.officerStep c.op c.e with
      | (d, some r) => d.finish c stNotPermitted r
      | (d, none) => d.stepsFour sp c
  else d.stepsFour sp c

/-- The command of ring g whose turn it is to be accepted: the oldest one fetched, once a fence lets it (12 R416). -/
def Dev.turn (d : Dev) (g : Nat) : Option Cmd :=
  let mine := d.hif.inflight.filter fun c => !c.mirrored && c.e.ring == g
  match mine.find? fun c => c.stage == .fetched with
  | some c => if c.e.fence && (!(mine.head?.any fun h => h.same c) || d.unwritten (fun x => x.kind == 0 && x.ring == g) != 0) then none else some c
  | none => none

/-- The host writes the next entry of the ring and rings its doorbell, where the ring has room (12 R405, R406). -/
def Dev.hostPosts (d : Dev) (g : Nat) : Dev :=
  let r := d.ring g
  if r.waiting = 0 then
    (d.ringM g fun r => { r with hostIdx := (r.hostIdx + 1) % (2 * r.n), doorbell := (r.hostIdx + 1) % (2 * r.n) }).count (cRing g 0) 1
  else d

/-- A command row: the host has posted the command as the next entry of its ring, and the module fetches it and accepts
it as far as rings, room and fences allow (12 R411, R415, R416). -/
def Dev.submit (d : Dev) (sp : CmdSpec) (e : CmdEntry) : Dev :=
  let g := e.ring
  if decide (32 ≤ g) || (d.ring g).state != .running then d
  else
    let d := d.hostPosts g
    if d.mayFetch g then
      let d := d.fetchCmd true sp.op e
      match d.turn g with
      | some c => if c.op == sp.op && c.e == e then d.acceptCmd sp c else d
      | none => d
    else d

/-! ### Claims (13 R445) -/

/-- Order of settlement of the commands of one module or of both: ring, tag, module (01 R29, 17 R536). -/
def Dev.orderKey (d : Dev) (c : Cmd) : Nat :=
  (c.e.ring * 4096 + c.e.tag) * 2 + (if c.mirrored then 1 - d.bdy.index else d.bdy.index)

/-- Put a command into a list that is in order of a key. -/
def insertBy (key : Cmd → Nat) (c : Cmd) : List Cmd → List Cmd
  | [] => [c]
  | x :: r => if key c < key x then c :: x :: r else x :: insertBy key c r

def sortBy (key : Cmd → Nat) (l : List Cmd) : List Cmd := l.foldl (fun acc c => insertBy key c acc) []

/-- Whether claims meet any of the claimed items. -/
def meetsAny (mine claimed : List Claim) : Bool := mine.any fun a => claimed.any fun b => a.meets b

/-! ### Interims (12 R420, R421) -/

/-- Write an interim completion into room that no final completion needs, or count it skipped. -/
def Dev.interim (d : Dev) (c : Cmd) : Dev :=
  let d := d.hifM fun h => { h with prog := AMap.set h.prog c.prog (c.e.tag, c.e.ring, c.bp, c.pos) }
  let x : Compl := { op := c.op, tag := c.e.tag, kind := 0, status := stInterim, ring := c.e.ring, cookie := c.e.cookie
                     module := d.module, value := c.pos, index := c.bp, result := if c.reports then c.total else 0 }
  -- after an FLR, interims go to the ledger's ring (12 R434)
  let k := if 32 ≤ c.cring then d.hif.ledgerRing else c.cring
  let r := d.ring (32 + k)
  if r.state != .off && decide (r.filled + d.finalsOwed k < r.n) then d.writeEntry (32 + k) (x.bytes d.bell24)
  else d.count (cRing (32 + k) 3) 1

/-- A short command whose readout goes to host memory: data written, then ST_OK. -/
def Dev.readOut (d : Dev) (c : Cmd) (addr : Nat) (bytes : List Byte) (result : Nat) : Dev :=
  (d.emit (.data addr bytes)).finish c stOk result

/-! ### Fields that many commands share -/

/-- Port field of a command entry: byte 16 bits [15:0], clamped to the variant (00 R3). -/
def Dev.portField (d : Dev) (e : CmdEntry) : Nat := d.clampLane (e.f 16 15 0)

/-- A command that names as a port a lane which heads no port is rejected (13 R443). -/
def Dev.needsPort (d : Dev) (e : CmdEntry) : Option Nat :=
  if d.portExists (d.portField e) then none else some (rejField 16 0)

/-- The first rejection of a list. -/
def firstOf : List (Option Nat) → Option Nat
  | [] => none
  | some r :: _ => some r
  | none :: l => firstOf l

/-- Fields of a record: byte offset, lowest bit from that offset, width in bits, value. -/
def packRec (n : Nat) (fs : List (Nat × Nat × Nat × Nat)) : List Byte :=
  bytesLE n (fs.foldl (fun acc f => acc + (f.2.2.2 % 2 ^ f.2.2.1) * 2 ^ (8 * f.1 + f.2.1)) 0)

/-- Abort of a commit: nothing applied, its share of admission released (13 R454). -/
def abortPlain (c : Cmd) (d : Dev) : Option Dev := some (d.finish c stAborted 0)

/-- Commits of all kinds, which complete with ST_OK when they have been applied. -/
def okAfter (c : Cmd) (d : Dev) : Dev := d.finish c stOk 0

end Sys2Proof.Machine
end

