-- ==== Sys2Proof/Machine/Capacity.lean ====
section
/-! DEFINITION. Capacities of ports: slots assigned, rates and the budget check (01 R30, R31, 09 R339). -/

namespace Sys2Proof.Machine

def Dev.belPort (d : Dev) (n : Nat) : BelPort := AMap.getD d.bel.ports n {}
def Dev.belPortM (d : Dev) (n : Nat) (f : BelPort → BelPort) : Dev :=
  d.belM fun b => { b with ports := AMap.upd b.ports n {} f }

def Dev.ttbLane (d : Dev) (l : Nat) : TtbLane := AMap.getD d.ttb.lanes l {}
def Dev.ttbLaneM (d : Dev) (l : Nat) (f : TtbLane → TtbLane) : Dev :=
  d.ttbM fun t => { t with lanes := AMap.upd t.lanes l {} f }

/-- Slot entry of a page (05 R166); an entry never written is 0. -/
def Page.slot (p : Page) (s : Nat) : Nat := AMap.getD p.slots s 0

/-- Slots that a page assigns: mode 1 or 2 (05 R168). -/
def Page.assigned (p : Page) : Nat := sumBy (List.range 20) fun s => b2n (bits (p.slot s) 1 0 == 1 || bits (p.slot s) 1 0 == 2)

def TtbLane.activePage (t : TtbLane) : Page := if t.active then t.pageB else t.pageA
def TtbLane.standbyPage (t : TtbLane) : Page := if t.active then t.pageA else t.pageB

/-- Slots assigned on a port's lanes by the active page, and by the larger of both pages (01 R30). -/
def Dev.assignedActive (d : Dev) (n : Nat) : Nat := sumBy (d.portLanes n) fun l => (d.ttbLane l).activePage.assigned
def Dev.assignedStandby (d : Dev) (n : Nat) : Nat := sumBy (d.portLanes n) fun l => (d.ttbLane l).standbyPage.assigned
def Dev.assignedMost (d : Dev) (n : Nat) : Nat := max (d.assignedActive n) (d.assignedStandby n)

def Dev.flexe (d : Dev) (n : Nat) : FlexE := AMap.getD d.zbn.flexe n {}
def Dev.flexeM (d : Dev) (n : Nat) (f : FlexE → FlexE) : Dev :=
  d.zbnM fun z => { z with flexe := AMap.upd z.flexe n {} f }

/-- Client rate of a FlexE calendar: 5 Gbit/s for each client slot (04 R154). -/
def calendarBps (slots : Nat) : Nat := popcount 20 slots * 5000000000

/-- A rate as a numerator over 20,484: the payload share of a Zuben lane is 20,480 / 20,484 (01 R30). -/
def zubenNum (lanes assigned : Nat) : Nat := (20 * lanes - assigned) * 5000000000 * 20480

/-- rate_bps of 01 R30 times 20,484, with the slots taken as assigned. -/
def Dev.rateNum (d : Dev) (n assigned : Nat) : Nat :=
  let p := d.port n
  if p.framing = 1 then zubenNum p.laneCount assigned
  else if p.framing = 2 then min (calendarBps (d.flexe n).calA) (calendarBps (d.flexe n).calB) * 20484
  else p.bps * 20484

/-- cap of 01 R30 for a period, slew, guard and class 15 reserve; shown as 0 where it falls below. -/
def capOf (rateNum period slew guard b15 : Nat) : Nat :=
  rateNum * (period - slew - 2 * guard) / (8000000000 * 20484) - 9236 - b15

/-- BEL_CAP of a port (01 R30). -/
def Dev.cap (d : Dev) (n : Nat) : Nat :=
  capOf (d.rateNum n (d.assignedMost n)) d.bel.period d.bel.slew d.bel.guard (d.belPort n).b15

/-- BEL_COMMIT of a port. -/
def BelPort.commit (b : BelPort) : Nat := b.b12 + b.b13 + b.b14

/-- The periods that are current or pending (01 R31). -/
def Dev.periods (d : Dev) : List Nat :=
  d.bel.period :: (match d.bel.pend with | some p => [p.period] | none => [])

/-- A port would be overfilled: budgets above the capacity, where any budget is set (01 R31). -/
def overfilled (b : BelPort) (cap : Nat) : Bool := b.commit != 0 && decide (cap < b.commit)

/-- A port fits under every period that is current or pending, with the budgets, slots, slew and guard given. -/
def Dev.portFits (d : Dev) (b : BelPort) (rateNum slew guard : Nat) : Bool :=
  d.periods.all fun p => !overfilled b (capOf rateNum p slew guard b.b15)

/-- Capacity of a port in bit/s times 20,484 (09 R339): the active page's slots, the FlexE calendar in use. -/
def Dev.capacityNum (d : Dev) (n : Nat) : Nat :=
  let p := d.port n
  if p.framing = 1 then zubenNum p.laneCount (d.assignedActive n)
  else if p.framing = 2 then calendarBps (if (d.flexe n).calTx then (d.flexe n).calB else (d.flexe n).calA) * 20484
  else p.bps * 20484

/-- SCH_PORT_RATE in kbit/s (09 R339). -/
def Dev.portRate (d : Dev) (n : Nat) : Nat := if d.portExists n then d.capacityNum n / (20484 * 1000) else 0

end Sys2Proof.Machine
end

