-- ==== Sys2Proof/Machine/Channels.lean ====
section
/-! DEFINITION. The command queues of the far-store channels (10 R350 to R353): requests wait at the arbiter for room, enter the read or
the write queue of 64 bursts, and are issued in the order that open rows, age, drain mode, in-order mode and panic give. When a channel
issues shows only in time; the model issues at the latest when a row shows that a request has been served. -/

namespace Sys2Proof.Machine

def Dev.chanM (d : Dev) (i : Nat) (f : Chan → Chan) : Dev :=
  d.drcM fun r => { r with chans := AMap.upd r.chans i {} f }

/-! ### One channel -/

/-- Bursts of a read or write queue (10 R351). -/
def queueBursts : Nat := 64

/-- Bursts that requests still ask for. -/
def burstsOf (l : List DramReq) : Nat := sumBy l fun r => r.n

/-- A request goes before another: it entered in an earlier core-clock cycle, or in the same one with a better rank (10 R351). -/
def DramReq.before (a b : DramReq) : Bool :=
  decide (a.at_ * 2 / 5 < b.at_ * 2 / 5) ||
    (a.at_ * 2 / 5 == b.at_ * 2 / 5 && (decide (a.rank < b.rank) || (a.rank == b.rank && decide (a.id < b.id))))

/-- The first of some requests by an order. -/
def firstBy (lt : DramReq → DramReq → Bool) (l : List DramReq) : Option DramReq :=
  l.foldl (fun m x => some (match m with | none => x | some y => if lt x y then x else y)) none

/-- The oldest of some requests. -/
def oldestOf (l : List DramReq) : Option DramReq := firstBy DramReq.before l

/-- Two requests are for one row of one bank. -/
def DramReq.sameRow (a b : DramReq) : Bool := a.bank == b.bank && a.row == b.row

/-- The queue that a request enters. -/
def Chan.queueFor (c : Chan) (write : Bool) : List DramReq := if write then c.writes else c.reads

/-- A waiting request may enter: its client is granted (10 R350, R355), its queue has room, and no write to its row waits before it. -/
def Chan.mayEnter (c : Chan) (panic : Bool) (r : DramReq) : Bool :=
  (!panic || decide (r.rank < 5)) && decide (burstsOf (c.queueFor r.write) < queueBursts) &&
    !(c.waits.any fun w => w.write && w.sameRow r && decide (w.id < r.id))

/-- Clients are granted by rank, and one that was refused before others of its rank (10 R350, R351). -/
def Chan.entrant (c : Chan) (panic : Bool) : Option DramReq :=
  firstBy (fun a b => decide (a.rank < b.rank) || (a.rank == b.rank && decide (a.id < b.id))) (c.waits.filter fun r => c.mayEnter panic r)

/-- A channel at work: what it has written, and the entries of its banks into in-order mode. -/
structure ChanWork where
  c : Chan
  wrote : Nat := 0
  ordered : Nat := 0
  deriving DecidableEq, Repr

/-- Bursts of a request enter its queue, as many as there is room for; a row that a pending write has too puts the bank into in-order mode (10 R353). -/
def ChanWork.enter (x : ChanWork) (now : Q) (r : DramReq) : ChanWork :=
  let c := x.c
  let k := min r.n (queueBursts - burstsOf (c.queueFor r.write))
  let part := { r with n := k, at_ := now }
  let waits := if k < r.n then c.waits.map fun w => if w.id = r.id then { w with first := w.first + k, n := w.n - k } else w
    else c.waits.filter fun w => w.id != r.id
  let hits := c.writes.filter fun w => w.sameRow r && w.id != r.id
  let fresh := !hits.isEmpty && (AMap.find? c.inOrder r.bank).isNone
  let inOrder := if hits.isEmpty then c.inOrder else AMap.set c.inOrder r.bank (hits.foldl (fun m w => max m w.id) 0)
  let c := if r.write then { c with writes := c.writes ++ [part] } else { c with reads := c.reads ++ [part] }
  { x with c := { c with waits, inOrder }, ordered := x.ordered + b2n fresh }

/-- Every waiting request that finds room enters; at most fuel of them. -/
def ChanWork.enterAll (panic : Bool) (now : Q) : Nat → ChanWork → ChanWork
  | 0, x => x
  | n + 1, x =>
    match x.c.entrant panic with
    | some r => ChanWork.enterAll panic now n (x.enter now r)
    | none => x

/-- Drain mode is entered at wq_hi or without a pending read, and left at wq_lo once a read is pending; panic knows none (10 R352, R355). -/
def Chan.drains (c : Chan) (panic : Bool) (hi lo : Nat) : Bool :=
  let w := burstsOf c.writes
  !panic && ((if c.drain then decide (lo < w) else decide (hi ≤ w)) || (c.reads.isEmpty && decide (0 < w)))

/-- What a bank issues of some of its requests: to its open row first, else the oldest (10 R351). -/
def Chan.bankPick (c : Chan) (bank : Nat) (l : List DramReq) : Option DramReq :=
  let l := l.filter fun r => r.bank == bank
  match oldestOf (l.filter fun r => AMap.find? c.openRow bank == some r.row) with
  | some r => some r
  | none => oldestOf l

/-- The next request of a channel: of the banks' choices the oldest. A bank in in-order mode offers its oldest request whatever the mode
is; in panic a write goes only to a bank without a pending read, once no read can (10 R351 to R353, R355). -/
def Chan.pick (c : Chan) (panic drain : Bool) : Option DramReq :=
  let all := c.reads ++ c.writes
  let bound := fun (r : DramReq) => (AMap.find? c.inOrder r.bank).isSome
  let strict := (c.inOrder.filterMap fun p => oldestOf (all.filter fun r => r.bank == p.1))
  let offers := fun (l : List DramReq) =>
    let l := l.filter fun r => !bound r
    (l.map fun r => r.bank).eraseDups.filterMap fun b => c.bankPick b l
  match oldestOf (strict ++ offers (if drain then c.writes else c.reads)) with
  | some r => some r
  | none => if panic then oldestOf (offers (c.writes.filter fun w => !(c.reads.any fun r => r.bank == w.bank))) else none

/-- One burst of a request is issued; in-order mode ends with the write that it waited for. -/
def ChanWork.issue (x : ChanWork) (drain : Bool) (r : DramReq) : ChanWork :=
  let c := x.c
  let less := fun (l : List DramReq) => (l.map fun y => if y.id = r.id then { y with first := y.first + 1, n := y.n - 1 } else y).filter fun y => y.n != 0
  let c := if r.write then { c with writes := less c.writes } else { c with reads := less c.reads }
  let left := fun (id : Nat) => (c.writes ++ c.waits).any fun w => w.id == id
  { x with
    c := { c with drain, openRow := AMap.set c.openRow r.bank r.row, inOrder := c.inOrder.filter fun p => left p.2 }
    wrote := x.wrote + b2n r.write }

/-- A channel serves its queues until a test holds; at most fuel bursts. -/
def ChanWork.run (panic : Bool) (hi lo : Nat) (now : Q) (stop : Chan → Bool) : Nat → ChanWork → ChanWork
  | 0, x => x.enterAll panic now x.c.waits.length
  | n + 1, x =>
    let x := x.enterAll panic now x.c.waits.length
    if stop x.c then x
    else
      let drain := x.c.drains panic hi lo
      match x.c.pick panic drain with
      | some r => ChanWork.run panic hi lo now stop n (x.issue drain r)
      | none => x

/-- Requests of a channel, those that wait for room included. -/
def Chan.requests (c : Chan) : List DramReq := c.reads ++ c.writes ++ c.waits

/-! ### The channels of the module -/

/-- A channel serves its queues until a test holds; bursts written and entries into in-order mode are counted (10 R373). Dual writes that
outlast a cut-over stop with the last write pending (10 R362). -/
def Dev.serveChan (d : Dev) (i : Nat) (stop : Chan → Bool) : Dev :=
  let c := d.chan i
  let x := ChanWork.run (d.stack (i / 34)).panic d.drc.wqHi d.drc.wqLo d.now stop (burstsOf c.requests) { c }
  let d := d.chanM i fun _ => { x.c with lasting := if x.c.writes.isEmpty && !(x.c.waits.any fun w => w.write) then none else x.c.lasting }
  (d.when (x.wrote != 0) fun d => d.count (cChan i 3) x.wrote).when (x.ordered != 0) fun d => d.count (cChan i 4) x.ordered

/-- A client asks a channel for bursts of one row. -/
def Dev.askChan (d : Dev) (i : Nat) (r : DramReq) : Dev :=
  let r := { r with id := d.drc.asked }
  let d := d.drcM fun x => { x with asked := x.asked + 1 }
  -- what a client writes is whole again
  let heals := fun (k : Nat) => r.write && k / 64 == rowKey r.bank r.row && decide (r.first ≤ k % 64) && decide (k % 64 < r.first + r.n)
  (d.chanM i fun c => { c with waits := c.waits ++ [r], poison := c.poison.filter fun k => !heals k }).serveChan i fun _ => true

/-- A request of a client's rank for a row stands in a channel. -/
def Chan.has (c : Chan) (rank : Nat) (write : Bool) (bank row : Nat) : Bool :=
  c.requests.any fun r => r.rank == rank && r.write == write && r.bank == bank && r.row == row

/-- A client's request is made and served at once: no row of its own shows it. -/
def Dev.serveNow (d : Dev) (i : Nat) (r : DramReq) : Dev := (d.askChan i r).serveChan i fun c => !c.has r.rank r.write r.bank r.row

/-- Physical channels that client writes of a page go to: the one that serves it, the target of its dual writes, and one whose dual writes
outlast the cut-over (10 R348, R362). -/
def Dev.pageChans (d : Dev) (p : Nat) : List Nat :=
  let s := d.glb.part.stacks
  let k := p / s % 32
  ((List.range 34).map (34 * (p % s) + ·)).filter fun i =>
    (((d.chan i).holds || (d.chan i).state == .target) && (d.chan i).logical == k) || (d.chan i).lasting == some k

/-- Bursts of a page (10 R348) that a client of a rank asks for. -/
def Dev.pageReq (d : Dev) (p rank : Nat) (write : Bool) (first n : Nat) : DramReq :=
  let s := d.glb.part.stacks
  { rank, write, bank := p / (s * 32) % 32, row := p / (s * 1024), first, n }

/-- Channels that a request for a page goes to: reads to the one that serves it. -/
def Dev.reqChans (d : Dev) (p : Nat) (write : Bool) : List Nat := if write then d.pageChans p else (d.pageChans p).filter fun i => (d.chan i).holds

/-- A client asks for bursts of a page. -/
def Dev.askPage (d : Dev) (p rank : Nat) (write : Bool) (first n : Nat) : Dev :=
  d.each (d.reqChans p write) fun i d => d.askChan i (d.pageReq p rank write first n)

/-- A client's bursts of a page are asked for and served at once. -/
def Dev.pageNow (d : Dev) (p rank : Nat) (write : Bool) (first n : Nat) : Dev :=
  d.each (d.reqChans p write) fun i d => d.serveNow i (d.pageReq p rank write first n)

/-- A row shows that a client's request for a page has been served: the channels of its stack that hold it go on until it is. -/
def Dev.pageServed (d : Dev) (p rank : Nat) (write : Bool) : Dev :=
  let r := d.pageReq p rank write 0 0
  let k := d.pageStack p
  d.each ((d.drc.chans.filter fun x => x.1 / 34 == k && x.2.has rank write r.bank r.row).map (·.1)) fun i d =>
    d.serveChan i fun c => !c.has rank write r.bank r.row

end Sys2Proof.Machine
end

