-- ==== Sys2Proof/Machine/Store.lean ====
section
/-! DEFINITION. The frame store and the egress queues (08 R285 to R309): admission, XOFF, copies, spill and recall, flush. -/

namespace Sys2Proof.Machine

/-! ### Admission (08 R290, R291) -/

/-- floor(free shared cells × 2^alpha_exp), the step-2 limit (08 R290). -/
def alphaLimit (alpha : Int) (free : Nat) : Nat := if 0 ≤ alpha then free * 2 ^ alpha.toNat else free / 2 ^ (-alpha).toNat

/-- The step-2 limit of a point and class now. -/
def Dev.limitOf (d : Dev) (point cls : Nat) : Nat := alphaLimit (d.acct point cls).alphaExp d.nearFree

/-- A VOQ of the ingress port and class holds at least voq_max cells (08 R314). -/
def Dev.voqFull (d : Dev) (point cls : Nat) : Bool :=
  d.buf.voq && decide (point < 256) &&
    d.buf.voqs.any fun p => p.1 / 2048 == point && p.1 % 8 == cls && decide (d.buf.voqMax ≤ sumBy p.2 fun c => c.cells)

/-- XOFF asserted or released for a point and class; a port signals the change to its partner (08 R292, 03 R106). -/
def Dev.setXoff (d : Dev) (point cls : Nat) (on : Bool) : Dev :=
  let d := d.acctM point cls fun a => { a with xoff := on }
  let d := d.when on fun d => d.count (cAcct point cls 0) 1
  d.when (decide (point < 1024)) fun d => d.portM point fun p => { p with flowDue := true }

/-- Where the cells of a frame come from, if anywhere: steps 1 to 4 of 08 R290, with XOFF already asserted where step 2
fails. The last part says that step 4 was reached. -/
def Dev.sourceFor (d : Dev) (point cls n : Nat) : Option CellSource × Bool × Bool :=
  let a := d.acct point cls
  let free := d.nearFree
  if a.useMin + n ≤ a.minCells then (some .guaranteed, false, false)
  else if a.useShared + n ≤ d.limitOf point cls ∧ n ≤ free then (some .shared, false, false)
  else if a.useHead + n ≤ a.headroom then (some .headroom, true, false)
  else if n ≤ free then (some .shared, true, true)
  else (none, true, false)

/-- Add to the use that a source names. -/
def Account.charge (a : Account) (src : CellSource) (n : Nat) : Account :=
  match src with
  | .guaranteed => { a with useMin := a.useMin + n }
  | .shared => { a with useShared := a.useShared + n }
  | .headroom => { a with useHead := a.useHead + n }
  | .own => a

/-- Return cells to the use they were taken from (08 R290). -/
def Account.release (a : Account) (src : CellSource) (n : Nat) : Account :=
  match src with
  | .guaranteed => { a with useMin := a.useMin - n }
  | .shared => { a with useShared := a.useShared - n }
  | .headroom => { a with useHead := a.useHead - n }
  | .own => a

/-- Admit a frame of n cells for a point and class (08 R290, R291). -/
def Dev.takeCells (d : Dev) (point cls n : Nat) : Dev × Option CellSource :=
  match d.sourceFor point cls n with
  | (src, failed2, step4) =>
    let d := d.when (failed2 && !(d.acct point cls).xoff) fun d => d.setXoff point cls true
    let d := d.when step4 fun d =>
      let d := d.count (cAcct point cls 1) 1
      let d := if d.buf.hdrmPosted then d.occur 0x0B03 [.index point, .index cls] else d.post 0x0B03 [.index point, .index cls]
      d.bufM fun b => { b with hdrmPosted := true }
    match src with
    | some s => (d.acctM point cls fun a => a.charge s n, some s)
    | none => (d, none)

/-- XOFF of a pair is released once both conditions of 08 R291 hold; in VOQ mode its queues keep it too (08 R314). -/
def Dev.mayRelease (d : Dev) (point cls : Nat) : Bool :=
  let a := d.acct point cls
  decide (a.useShared + a.xonGap ≤ d.limitOf point cls) && a.useHead == 0 && !d.voqFull point cls

/-- Credit for the buddy that XOFF no longer withholds (08 R292, 17 R531). -/
def Dev.returnCredit (d : Dev) (cls : Nat) : Dev :=
  let n := AMap.getD d.bdy.creditOwed cls 0
  if n = 0 ∨ (d.acct ptBuddy cls).xoff = true ∨ d.bdy.linkUp = false then d
  else (d.bdyM fun b => { b with creditOwed := AMap.erase b.creditOwed cls }).emit (.buddyMsg bmCredit [cls, n])

/-- Look at every account: XOFF releases, and what VOQs assert. -/
def Dev.xoffScan (d : Dev) : Dev :=
  d.each d.buf.accounts fun (k, _) d =>
    let point := k / 16
    let cls := k % 16
    let d :=
      if (d.acct point cls).xoff then d.when (d.mayRelease point cls) fun d => d.setXoff point cls false
      else d.when (d.voqFull point cls) fun d => d.setXoff point cls true
    d.when (point == ptBuddy) fun d => d.returnCredit cls

/-- Give cells back to a point and class. -/
def Dev.uncharge (d : Dev) (point cls : Nat) (src : CellSource) (n : Nat) : Dev :=
  if n = 0 then d
  else
    let d := d.acctM point cls fun a => a.release src n
    let d := d.when (point == ptBuddy && src != .own) fun d =>
      d.bdyM fun b => { b with creditOwed := AMap.upd b.creditOwed cls 0 (· + n) }
    d.xoffScan

/-! ### Stored frames -/

def Dev.frameAt (d : Dev) (f : Nat) : Frame := AMap.getD d.buf.frames f {}
/-- Change a stored frame; one that has gone stays so. -/
def Dev.frameM (d : Dev) (f : Nat) (g : Frame → Frame) : Dev :=
  d.bufM fun b => { b with frames := AMap.adjust b.frames f g }

/-- Store a frame; its number. -/
def Dev.store (d : Dev) (fr : Frame) : Nat × Dev :=
  (d.buf.nextFrame, d.bufM fun b => { b with frames := AMap.set b.frames b.nextFrame fr, nextFrame := b.nextFrame + 1 })

/-- The completion of a host frame whose last copy has gone, or the report on it to the buddy that sent it (12 R426, 07 R250, 17 R533). -/
def Dev.txEnded (d : Dev) (fr : Frame) : Dev :=
  let d := match fr.fate with
    | some k => d.emit (.buddyMsg bmFate [k, b2n fr.sent, fr.flushed, fr.txTime])
    | none => d
  match fr.tx with
  | none => d
  | some (r, i, cookie) =>
    let d := d.hifM fun h => { h with tx := h.tx.filter fun t => !(t.ring == r && t.index == i && t.stage == .dispatched) }
    -- ring numbers from 64 stand for rings that an FLR has ended
    d.complete (if r < 64 then (d.ring (64 + r)).lCring else 32)
      { kind := 1, status := if fr.sent || fr.flushed == 0 then stOk else stFlushed, ring := r % 64, result := fr.flushed, cookie
        value := if fr.ts then fr.txTime else 0, index := i }

def Dev.mirror (d : Dev) (s : Nat) : Mirror := AMap.getD d.fwd.mirrors s {}
def Dev.mirrorM (d : Dev) (s : Nat) (f : Mirror → Mirror) : Dev :=
  d.fwdM fun w => { w with mirrors := AMap.upd w.mirrors s {} f }

/-- Of the mirror copies of a frame, the one with the most cells, the earliest of them. -/
def mostCells : List (Nat × Nat) → Option (Nat × Nat)
  | [] => none
  | x :: r =>
    match mostCells r with
    | none => some x
    | some y => if x.2 < y.2 then some y else some x

/-- The session charged for the cells of a frame that only mirror copies hold, and how many they are (08 R289). -/
def Frame.ownerNow (fr : Frame) : Option (Nat × Nat) :=
  match mostCells fr.mirrors with
  | some (s, n) => if fr.holds = 0 then some (s, n) else if fr.given = 0 then none else some (s, min n fr.given)
  | none => none

/-- The charge of a frame to mirror sessions follows its copies. -/
def Dev.chargeMirrors (d : Dev) (f : Nat) : Dev :=
  let fr := d.frameAt f
  let new := fr.ownerNow
  if new = fr.owner then d
  else
    let d := match fr.owner with | some (s, n) => d.mirrorM s fun m => { m with cells := m.cells - n } | none => d
    let d := match new with | some (s, n) => d.mirrorM s fun m => { m with cells := m.cells + n } | none => d
    (d.frameM f fun x => { x with owner := new }).xoffScan

/-- Cells that a copy still held are freed, and a frame that nothing holds is forgotten. -/
def Dev.settleFrame (d : Dev) (f : Nat) : Dev :=
  let d := d.chargeMirrors f
  let fr := d.frameAt f
  let d := if fr.holds = 0 then (d.frameM f fun x => { x with cells := 0, source := .own }).uncharge fr.point fr.cls fr.source fr.cells else d
  let d := if fr.refs = 0 then (d.frameM f fun x => { x with tx := none, fate := none }).txEnded fr else d
  if fr.refs = 0 ∧ fr.mirrors = [] then d.bufM fun b => { b with frames := AMap.erase b.frames f } else d

/-- An original copy has left, or been flushed (07 R249). -/
def Dev.dropCopy (d : Dev) (c : Copy) (left : Bool) : Dev :=
  (d.frameM c.frame fun x => { x with
    refs := x.refs - 1, holds := if c.spilled then x.holds else x.holds - 1
    sent := x.sent || left, flushed := x.flushed + b2n (!left) }).settleFrame c.frame

/-- The reference that stood for a decision about a frame ends. -/
def Dev.endWait (d : Dev) (f : Nat) : Dev := (d.frameM f fun x => { x with refs := x.refs - 1, holds := x.holds - 1 }).settleFrame f

/-- A copy of a host frame is on the buddy, which will report its fate: it holds no cells here (17 R533). -/
def Dev.sendAway (d : Dev) (f : Nat) : Dev := (d.frameM f fun x => { x with holds := x.holds - 1, away := x.away + 1 }).settleFrame f

/-- The fate of a copy that the buddy had (17 R533). -/
def Dev.fateOf (d : Dev) (f : Nat) (left : Bool) (flushed time : Nat) : Dev :=
  if (d.frameAt f).away = 0 then d
  else
    (d.frameM f fun x => { x with
      refs := x.refs - 1, away := x.away - 1, sent := x.sent || left, flushed := x.flushed + flushed
      txTime := if left then time else x.txTime }).settleFrame f

/-- The buddy is gone, and with it the copies of host frames whose fate it had not reported: they count as flushed. -/
def Dev.loseAway (d : Dev) : Dev :=
  d.each (d.buf.frames.filter fun f => f.2.away != 0) fun f d =>
    (d.frameM f.1 fun x => { x with refs := x.refs - x.away, flushed := x.flushed + x.away, away := 0 }).settleFrame f.1

/-- Take the first entry equal to one out of a list. -/
def dropOne (a : Nat × Nat) : List (Nat × Nat) → List (Nat × Nat)
  | [] => []
  | x :: r => if x = a then r else x :: dropOne a r

/-- A mirror copy has left, or been discarded: its session's quota takes back its cells. -/
def Dev.dropMirror (d : Dev) (c : Copy) (t : MirrorTag) : Dev :=
  ((d.mirrorM t.session fun m => { m with claims := m.claims - c.cells }).frameM c.frame fun x => { x with mirrors := dropOne (t.session, c.cells) x.mirrors }).settleFrame c.frame

/-! ### Queues (08 R296 to R303) -/

/-- Split the first n cells off a list of runs; a run cut in two keeps its end in the second part. -/
def splitRuns : Nat → List Run → List Run × List Run
  | _, [] => ([], [])
  | n, r :: rs =>
    if n = 0 then ([], r :: rs)
    else if r.n ≤ n then (r :: (splitRuns (n - r.n) rs).1, (splitRuns (n - r.n) rs).2)
    else ([{ r with n := n, last := false }], { r with n := r.n - n } :: rs)

/-- The copy at the head of H, if all of its cells are in H (08 R300), and what follows it. -/
def takeHead : List Run → Option (Copy × List Run)
  | [] => none
  | r :: rs => if r.last then some (r.copy, rs) else takeHead rs

/-- Cells at the head of H that came back from the far store, up to the end of the first copy. -/
def headRecalled : List Run → Nat
  | [] => 0
  | r :: rs => (if r.recalled then r.n else 0) + (if r.last then 0 else headRecalled rs)

/-- A pause by the partner holds with absorb set (08 R298, R303). -/
def Queue.absorbing (q : Queue) : Bool := q.paused && q.absorbNow

/-- A cause of spill holds (08 R298). -/
def Queue.cause (q : Queue) : Bool := decide (q.spillOn ≤ q.nearCells) || q.absorbing

/-- The next page of F needs a further list page (10 R349). -/
def Queue.needsList (q : Queue) : Bool := (q.listPos + q.f.length) % 1023 == 0

/-- The governor's limit leaves room for one more page in this period (10 R356). -/
def Dev.mayMove (d : Dev) : Bool := d.drc.drainLimit == 0 || decide (d.drc.drained < d.drc.drainLimit)

/-- The spill writer may place a page in the queue (08 R287, R299, 10 R360). -/
def Dev.mayPlace (d : Dev) (q : Queue) : Bool :=
  d.drc.ready && !d.buf.spillStopped && decide ((if q.needsList then 2 else 0) < d.farFree) && (q.farMax == 0 || decide (q.f.length < q.farMax))

/-- The first page from a number on that a test allows; at most fuel are passed over. -/
def nextPage (ok : Nat → Bool) (n : Nat) : Nat → Nat → Nat
  | 0, p => p
  | fuel + 1, p => if ok p then p else nextPage ok n fuel ((p + 1) % n)

/-- A free page, which of them being left open; it avoids a stack where one is named (10 R348, R349, R360). -/
def Dev.pickPage (d : Dev) (avoid : Option Nat) : Nat × Dev :=
  let (k, d) := d.fresh
  let n := d.glb.part.farPages
  let ok := fun p => !d.pageHeld p && !(d.stack (d.pageStack p)).out && !d.badPages.contains p && !d.buf.farLeaks.contains p && avoid != some (d.pageStack p)
  (nextPage ok n (64 * (d.buf.farUsed + d.listPages + d.badPages.length + d.buf.farLeaks.length + 1)) (Config.openValue k % n), d)

/-- Allocate what one more page of F takes: its number, and a list page in two stacks where one is due. -/
def Dev.allocPage (d : Dev) (q : Nat) : Nat × Dev :=
  let (p, d) := d.pickPage none
  let d := d.when (d.queue q).needsList fun d =>
    let (a, d) := d.pickPage none
    let (b, d) := d.pickPage (some (d.pageStack a))
    d.queueM q fun x => { x with lists := x.lists ++ [{ a, b }] }
  (p, d.bufM fun b => { b with farUsed := b.farUsed + 1 })

/-- The head of F has been recalled: its list page is free once its last entry has gone (10 R349). -/
def Queue.passHead (q : Queue) : Queue :=
  if q.f.isEmpty then { q with lists := [], listPos := 0 }
  else if q.listPos = 1022 then { q with lists := q.lists.drop 1, listPos := 0 }
  else { q with listPos := q.listPos + 1 }

def Dev.schPort (d : Dev) (n : Nat) : SchPort := AMap.getD d.sch.ports n {}
def Dev.schPortM (d : Dev) (n : Nat) (f : SchPort → SchPort) : Dev :=
  d.schM fun s => { s with ports := AMap.upd s.ports n {} f }

/-- Signed difference of virtual values modulo 2^48 (09 R328): a is after b. -/
def vAfter (a b : Nat) : Bool := decide (0 < (a + 2 ^ 48 - b % 2 ^ 48) % 2 ^ 48) && decide ((a + 2 ^ 48 - b % 2 ^ 48) % 2 ^ 48 < 2 ^ 47)

/-- The later of two virtual values. -/
def vMax (a b : Nat) : Nat := if vAfter b a then b else a

/-- Classes of the fair queueing group (09 R322, R340). -/
def Dev.wfqClasses (d : Dev) : List Nat := if d.buf.voq then List.range 7 else List.range 12

/-- Queue q wakes (09 R329): a queue of the fair queueing group. -/
def Dev.wake (d : Dev) (q : Nat) : Dev :=
  if d.wfqClasses.contains (q % 16) then
    (d.queueM q fun x => { x with sched := vMax x.sched (d.schPort (q / 16)).vtime }).count (cQueue q 10) 1
  else d

/-- T joins the end of H (08 R298). -/
def Dev.joinTail (d : Dev) (q : Nat) : Dev :=
  let x := d.queue q
  if x.t.isEmpty then d
  else
    let d := d.queueM q fun x => { x with h := x.h ++ x.t, t := [] }
    d.when x.h.isEmpty fun d => d.wake q

/-- The last entry of F completes a group of 64 words of its list page, which both copies take: 256 bytes, 4 bursts (10 R349). -/
def Dev.tailWords (d : Dev) (q : Nat) : Dev :=
  let x := d.queue q
  let w := (x.listPos + x.f.length - 1) % 1023
  if w % 64 = 63 ∨ w = 1022 then d.each (match x.lists.getLast? with | some l => [l.a, l.b] | none => []) fun p d => d.pageNow p 3 true (w / 64 * 4) 4 else d

/-- The limit of 08 R287 begins or ends. -/
def Dev.spillLimit (d : Dev) : Dev :=
  if d.buf.spillStopped then
    if d.buf.farStop + 65536 ≤ d.farFree then (d.bufM fun b => { b with spillStopped := false }).post 0x0B02 [.value d.farFree] else d
  else if d.farFree < d.buf.farStop then (d.bufM fun b => { b with spillStopped := true }).post 0x0B01 [.value d.farFree]
  else d

/-- Write every group of 16 cells at the head of T as a page at the end of F, while pages may be placed; at most n (08 R299). -/
def Dev.writePages : Nat → Nat → Dev → Dev
  | 0, _, d => d
  | n + 1, q, d =>
    let x := d.queue q
    if runCells x.t < 16 || !d.mayPlace x || !d.mayMove then d
    else
      let (page, d) := d.allocPage q
      let d := d.queueM q fun x => { x with
        f := x.f ++ [{ page, runs := (splitRuns 16 x.t).1 }]
        t := (splitRuns 16 x.t).2 }
      let d := (d.tailWords q).askPage page 4 true 0 64
      let d := d.drcM fun r => { r with drained := r.drained + 1 }
      Dev.writePages n q (d.count (cQueue q 3) 1).spillLimit

/-- One look at the state machine of 08 R298. -/
def Dev.spillState (d : Dev) (q : Nat) : Dev :=
  let x := d.queue q
  match x.state with
  | .near =>
    if x.cause && d.mayPlace x then (d.queueM q fun x => { x with state := .spilling }).count (cQueue q 2) 1 else d
  | .spilling =>
    if !x.absorbing && decide (x.depth ≤ x.spillOff) then d.queueM q fun x => { x with state := .recalling }
    else if x.f.isEmpty && decide (runCells x.h < x.recallLo) && !x.absorbing then d.joinTail q
    else d
  | .recalling =>
    if x.cause then (d.queueM q fun x => { x with state := .spilling }).count (cQueue q 2) 1
    else if x.f.isEmpty then (d.joinTail q).queueM q fun x => { x with state := if x.t.isEmpty then .near else x.state }
    else d

/-- Pages asked of a stack and not yet returned (10 R355). -/
def Dev.recallsOf (d : Dev) (k : Nat) : Nat :=
  sumBy d.buf.queues fun q => (q.2.f.filter fun p => p.asked && d.pageStack p.page == k).length

def Dev.stackM (d : Dev) (k : Nat) (f : Stack → Stack) : Dev :=
  d.drcM fun r => { r with stackUnits := AMap.upd r.stackUnits k {} f }

/-- A stack enters or leaves panic (10 R355). -/
def Dev.panicLook (d : Dev) (k : Nat) : Dev :=
  let x := d.stack k
  let pending := d.recallsOf k
  let new := if x.panic then decide (0 < pending) && decide (x.prefetch < d.drc.panicHi)
    else decide (0 < pending) && decide (x.prefetch < d.drc.panicLo)
  if new == x.panic then d else d.stackM k fun s => { s with panic := new }

/-- Ask for further pages at the head of F while H, with the pages on their way to it, is short; at most n (08 R300). -/
def Dev.askPages : Nat → Nat → Dev → Dev
  | 0, _, d => d
  | n + 1, q, d =>
    let x := d.queue q
    let k := (x.f.takeWhile fun p => p.asked).length
    match x.f[k]? with
    | some p =>
      if decide (runCells x.h + 16 * k < x.recallLo) && !x.absorbing && d.mayMove then
        Dev.askPages n q
          ((((d.askPage p.page 2 false 0 64).queueM q fun x => { x with f := x.f.set k { p with asked := true } }).drcM fun y => { y with drained := y.drained + 1 }).panicLook
            (d.pageStack p.page))
      else d
    | none => d

/-- Recall of queue q; under the governor's limit it is served first (10 R356). -/
def Dev.askRecall (d : Dev) (q : Nat) : Dev := Dev.askPages (d.queue q).f.length q d

/-- What spill and recall do for queue q after any change of it (08 R297 to R300): classes 0 to 11, not in VOQ mode. -/
def Dev.spillStep (d : Dev) (q : Nat) : Dev :=
  if 12 ≤ q % 16 || d.buf.voq then d
  else
    let d := (((d.spillState q).spillState q).spillState q).askRecall q
    let d := if (d.queue q).state != .near then Dev.writePages (runCells (d.queue q).t / 16) q d else d
    ((d.spillState q).askRecall q).spillLimit

/-- A region or the shadow has returned its pages: the bad ones among them, which of them being left open, are kept no longer (10 R367). -/
def Dev.keptFreed (d : Dev) : Dev :=
  if d.buf.farReserved = 0 then d.drcM fun r => { r with keptBad := [] }
  else if d.drc.keptBad.isEmpty then d
  else
    let (k, d) := d.fresh
    d.drcM fun r => { r with keptBad := (r.keptBad.zipIdx.filter fun p => bit (Config.openValue k) p.2).map (·.1) }

/-- Far-store pages have come free: where the limit of 08 R287 ends, every queue goes on spilling. -/
def Dev.farFreed (d : Dev) : Dev :=
  let d' := d.spillLimit
  d'.when (d.buf.spillStopped && !d'.buf.spillStopped) fun d => d.each (d.buf.queues.map (·.1)) fun q d => d.spillStep q

/-- A spilled page has been written (08 R299, R301): cells of a frame that no other copy holds are released page by page,
and a copy whose last cell lies in the page gives up its reference. -/
def Dev.pageAcked (d : Dev) (q : Nat) : Dev :=
  match (d.queue q).f.find? fun p => !p.acked with
  | none => d
  | some p =>
    let k := ((d.queue q).f.takeWhile fun p => p.acked).length
    let d := d.pageServed p.page 4 true
    let d := d.queueM q fun x => { x with
      f := x.f.mapIdx fun i p => if i = k then { p with acked := true } else p }
    let d := d.each p.runs fun r d =>
      let fr := d.frameAt r.copy.frame
      let d := if fr.holds = 1 then
          ((d.frameM r.copy.frame fun x => { x with cells := x.cells - r.n, given := x.given + r.n }).chargeMirrors r.copy.frame).uncharge
            fr.point fr.cls fr.source (min r.n fr.cells)
        else d
      d.when r.last fun d =>
        (d.frameM r.copy.frame fun x => { x with holds := x.holds - 1 }).settleFrame r.copy.frame
    -- every run of a copy that has given up its reference says so
    let gone := (p.runs.filter fun r => r.last).map fun r => r.copy.frame
    let mark := fun (r : Run) => if gone.contains r.copy.frame then { r with copy := { r.copy with spilled := true } } else r
    d.queueM q fun x => { x with
      h := x.h.map mark
      f := x.f.map fun p => { p with runs := p.runs.map mark } }

/-- The recall reader comes to a group of list words that has been written: it is read from a copy that has not failed (10 R349). -/
def Dev.headWords (d : Dev) (q : Nat) : Dev :=
  let x := d.queue q
  match x.lists.head? with
  | some l => if x.listPos % 64 = 0 ∧ min 64 (1023 - x.listPos) ≤ x.f.length then d.pageNow (if l.badA then l.b else l.a) 3 false (x.listPos / 64 * 4) 4 else d
  | none => d

/-- The recalled page at the head of F joins the end of H, and its page is free again (08 R300). -/
def Dev.pageRecalled (d : Dev) (q : Nat) : Dev :=
  match (d.queue q).f with
  | p :: rest =>
    if p.asked && p.acked then
      let d := d.pageServed p.page 2 false
      let empty := (d.queue q).h.isEmpty
      let d := d.queueM q fun x => { x with h := x.h ++ p.runs.map fun r => { r with recalled := true }, f := rest }
      let d := ((d.queueM q Queue.passHead).headWords q).bufM fun b => { b with farUsed := b.farUsed - 1, recalled := b.recalled + runCells p.runs }
      let k := d.pageStack p.page
      let d := (d.stackM k fun s => { s with prefetch := s.prefetch - 1 }).panicLook k
      let d := (d.count (cQueue q 4) 1).when empty fun d => d.wake q
      d.farFreed.spillStep q
    else d
  | [] => d

/-! ### Enqueueing -/

/-- Bytes of a copy's frame as it stands: its own data, or the stored frame's. -/
def Dev.copyData (d : Dev) (c : Copy) : List Byte := c.data.getD (d.frameAt c.frame).data

/-- The class of a frame is paused by the partner (03 R103, R104). -/
def Dev.pausedClass (d : Dev) (n cls : Nat) : Bool :=
  let p := d.port n
  decide (d.now < p.pauseUntil) ||
    (List.range 8).any fun k => bit (nth p.pfcHeld k 0) cls && decide (d.now < nth p.pfcUntil k 0)

/-- Copies are queued in UP, HOLD and DRAINING; elsewhere they are flushed on arrival (03 R107). -/
def PortState.takes : PortState → Bool
  | .up => true | .hold => true | .draining => true | _ => false

/-- A copy is flushed: counted for its queue and under reason 3, and released (08 R304, R308). -/
def Dev.flushCopy (d : Dev) (q : Nat) (c : Copy) : Dev :=
  (((d.count (cQueue q 5) 1).count (cQueue q 6) c.len).count (cDev 265) 1).dropCopy c false

/-- Put a copy into a list that is ordered by assigned period (08 R307). -/
def insertHold (c : Copy) : List Copy → List Copy
  | [] => [c]
  | x :: r => if c.period < x.period then c :: x :: r else x :: insertHold c r

/-- Budget of a cyclic class (01 R30). -/
def BelPort.budget (b : BelPort) (cls : Nat) : Nat :=
  match cls with | 12 => b.b12 | 13 => b.b13 | 14 => b.b14 | _ => b.b15

/-- A copy joins its queue on a port that takes copies: cyclic classes their bins, others H or T (01 R34, 08 R298). -/
def Dev.join (d : Dev) (n cls : Nat) (c : Copy) : Dev :=
  let q := qIx n cls
  if d.buf.voq then
    let k := (d.frameAt c.frame).ingress * 2048 + n * 8 + cls
    let empty := d.voqCells n cls == 0
    let d := d.bufM fun b => { b with voqs := AMap.upd b.voqs k [] (· ++ [c]) }
    (d.when empty fun d => d.wake q).xoffScan
  else if 12 ≤ cls ∧ cls ≤ 14 then
    let passing := c.period < d.bel.seq
    let d := d.queueM q fun x =>
      if (d.port n).state == .hold then { x with hold := insertHold c x.hold }
      else if passing then { x with pass := x.pass ++ [c] }
      else { x with recv := x.recv ++ [c] }
    let d := d.queueM q fun x => if passing then { x with binPrev := x.binPrev + wireBytes c.len } else { x with binNow := x.binNow + wireBytes c.len }
    let total := if passing then (d.queue q).binPrev else (d.queue q).binNow
    d.when (decide ((d.belPort n).budget cls < total)) fun d => d.count (cQueue q 0) 1
  else
    let x := d.queue q
    let run : Run := { copy := c, n := c.cells }
    if cls = 15 ∨ x.state = .near then
      let d := d.queueM q fun x => { x with h := x.h ++ [run] }
      (d.when x.h.isEmpty fun d => d.wake q).spillStep q
    else (d.queueM q fun x => { x with t := x.t ++ [run] }).spillStep q

/-- A copy arrives for a port and class. -/
def Dev.enqueue (d : Dev) (n cls : Nat) (c : Copy) : Dev :=
  if (d.port n).state.takes then d.join n cls c else d.flushCopy (qIx n cls) c

/-- Originals that a queue holds, in order of leaving. -/
def Queue.copies (q : Queue) : List Copy :=
  ((q.h ++ q.f.flatMap (fun p => p.runs) ++ q.t).filter fun r => r.last).map (fun r => r.copy) ++ q.tran ++ q.pass ++ q.recv ++ q.hold

/-- Copies of the VOQs for an egress port and class, by ingress port. -/
def Dev.voqCopies (d : Dev) (n cls : Nat) : List Copy :=
  (d.buf.voqs.filter fun p => p.1 % 2048 == n * 8 + cls).flatMap fun p => p.2

/-- Every original copy held for a queue. -/
def Dev.heldCopies (d : Dev) (q : Nat) : List Copy :=
  (d.queue q).copies ++ (if d.buf.voq ∧ q % 16 < 8 then d.voqCopies (q / 16) (q % 16) else [])

/-- Bytes of the frames and copies held for a port, the frame on the line included (03 R108). -/
def Dev.heldBytes (d : Dev) (n : Nat) : Nat :=
  sumBy (List.range 16) (fun c => sumBy (d.heldCopies (qIx n c)) fun c => c.len) +
    sumBy (d.schPort n).mirrors (fun p => sumBy p.2 fun c => c.len) +
    (match (d.schPort n).line with | some l => l.copy.len | none => 0)

/-- The port holds nothing, and its last frame has left (03 R107). -/
def Dev.portIsEmpty (d : Dev) (n : Nat) : Bool :=
  ((List.range 16).all fun c => (d.heldCopies (qIx n c)).isEmpty) &&
    ((d.schPort n).mirrors.all fun p => p.2.isEmpty) && (d.schPort n).line.isNone

/-- The queue holds a frame: in H, or, in VOQ mode, in its VOQs (09 R333, R340). -/
def Dev.backlog (d : Dev) (q : Nat) : Bool :=
  if d.buf.voq then decide (q % 16 < 8) && d.voqCells (q / 16) (q % 16) != 0 else !(d.queue q).h.isEmpty

/-- The port holds a frame of ranks 6 or 7. -/
def Dev.portBacklog (d : Dev) (n : Nat) : Bool :=
  (d.wfqClasses.any fun c => d.backlog (qIx n c)) || ((d.schPort n).mirrors.any fun p => !p.2.isEmpty)

/-- A queue or a port that has become empty keeps no positive credit (09 R333). -/
def Dev.emptyCredit (d : Dev) (q : Nat) : Dev :=
  let d := if d.backlog q then d else d.queueM q fun x => { x with credit := min x.credit 0 }
  if d.portBacklog (q / 16) then d else d.schPortM (q / 16) fun p => { p with credit := min p.credit 0 }

/-- Flush what queue q holds (08 R308 step 1). -/
def Dev.flushQueue (d : Dev) (q : Nat) : Dev :=
  let held := d.heldCopies q
  let back := sumBy (d.queue q).h fun r => if r.recalled then r.n else 0
  let pages := (d.queue q).f.length
  let d := d.queueM q fun x => { x with h := [], f := [], t := [], lists := [], listPos := 0, state := .near, tran := [], pass := [], recv := [], hold := [] }
  let d := d.bufM fun b => { b with
    farUsed := b.farUsed - pages, recalled := b.recalled - back
    voqs := if q % 16 < 8 then b.voqs.filter fun p => !(p.1 % 2048 == (q / 16) * 8 + q % 16) else b.voqs }
  ((d.emptyCredit q).each held fun c d => d.flushCopy q c).farFreed.when (back != 0) fun d => d.xoffScan

/-- Mirror copies waiting on a port are discarded (07 R262). -/
def Dev.flushMirrors (d : Dev) (n : Nat) : Dev :=
  let held := (d.schPort n).mirrors.flatMap fun p => p.2
  let d := (d.schPortM n fun p => { p with mirrors := [] }).emptyCredit (qIx n 0)
  d.each held fun c d =>
    match c.mirror with
    | some t => ((d.count (cMirror t.session 1) 1).count (cDev 267) 1).dropMirror c t
    | none => d

/-! ### Frames lost or discarded with the module (08 R304 reason 6, 19 R588, R592) -/

/-- A queue without its frames: settings stand. -/
def Queue.emptied (x : Queue) : Queue :=
  { x with h := [], f := [], t := [], lists := [], listPos := 0, state := .near, paused := false, recv := [], tran := [], pass := [], hold := []
           credit := min x.credit 0 }

/-- An account without charges. -/
def Account.emptied (a : Account) : Account := { a with useMin := 0, useShared := 0, useHead := 0, xoff := false }

/-- Copies that the module holds, and frames still held for their end. -/
def Dev.framesHeld (d : Dev) : Nat :=
  sumBy d.buf.queues (fun q => q.2.copies.length) + sumBy d.buf.voqs (fun q => q.2.length) +
    sumBy d.sch.ports (fun p => sumBy p.2.mirrors (fun m => m.2.length) + b2n p.2.line.isSome) + d.bdy.txq.length +
    sumBy d.fwd.rx fun x => b2n x.2.plan.isSome

/-- Every frame and copy is gone, counted under reason 6; cells and pages are free. -/
def Dev.loseFrames (d : Dev) : Dev :=
  let d := d.count (cDev 268) d.framesHeld
  let d := d.bufM fun b => { b with
    farUsed := 0, nearLeaks := [], farLeaks := [], cellsDue := [], pagesDue := [], recalled := 0, frames := [], voqs := [], holds := [], roll := none, spillStopped := false
    hdrmPosted := false, noCellPosted := false
    queues := AMap.mapV b.queues fun _ q => q.emptied
    accounts := AMap.mapV b.accounts fun _ a => a.emptied }
  let d := d.schM fun s => { s with ports := AMap.mapV s.ports fun _ p => { p with line := none, mirrors := [], credit := min p.credit 0 } }
  let d := d.fwdM fun w => { w with rx := [], mirrors := AMap.mapV w.mirrors fun _ m => { m with cells := 0, claims := 0 } }
  let d := d.ttbM fun t => { t with lines := [], flows := [], seatFlows := [] }
  let d := d.drcM fun r => { r with
    stackUnits := AMap.mapV r.stackUnits fun _ s => { s with prefetch := 0, panic := false }
    chans := AMap.mapV r.chans fun _ c => { c with reads := [], writes := [], waits := [], openRow := [], drain := false, inOrder := [], lasting := none } }
  d.bdyM fun b => { b with txq := [] }

end Sys2Proof.Machine
end

