-- ==== Sys2Proof/Machine/Sched.lean ====
section
/-! DEFINITION. Scheduling and shaping (09): ranks, fair queueing, credits, and the SCH commands. -/

namespace Sys2Proof.Machine

/-! ### Shapers (09 R333 to R336) -/

/-- Counted length of a frame on a port (09 R332). -/
def Dev.counted (d : Dev) (n len : Nat) : Nat := (max 1 (((len : Nat) : Int) + (d.schPort n).overhead)).toNat

/-- The parts of a byte in which credits are kept: 1/256 byte (09 R333), each in 125,000 parts. -/
def creditUnit : Nat := 32000000

/-- Credit gained in a span of 0.25 ns units at an idle slope in kbit/s. -/
def creditGain (kbps dt : Nat) : Nat := kbps * dt

/-- Effective idle slope: the requested one, clamped to the capacity (09 R339). -/
def Dev.idleEff (d : Dev) (n req : Nat) : Nat := min req (d.portRate n)

/-- Clamp of a credit between lo and hi, given in bytes. -/
def clampCredit (lo : Int) (hi : Nat) (c : Int) : Int := clampI (lo * creditUnit) ((hi : Nat) * creditUnit) c

/-- Classes whose queues have shapers: 0 to 11 and 15 (09 R333). -/
def shapedClasses : List Nat := [0, 1, 2, 3, 4, 5, 6, 7, 8, 9, 10, 11, 15]

/-- A queue shaper passes its frames (09 R333). -/
def Queue.passes (q : Queue) : Bool := !q.shaperEn || decide (0 ≤ q.credit)
def SchPort.passes (p : SchPort) : Bool := !p.shaperEn || decide (0 ≤ p.credit)

/-! ### Eligible frames (09 R324) -/

/-- A copy may start: its frame is complete, or may leave cut-through to a port of no greater capacity (09 R324, R339). -/
def Dev.mayStart (d : Dev) (n : Nat) (c : Copy) : Bool :=
  let fr := d.frameAt c.frame
  fr.complete || (d.sch.ctEn && c.cutThrough && decide (d.portRate n ≤ d.portRate fr.ingress))

/-- Ingress ports with a VOQ for an egress port and class, in round-robin order after the last one served (08 R314). -/
def Dev.voqTurn (d : Dev) (n cls : Nat) : Option Nat :=
  let waiting := (List.range 256).filter fun i => !(AMap.getD d.buf.voqs (i * 2048 + n * 8 + cls) []).isEmpty
  let last := AMap.getD (d.schPort n).rr cls 255
  match waiting.find? fun i => decide (last < i) with
  | some i => some i
  | none => waiting.head?

/-- The frame at the head of a queue of classes 0 to 11 or 15, if its cells are there (08 R300). -/
def Dev.headOf (d : Dev) (n cls : Nat) : Option Copy :=
  if d.buf.voq then
    match (if cls < 8 then d.voqTurn n cls else none) with
    | some i => (AMap.getD d.buf.voqs (i * 2048 + n * 8 + cls) []).head?
    | none => none
  else (takeHead (d.queue (qIx n cls)).h).map (·.1)

/-- Cyclic frames may start: at least the guard after the latest bell and more than the guard before the next (01 R36, 09 R327). -/
def Dev.cyclicOpen (d : Dev) : Bool :=
  let g := d.bel.guard * qPerNs
  decide (d.bel.lastAt + g ≤ d.now) && decide (d.now + g < d.bel.nextAt)

/-- Where a selected frame comes from. -/
inductive Pick where
  | head (cls : Nat) (c : Copy)
  | tran (cls : Nat) (c : Copy)
  | pass (cls : Nat) (c : Copy)
  | mirror (cls : Nat) (c : Copy)
  deriving DecidableEq, Repr

/-- Rank 2: network control (09 R322, R340). -/
def Dev.rank2 (d : Dev) (n : Nat) : Option Pick :=
  let cls := if d.buf.voq then 7 else 15
  match d.headOf n cls with
  | some c =>
    if !d.pausedClass n cls && (d.queue (qIx n cls)).passes && d.mayStart n c then some (.head cls c) else none
  | none => none

/-- Ranks 3 to 5: the transmitting bin, then the passing bin, of one cyclic class (01 R35, 09 R327). -/
def Dev.rankCyclic (d : Dev) (n cls : Nat) : Option Pick :=
  let x := d.queue (qIx n cls)
  if d.buf.voq || d.pausedClass n cls || !d.cyclicOpen then none
  else
    match x.tran, x.pass with
    | c :: _, _ => if d.mayStart n c then some (.tran cls c) else none
    | [], c :: _ => if d.mayStart n c then some (.pass cls c) else none
    | [], [] => none

/-- Queues of rank 6 whose head frame is eligible, shapers apart. -/
def Dev.wfqHeads (d : Dev) (n : Nat) : List (Nat × Copy) :=
  d.wfqClasses.filterMap fun cls =>
    match d.headOf n cls with
    | some c => if !d.pausedClass n cls && d.mayStart n c then some (cls, c) else none
    | none => none

/-- Cost of a frame in virtual units (09 R328). -/
def wfqCost (len weight : Nat) : Nat := (len * 256 + weight - 1) / weight

/-- Finish of a queue: its virtual start plus the cost of its head (09 R328). -/
def Dev.finishOf (d : Dev) (n cls : Nat) (c : Copy) : Nat :=
  let x := d.queue (qIx n cls)
  (x.sched + wfqCost (d.counted n c.len) x.weight) % 2 ^ 48

/-- The head with the least finish; ties go to the higher class (09 R330). -/
def Dev.wfqPick (d : Dev) (n : Nat) : List (Nat × Copy) → Option (Nat × Copy)
  | [] => none
  | a :: r =>
    match Dev.wfqPick d n r with
    | none => some a
    | some b => if vAfter (d.finishOf n b.1 b.2) (d.finishOf n a.1 a.2) then some a else some b

/-- Rank 7: mirror lists, the highest class first (09 R331). -/
def Dev.rank7 (d : Dev) (n : Nat) : Option Pick :=
  (List.range 12).reverse.findSome? fun cls =>
    match AMap.getD (d.schPort n).mirrors cls [] with
    | c :: _ => if d.mayStart n c then some (.mirror cls c) else none
    | [] => none

/-- The frame that the ranks give, flow control apart (09 R322). -/
def Dev.choose (d : Dev) (n : Nat) : Option Pick :=
  match d.rank2 n with
  | some p => some p
  | none =>
    match [14, 13, 12].findSome? fun cls => d.rankCyclic n cls with
    | some p => some p
    | none =>
      if !(d.schPort n).passes then none
      else
        match d.wfqPick n ((d.wfqHeads n).filter fun h => (d.queue (qIx n h.1)).passes) with
        | some (cls, c) => some (.head cls c)
        | none => d.rank7 n

/-! ### Holds, wakes and refills (09 R329, R333, R335, R338) -/

/-- The head of a queue waits for nothing but a pause or a shaper. -/
def Dev.headReady (d : Dev) (n cls : Nat) : Bool := match d.headOf n cls with | some c => d.mayStart n c | none => false

/-- A shaper holds what a class would send: the queue's own, or the port's, which gates the fair queueing group (09 R336). -/
def Dev.shaperHolds (d : Dev) (n cls : Nat) : Bool :=
  !(d.queue (qIx n cls)).passes || (d.wfqClasses.contains cls && !(d.schPort n).passes)

/-- A pause or a shaper holds the head of a queue, which is otherwise ready. -/
def Dev.headHeld (d : Dev) (n cls : Nat) : Bool := d.headReady n cls && (d.pausedClass n cls || d.shaperHolds n cls)

/-- The head of a queue is eligible. -/
def Dev.headFree (d : Dev) (n cls : Nat) : Bool := d.headReady n cls && !d.pausedClass n cls && !d.shaperHolds n cls

/-- The queues of a port whose heads were held before a change of its shapers, and are eligible after it, wake (09 R329). -/
def Dev.wakeFreed (d was : Dev) (n : Nat) : Dev :=
  d.each d.wfqClasses fun cls d => d.when (was.headHeld n cls && d.headFree n cls) fun d => d.wake (qIx n cls)

/-- A credit after a refill: it grows while there is a backlog or it is negative; a port that serves nothing keeps none above 0 (09 R333, R338). -/
def refillCredit (serving backlog : Bool) (gain : Nat) (lo : Int) (hi : Nat) (c : Int) : Int :=
  let c0 := if serving then c else min c 0
  let c1 := if (serving && backlog) || decide (c0 < 0) then c0 + (gain : Int) else c0
  clampCredit lo hi (if serving then c1 else min c1 0)

/-- Refill of one queue over a span of time (09 R333, R338). -/
def Dev.refillQueue (d : Dev) (n cls dt : Nat) (serving : Bool) : Dev :=
  let q := qIx n cls
  let x := d.queue q
  if x.shaperEn then
    d.queueM q fun y => { y with credit := refillCredit serving (d.backlog q) (creditGain (d.idleEff n x.idleReq) dt) x.lo x.hi x.credit }
  else d

/-- Refill of a port: every credit of it, with the time since the last refill (09 R335); queues whose holds end wake (09 R329). -/
def Dev.refill (d : Dev) (n : Nat) : Dev :=
  let was := d
  let p := d.schPort n
  let dt := d.now - p.lastRefill
  let st := (d.port n).state
  let serving := st == .up || st == .draining
  let d := d.each shapedClasses fun c d => d.refillQueue n c dt serving
  let c := if p.shaperEn then refillCredit serving (d.portBacklog n) (creditGain (d.idleEff n p.idleReq) dt) p.lo p.hi p.credit else p.credit
  (d.schPortM n fun p => { p with credit := c, lastRefill := d.now }).wakeFreed was n

/-- Every port refills in the bell cycle (01 R27, 09 R335). -/
def Dev.refillAll (d : Dev) : Dev := d.each d.portList fun n d => d.refill n

/-! ### The start of a frame -/

/-- Charge a frame to its queue's shaper and to the port's (09 R333, R336). -/
def Dev.chargeShapers (d : Dev) (n : Nat) (cls : Option Nat) (len : Nat) : Dev :=
  let l := ((d.counted n len * creditUnit : Nat) : Int)
  let d := match cls with
    | some c => d.queueM (qIx n c) fun x => if x.shaperEn then { x with credit := max (x.credit - l) (x.lo * creditUnit) } else x
    | none => d
  d.schPortM n fun p => if p.shaperEn then { p with credit := max (p.credit - l) (p.lo * creditUnit) } else p

/-- Take a picked copy out of where it waits. -/
def Dev.takeOut (d : Dev) (n : Nat) : Pick → Dev
  | .head cls _ =>
    if d.buf.voq then
      match d.voqTurn n cls with
      | some i =>
        let d := d.bufM fun b => { b with voqs := AMap.upd b.voqs (i * 2048 + n * 8 + cls) [] (·.drop 1) }
        d.schPortM n fun p => { p with rr := AMap.set p.rr cls i }
      | none => d
    else
      let q := qIx n cls
      let back := headRecalled (d.queue q).h
      let d := d.queueM q fun x => { x with h := match takeHead x.h with | some (_, r) => r | none => x.h }
      let d := d.bufM fun b => { b with recalled := b.recalled - back }
      (d.when (back != 0) fun d => d.xoffScan).spillStep q
  | .tran cls _ => d.queueM (qIx n cls) fun x => { x with tran := x.tran.drop 1 }
  | .pass cls _ => d.queueM (qIx n cls) fun x => { x with pass := x.pass.drop 1 }
  | .mirror cls _ => d.schPortM n fun p => { p with mirrors := AMap.upd p.mirrors cls [] (·.drop 1) }

def Pick.cls : Pick → Nat
  | .head c _ => c | .tran c _ => c | .pass c _ => c | .mirror c _ => c
def Pick.copy : Pick → Copy
  | .head _ c => c | .tran _ c => c | .pass _ c => c | .mirror _ c => c
def Pick.isMirror : Pick → Bool
  | .mirror _ _ => true | _ => false
def Pick.isWfq (voq : Bool) : Pick → Bool
  | .head c _ => if voq then decide (c < 7) else decide (c < 12)
  | _ => false

/-- Time that a frame with its gap takes on the wire at the port's capacity, in 2^-20 of a unit of device time. -/
def Dev.wireFine (d : Dev) (n len : Nat) : Nat :=
  if d.capacityNum n = 0 then 0 else (wireBytes len * 32000000000 * 20484 * 1048576 + d.capacityNum n - 1) / d.capacityNum n

/-- End of a frame that starts now, in 2^-20 of a unit of device time: one that starts as the frame before it ends follows that frame's exact end. -/
def Dev.lineEndFine (d : Dev) (n len : Nat) : Nat :=
  let x := d.schPort n
  d.now * 1048576 + d.wireFine n len - (if d.now = x.lineEnd then x.lineOver else 0)

/-- End of a frame that starts now, in device time. -/
def Dev.lineEndAt (d : Dev) (n len : Nat) : Nat := (d.lineEndFine n len + 1048575) / 1048576

/-- A frame that starts now has the line to its end. -/
def Dev.takeLine (d : Dev) (n len : Nat) : Dev :=
  let finish := d.lineEndAt n len
  d.schPortM n fun x => { x with lineEnd := finish, lineOver := finish * 1048576 - d.lineEndFine n len }

/-- The picked frame enters the last transmit stage (09 R323, R330). -/
def Dev.startFrame (d : Dev) (n : Nat) (p : Pick) : Dev :=
  let c := p.copy
  let d :=
    if p.isWfq d.buf.voq then
      let set := (d.wfqHeads n).filter fun h => (d.queue (qIx n h.1)).passes
      let least := set.foldl (fun (m : Option Nat) h =>
        let s := (d.queue (qIx n h.1)).sched
        some (match m with | none => s | some x => if vAfter x s then s else x)) none
      let fin := d.finishOf n p.cls c
      let d := d.schPortM n fun x => { x with vtime := match least with | some s => vMax x.vtime s | none => x.vtime }
      d.queueM (qIx n p.cls) fun x => { x with sched := fin }
    else d
  let complete := (d.frameAt c.frame).complete
  let d := d.takeOut n p
  let d := d.chargeShapers n (if p.isMirror then none else some p.cls) c.len
  let d := d.emptyCredit (qIx n p.cls)
  let d := d.count (cPort n (if complete then 53 else 52)) 1
  (d.takeLine n c.len).schPortM n fun x => { x with line := some { cls := p.cls, copy := c, start := d.now, finish := x.lineEnd } }

/-- Heads that only a shaper holds, counted at a selection (09 R346): network control and the fair queueing group, and for the port's
shaper whatever it gates. -/
def Dev.countHolds (d : Dev) (n : Nat) : Dev :=
  let held := ((if d.buf.voq then 7 else 15) :: d.wfqClasses).filter fun c => d.headReady n c && !d.pausedClass n c && d.shaperHolds n c
  let gated := (d.wfqClasses.any fun c => d.headReady n c && !d.pausedClass n c) || (d.rank7 n).isSome
  let d := d.each held fun c d => d.count (cQueue (qIx n c) 9) 1
  d.when (gated && !(d.schPort n).passes) fun d => d.count (cPort n 51) 1

/-! ### Rates that change (09 R339) -/

/-- Shapers of a port whose effective slope a capacity holds below the requested one. -/
def Dev.clampedShapers (d : Dev) (n rate : Nat) : Nat :=
  sumBy shapedClasses (fun c => b2n ((d.queue (qIx n c)).shaperEn && decide (rate < (d.queue (qIx n c)).idleReq))) +
    b2n ((d.schPort n).shaperEn && decide (rate < (d.schPort n).idleReq))

/-- The capacity of a port has changed from a former value (09 R339). -/
def Dev.rateChanged (d : Dev) (n was : Nat) : Dev :=
  let k := d.clampedShapers n (d.portRate n)
  d.when (decide (d.portRate n < was) && decide (0 < k)) fun d => d.post 0x0C01 [.index n, .value (d.portRate n), .value k]

/-! ### Commands (09 R342 to R344) -/

/-- SCH.SET_QUEUE takes effect in the refill of its bell (09 R337). -/
def applySetQueue (c : Cmd) (d : Dev) : Dev :=
  let was := d
  let e := c.e
  let n := d.portField e
  let cls := e.f 16 19 16
  let en := e.b 16 24
  let d := d.queueM (qIx n cls) fun x => { x with
    weight := if cls = 15 then x.weight else clamp 1 256 (e.f 20 8 0)
    shaperEn := en, idleReq := e.f 24 31 0, hi := e.f 28 23 0, lo := e.loField
    credit := if !en || !x.shaperEn || e.b 16 25 then 0 else clampCredit e.loField (e.f 28 23 0) x.credit }
  okAfter c (d.wakeFreed was n)

def schSetQueue : CmdSpec where
  op := 0x0C01
  kind := fun _ => .commit
  seals := 1
  check := fun d e => d.needsPort e
  permit := fun d e =>
    let cls := e.f 16 19 16
    failsIf ((decide (12 ≤ cls) && decide (cls ≤ 14)) || (d.buf.voq && decide (8 ≤ cls))) 0
  claims := fun d e => [claim1 itSchQueue (qIx (d.portField e) (e.f 16 19 16))]
  apply := applySetQueue
  abort := abortPlain

/-- SCH.SET_PORT (09 R337, R343). -/
def applySetPort (c : Cmd) (d : Dev) : Dev :=
  let was := d
  let e := c.e
  let n := d.portField e
  let en := e.b 16 24
  let d := d.schPortM n fun x => { x with
    overhead := clampI (-32) 63 (e.i 20 8)
    refillNs := clamp 16 1000 (e.f 20 25 16)
    shaperEn := en, idleReq := e.f 24 31 0, hi := e.f 28 23 0, lo := e.loField
    credit := if !en || !x.shaperEn || e.b 16 25 then 0 else clampCredit e.loField (e.f 28 23 0) x.credit }
  okAfter c (d.wakeFreed was n)

def schSetPort : CmdSpec where
  op := 0x0C02
  kind := fun _ => .commit
  seals := 1
  check := fun d e => d.needsPort e
  claims := fun d e => [claim1 itSchPort (d.portField e)]
  apply := applySetPort
  abort := abortPlain

/-- Whole bytes of a credit, towards minus infinity. -/
def creditBytes (c : Int) : Int := divFloor c creditUnit

/-- 32 bytes of SCH.READ_PORT for one class (09 R344). -/
def Dev.readQueueRec (d : Dev) (n cls : Nat) : List Byte :=
  let x := d.queue (qIx n cls)
  let eff := d.idleEff n x.idleReq
  if 12 ≤ cls ∧ cls ≤ 14 then packRec 32 []
  else
    packRec 32 ([(0, 0, 32, twos 32 (creditBytes x.credit)), (4, 0, 32, eff), (8, 0, 32, x.idleReq),
      (12, 0, 32, twos 32 ((eff : Nat) - (d.portRate n : Nat) : Int)), (16, 0, 24, x.hi), (20, 0, 32, twos 32 x.lo), (30, 9, 1, b2n x.shaperEn)] ++
      (if cls = 15 then [] else [(24, 0, 48, x.sched), (30, 0, 9, x.weight)]))

/-- The record of SCH.READ_PORT (09 R344). -/
def Dev.readPortRec (d : Dev) (n : Nat) : List Byte :=
  let p := d.schPort n
  let eff := d.idleEff n p.idleReq
  (List.range 16).flatMap (fun c => d.readQueueRec n c) ++
    packRec 64 [(0, 0, 48, p.vtime), (8, 0, 32, twos 32 (creditBytes p.credit)), (12, 0, 32, eff), (16, 0, 32, p.idleReq),
      (20, 0, 32, twos 32 ((eff : Nat) - (d.portRate n : Nat) : Int)), (24, 0, 24, p.hi), (28, 0, 32, twos 32 p.lo),
      (32, 0, 32, d.portRate n), (36, 0, 8, twos 8 p.overhead), (36, 16, 10, p.refillNs)]

def schReadPort : CmdSpec where
  op := 0x0C03
  journal := false
  writes := true
  check := fun d e => firstOf [d.needsPort e, e.needsAddr]
  accept := fun c d => d.readOut c c.e.addr (d.readPortRec (d.portField c.e)) 0

def schSpecs : List CmdSpec := [schSetQueue, schSetPort, schReadPort]

/-! ### Rows -/

/-- When a port's refill after the last one is due; the bell cuts the last interval of a period short, and refills then (09 R335). -/
def Dev.refillDue (d : Dev) (n : Nat) : Nat := (d.schPort n).lastRefill + (d.schPort n).refillNs * qPerNs

end Sys2Proof.Machine
end

