-- ==== Sys2Proof/Machine/Buffers.lean ====
section
/-! DEFINITION. The BUF commands and the rows of spill, recall and roll call (08). -/

namespace Sys2Proof.Machine

/-- Accounting point that BUF.SET_ADMIT names (08 R316): a port, a TX ring or the buddy link. -/
def Dev.admitPoint (d : Dev) (e : CmdEntry) : Nat :=
  match e.f 16 17 16 with
  | 0 => d.portField e
  | 1 => ptTx (satTo 63 (e.f 16 15 0))
  | _ => ptBuddy

/-- The shared pool keeps at least 524,288 cells after a reservation (08 R286). -/
def Dev.poolKeeps (d : Dev) : Bool := decide (524288 + d.nearReserved ≤ nearCells)

/-- Settings of a point and class that BUF.SET_ADMIT gives. -/
def Dev.admitSet (d : Dev) (e : CmdEntry) : Dev :=
  d.acctM (d.admitPoint e) (e.f 16 27 24) fun a => { a with
    minCells := e.f 20 22 0, headroom := e.f 24 22 0
    alphaExp := clampI (-7) 3 (e.i 28 4)
    xonGap := max 1 (e.f 28 31 16) }

def applySetAdmit (c : Cmd) (d : Dev) : Dev :=
  if c.noRoom then d.finish c stFailed 0 else okAfter c (d.admitSet c.e).xoffScan

def bufSetAdmit : CmdSpec where
  op := 0x0B01
  kind := fun _ => .commit
  check := fun d e => firstOf [failsIf (e.f 16 17 16 == 3) (rejField 16 16), if e.f 16 17 16 = 0 then d.needsPort e else none]
  claims := fun d e => [claim1 itPoint (aIx (d.admitPoint e) (e.f 16 27 24))]
  apply := applySetAdmit
  abort := abortPlain

def applySetSpill (c : Cmd) (d : Dev) : Dev :=
  let e := c.e
  let q := qIx (d.portField e) (e.f 16 19 16)
  let on := clamp 32 4194304 (e.f 20 22 0)
  let d := d.queueM q fun x => { x with
    absorb := e.b 16 20, spillOn := on, spillOff := min (e.f 24 22 0) (on - 16)
    recallLo := clamp 64 65535 (e.f 28 15 0), farMax := e.f 32 29 0 }
  okAfter c (d.spillStep q)

def bufSetSpill : CmdSpec where
  op := 0x0B02
  kind := fun _ => .commit
  check := fun d e => d.needsPort e
  permit := fun d e => failsIf (decide (12 ≤ e.f 16 19 16) || d.buf.voq) 0
  claims := fun d e => [claim1 itSpill (qIx (d.portField e) (e.f 16 19 16))]
  apply := applySetSpill
  abort := abortPlain

/-- Which stores a roll call audits: near, far (08 R318). -/
def rollNear (e : CmdEntry) : Bool := e.b 16 0 || !e.b 16 1
def rollFar (e : CmdEntry) : Bool := e.b 16 1 || !e.b 16 0

/-- Units that a roll call examines. -/
def rollTotal (near far : Bool) : Nat := (if near then 4194304 else 0) + (if far then 536870912 else 0)

def acceptRollCall (c : Cmd) (d : Dev) : Dev :=
  let e := c.e
  let d := d.cmdM c fun c => { c with total := rollTotal (rollNear e) (rollFar e) }
  d.bufM fun b => { b with roll := some { ring := e.ring, tag := e.tag, near := rollNear e, far := rollFar e, reclaim := e.b 16 8, addr := e.addr, startSeq := d.bel.seq + 1 } }

def bufRollCall : CmdSpec where
  op := 0x0B03
  kind := fun _ => .long
  writes := true
  check := fun _ e => e.needsAddr
  permit := fun d _ => failsIf (!d.glb.part.rollcall || d.buf.roll.isSome) 0
  accept := acceptRollCall
  abort := fun c d => some ((d.bufM fun b => { b with roll := none }).finish c stAborted 0)

/-- VOQ mode may change: no port, no protection index and no region in use (08 R313). -/
def Dev.voqFree (d : Dev) : Bool :=
  d.portList.isEmpty && d.ttb.prots.isEmpty && (d.fwd.regions.all fun r => r.2.state == .off)

def applySetVoq (c : Cmd) (d : Dev) : Dev :=
  if d.voqFree then
    okAfter c (d.bufM fun b => { b with voq := c.e.b 16 0, voqMax := clamp 16 4194304 (c.e.f 20 22 0) })
  else d.finish c stNotPermitted 0

def bufSetVoq : CmdSpec where
  op := 0x0B04
  kind := fun _ => .commit
  permit := fun d _ => failsIf (!d.voqFree) 0
  claims := fun _ _ => [claim1 itVoq 0]
  apply := applySetVoq
  abort := abortPlain

def bufSpecs : List CmdSpec := [bufSetAdmit, bufSetSpill, bufRollCall, bufSetVoq]

/-! ### Rows -/

/-- Findings of one store of a kind. -/
def findings (fs : List RollFinding) (store : Nat) (crossed : Bool) : List RollFinding :=
  fs.filter fun f => f.store == store && f.crossed == crossed

/-- Lowest unit found, or all ones (08 R312). -/
def lowestUnit (fs : List RollFinding) : Nat := fs.foldl (fun m f => min m f.unit) 0xFFFFFFFF

/-- The record of a roll call (08 R312), with the findings of the stores it examined. -/
def Dev.rollRecord (d : Dev) (r : RollCall) (fs : List RollFinding) : List Byte :=
  let nl := (findings fs 0 false).length
  let fl := (findings fs 1 false).length
  packRec 64 [(0, 0, 32, if r.near then 4194304 else 0), (4, 0, 32, if r.far then 536870912 else 0),
    (8, 0, 32, nl), (12, 0, 32, fl), (16, 0, 32, (findings fs 0 true).length), (20, 0, 32, (findings fs 1 true).length),
    (24, 0, 32, if r.reclaim then nl else 0), (28, 0, 32, if r.reclaim then fl else 0),
    (32, 0, 32, lowestUnit (findings fs 0 false)), (36, 0, 32, lowestUnit (findings fs 1 false)),
    (40, 0, 64, r.startSeq), (48, 0, 64, d.bel.seq)]

/-- The start bell of a roll call: units that are neither free nor reachable are its candidates (08 R311). -/
def Dev.rollStart (d : Dev) : Dev :=
  match d.buf.roll with
  | some r => d.when (r.startSeq == d.bel.seq) fun d => d.bufM fun b => { b with roll := some { r with cells := b.nearLeaks, pages := b.farLeaks } }
  | none => d

/-- Faults of the free lists that the audit has met become known to the module: cells and pages that are leaked (08 R311). -/
def Dev.learnLeaks (d : Dev) (fs : List RollFinding) : Dev :=
  let cells := ((findings fs 0 false).map fun f => f.unit).filter fun u => !d.buf.nearLeaks.contains u
  let pages := ((findings fs 1 false).map fun f => f.unit).filter fun u => !d.buf.farLeaks.contains u && !d.pageHeld u
  d.bufM fun b => { b with nearLeaks := b.nearLeaks ++ cells.eraseDups, farLeaks := b.farLeaks ++ pages.eraseDups, farUsed := b.farUsed + pages.eraseDups.length }

/-- What the confirmation pass finds: candidates that are still neither free nor reachable, faults met on the way, and crossed units, of the
stores examined (08 R311). -/
def Dev.rollFinds (d : Dev) (r : RollCall) (fs : List RollFinding) : List RollFinding :=
  let met := fun (store u : Nat) => (findings fs store false).any fun f => f.unit == u
  let cells := d.buf.nearLeaks.filter fun u => r.cells.contains u || met 0 u
  let pages := d.buf.farLeaks.filter fun u => (r.pages.contains u || met 1 u) && !d.pageHeld u
  (cells.map fun u => ({ store := 0, unit := u, crossed := false } : RollFinding)) ++ (pages.map fun u => { store := 1, unit := u, crossed := false }) ++
    fs.filter fun f => f.crossed

/-- A roll call that has its start bell behind it ends (08 R311, R312). -/
def Dev.rollEnds (d : Dev) (r : RollCall) (all : List RollFinding) : Dev :=
  let all := all.filter fun f => if f.store = 0 then r.near else r.far
  let d := d.learnLeaks all
  let fs := (d.rollFinds r all).filter fun f => if f.store = 0 then r.near else r.far
  let nl := (findings fs 0 false).length
  let fl := (findings fs 1 false).length
  let d := d.each (fs.filter fun f => f.crossed) fun f d => d.post 0x0B06 [.code f.store, .value f.unit]
  let d := (d.emit (.data r.addr (d.rollRecord r fs))).bufM fun b => { b with
    roll := none
    cellsDue := if r.reclaim then b.cellsDue ++ (findings fs 0 false).map (fun f => f.unit) else b.cellsDue
    pagesDue := if r.reclaim then b.pagesDue ++ (findings fs 1 false).map (fun f => f.unit) else b.pagesDue }
  let d := d.post 0x0B07 [.value nl, .value fl, .value (if r.reclaim then nl else 0), .value (if r.reclaim then fl else 0)]
  match d.cmdAt r.ring r.tag with
  | some c => d.finish { c with pos := c.total } stOk 0
  | none => d

/-- The roll call is held, or the background pool that it runs from is paused (08 R312, 13 R452). -/
def Dev.rollHeld (d : Dev) (r : RollCall) : Bool :=
  d.bgPaused || (match d.cmdAt r.ring r.tag with | some c => c.held | none => false)

end Sys2Proof.Machine
end

