-- ==== Sys2Proof/Machine/Deliver.lean ====
section
/-! DEFINITION. Delivery of frames to RX rings (12 R427 to R430). -/

namespace Sys2Proof.Machine

/-- What an RX entry says of its frame (12 R428). -/
structure RxInfo where
  time : Nat := 0
  frameLen : Nat := 0
  port : Nat := 0
  module : Nat := 0
  cls : Nat := 0
  fcsBad : Bool := false
  reason : Nat := 0
  truncated : Bool := false
  aux : Nat := 0
  deriving DecidableEq, Repr

/-- Address of the buffer that a posted entry names, aligned down to 64 bytes (12 R427). -/
def Ring.bufAddr (x : Ring) (idx : Nat) : Nat := (AMap.getD x.posted (idx % x.n) (0, 0)).1 / 64 * 64

/-- Its length, clamped to 256 to 16,384 and rounded down to a multiple of 64. -/
def Ring.bufLen (x : Ring) (idx : Nat) : Nat := max 256 (min 16384 (AMap.getD x.posted (idx % x.n) (0, 0)).2) / 64 * 64

/-- The pieces of a frame, each with the buffer it goes to, from the posted entry at an index; at most fuel of them. -/
def rxPieces (x : Ring) : Nat → Nat → List Byte → List (Nat × List Byte)
  | 0, _, _ => []
  | fuel + 1, idx, data =>
    let room := x.bufLen idx
    if data.length ≤ room then [(idx, data)]
    else (idx, data.take room) :: rxPieces x fuel (idx + 1) (data.drop room)

/-- A written-back RX entry, but for its phase (12 R428). -/
def rxEntry (x : RxInfo) (len : Nat) (first last : Bool) (bell : Nat) : Nat :=
  x.time % 2 ^ 64 + fld len 14 64 + fld x.frameLen 14 80 + b2n first * 2 ^ 94 + b2n last * 2 ^ 95 + fld x.port 10 96 +
  fld x.module 1 106 + fld x.cls 4 107 + b2n x.fcsBad * 2 ^ 111 + fld x.reason 8 112 + b2n x.truncated * 2 ^ 120 + fld x.aux 16 128 +
  bell * 2 ^ 224

/-- A ring can take the pieces: RUNNING, and enough posted entries (12 R430). -/
def Dev.rxTakes (d : Dev) (r : Nat) (pieces : List (Nat × List Byte)) : Bool :=
  (d.ring (128 + r)).state == .running && decide (pieces.length ≤ (d.ring (128 + r)).waiting)

/-- Pieces of a frame for RX ring r as it stands. -/
def Dev.rxPlan (d : Dev) (r : Nat) (data : List Byte) : List (Nat × List Byte) :=
  rxPieces (d.ring (128 + r)) 64 (d.ring (128 + r)).devIdx data

/-- Write a frame into RX ring r, which can take it. -/
def Dev.rxWrite (d : Dev) (r : Nat) (x : RxInfo) (data : List Byte) : Dev :=
  let pieces := d.rxPlan r data
  let last := pieces.length - 1
  let ring := d.ring (128 + r)
  let d := d.each (pieces.zipIdx) fun p d =>
    let d := d.emit (.data (ring.bufAddr p.1.1) p.1.2)
    d.writeEntry (128 + r) (rxEntry x p.1.2.length (p.2 == 0) (p.2 == last) d.bell24)
  (d.count (cRing (128 + r) 3) 1).count (cRing (128 + r) 4) data.length

/-- Deliver a frame to an RX ring, or count a punt-ring overflow, discard reason 4 (08 R304). -/
def Dev.deliverRx (d : Dev) (r : Nat) (x : RxInfo) (data : List Byte) : Dev :=
  if d.rxTakes r (d.rxPlan r data) then d.rxWrite r x data
  else (d.count (cRing (128 + r) 5) 1).count (cDev 266) 1

def Dev.timPort (d : Dev) (n : Nat) : TimPort := AMap.getD d.tim.ports n {}
def Dev.timPortM (d : Dev) (n : Nat) (f : TimPort → TimPort) : Dev :=
  d.timM fun t => { t with ports := AMap.upd t.ports n {} f }

/-- Receive message time of a reference timestamp at a port (02 R52). -/
def Dev.rxTime (d : Dev) (n ref : Nat) : Nat := ref - (d.timPort n).ingLat

/-- Transmit message time of a departure at a port (02 R52). -/
def Dev.txTime (d : Dev) (n ref : Nat) : Nat := ref + (d.timPort n).egrLat

end Sys2Proof.Machine
end

