-- ==== Sys2Proof/Machine/Time.lean ====
section
/-! DEFINITION. Network time (02): the servo, delays, time pins, and the TIM commands. The PTP messages stand in Ptp. -/

namespace Sys2Proof.Machine

/-- 0.25 ns in units of 2^-16 ns. -/
def q16 (q : Int) : Int := q * 16384

/-- TIM_OFFSET of an offset in 2^-16 ns: signed 0.25 ns, saturating. -/
def offsetQ (e : Int) : Int := clampI (-2147483648) 2147483647 (divFloor e 16384)

/-- BEL_STATUS.source by servo state (02 R67). -/
def ServoState.source : ServoState → Nat
  | .locked => 1 | .holdover => 2 | _ => 0

/-- Mean of the f of the last 64 samples taken in LOCKED (02 R65). -/
def meanOf (l : List Int) : Int := if l.isEmpty then 0 else divFloor (l.foldl (· + ·) 0) l.length

/-- The servo changes state: entry to HOLDOVER sets f, and the change is posted (02 R65, R82); BEL_STATUS.source follows. -/
def Dev.servoTo (d : Dev) (new : ServoState) (e : Int) : Dev :=
  let old := d.tim.servo.state
  if old = new then d
  else
    let d := d.servoM fun s => { s with
      state := new
      f := if new = .holdover ∧ s.everLocked = true ∧ s.history ≠ [] then meanOf s.history else s.f
      holdSince := if new = .holdover then d.now else s.holdSince
      everLocked := s.everLocked || new == .locked
      lockRun := 0, unlockRun := 0, regainRun := 0 }
    let d := d.post 0x0401 [.code old.code, .code new.code, .value (twos 32 (offsetQ e))]
    if d.bel.source = new.source then d
    else (d.belM fun b => { b with source := new.source }).post 0x0303 [.code d.bel.source, .code new.source]

/-- Apply a sample (02 R64). -/
def Dev.servoApply (d : Dev) (e : Int) : Dev :=
  let flim : Int := (d.tim.flim * 2 ^ 28 : Nat)
  if d.tim.servoStepEn && decide (((d.tim.stepNs * 65536 : Nat) : Int) < (if 0 ≤ e then e else -e)) && d.tim.servo.state != .holdover then
    d.servoM fun s => { s with pendingStep := some (divFloor (-e) 16384) }
  else
    d.servoM fun s =>
      let integ := if d.tim.hybrid && d.tim.syncState == 1 then 0 else clampI (-flim) flim (s.integ - (d.tim.ki : Int) * e)
      { s with integ, f := clampI (-flim) flim (-(d.tim.kp : Int) * e + integ) }

/-- A valid sample with its offset in 2^-16 ns (02 R65, R68). -/
def Dev.servoSample (d : Dev) (e : Int) : Dev :=
  let mag := if 0 ≤ e then e else -e
  let d := d.servoM fun s => { s with offset := offsetQ e, since := d.now, sourceValid := true }
  if d.tim.servo.hostHoldover then d
  else
    match d.tim.servo.state with
    | .freerun => (d.servoTo .acquiring e).servoApply e
    | .holdover =>
      let run := d.tim.servo.regainRun + 1
      if d.tim.regainCount ≤ run then (d.servoTo .acquiring e).servoApply e
      else d.servoM fun s => { s with regainRun := run }
    | .acquiring =>
      let d := d.servoApply e
      let run := if mag < ((d.tim.lockNs * 65536 : Nat) : Int) then d.tim.servo.lockRun + 1 else 0
      let d := d.servoM fun s => { s with lockRun := run }
      if mag < ((d.tim.lockNs * 65536 : Nat) : Int) ∧ d.tim.lockCount ≤ run then d.servoTo .locked e else d
    | .locked =>
      let d := d.servoApply e
      let d := d.servoM fun s => { s with history := (s.f :: s.history).take 64 }
      let run := if ((d.tim.unlockNs * 65536 : Nat) : Int) < mag then d.tim.servo.unlockRun + 1 else 0
      let d := d.servoM fun s => { s with unlockRun := run }
      if ((d.tim.unlockNs * 65536 : Nat) : Int) < mag ∧ d.tim.unlockCount ≤ run then d.servoTo .acquiring e else d

/-! ### Link delays (02 R52 to R54, R63) -/

/-- Averaged D of a port in 2^-16 ns, as its latest exchange left it; none before the first. -/
def Dev.meanD (d : Dev) (n : Nat) : Option Int := (d.timPort n).avgD

/-- D averaged over the last delay_avg exchanges, given as twice the delay (02 R63). -/
def meanDelayOf (l : List Int) : Option Int := if l.isEmpty then none else some (divFloor (l.foldl (· + ·) 0) (2 * l.length))

/-- Effective partner egress latency (02 R54). -/
def TimPort.partnerLat (p : TimPort) : Nat := if p.partner = 0 then p.egrLat else p.partner

/-- Reference-to-reference delay in 2^-16 ns (02 R54). -/
def Dev.refDelay (d : Dev) (n : Nat) : Option Int :=
  let p := d.timPort n
  (d.meanD n).map fun x => x + q16 (p.asym + (p.ingLat : Int) + (p.partnerLat : Int))

/-- TIM_PORT_REF_DELAY: rounded to the nearest ns; 0 before the first. -/
def Dev.refDelayNs (d : Dev) (n : Nat) : Int := match d.refDelay n with | some x => divFloor (x + 32768) 65536 | none => 0

/-- Report the reference delay when it is first known and when it has moved (02 R54). -/
def Dev.delayReport (d : Dev) (n : Nat) : Dev :=
  match d.refDelay n with
  | none => d
  | some x =>
    let moved := match (d.timPort n).reported with
      | none => true
      | some y => decide (((d.tim.delayAlarm * 65536 : Nat) : Int) < (if x ≤ y then y - x else x - y))
    d.when moved fun d =>
      (d.timPortM n fun p => { p with reported := some x }).post 0x0405 [.index n, .value (twos 32 (d.refDelayNs n))]

/-- A delay sample, as twice the delay in 2^-16 ns. -/
def Dev.delaySample (d : Dev) (n : Nat) (twice : Int) : Dev :=
  let d := d.timPortM n fun p =>
    let l := (twice :: p.delays).take 64
    { p with delays := l, avgD := meanDelayOf (l.take d.tim.delayAvg) }
  let d := d.when (d.tim.servo.srcKind == 1 && d.tim.servo.srcPort == n) fun d =>
    d.servoM fun s => { s with meanDelay := match d.meanD n with | some x => (divFloor x 16384).toNat | none => s.meanDelay }
  d.delayReport n

/-- The port runs the hardware message engines with the settings given (02 R56). -/
def Dev.engineWith (d : Dev) (n : Nat) (p : TimPort) : Bool := d.portExists n && d.tim.hwEn && p.transport == 0

/-- The port runs the hardware message engines (02 R56). -/
def Dev.engine (d : Dev) (n : Nat) : Bool := d.engineWith n (d.timPort n)

/-- The port with the settings that were in force at an instant (02 R76). -/
def TimPort.asOf (p : TimPort) (t : Nat) : TimPort :=
  let c := p.past.foldl (fun (c : TimCfg) x => if t < x.1 then x.2 else c) { role := p.role, p2p := p.p2p, transport := p.transport, asym := p.asym }
  { p with role := c.role, p2p := c.p2p, transport := c.transport, asym := c.asym }

/-! ### Rows: pins (02 R72 to R74) -/

/-- Number of the whole second whose PPS_OUT edge comes next. -/
def Dev.nextSecond (d : Dev) : Nat :=
  let t : Int := ((d.now : Nat) : Int) + d.tim.ppsOutOfs * 4
  (divFloor (t + 3999999999) 4000000000).toNat

/-- The time-of-day line for the second that began at the last PPS_OUT edge (02 R74). -/
def Dev.todLine (d : Dev) : List Byte :=
  let leap := if d.tim.leap61 then 1 else if d.tim.leap59 then 2 else 0
  let body := textBytes "OVTOD," ++ decDigits 20 d.tim.ppsSecond ++ [44] ++ decDigits 6 d.tim.utcOffset ++ [44] ++ decDigits 1 leap ++ [44] ++
    decDigits 1 d.tim.servo.state.code
  let cs := xorBytes body
  [36] ++ body ++ [42, hexDigit (cs / 16), hexDigit (cs % 16), 13, 10]

/-- Number that decimal digits spell, up to the first other character. -/
def readDec : List Byte → Nat → Nat
  | [], a => a
  | b :: r, a => if 48 ≤ b ∧ b ≤ 57 then readDec r (a * 10 + (b - 48)) else a

/-- One or more decimal digits. -/
def isDecimal (l : List Byte) : Bool := !l.isEmpty && l.all fun b => decide (48 ≤ b) && decide (b ≤ 57)

/-- The parts of bytes between the places where a byte stands. -/
def splitAtByte (x : Byte) : List Byte → List (List Byte)
  | [] => [[]]
  | b :: r =>
    match splitAtByte x r with
    | h :: t => if b = x then [] :: h :: t else (b :: h) :: t
    | [] => [[]]

/-- Seconds of a line of the form that the device sends, with a good check sum (02 R74). -/
def todSecondsOf (line : List Byte) : Option Nat :=
  let body := (line.drop 1).takeWhile fun b => b != 42
  let rest := (line.drop 1).dropWhile fun b => b != 42
  let cs := xorBytes body
  match splitAtByte 44 body with
  | [name, seconds, utc, [leap], [state]] =>
    if line.take 1 == [36] && name == textBytes "OVTOD" && isDecimal seconds && isDecimal utc && decide (48 ≤ leap) && decide (leap ≤ 50) &&
        decide (48 ≤ state) && decide (state ≤ 51) && rest == [42, hexDigit (cs / 16), hexDigit (cs % 16), 13, 10] then some (readDec seconds 0)
    else none
  | _ => none

/-! ### Clock pins (02 R71, R72) -/

/-- What RCLK_OUT0 or RCLK_OUT1 carries, in kHz: 0 while it stays low (02 R71). -/
def Dev.rclkOut (d : Dev) (second : Bool) : Nat :=
  let lane := if second then d.tim.rclk1Lane else d.tim.rclk0Lane
  let freq := if second then d.tim.rclk1Freq else d.tim.rclk0Freq
  if (d.lane lane).signal then (match freq with | 1 => 25000 | 2 => 125000 | 3 => 156250 | _ => 0) else 0

/-- Level of CLK10M_OUT: while driven, high for the first 50 ns of every 100 ns counted from the instants at which PPS_OUT rises (02 R72). -/
def Dev.clk10mOut (d : Dev) : Bool := d.tim.clk10m && decide ((((d.now : Nat) : Int) + d.tim.ppsOutOfs * 4) % 400 < 200)

/-! ### Rows: SyncE (02 R69, R70) -/

/-- The EEC changes state. -/
def Dev.eecTo (d : Dev) (new : Nat) : Dev :=
  let old := d.tim.syncState
  if old = new then d
  else
    let d := d.timM fun t => { t with syncState := new, servo := { t.servo with integ := if t.hybrid ∧ old = 1 then 0 else t.servo.integ } }
    d.post 0x0403 [.code old, .code new, .index d.tim.syncLane]

/-! ### Commands (02 R76 to R81) -/

def acceptSetPort (c : Cmd) (d : Dev) : Dev :=
  let e := c.e
  let n := d.portField e
  let lg := fun (x : Nat) => clampI (-7) 4 (signed 4 x)
  let d := d.timPortM n fun p => { p with
    past := (d.now, { role := p.role, p2p := p.p2p, transport := p.transport, asym := p.asym }) :: p.past
    role := e.f 16 17 16, p2p := e.b 16 18, transport := e.f 16 20 19, twoStep := e.b 16 21
    logSync := lg (e.f 20 3 0), logDelayReq := lg (e.f 20 7 4), logPdelayReq := lg (e.f 20 11 8)
    asym := clampI (-40000) 40000 (e.i 24 32), partner := e.f 28 15 0 }
  okAfter c (d.delayReport n)

def timSetPort : CmdSpec where
  op := 0x0401
  check := fun d e => firstOf [d.needsPort e,
    failsIf ((e.f 16 17 16 == 1 || e.f 16 17 16 == 2) && (e.f 16 20 19 == 1 || e.f 16 20 19 == 2)) (rejField 16 16),
    failsIf (e.f 16 20 19 == 3) (rejField 16 19)]
  accept := acceptSetPort

def acceptSelectSource (c : Cmd) (d : Dev) : Dev :=
  let e := c.e
  let kind := e.f 16 1 0
  let port := if kind = 1 then d.clampLane (e.f 16 31 16) else 0
  let d := d.servoM fun s => { s with
    srcKind := kind, srcPort := port, parentClock := e.f 20 63 0, parentPort := e.f 28 15 0
    meanDelay := if kind = 1 then (divFloor ((d.meanD port).getD 0) 16384).toNat else 0
    sourceValid := false, since := d.now }
  let d :=
    if d.tim.servo.hostHoldover then d
    else if kind = 0 then d.servoTo .freerun 0
    else if d.tim.servo.state = .locked then d.servoTo .acquiring 0
    else d
  okAfter c d

def timSelectSource : CmdSpec where
  op := 0x0402
  check := fun d e =>
    if e.f 16 1 0 = 1 then
      let n := d.clampLane (e.f 16 31 16)
      firstOf [failsIf (!d.portExists n) (rejField 16 16), failsIf ((d.timPort n).role != 2 || (d.timPort n).transport != 0) (rejField 16 0)]
    else none
  accept := acceptSelectSource

def acceptSetHoldover (c : Cmd) (d : Dev) : Dev :=
  let d :=
    if c.e.b 16 0 then (d.servoTo .holdover 0).servoM fun s => { s with hostHoldover := true }
    else if d.tim.servo.hostHoldover then
      let d := d.servoM fun s => { s with hostHoldover := false, regainRun := 1000 }
      if d.tim.servo.srcKind = 0 then d.servoTo .freerun 0 else d
    else d
  okAfter c d

def timSetHoldover : CmdSpec where
  op := 0x0403
  accept := acceptSetHoldover

def acceptSetSynce (c : Cmd) (d : Dev) : Dev :=
  let e := c.e
  let d := d.timM fun t => { t with syncLane := d.clampLane (e.f 16 9 0), syncEn := e.b 16 16, syncOption2 := e.b 16 17 }
  okAfter c (d.eecTo 0)

def timSetSynce : CmdSpec where
  op := 0x0404
  accept := acceptSetSynce

/-- Step that a TIM.SET_TIME asks for, in 0.25 ns; its position keeps the device time at acceptance (02 R80). -/
def Cmd.timeStep (c : Cmd) : Int := if c.e.b 16 0 then c.e.i 24 64 else ((c.e.f 24 63 0 : Nat) : Int) - ((c.pos : Nat) : Int)

def timSetTime : CmdSpec where
  op := 0x0405
  kind := fun _ => .waiting
  permit := fun d _ => failsIf (d.tim.servo.state == .acquiring || d.tim.servo.state == .locked) 0
  accept := fun c d => d.cmdM c fun c => { c with pos := d.now }
  abort := abortPlain

def acceptFeedOffset (c : Cmd) (d : Dev) : Dev :=
  let d := d.servoM fun s => { s with meanDelay := c.e.f 20 31 0 }
  okAfter c (d.servoSample (q16 (c.e.i 16 32)))

def timFeedOffset : CmdSpec where
  op := 0x0406
  permit := fun d _ => failsIf (d.tim.servo.srcKind != 3) 0
  accept := acceptFeedOffset

def timSpecs : List CmdSpec := [timSetPort, timSelectSource, timSetHoldover, timSetSynce, timSetTime, timFeedOffset]

end Sys2Proof.Machine
end

