-- ==== Sys2Proof/Machine/Fdb.lean ====
section
/-! DEFINITION. The forwarding database (07 R239 to R246): lookup, insertion, learning, ageing and removal. -/

namespace Sys2Proof.Machine

/-- One step of the reflected CRC-32 of IEEE 802.3. -/
def crcBit (c : Nat) : Nat := if c % 2 = 1 then Nat.xor (c / 2) 0xEDB88320 else c / 2

/-- One byte of it. -/
def crcByte (c b : Nat) : Nat :=
  crcBit (crcBit (crcBit (crcBit (crcBit (crcBit (crcBit (crcBit (Nat.xor c b))))))))

/-- The CRC-32 of a message, as for the FCS. -/
def crc32 (l : List Byte) : Nat := Nat.xor (l.foldl crcByte 0xFFFFFFFF) 0xFFFFFFFF

/-- Key of an address and FID (07 R240). -/
def fdbKey (mac fid : Nat) : Nat := mac + fid * 2 ^ 48

/-- Bucket of a key in bank b (07 R240). -/
def fdbBucket (b key : Nat) : Nat := crc32 (b :: bytesLE 8 key) % 65536

/-- Table location of an entry of the bucket of bank b. -/
def fdbLoc (b key i : Nat) : Nat := (b * 65536 + fdbBucket b key) * 4 + i

/-- The sixteen locations at which a key may lie. -/
def fdbPlaces (key : Nat) : List Nat := (List.range 4).flatMap fun b => (List.range 4).map fun i => fdbLoc b key i

/-- The entry of an address and FID, with its location. -/
def Dev.fdbFind (d : Dev) (mac fid : Nat) : Option (Nat × FdbEntry) :=
  List.find? (fun p => p.2.mac == mac && p.2.fid == fid) d.fwd.fdb

/-- Entries in use of a bank's bucket for a key. -/
def Dev.fdbUsed (d : Dev) (b key : Nat) : Nat :=
  sumBy (List.range 4) fun i => b2n (AMap.find? d.fwd.fdb (fdbLoc b key i)).isSome

/-- The place of a new key: the candidate bucket with the most free entries, the lowest bank on a tie, and in it the
lowest free entry (07 R241). -/
def Dev.fdbRoom (d : Dev) (key : Nat) : Option Nat :=
  let best := (List.range 4).foldl (fun (m : Nat × Nat) b => if d.fdbUsed b key < m.2 then (b, d.fdbUsed b key) else m) (0, d.fdbUsed 0 key)
  (List.range 4).findSome? fun i =>
    let loc := fdbLoc best.1 key i
    if (AMap.find? d.fwd.fdb loc).isNone then some loc else none

def Dev.fdbSet (d : Dev) (loc : Nat) (e : FdbEntry) : Dev := d.fwdM fun w => { w with fdb := AMap.set w.fdb loc e }

/-- Post an event, or only count its occurrence where it has been posted since the last bell. -/
def Dev.postOnce (d : Dev) (posted : Bool) (ev : Nat) (items : List Item) : Dev :=
  if posted then d.occur ev items else d.post ev items

/-- An insertion has failed (07 R241). -/
def Dev.fdbFull (d : Dev) (mac fid : Nat) : Dev :=
  (d.postOnce d.fwd.fullPosted 0x0A02 [.address mac, .index fid]).fwdM fun w => { w with fullPosted := true }

/-- FDB changes go to the buddy (07 R246): kind 0 learn or move, 1 hit, 2 removal, with the reference timestamp of the frame that taught it. -/
def Dev.fdbTell (d : Dev) (kind mac fid port sof : Nat) : Dev :=
  d.when (d.bdy.state == .paired || d.bdy.state == .syncing) fun d => d.emit (.buddyMsg bmFdb [kind, mac, fid, port, sof])

/-- Insert an entry or update it in place (07 R241). -/
def Dev.fdbWrite (d : Dev) (e : FdbEntry) : Option Dev :=
  match d.fdbFind e.mac e.fid with
  | some (loc, _) => some (d.fdbSet loc e)
  | none => (d.fdbRoom (fdbKey e.mac e.fid)).map fun loc => d.fdbSet loc e

/-- Learning allowance now, in 1/40 learn: one learn every 10 ns, at most 4,096 (07 R242). -/
def Dev.allowance (d : Dev) : Nat := min 163840 (d.fwd.allowance + (d.now - d.fwd.allowAt))

/-- Learn a new address (07 R242). -/
def Dev.learnNew (d : Dev) (mac fid port sof : Nat) : Dev :=
  if d.allowance < 40 then d.count (cDev 261) 1
  else
    match d.fdbWrite { mac, fid, dest := port, module := d.module, hit := true, learned := true, taught := sof, period := d.bel.seq } with
    | some d' => (d'.fwdM fun w => { w with allowance := d.allowance - 40, allowAt := d.now }).fdbTell 0 mac fid port sof
    | none => (d.count (cDev 260) 1).fdbFull mac fid

/-- Of two learns of one key on the two modules within one period the entry's stays against a frame of a module: its frame is later, or as
late and of module 0 (07 R246). -/
def Dev.taughtLater (d : Dev) (e : FdbEntry) (module sof : Nat) : Bool :=
  e.module != module && e.period == d.bel.seq && (decide (sof < e.taught) || (sof == e.taught && e.module == 0))

/-- An entry moves (07 R243). -/
def FdbEntry.moveTo (e : FdbEntry) (port module sof period : Nat) : FdbEntry :=
  { e with group := false, dest := port, module, hit := true, age := 0, taught := sof, period }

/-- A source address seen on a port (07 R242, R243). -/
def Dev.learnSource (d : Dev) (mac fid port sof : Nat) : Dev :=
  match d.fdbFind mac fid with
  | none => d.learnNew mac fid port sof
  | some (loc, e) =>
    let here := !e.group && e.dest == port && e.module == d.module
    if e.static then (if here then d else d.count (cPort port 49) 1)
    else if here then
      (d.fdbSet loc { e with hit := true }).when (!e.hit) fun d => d.fdbTell 1 mac fid port sof
    else if d.taughtLater e d.module sof then d
    else
      let d := d.fdbSet loc (e.moveTo port d.module sof d.bel.seq)
      let d := (d.count (cPort port 48) 1).postOnce d.fwd.movedPosted 0x0A01 [.address mac, .index fid, .index e.dest, .index port]
      (d.fwdM fun w => { w with movedPosted := true }).fdbTell 0 mac fid port sof

/-- Remove every entry that satisfies a test; fault says that a fault or protection action removes it (13 R446). -/
def Dev.fdbRemove (d : Dev) (fault : Bool) (p : FdbEntry → Bool) : Dev :=
  let gone := d.fwd.fdb.filter fun x => p x.2
  let d := d.fwdM fun w => { w with
    fdb := w.fdb.filter fun x => !p x.2
    flushedKeys := if fault then w.flushedKeys ++ gone.map fun x => fdbKey x.2.mac x.2.fid else w.flushedKeys }
  d.each gone fun x d => d.fdbTell 2 x.2.mac x.2.fid x.2.dest x.2.taught

/-- How many entries satisfy a test. -/
def Dev.fdbCount (d : Dev) (p : FdbEntry → Bool) : Nat := sumBy d.fwd.fdb fun x => b2n (p x.2)

/-- An entry names a port of this module. -/
def Dev.namesPort (d : Dev) (n : Nat) (e : FdbEntry) : Bool := !e.group && e.dest == n && e.module == d.module

/-- A pause of the background pool begins or ends: the sweep's later visits fall late by its length (07 R244). -/
def Dev.sweepPause (d : Dev) : Dev :=
  match d.bgPaused, d.fwd.sweepHeld with
  | true, none => d.fwdM fun w => { w with sweepHeld := some d.now }
  | false, some t => d.fwdM fun w => { w with sweepHeld := none, sweepAt := w.sweepAt + (d.now - t) }
  | _, _ => d

/-- Only one ager of a pair removes entries: module 0's, or the survivor's (07 R246, 17 R546). -/
def Dev.agerRole (d : Dev) : Bool :=
  match d.bdy.state with
  | .paired => d.bdy.index == 0
  | .isolated => d.bdy.authority
  | _ => true

/-- The ager visits one entry (07 R244). -/
def Dev.ageEntry (d : Dev) (loc : Nat) : Dev :=
  match AMap.find? d.fwd.fdb loc with
  | none => d
  | some e =>
    if e.static then d
    else if e.hit then d.fdbSet loc { e with hit := false, age := 0 }
    else if e.age + 1 < 8 then d.fdbSet loc { e with age := e.age + 1 }
    else if d.agerRole then
      ((d.fwdM fun w => { w with fdb := AMap.erase w.fdb loc }).count (cDev 262) 1).fdbTell 2 e.mac e.fid e.dest e.taught
    else d

/-- Span of a sweep with an ageing time in s (07 R244): T/8. -/
def sweepSpan (age : Nat) : Nat := age * qPerS / 8

/-- When the sweep under way comes to a location: its visits are spread evenly over T/8. -/
def Fwd.visitAt (w : Fwd) (location : Nat) : Nat := w.sweepAt + location * sweepSpan w.sweepAge / 1048576

/-- The sweep goes on to before a location, in ascending order. -/
def Dev.sweepTo (d : Dev) (stop : Nat) : Dev :=
  let due := (d.fwd.fdb.map fun x => x.1).filter fun k => decide (d.fwd.sweepPos ≤ k) && decide (k < stop)
  (d.each due fun k d => d.ageEntry k).fwdM fun w => { w with sweepPos := stop }

/-- The sweep ends, and the next one starts with the ageing time then set. -/
def Dev.sweepEnd (d : Dev) : Dev :=
  (d.sweepTo 1048576).fwdM fun w => { w with sweepAt := w.sweepAt + sweepSpan w.sweepAge, sweepAge := w.age, sweepPos := 0 }

/-! ### Bytes of frames -/

/-- Address from bytes of a frame, first transmitted byte highest (07 R239). -/
def macAt (data : List Byte) (off : Nat) : Nat := natBE (subBytes data off 6)

/-- Group bit of an address: bit 0 of its first byte. -/
def isGroupMac (m : Nat) : Bool := bit m 40

end Sys2Proof.Machine
end

