-- ==== Sys2Proof/Machine/Recorder.lean ====
section
/-! DEFINITION. Recorder regions and mirror copies for rings and recorders (07 R259 to R267). -/

namespace Sys2Proof.Machine

def Dev.region (d : Dev) (r : Nat) : Region := AMap.getD d.fwd.regions r {}
def Dev.regionM (d : Dev) (r : Nat) (f : Region → Region) : Dev :=
  d.fwdM fun w => { w with regions := AMap.upd w.regions r {} f }

/-- A page with its header (07 R264): page_seq, first_rec, used, and the bytes, filled to 4 KiB. -/
def Region.page (x : Region) : List Byte :=
  packRec 16 [(0, 0, 32, x.pageSeq), (4, 0, 16, x.firstRec.getD 0xFFFF), (6, 0, 16, 16 + x.cur.length)] ++ Config.padTo 4080 x.cur

/-- Far-store page of a place in a region's ring: one of those reserved for it, which of them being left open. -/
def Dev.regionPage (d : Dev) (r k : Nat) : Nat := Config.recorderPage r k d.now % d.glb.part.farPages

/-- Far-store page that a region writes next. -/
def Dev.recPage (d : Dev) (r : Nat) : Nat := d.regionPage r ((d.region r).pageSeq % max 1 (d.region r).pages)

/-- Write the page under way to its place in the ring (07 R264). -/
def Dev.writeRecPage (d : Dev) (r : Nat) : Dev :=
  let d := d.pageNow (d.recPage r) 5 true 0 64
  (d.regionM r fun x => { x with
    store := AMap.set x.store (x.pageSeq % max 1 x.pages) x.page
    pageSeq := (x.pageSeq + 1) % 2 ^ 32, cur := [], firstRec := none, postLeft := x.postLeft - 1 }).count (cRegion r 1) 1

/-- A region writes: it records, or pages after its trigger are still to be written (07 R265). -/
def Region.writes (x : Region) : Bool := x.state == .recording || (x.state == .post && (decide (0 < x.postLeft) || x.postPages == 0))

/-- Append bytes to a region, page by page; at most fuel pages. Nothing follows the last page after a trigger. -/
def Dev.appendRec : Nat → Nat → List Byte → Dev → Dev
  | 0, _, _, d => d
  | fuel + 1, r, bs, d =>
    let room := 4080 - (d.region r).cur.length
    if !(d.region r).writes then d
    else if bs.length < room then d.regionM r fun x => { x with cur := x.cur ++ bs }
    else Dev.appendRec fuel r (bs.drop room) ((d.regionM r fun x => { x with cur := x.cur ++ bs.take room }).writeRecPage r)

/-- A region takes records (07 R262, R265). -/
def Region.takes (x : Region) : Bool :=
  match x.state with
  | .recording => true
  | .post => decide (0 < x.postLeft)
  | _ => false

/-- One record (07 R264): header and captured bytes, padded to a multiple of 16. -/
def recBytes (x : Region) (time origLen capLen port session : Nat) (egress : Bool) (cls : Nat) (bad trunc : Bool) (data : List Byte) : List Byte :=
  packRec 32 [(0, 0, 64, time), (8, 0, 32, x.recSeq), (12, 0, 14, origLen), (12, 16, 14, capLen), (16, 0, 10, port), (16, 10, 6, session),
    (16, 16, 1, b2n egress), (16, 17, 4, cls), (16, 21, 1, b2n bad), (16, 22, 1, b2n trunc), (20, 0, 32, satTo (2 ^ 32 - 1) x.missed)] ++
    Config.padTo ((data.length + 15) / 16 * 16) data

/-- Commands named by ring and tag end alike. -/
def Dev.finishAll (d : Dev) (l : List (Nat × Nat)) (status : Nat) : Dev := d.each l fun p d => d.finishAt p.1 p.2 status 0

/-- A region starts to record again at page 0 (07 R265). -/
def Dev.rearmRegion (d : Dev) (r : Nat) : Dev :=
  let w := (d.region r).rearmWait
  let d := d.regionM r fun x => { x with state := .recording, pageSeq := 0, recSeq := 0, missed := 0, cur := [], firstRec := none, store := [], rearmWait := [] }
  d.finishAll w stOk

/-- A region goes OFF: its pages return, and what waited for FROZEN or for a rearm cannot come (07 R263, R265). -/
def Dev.disableRegion (d : Dev) (r : Nat) : Dev :=
  let x := d.region r
  let d := (d.bufM fun b => { b with farReserved := b.farReserved - x.pages }).keptFreed.farFreed
  let d := d.regionM r fun _ => {}
  let d := d.finishAll (x.freezeWait ++ x.rearmWait) stFailed
  d.finishAll x.disableWait stOk

/-- A disable or rearm that waited is applied once the region is FROZEN (07 R265). -/
def Dev.afterFrozen (d : Dev) (r : Nat) : Dev :=
  if (d.region r).disableWait.isEmpty then (if (d.region r).rearmWait.isEmpty then d else d.rearmRegion r) else d.disableRegion r

/-- A region enters FROZEN: posted with its newest page, or a free value where it has none (07 R266). -/
def Dev.toFrozen (d : Dev) (r : Nat) : Dev :=
  let d := d.regionM r fun x => { x with state := .frozen }
  if (d.region r).pageSeq = 0 then
    let (k, d) := d.fresh
    d.post 0x0A05 [.index r, .value (Config.openValue k)]
  else d.post 0x0A05 [.index r, .value ((d.region r).pageSeq - 1)]

/-- The region freezes, and waiting commands complete (07 R265, R266). With no pages to follow the trigger, the page under way is its last;
otherwise the last page has been written, and what a record has beyond it is not kept. -/
def Dev.freeze (d : Dev) (r : Nat) : Dev :=
  let d := if (d.region r).postPages ≠ 0 ∨ (d.region r).cur.isEmpty then d else d.writeRecPage r
  let w := (d.region r).freezeWait
  let d := (d.regionM r fun x => { x with freezeWait := [], cur := [], firstRec := none }).toFrozen r
  (d.finishAll w stOk).afterFrozen r

/-- A trigger wins in a RECORDING region (07 R266). -/
def Dev.fireRegion (d : Dev) (r code : Nat) : Dev :=
  let x := d.region r
  let d := d.regionM r fun x => { x with state := .post, trigger := code, trigTime := d.now, trigSeq := x.recSeq, postLeft := x.postPages }
  let d := d.post 0x0A04 [.index r, .code code, .value x.recSeq]
  if x.postPages = 0 then d.freeze r else d

/-- A trigger code for one region: it wins, or is counted where it comes too late (07 R266). -/
def Dev.triggerRegion (d : Dev) (r code : Nat) : Dev :=
  match (d.region r).state with
  | .recording => d.fireRegion r code
  | .post => d.count (cRegion r 2) 1
  | .frozen => d.count (cRegion r 2) 1
  | _ => d

/-- A trigger of the device for every region whose mask has it (07 R266). -/
def Dev.trigger (d : Dev) (code : Nat) : Dev :=
  d.each (List.range 8) fun r d => d.when (bit (d.region r).trigMask code) fun d => d.triggerRegion r code

/-- A mirror copy cannot be taken: discard reason 5 (07 R262). -/
def Dev.discardMirror (d : Dev) (s : Nat) : Dev := (d.count (cMirror s 1) 1).count (cDev 267) 1

/-- The recorder writer, which panic suspends, cannot take a copy; how long it buffers is left open (07 R262, 10 R350, R355). -/
def Dev.recorderStalled (d : Dev) (r : Nat) : Bool := (d.stack (d.pageStack (d.recPage r))).panic && Config.recorderStalls r d.now

/-- The four FCS bytes of a frame; those of a frame found bad are not known to the model: free values. -/
def Dev.fcsBytes (d : Dev) (data : List Byte) (bad : Bool) : List Byte × Dev :=
  if bad then
    let (k, d) := d.fresh
    (bytesLE 4 (Config.openValue k), d)
  else (bytesLE 4 (crc32 data), d)

/-- A mirror copy for a ring or a recorder is written, its original having ended good or bad (07 R261, R262): a whole frame with its FCS into
a recorder and without it into a ring, or its first bytes. -/
def Dev.writeMirror (d : Dev) (m : MirrorOut) (sof : Nat) (bad : Bool) : Dev :=
  let x := m.set
  let len := m.data.length + 4
  let short := decide (x.trunc ≠ 0 ∧ x.trunc < len)
  let (fcs, d) := d.fcsBytes m.data bad
  let whole := m.data ++ fcs
  if x.kind = 1 then
    let data := if short then whole.take x.trunc else m.data
    let info : RxInfo := { time := d.rxTime m.port sof, frameLen := len, port := m.port, module := d.module, cls := m.cls, fcsBad := bad, reason := 11, truncated := short, aux := m.session }
    if d.rxTakes x.target (d.rxPlan x.target data) then (d.rxWrite x.target info data).count (cMirror m.session 0) 1
    else d.discardMirror m.session
  else if x.kind = 2 then
    let data := if short then whole.take x.trunc else whole
    let rg := d.region x.target
    if rg.takes && !d.recorderStalled x.target then
      let bs := recBytes rg sof len data.length m.port m.session m.egress m.cls bad (decide (data.length < len)) data
      let d := d.regionM x.target fun g => { g with
        firstRec := match g.firstRec with | some o => some o | none => some (16 + g.cur.length)
        recSeq := (g.recSeq + 1) % 2 ^ 32, missed := 0 }
      ((Dev.appendRec 8 x.target bs d).count (cRegion x.target 0) 1).count (cMirror m.session 0) 1
    else (d.regionM x.target fun g => { g with missed := satTo (2 ^ 32 - 1) (g.missed + 1) }).discardMirror m.session
  else d

/-- Sampling: the 1st, (N+1)th, (2N+1)th frame (07 R260). -/
def Dev.sampled (d : Dev) (s n : Nat) : Bool × Dev :=
  let x := d.mirror s
  (x.seen % max 1 n == 0, d.mirrorM s fun x => { x with seen := (x.seen + 1) % max 1 n })

/-- Bytes of a copy for a port: the frame, or its first t - 4 bytes (07 R261). -/
def Mirror.cutFor (x : Mirror) (data : List Byte) : List Byte := if x.trunc ≠ 0 ∧ x.trunc < data.length + 4 then data.take (x.trunc - 4) else data

/-- A mirror copy of a stored frame for a port target: it may come to hold cells of its session's quota only (07 R249, R262, 08 R289). -/
def Dev.mirrorToPort (d : Dev) (s : Nat) (x : Mirror) (f : Nat) (data : List Byte) : Dev :=
  let cut := x.cutFor data
  let n := cellsOf (cut.length + 4)
  if x.quota < (d.mirror s).claims + n ∨ (d.port x.target).state.takes = false then d.discardMirror s
  else
    let d := d.mirrorM s fun x => { x with claims := x.claims + n }
    let d := (d.frameM f fun fr => { fr with mirrors := fr.mirrors ++ [(s, n)] }).settleFrame f
    let c : Copy := { frame := f, cells := n, len := cut.length + 4, data := some cut, mirror := some { session := s } }
    (d.schPortM x.target fun p => { p with mirrors := AMap.upd p.mirrors x.cls [] (· ++ [c]) }).count (cMirror s 0) 1

end Sys2Proof.Machine
end

