-- ==== Sys2Proof/Machine/Supervise.lean ====
section
/-! DEFINITION. Supervision of Zuben lanes and slots (04 R142 to R149) and protection selectors (05 R177, R184 to R186): what
follows when a lane, a slot or a page changes condition. -/

namespace Sys2Proof.Machine

/-! ### Lanes and slots -/

/-- Lane index that carries a lane number: its spare lane while substituted (00 R5). -/
def Dev.carrier (d : Dev) (l : Nat) : Nat :=
  let sp := d.lane (1024 + l / 8)
  if sp.use == 2 && sp.replaces == l then 1024 + l / 8 else l

/-- Lane number that a lane index carries, if any (00 R5). -/
def Dev.carried (d : Dev) (i : Nat) : Option Nat :=
  let x := d.lane i
  if x.use = 2 then some x.replaces
  else if x.use = 1 ∧ d.carrier i = i then some i
  else none

/-- The lane number belongs to a Zuben port (03 R85). -/
def Dev.isZuben (d : Dev) (l : Nat) : Bool := (d.lane l).use == 1 && (d.port (d.lane l).port).framing == 1

def Dev.zlane (d : Dev) (l : Nat) : ZLane := AMap.getD d.zbn.lanes l {}
def Dev.zlaneM (d : Dev) (l : Nat) (f : ZLane → ZLane) : Dev :=
  d.zbnM fun z => { z with lanes := AMap.upd z.lanes l {} f }

/-- Key of a slot of a lane. -/
def slotKey (l s : Nat) : Nat := l * 32 + s
def Dev.zslot (d : Dev) (l s : Nat) : ZSlot := AMap.getD d.zbn.slots (slotKey l s) {}
def Dev.zslotM (d : Dev) (l s : Nat) (f : ZSlot → ZSlot) : Dev :=
  d.zbnM fun z => { z with slots := AMap.upd z.slots (slotKey l s) {} f }

/-- The lane that carries a lane number is UP (03 R91). -/
def Dev.laneUp (d : Dev) (l : Nat) : Bool := (d.lane (d.carrier l)).state == .up

/-! ### Timetable entries (05 R166, R167) -/

def entMode (e : Nat) : Nat := bits e 1 0
def entRx (e : Nat) : Bool := bit e 2
def entProtected (e : Nat) : Bool := bit e 3 && entMode e == 1
def entAis (e : Nat) : Bool := bit e 4
/-- Working and protection sources of an entry, as slot keys. -/
def entSource (e : Nat) : Nat := slotKey (bits e 14 5) (bits e 19 15)
def entProt (e : Nat) : Nat := slotKey (bits e 29 20) (bits e 34 30)
def entIndex (e : Nat) : Nat := bits e 45 35
def entBuddy (e : Nat) : Bool := bit e 46
def seatValid (x : Nat) : Bool := bit x 0
def seatSource (x : Nat) : Nat := slotKey (bits x 10 1) (bits x 15 11)
def seatSeat (x : Nat) : Nat := bits x 20 16
def seatAis (x : Nat) : Bool := bit x 21

/-- Seat entry of a page. -/
def Page.seat (p : Page) (s k : Nat) : Nat := AMap.getD p.seats (s * 32 + k) 0

/-- Lanes of Zuben ports, in rising order. -/
def Dev.zubenLanes (d : Dev) : List Nat := (d.portList.filter fun n => (d.port n).framing == 1).flatMap fun n => d.portLanes n

/-! ### Defects (04 R145 to R149) -/

/-- An accepted trace differs from the expected one: the header byte follows from the characters. -/
def TraceRx.differs (t : TraceRx) (expected : List Byte) : Bool := !t.accepted.isEmpty && t.accepted.drop 1 != Config.padTo 15 expected

/-- Defect bits of a lane: LOS, LOF, LOM, TIM, SD, SF, RDI. SF and SD hold through LOS and LOF, which raise them. -/
def Dev.laneDefects (d : Dev) (l : Nat) : Nat :=
  let z := d.zlane l
  let los := !d.laneUp l
  let lof := !los && z.align != .sync
  let down := los || lof
  let lom := !down && !z.mfIn
  let tim := !down && !lom && z.timSecEn && z.rxTrace.differs z.expTrace
  let sf := down || z.sf.raised
  b2n los + 2 * b2n lof + 4 * b2n lom + 8 * b2n tim + 16 * b2n (sf || z.sd.raised) + 32 * b2n sf + 64 * b2n (!down && z.rdi)

/-- Defect bits of a slot: AIS, RDI-P, TIM-P. -/
def Dev.slotDefects (d : Dev) (l s : Nat) : Nat :=
  let x := d.zslot l s
  let ds := d.laneDefects l
  let down := bit ds 0 || bit ds 1
  b2n (!down && x.ais) + 2 * b2n (!down && x.rdi) +
    4 * b2n (!down && !bit ds 2 && (d.zlane l).timPathEn && x.rxTrace.differs x.expTrace)

/-- Slot SF, slot SD and slot TIM (04 R149). -/
def Dev.slotSf (d : Dev) (l s : Nat) : Bool := bit (d.laneDefects l) 5 || bit (d.slotDefects l s) 0
def Dev.slotSd (d : Dev) (l : Nat) : Bool := bit (d.laneDefects l) 4
def Dev.slotTim (d : Dev) (l s : Nat) : Bool := bit (d.laneDefects l) 3 || bit (d.slotDefects l s) 2

/-- A source copy of this module has failed (05 R177). -/
def Dev.copyFailed (d : Dev) (k : Nat) : Bool :=
  !d.isZuben (k / 32) || d.slotSf (k / 32) (k % 32) || (d.ttb.aisOnTim && d.slotTim (k / 32) (k % 32)) || (d.zslot (k / 32) (k % 32)).packet

/-- A source copy is degraded (05 R177). -/
def Dev.copyDegraded (d : Dev) (k : Nat) : Bool := d.isZuben (k / 32) && d.slotSd (k / 32)

/-- A source copy on the buddy has failed, with the conditions that the buddy gave last (05 R177). -/
def Dev.buddyCopyFailed (d : Dev) (cond : Nat) : Bool :=
  !d.bdy.linkUp || d.bdy.state == .solo || bit cond 0 || (d.ttb.aisOnTim && bit cond 2) || bit cond 3 || bit cond 4

/-- Conditions of a slot of this module as they are told to the buddy (05 R177, 17 R534). -/
def Dev.copyCond (d : Dev) (k : Nat) : Nat :=
  b2n (d.slotSf (k / 32) (k % 32)) + 2 * b2n (d.slotSd (k / 32)) + 4 * b2n (d.slotTim (k / 32) (k % 32)) +
    8 * b2n (d.zslot (k / 32) (k % 32)).packet + 16 * b2n (!d.isZuben (k / 32))

/-- The buddy has an entry in its shadow that takes this slot as its protection source (17 R534). -/
def Dev.forwards (d : Dev) (key : Nat) : Bool :=
  d.bdy.linkUp && d.bdy.shadow.any fun s => s.1 == 0x0801 &&
    (let e := bits (s.2 >>> 64) 63 0
     entProtected e && entBuddy e && entProt e == key)

/-- Blocks of a slot go to the buddy with the slot's conditions, where it asks for them. -/
def Dev.forwardSlot (d : Dev) (l s : Nat) (blocks : List Block) (bad : Bool) : Dev :=
  d.when (d.forwards (slotKey l s)) fun d => d.emit (.buddyContainer l s blocks bad (d.copyCond (slotKey l s)))

/-! ### Protection selectors (05 R184, R185) -/

def Dev.prot (d : Dev) (i : Nat) : Prot := AMap.getD d.ttb.prots i {}

/-- Change an enabled index; one that is not enabled has no state. -/
def Dev.protM (d : Dev) (i : Nat) (f : Prot → Prot) : Dev :=
  match AMap.find? d.ttb.prots i with
  | some _ => d.ttbM fun t => { t with prots := AMap.upd t.prots i {} f }
  | none => d

/-- The highest of the active conditions and the held host commands (05 R184). -/
def Prot.highest (p : Prot) : Nat :=
  if bit p.host 0 then 10 else if p.sfP then 9 else if bit p.host 1 then 8 else if p.sfWReq then 7 else if p.sdP then 6
  else if p.sdWReq then 5 else if bit p.host 2 then 4 else if bit p.host 3 then 3 else 0

/-- The copy that a request selects: true for the protection copy. -/
def reqSelects (r : Nat) : Bool := r == 8 || r == 7 || r == 5 || r == 4 || r == 2 || r == 1

/-- The request after a change (05 R185): what is active, or WTR, DNR or NR. -/
def Prot.next (p : Prot) (now : Nat) : Prot :=
  let top := p.highest
  if top ≠ 0 then
    -- a manual switch is cleared by any higher request
    { p with request := top, wtrRunning := false, host := if 4 < top then p.host % 4 else p.host }
  else if p.request = 7 ∨ p.request = 5 then
    if p.revertive then { p with request := 2, wtrRunning := true, wtrUntil := now + p.wtrS * qPerS }
    else { p with request := 1 }
  else if p.request = 2 ∧ p.wtrRunning = true then p
  else if !p.revertive && p.selected then { p with request := 1 }
  else { p with request := 0, wtrRunning := false }

/-- Playout delay of a protection index, 28 microseconds (05 R183). -/
def playDelay : Nat := 112000

/-- Where the playout of one copy stands now: its first block that is not yet due. -/
def Prot.playFrom (p : Prot) (sel : Bool) (now : Nat) : Nat :=
  match (if sel then p.ringP else p.ringW).find? fun b => decide (now ≤ b.seen + playDelay) with
  | some b => b.no
  | none => if sel then p.countP else p.countW

/-- Recompute the request of an index; a change of the selected copy is posted and counted (05 R185, R183). -/
def Dev.protDecide (d : Dev) (i : Nat) : Dev :=
  let old := d.prot i
  let new := old.next d.now
  let sel := reqSelects new.request
  let d := d.protM i fun _ => { new with selected := sel }
  d.when (sel != old.selected) fun d =>
    let d := (d.count (cProt i 0) 1).when (old.align != .aligned) fun d =>
      (d.count (cProt i 2) 1).protM i fun p => { p with playNext := p.playFrom sel d.now }
    (d.post 0x0803 [.index i, .code old.request, .code new.request, .code (b2n sel)]).trigger 1

/-- A condition as it now is, with its hold-off: the state of the request and the end of the hold-off (05 R184). -/
def holdOffStep (was is req : Bool) (until_ now holdOff : Nat) : Bool × Nat :=
  if !is then (false, 0)
  else if was then (req, until_)
  else if holdOff = 0 then (true, 0)
  else (false, now + holdOff * 100 * qPerMs)

/-- Look at the conditions of an index again (05 R177, R184). -/
def Dev.protRefresh (d : Dev) (i : Nat) : Dev :=
  let p := d.prot i
  let sfW := p.wired && d.copyFailed p.work
  let sdW := p.wired && d.copyDegraded p.work
  let sfP := p.wired && (if p.buddy then d.buddyCopyFailed p.buddyCond else d.copyFailed p.prot)
  let sdP := p.wired && (if p.buddy then bit p.buddyCond 1 else d.copyDegraded p.prot)
  let a := holdOffStep p.sfW sfW p.sfWReq p.sfWUntil d.now p.holdOff
  let b := holdOffStep p.sdW sdW p.sdWReq p.sdWUntil d.now p.holdOff
  (d.protM i fun p => { p with
    sfW, sdW, sfP, sdP, sfWReq := a.1, sfWUntil := a.2, sdWReq := b.1, sdWUntil := b.2
    failWSince := if sfW && !p.sfW then d.now else p.failWSince
    failPSince := if sfP && !p.sfP then d.now else p.failPSince }).protDecide i

/-- Every index is looked at again: a condition of any lane, slot or link has changed. -/
def Dev.protScan (d : Dev) : Dev := d.each (d.ttb.prots.map (·.1)) fun i d => d.protRefresh i

/-- What a second of performance monitoring sees of defect bits (04 R150). -/
def PmLane.note (p : PmLane) (ds : Nat) : PmLane :=
  { p with sawLoss := p.sawLoss || ds % 8 != 0, sawSf := p.sawSf || bit ds 5, sawRdi := p.sawRdi || bit ds 6 }

/-- The second under way sees the defects of a lane and its slots as they are. -/
def Dev.pmNote (d : Dev) (l : Nat) : Dev :=
  let ds := d.laneDefects l
  let slots := (List.range 20).map fun s => d.slotDefects l s
  d.zlaneM l fun z => { z with pm := { z.pm.note ds with
    sawSlot := (List.range 20).foldl (fun m s => if nth slots s 0 = 0 then m else AMap.upd m s 0 (· ||| nth slots s 0)) z.pm.sawSlot } }

/-- The defects of a lane and of its slots are compared with what was last reported; changes are posted, a raised lane
defect triggers recorders, and protection follows (04 R145, R163, 07 R266). -/
def Dev.superviseLane (d : Dev) (l : Nat) : Dev :=
  if !d.isZuben l then d
  else
    let old := (d.zlane l).defects
    let new := d.laneDefects l
    let d := d.pmNote l
    let d := d.when (old != new) fun d =>
      let d := (d.zlaneM l fun z => { z with defects := new }).post 0x0701 [.index l, .set old, .set new]
      d.when ((List.range 7).any fun k => bit new k && !bit old k) fun d => d.trigger 2
    let d := d.each (List.range 20) fun s d =>
      let was := (d.zslot l s).defects
      let is := d.slotDefects l s
      let d := d.when (was != is) fun d => (d.zslotM l s fun x => { x with defects := is }).post 0x0702 [.index l, .index s, .set was, .set is]
      d.when (was != is || old != new) fun d => d.forwardSlot l s [] false
    d.protScan

/-! ### Failures of a handshake and of a page switch (04 R137, 05 R176) -/

/-- zbn:page_handshake, with one of its outcomes: 0 AGREED, 1 failed, 2 lost, 3 refused. The codes are not stated. -/
def Dev.postHs (d : Dev) (l tag outcome : Nat) : Dev :=
  d.post 0x0703 [.index l, .index tag, .code (Config.outcomeCode 0x0703 outcome)]

/-- The handshake of a lane is IDLE. -/
def ZLane.hsIdle (z : ZLane) : ZLane := { z with hs := .idle, hsTai := 0, hsTag := 0, naksLeft := 0, nakTag := 0, reqSent := false, switchSent := false, rxSwitch := none }

/-- TTB.SWITCH_PAGE of a lane fails with a reason; the active page stands (05 R176). -/
def Dev.switchFail (d : Dev) (l reason : Nat) : Dev :=
  match (d.ttbLane l).switch with
  | none => d
  | some w =>
    let d := (d.ttbLaneM l fun t => { t with switch := none }).post 0x0802 [.index l, .code reason]
    d.finishAt w.ring w.tag stFailed (reason * 2 ^ 17)

/-- A handshake under way ends without a switch: failed is reported, and the timetable block's command fails. -/
def Dev.hsFail (d : Dev) (l reason : Nat) : Dev :=
  let z := d.zlane l
  let active := z.hs == .requesting || z.hs == .agreed
  let d := d.zlaneM l ZLane.hsIdle
  let d := d.when active fun d => (d.count (cLane l 9) 1).postHs l z.hsTag 1
  d.switchFail l reason

/-! ### Alignment lost, lanes leaving UP (04 R143) -/

/-- Frame alignment returns to HUNT; what good frames in a row have raised is cleared with the defects (04 R145). -/
def ZLane.hunt (z : ZLane) : ZLane :=
  { z with align := .hunt, candidates := [], badRun := 0, mfIn := false, mfMiss := 0, mfLast := none, bip := none, rdi := false, rdiRun := 0, packets := none, mgmtRx := [] }

/-- A slot of a lane that hunts. -/
def ZSlot.hunt (x : ZSlot) : ZSlot := { x with ais := false, aisRun := 0, rdi := false, rdiRun := 0 }

/-- A lane hunts for the frame. -/
def Dev.huntLane (d : Dev) (l : Nat) : Dev :=
  (d.zlaneM l ZLane.hunt).zbnM fun z => { z with slots := z.slots.map fun p => (p.1, if p.1 / 32 = l then p.2.hunt else p.2) }

/-- Lane index of the spare lane of a lane substitution, and of the worn lane. -/
def SubSlot.spareIx (x : SubSlot) : Nat := if x.kind = 1 then 1024 + x.spare else buddyIx x.spare
def SubSlot.wornIx (x : SubSlot) : Nat := if x.kind = 1 then x.unit else buddyIx x.unit

/-- The substitution whose spare lane has an index reaches its next step (16 R516). -/
def Dev.subStep (d : Dev) (i step : Nat) : Dev :=
  let f := fun (x : SubSlot) => if x.kind ≤ 2 ∧ x.spareIx = i ∧ x.step + 1 = step ∧ x.claimed = true then { x with step, pos := step } else x
  d.subM fun s => { s with slots := AMap.mapV s.slots fun _ x => f x }

/-- Add to a counter of a lane index; buddy lanes have none there (15 R489). -/
def Dev.countLane (d : Dev) (i pos : Nat) : Dev := d.when (decide (i < 1152)) fun d => d.count (cLane i pos) 1

/-- A buddy lane leaves SYNC (17 R528). -/
def Dev.buddyLosesSync (d : Dev) (i : Nat) : Dev := (d.huntLane i).count (cBuddyLane (i - 1152) 2) 1

/-- A lane number leaves SYNC: its handshake and any page switch fail, and defects follow. -/
def Dev.leaveSync (d : Dev) (l : Nat) : Dev :=
  let d := ((d.huntLane l).count (cLane l 5) 1).hsFail l 4
  d.superviseLane l

/-- Management frames queued on a lane that leaves UP fail (04 R161). -/
def Dev.failMgmt (d : Dev) (l : Nat) : Dev :=
  let mine := (d.zlane l).mgmt
  (d.zlaneM l fun z => { z with mgmt := [], mgmtPos := 0 }).finishAll (mine.map fun m => (m.1, m.2.1)) stFailed

/-- What follows for Zuben framing when the lane of an index has entered or left UP (04 R143, R145). -/
def Dev.zubenLaneChange (d : Dev) (i : Nat) (wasUp : Bool) : Dev :=
  let up := (d.lane i).state == .up
  if wasUp == up then d
  else
    match d.carried i with
    | some l =>
      if !d.isZuben l then d
      else if up then (d.huntLane l).superviseLane l
      else
        let d := d.failMgmt l
        if (d.zlane l).align == .sync then d.leaveSync l else (d.huntLane l).superviseLane l
    | none =>
      if i < 1024 then d
      else if up then (d.huntLane i).subStep i 1
      else if isBuddyIx i && (d.zlane i).align == .sync then d.buddyLosesSync i
      else d.huntLane i

/-- Put a lane index into a state; an exit from UP is counted (03 R121), a change of a buddy lane is posted (17 R556), and Zuben framing follows. -/
def Dev.laneTo (d : Dev) (i : Nat) (new : LaneState) (f : Lane → Lane) : Dev :=
  let was := (d.lane i).state
  let wasUp := was == .up
  let d := d.laneM i fun x => { f x with state := new, since := d.now }
  let d := d.when (wasUp && new != .up) fun d => d.countLane i 0
  let d := d.when (isBuddyIx i && was != new) fun d => d.post 0x1108 [.index (i - 1152), .code was.code, .code new.code]
  d.zubenLaneChange i wasUp

/-! ### The end of a substitution (16 R512, R517, R520) -/

def Dev.cluster (d : Dev) (c : Nat) : Cluster := AMap.getD d.sub.clusters c {}
def Dev.clusterM (d : Dev) (c : Nat) (f : Cluster → Cluster) : Dev :=
  d.subM fun s => { s with clusters := AMap.upd s.clusters c {} f }

/-- A command as it stands, with a new position. -/
def Cmd.at (c : Cmd) (pos total : Nat) : Cmd := { c with pos, total }

/-- A substitution ends with a status and a result: its slot is free, its command completes (16 R512, R526). -/
def Dev.subEnd (d : Dev) (k status result : Nat) : Dev :=
  match AMap.find? d.sub.slots k with
  | none => d
  | some x =>
    let d := d.subM fun s => { s with slots := AMap.erase s.slots k }
    let d := d.count (cDev (if status = stOk then 285 else if status = stAborted then 287 else 286)) 1
    let d := d.post 0x1004 [.index k, .code status, .value x.pos]
    match x.command with
    | some (r, t) => (match d.cmdAt r t with | some c => d.finish (c.at x.pos x.total) status result | none => d)
    | none => d

/-- Bridging on a cluster stops, and its spare lane returns to spare. -/
def Dev.spareBack (d : Dev) (c : Nat) : Dev :=
  ((d.clusterM c fun _ => {}).laneTo (1024 + c) .off fun x => { x with use := 0, replaces := 0, port := 0, signal := false, cdrLock := false, blockLock := false }).zbnM
    fun z => { z with lanes := AMap.erase z.lanes (1024 + c) }

/-- Running lane substitutions whose lane satisfies a test fail with a reason before their cut-over (16 R517). -/
def Dev.laneSubsFail (d : Dev) (p : Nat → Bool) (status reason : Nat) : Dev :=
  d.each (d.sub.slots.filter fun x => x.2.kind == 1 && p x.2.unit) fun x d =>
    -- a spare that is not yet claimed has nothing to give back
    let d := d.when ((d.cluster x.2.spare).spareState == 1 && (d.cluster x.2.spare).replaces == x.2.unit % 8) fun d => d.spareBack x.2.spare
    d.subEnd x.1 status reason

/-- A port has left UP: substitutions of its lanes end (16 R517 reason 4). -/
def Dev.portLeftUp (d : Dev) (n : Nat) : Dev := d.laneSubsFail (fun l => (d.portLanes n).contains l) stFailed 4

/-- zbn:flexe_calendar: the calendar, and 0 in force or 1 failed. The codes are not stated. -/
def Dev.postFlexe (d : Dev) (n : Nat) (cal : Bool) (outcome : Nat) : Dev :=
  d.post 0x0708 [.index n, .code (b2n cal), .code (Config.outcomeCode 0x0708 outcome)]

/-- Calendar switches of a port that goes fail (04 R155). -/
def Dev.failFlexe (d : Dev) (n : Nat) : Dev :=
  let f := d.flexe n
  d.each f.pend fun p d => ((d.flexeM n fun f => { f with pend := [], crAt := none, acked := false }).postFlexe n (!f.calTx) 1).finishAt p.1 p.2.1 stFailed 0

/-- A port is dissolved: its page switches fail, and its lanes' substitutions and splits end (05 R176, 16 R517, R520). -/
def Dev.lanesLeavePort (d : Dev) (n : Nat) : Dev :=
  let d := d.each (d.portLanes n) fun l d => (d.hsFail l 4).failMgmt l
  let d := (d.failFlexe n).portLeftUp n
  let d := d.each ((d.portLanes n).filter fun l => d.carrier l != l || (d.cluster (l / 8)).spareState != 0 && (d.cluster (l / 8)).replaces == l % 8) fun l d =>
    d.spareBack (l / 8)
  d.subM fun s => { s with linger := s.linger.filter fun p => !(d.portLanes n).contains p.1 }

end Sys2Proof.Machine
end

