-- ==== Sys2Proof/Machine/Pcs.lean ====
section
/-! DEFINITION. The packet client of a Zuben port (04 R134): the Ethernet 64b/66b PCS stream of the frames that its MAC sends. The code of
the blocks is that of IEEE 802.3 Clause 82, to which the rule refers; PRESUMED, for the spec gives none of its words. -/

namespace Sys2Proof.Machine

/-- A block of control characters only: idle. -/
def pcsIdle : Block := { hdr := 2, content := 0x1E }

/-- Block type of a terminate block that ends k octets. -/
def pcsTermType (k : Nat) : Nat := nth [0x87, 0x99, 0xAA, 0xB4, 0xCC, 0xD2, 0xE1, 0xFF] k 0xFF

/-- The blocks of a frame's octets from the first data block on: at most n of them, the last the terminate block. -/
def pcsBody : Nat → List Byte → List Block
  | 0, _ => []
  | n + 1, l =>
    if l.length < 8 then [{ hdr := 2, content := natLE (pcsTermType l.length :: l) }]
    else { hdr := 1, content := natLE (l.take 8) } :: pcsBody n (l.drop 8)

/-- The FCS of a frame, in the order in which its octets are sent; made bad on purpose where stomped. -/
def fcsOctets (data : List Byte) (stomped : Bool) : List Byte := bytesLE 4 (if stomped then Nat.xor (crc32 data) 0xFFFFFFFF else crc32 data)

/-- A frame as blocks: start block with preamble and SFD, the octets with their FCS, terminate block, and an idle block of gap. -/
def pcsBlocks (data : List Byte) (stomped : Bool) : List Block :=
  let l := data ++ fcsOctets data stomped
  [{ hdr := 2, content := natLE [0x78, 0x55, 0x55, 0x55, 0x55, 0x55, 0x55, 0xD5] }] ++ pcsBody (l.length / 8 + 1) l ++ [pcsIdle]

/-- Octets of a PAUSE or PFC frame before its FCS (03 R102 to R106): the layouts of IEEE 802.3 Annexes 31B and 31D. -/
def flowBytes (sa : Nat) (pfc : Bool) (enable : Nat) (quanta : List Nat) : List Byte :=
  Config.padTo 60 ([0x01, 0x80, 0xC2, 0x00, 0x00, 0x01] ++ bytesBE 6 sa ++ [0x88, 0x08] ++
    (if pfc then [0x01, 0x01] ++ bytesBE 2 enable else [0x00, 0x01]) ++ quanta.flatMap (bytesBE 2))

def Dev.zport (d : Dev) (n : Nat) : ZPort := AMap.getD d.zbn.ports n {}
def Dev.zportM (d : Dev) (n : Nat) (f : ZPort → ZPort) : Dev := d.zbnM fun z => { z with ports := AMap.upd z.ports n {} f }

/-- A frame that a port's MAC has sent joins the packet client of a Zuben port. -/
def Dev.feedClient (d : Dev) (n : Nat) (data : List Byte) (stomped : Bool) : Dev :=
  d.when ((d.port n).framing == 1) fun d => d.zportM n fun z => { z with client := z.client ++ pcsBlocks data stomped }

end Sys2Proof.Machine
end

