-- ==== Sys2Proof/Machine/Ports.lean ====
section
/-! DEFINITION. Lanes, ports and the MAC (03): port states, bring-up, flow control, low-power idle, and the LNE and MAC commands. -/

namespace Sys2Proof.Machine

/-! ### Forms of ports (03 R84, R85) -/

/-- The rows of 03 R84: speed code, lanes, lane rate code, FEC codes, PHY kinds, and kinds with LPI. -/
def portRows : List (Nat × Nat × Nat × List Nat × List Nat × List Nat) :=
  [(0, 1, 1, [0, 1], [0, 2], [0]), (1, 1, 2, [0, 1, 2], [0, 1, 2], [0, 1]), (2, 1, 3, [3], [0, 1, 2], []),
   (3, 4, 2, [2], [0, 1, 2], [0, 1]), (3, 2, 3, [3], [0, 1, 2], []), (3, 1, 4, [3], [0, 1, 2], []),
   (4, 4, 3, [3], [0, 1, 2], []), (4, 2, 4, [3], [0, 1, 2], []), (5, 8, 3, [3], [2], []), (5, 4, 4, [3], [0, 1, 2], []),
   (6, 8, 4, [3], [0, 1, 2], [])]

/-- Lane rate code of a form, if it is a row (03 R84). -/
def rowRate (speed lanes phy fec : Nat) : Option Nat :=
  (portRows.find? fun r => r.1 == speed && r.2.1 == lanes && r.2.2.2.1.contains fec && r.2.2.2.2.1.contains phy).map fun r => r.2.2.1

/-- Low-power idle exists for a form (03 R84, R99). -/
def rowLpi (speed lanes phy : Nat) : Bool :=
  portRows.any fun r => r.1 == speed && r.2.1 == lanes && r.2.2.2.2.2.contains phy

/-- Lanes field of LNE.FORM_PORT, clamped down to 1, 2, 4 or 8 (03 R113). -/
def lanesField (x : Nat) : Nat := if x < 2 then 1 else if x < 4 then 2 else if x < 8 then 4 else 8

/-- Two's logarithm of 1, 2, 4, 8: MAC_PORT_CTRL.lanes. -/
def lanesCode (x : Nat) : Nat := if x = 1 then 0 else if x = 2 then 1 else if x = 4 then 2 else 3

/-- Latencies of 02 R52 by lane rate code, lanes and FEC: ingress and egress. -/
def latencies (rate lanes fec : Nat) : Nat × Nat :=
  match rate, lanes, fec with
  | 1, 1, 0 => (240, 160) | 1, 1, 1 => (560, 200)
  | 2, 1, 0 => (200, 140) | 2, 1, 1 => (420, 180) | 2, 1, 2 => (840, 240) | 2, 4, 2 => (620, 220)
  | 3, 1, 3 => (720, 260) | 3, 2, 3 => (520, 230) | 3, 4, 3 => (440, 210) | 3, 8, 3 => (400, 200)
  | 4, 1, 3 => (520, 230) | 4, 2, 3 => (430, 205) | 4, 4, 3 => (386, 193) | 4, 8, 3 => (360, 186)
  | _, _, _ => (0, 0)

/-- Default source address of a port (03 R618). -/
def defaultSa (n : Nat) : Nat := 0x02 * 2 ^ 40 + (Config.serial % 2 ^ 24) * 2 ^ 16 + n % 2 ^ 16

/-- Lane indexes that carry a port. -/
def Dev.carriers (d : Dev) (n : Nat) : List Nat := (d.portLanes n).map d.carrier

/-- The UP condition of a port: every lane UP, no fault (03 R107). -/
def Dev.upCondition (d : Dev) (n : Nat) : Bool :=
  (d.carriers n).all (fun l => (d.lane l).state == .up) && !(d.port n).localFault && !(d.port n).remoteFault

def Dev.lanesTo (d : Dev) (n : Nat) (st : LaneState) : Dev :=
  d.each (d.carriers n) fun l d => d.laneTo l st fun x => { x with signal := false, cdrLock := false, blockLock := false }

/-! ### XOFF as flow control shows it (03 R106, 11 R385) -/

/-- Priorities whose mask holds no class from 12 to 15 (11 R385). -/
def packetPrio (mask : Nat) : Bool := mask &&& 0xF000 == 0

/-- Quadrant of a port (00 R7). -/
def portQuad (n : Nat) : Nat := n / 256

def Dev.quad (d : Dev) (q : Nat) : Quadrant := AMap.getD d.gov.quads q {}
def Dev.quadM (d : Dev) (q : Nat) (f : Quadrant → Quadrant) : Dev := d.govM fun g => { g with quads := AMap.upd g.quads q {} f }

/-- The governor's XOFF reaches a point and class: best effort at a reachable point, or a quadrant at its rail limit (11 R385, R386). -/
def Dev.govXoff (d : Dev) (point cls : Nat) : Bool :=
  let classes := if d.buf.voq then 7 else 12
  decide (cls < classes) &&
    if point < 1024 then
      let p := d.port point
      p.fcMode == 2 && (d.gov.beHold || (d.quad (portQuad point)).limited) && p.pfcMap.any fun m => bit m cls && packetPrio m
    else d.gov.beHold

/-- XOFF of a point and class, the governor's included (11 R385). -/
def Dev.xoffNow (d : Dev) (point cls : Nat) : Bool := (d.acct point cls).xoff || d.govXoff point cls

/-- Priorities of a port in PFC mode that name a class in XOFF; the governor's only where they hold no class 12 to 15. -/
def Dev.xoffPrios (d : Dev) (n : Nat) : Nat :=
  let p := d.port n
  (List.range 8).foldl (fun acc k =>
    let m := nth p.pfcMap k 0
    let on := (List.range 16).any fun c => bit m c && ((d.acct n c).xoff || (packetPrio m && d.govXoff n c))
    acc + (if on then 2 ^ k else 0)) 0

/-- Some class of a port is in XOFF for PAUSE (03 R106). -/
def Dev.xoffAny (d : Dev) (n : Nat) : Bool := (List.range 16).any fun c => (d.acct n c).xoff

/-- A flow-control frame has the line for its 84 wire bytes (03 R106); the port is idle again once they have left (03 R99). -/
def Dev.flowLine (d : Dev) (n : Nat) : Dev :=
  let d := (d.chargeShapers n none 64).takeLine n 64
  d.portM n fun p => { p with idleSince := (d.schPort n).lineEnd }

/-- A flow-control frame has something to tell. -/
def Dev.flowWaits (d : Dev) (n : Nat) : Bool :=
  let p := d.port n
  p.flowDue && ((p.fcMode == 2 && (d.xoffPrios n ||| p.prioSent) != 0) || (p.fcMode == 1 && (d.xoffAny n || p.prioSent != 0)))

/-- Send the flow-control frame that the XOFF state asks for, and any release of what the last one named (03 R106). -/
def Dev.sendFlow (d : Dev) (n : Nat) : Dev :=
  let p := d.port n
  if p.state ≠ .up ∧ p.state ≠ .draining then d
  else if p.fcMode = 2 then
    let on := d.xoffPrios n
    let named := on ||| p.prioSent
    if named = 0 then d.portM n fun p => { p with flowDue := false }
    else
      let quanta := (List.range 8).map fun k => if bit on k then p.pfcTx else 0
      let d := (d.emit (.flow n p.sa true named quanta)).feedClient n (flowBytes p.sa true named quanta) false
      let d := d.each (List.range 8) fun k d => d.when (bit named k) fun d => d.count (cPort n (24 + k)) 1
      (d.portM n fun p => { p with flowDue := false, prioSent := on, flowAt := d.now }).flowLine n
  else if p.fcMode = 1 then
    let on := d.xoffAny n
    if !on && p.prioSent == 0 then d.portM n fun p => { p with flowDue := false }
    else
      let quanta := [if on then p.pfcTx else 0]
      let d := ((d.emit (.flow n p.sa false 0 quanta)).feedClient n (flowBytes p.sa false 0 quanta) false).count (cPort n 15) 1
      (d.portM n fun p => { p with flowDue := false, prioSent := b2n on, flowAt := d.now }).flowLine n
  else d.portM n fun p => { p with flowDue := false, prioSent := 0 }

/-! ### Pause by the partner (03 R103, R104) -/

/-- The queues of a port take over what its pause timers say. -/
def Dev.pauseUpdate (d : Dev) (n : Nat) : Dev :=
  d.each (List.range 16) fun cls d =>
    let q := qIx n cls
    let now := d.pausedClass n cls
    if (d.queue q).paused == now then d
    else
      let d := d.queueM q fun x => { x with paused := now, absorbNow := x.absorb }
      let d := d.when (!now && d.headFree n cls) fun d => d.wake q
      d.spillStep q

/-- Device time of a number of quanta, each 512 bit times (03 R104). -/
def quantaTime (bps quanta : Nat) : Nat := if bps = 0 then 0 else quanta * 512 * 4000000000 / bps

/-! ### Mismatch (03 R110) -/

/-- Cause bits of a port's mismatch. -/
def Dev.mmCause (d : Dev) (n : Nat) : Nat :=
  let p := d.port n
  b2n (if p.admin then p.state != .up else p.state != .disabled) + 2 * b2n (p.fcBadNow || p.fcBadPrev) +
    4 * b2n (p.anEn && (d.carriers n).any fun l => (d.lane l).lacksMode)

/-- The mismatch of a port clears after its event (03 R110, 14 R474). -/
def Dev.portMatch (d : Dev) (n : Nat) : Dev :=
  d.when ((d.port n).mmPosted && d.mmCause n == 0) fun d => (d.portM n fun p => { p with mmPosted := false, mmBells := 0 }).post 0x0603 [.index n]

/-! ### Port states (03 R107) -/

/-- Change a port's state and post it. -/
def Dev.setPortState (d : Dev) (n : Nat) (new : PortState) : Dev :=
  let old := (d.port n).state
  let d := d.portM n fun p => { p with state := new }
  d.when (old != new) fun d =>
    let d := d.post 0x0601 [.index n, .code old.code, .code new.code]
    (d.when (old == .up) fun d => (d.trigger 3).portLeftUp n).portMatch n

/-- End of a hold-down. -/
def Dev.endHold (d : Dev) (n : Nat) : Dev := d.bufM fun b => { b with holds := AMap.erase b.holds n }

/-- TX descriptors that name a port as their direct destination end flushed (08 R308 step 2): those read now, those posted when they are read. -/
def Dev.flushDescriptors (d : Dev) (n : Nat) : Dev :=
  let mine := d.hif.tx.filter fun t => t.stage == .read && t.mode == 0 && t.port == n && !t.module
  let d := d.hifM fun h => { h with
    tx := h.tx.filter fun t => !(t.stage == .read && t.mode == 0 && t.port == n && !t.module)
    rings := AMap.mapV h.rings fun g r =>
      if decide (64 ≤ g) && decide (g < 128) && r.state == .running && r.waiting != 0 then { r with flushMarks := AMap.set r.flushMarks n r.hostIdx } else r }
  d.each mine fun t d =>
    d.complete (d.ring (64 + t.ring)).lCring { kind := 1, status := stFlushed, ring := t.ring, cookie := t.cookie, index := t.index }

/-- The port enters FLUSHING: every copy is released, and its FDB entries go (08 R308). -/
def Dev.toFlushing (d : Dev) (n : Nat) (fromHold : Bool) : Dev :=
  let frames := sumBy (List.range 16) fun c => (d.heldCopies (qIx n c)).length
  let bytes := sumBy (List.range 16) fun c => sumBy (d.heldCopies (qIx n c)) fun x => x.len
  let entries := d.fdbCount (d.namesPort n)
  let d := (d.endHold n).setPortState n .flushing
  let d := d.portM n fun p => { p with flushFromHold := fromHold, flushFrames := frames, flushBytes := bytes, flushFdb := entries }
  let d := d.each (List.range 16) fun c d => d.flushQueue (qIx n c)
  ((d.flushMirrors n).flushDescriptors n).fdbRemove true (d.namesPort n)

/-- The bins of a cyclic class merge into one hold list (08 R307). -/
def Dev.mergeBins (d : Dev) (n : Nat) : Dev :=
  d.each [12, 13, 14] fun c d =>
    d.queueM (qIx n c) fun x => { x with
      hold := (x.tran ++ x.pass ++ x.recv).foldl (fun l y => insertHold y l) x.hold
      tran := [], pass := [], recv := [] }

/-- XOFF of a port's own points is released unsent, and pauses end (08 R307). -/
def Dev.releaseFlow (d : Dev) (n : Nat) : Dev :=
  let d := d.each (List.range 16) fun c d => if (d.acct n c).xoff then d.acctM n c fun a => { a with xoff := false } else d
  let d := d.portM n fun p => { p with flowDue := false, prioSent := 0, pauseUntil := 0, pfcUntil := [0, 0, 0, 0, 0, 0, 0, 0] }
  d.pauseUpdate n

/-- Start the hold-down timer (08 R306). -/
def Dev.startHold (d : Dev) (n : Nat) : Dev :=
  d.bufM fun b => { b with holds := AMap.set b.holds n { expires := d.now + b.holddown * qPerMs } }

/-- UP is left for HOLD; with no hold-down time it ends at once (03 R107, 08 R306, R307). -/
def Dev.toHold (d : Dev) (n : Nat) : Dev :=
  let d := (((d.setPortState n .hold).startHold n).mergeBins n).releaseFlow n
  if d.buf.holddown = 0 then d.toFlushing n true else d

/-- UP is left for DRAINING on a disable. -/
def Dev.toDraining (d : Dev) (n : Nat) : Dev :=
  let d := (d.setPortState n .draining).startHold n
  if d.buf.holddown = 0 then d.toFlushing n false else d

/-- The link of a port is lost (03 R107). -/
def Dev.linkLost (d : Dev) (n : Nat) : Dev :=
  match (d.port n).state with
  | .up => d.toHold n
  | .draining => d.toFlushing n false
  | _ => d

/-- The port enters TRAINING with its lanes waiting for signal (03 R91, R107). -/
def Dev.toTraining (d : Dev) (n : Nat) : Dev := (d.setPortState n .training).lanesTo n .waitSignal

/-! ### Requests of MAC.SET_PORT_STATE (03 R108, R109) -/

/-- The oldest request of a port is dropped and its command completes. -/
def Dev.requestDone (d : Dev) (n : Nat) : Dev :=
  match (d.port n).requests with
  | [] => d
  | r :: rest =>
    let d := d.portM n fun p => { p with requests := rest }
    match d.cmdAt r.ring r.tag with
    | some c => d.finish { c with pos := d.heldBytes n } stOk 0
    | none => d

/-- Apply a disable (03 R107). -/
def Dev.applyDisable (d : Dev) (n : Nat) : Dev :=
  let d := d.portM n fun p => { p with admin := false }
  match (d.port n).state with
  | .up =>
    let total := d.heldBytes n
    let d := match (d.port n).requests with
      | r :: _ => (match d.cmdAt r.ring r.tag with | some c => d.cmdM c fun c => { c with total } | none => d)
      | [] => d
    d.toDraining n
  | .hold => d.toFlushing n false
  | .training => d.setPortState n .poweringDown
  | _ => d

/-- Apply requests until one must wait for its state; at most fuel of them. -/
def Dev.runRequests : Nat → Nat → Dev → Dev
  | 0, _, d => d
  | fuel + 1, n, d =>
    match (d.port n).requests with
    | [] => d
    | r :: _ =>
      if r.applied then d
      else if r.enable == (d.port n).admin then Dev.runRequests fuel n (d.requestDone n)
      else
        let d := d.portM n fun p => { p with requests := match p.requests with | a :: b => { a with applied := true } :: b | [] => [] }
        if r.enable then d.portM n fun p => { p with admin := true } else d.applyDisable n

/-- A request's demanded state has been reached: it completes and the next is applied. -/
def Dev.requestReached (d : Dev) (n : Nat) (enable : Bool) : Dev :=
  match (d.port n).requests with
  | r :: _ => if r.applied && r.enable == enable then Dev.runRequests 64 n (d.requestDone n) else d
  | [] => d

/-! ### LNE commands (03 R87 to R89, R113 to R115) -/

def formLanes (e : CmdEntry) : Nat := lanesField (e.f 16 19 16)

/-- The lowest port, formed or won for formation, that holds a lane from lo to hi (03 R87). -/
def Dev.laneHolder (d : Dev) (lo hi : Nat) : Option Nat :=
  let formed := d.portList.filter fun n => decide (n ≤ hi) && decide (lo < n + (d.port n).laneCount)
  let pending := (d.hif.inflight.filter fun c => c.op == 0x0501 && !c.mirrored &&
      (match c.stage with | .won _ => true | _ => false)).filterMap fun c =>
    let n := d.portField c.e
    if n ≤ hi ∧ lo < n + formLanes c.e then some n else none
  (formed ++ pending).foldl (fun m n => match m with | none => some n | some x => some (min x n)) none

def checkFormPort (d : Dev) (e : CmdEntry) : Option Nat :=
  let n := d.portField e
  let k := formLanes e
  let speed := e.f 16 23 20
  let rate := rowRate speed k (e.f 20 1 0) (e.f 16 27 26)
  firstOf [failsIf (decide (6 < speed)) (rejField 16 20), failsIf (e.f 16 25 24 == 3) (rejField 16 24), failsIf (e.f 20 1 0 == 3) (rejField 20 0),
    failsIf rate.isNone (rejField 16 16), failsIf (e.f 16 25 24 == 1 && rate != some 4) (rejField 16 16),
    failsIf (e.f 16 25 24 == 2 && speed != 3) (rejField 16 20),
    failsIf (n % k != 0) (rejField 16 0), d.laneHolder n (n + k - 1)]

/-- Everything of a port number that a formation or a dissolution puts back (03 R88, R89). -/
def Dev.clearPort (d : Dev) (n k : Nat) : Dev :=
  let d := d.schM fun s => { s with ports := AMap.erase s.ports n }
  let d := d.belM fun b => { b with ports := AMap.erase b.ports n }
  let d := d.timM fun t => { t with ports := AMap.erase t.ports n }
  let d := d.bufM fun b => { b with
    queues := b.queues.filter fun p => p.1 / 16 != n
    accounts := AMap.mapV b.accounts fun k a => if k / 16 = n then { useMin := a.useMin, useShared := a.useShared, useHead := a.useHead } else a }
  let d := d.fwdM fun w => { w with ports := AMap.erase w.ports n }
  let d := d.prsM fun p => { p with
    even := { p.even with maps := AMap.erase p.even.maps n }
    odd := { p.odd with maps := AMap.erase p.odd.maps n } }
  let mine := fun (l : Nat) => decide (n ≤ l) && decide (l < n + k)
  let d := d.zbnM fun z => { z with
    lanes := z.lanes.filter fun p => !mine p.1
    slots := z.slots.filter fun p => !mine (p.1 / 32)
    ports := AMap.erase z.ports n
    flexe := AMap.erase z.flexe n }
  d.ttbM fun t => { t with
    lanes := t.lanes.filter fun p => !mine p.1
    lines := t.lines.filter fun p => !mine (p.1 / 32)
    flows := t.flows.filter fun p => !mine (p.1 / 32)
    seatFlows := t.seatFlows.filter fun p => !mine (p.1 / 1024) }

def applyFormPort (c : Cmd) (d : Dev) : Dev :=
  let e := c.e
  let n := d.portField e
  let k := formLanes e
  let speed := e.f 16 23 20
  let framing := e.f 16 25 24
  let fec := e.f 16 27 26
  let phy := e.f 20 1 0
  let rate := (rowRate speed k phy fec).getD 0
  let lat := latencies rate k fec
  let more := if framing = 2 then 40 else 0
  let d := d.clearPort n k
  let d := d.portM n fun _ => { state := .disabled, speed, framing, fec, lanes := lanesCode k, phy, anEn := e.b 16 28 && phy != 2, sa := defaultSa n }
  let d := d.schPortM n fun _ => { lastRefill := d.now }
  let d := d.timPortM n fun _ => { ingLat := lat.1 + more, egrLat := lat.2 + more }
  let d := d.each ((List.range k).map (n + ·)) fun l d =>
    d.laneM l fun x => { x with rate, pam4 := decide (3 ≤ rate), port := n, use := 1, state := .off }
  let d := d.post 0x0501 [.index n, .code k, .code speed, .code framing]
  -- performance monitoring of the lanes begins (04 R151)
  let d := d.when (framing == 1) fun d => d.each (d.portLanes n) fun l d => d.zlaneM l fun z => { z with pm := { joined := some ((d.now + qPerS - 1) / qPerS) } }
  okAfter c (d.each (d.portLanes n) fun l d => d.superviseLane l)

def lneFormPort : CmdSpec where
  op := 0x0501
  kind := fun _ => .commit
  seals := 7
  check := checkFormPort
  permit := fun d e => failsIf (d.buf.voq && (decide (255 < d.portField e) || e.f 16 25 24 != 0)) 0
  claims := fun d e => [{ kind := itLane, lo := d.portField e, hi := d.portField e + formLanes e - 1 }]
  apply := applyFormPort
  rank := 71
  abort := abortPlain

/-- The conditions of a dissolution, at its bell (03 R89). -/
def Dev.mayDissolve (d : Dev) (n : Nat) : Bool :=
  (d.port n).state == .disabled && (d.belPort n).commit == 0 && d.assignedActive n == 0 && d.assignedStandby n == 0

/-- The port and everything of it goes; its lanes are free (03 R89, 07 R245). -/
def Dev.dissolve (d : Dev) (n : Nat) : Dev :=
  let k := (d.port n).laneCount
  let all := d.portLanes n
  let d := d.lanesLeavePort n
  let d := d.fdbRemove false (d.namesPort n)
  let d := d.each all fun l d =>
    d.laneM l fun x => { pinTx := x.pinTx, pinRx := x.pinRx, pre2 := x.pre2, pre1 := x.pre1, main := x.main, post1 := x.post1 }
  let d := (d.clearPort n k).xoffScan
  ((d.macM fun m => { m with ports := AMap.erase m.ports n }).protScan).post 0x0502 [.index n]

def applyDissolve (c : Cmd) (d : Dev) : Dev :=
  let n := d.portField c.e
  if d.mayDissolve n then okAfter c (d.dissolve n) else d.finish c stNotPermitted 0

def lneDissolvePort : CmdSpec where
  op := 0x0502
  kind := fun _ => .commit
  seals := 7
  check := fun d e => d.needsPort e
  claims := fun d e =>
    let n := d.portField e
    [{ kind := itLane, lo := n, hi := n + (d.port n).laneCount - 1 }]
  apply := applyDissolve
  rank := 79
  abort := abortPlain

/-- Highest lane index of the variant: its last spare lane (03 R111). -/
def Dev.topLane (d : Dev) : Nat := 1024 + d.glb.part.clusters - 1

/-- A lane index that the variant has (00 R2). -/
def Dev.hasLane (d : Dev) (l : Nat) : Bool := decide (l < d.glb.part.lanes) || (decide (1024 ≤ l) && decide (l ≤ d.topLane))

/-- main, reduced until the magnitudes add up to at most 64 (03 R115). -/
def fitMain (pre2 pre1 post1 : Int) (main : Nat) : Nat := min main (64 - (pre2.natAbs + pre1.natAbs + post1.natAbs))

def acceptPinTaps (c : Cmd) (d : Dev) : Dev :=
  let e := c.e
  let l := if d.hasLane (e.f 16 10 0) then e.f 16 10 0 else d.topLane
  let pre2 := clampI (-16) 16 (e.i 20 8)
  let pre1 := clampI (-32) 32 (e.i 21 8)
  let post1 := clampI (-32) 32 (e.i 23 8)
  let main := fitMain pre2 pre1 post1 (satTo 64 (e.f 22 7 0))
  okAfter c (d.laneM l fun x =>
    let x := { x with pinTx := e.b 16 16, pinRx := e.b 16 17, adapting := x.adapting && !e.b 16 17 }
    if e.b 16 16 then { x with pre2, pre1, main, post1 } else x)

def lnePinTaps : CmdSpec where
  op := 0x0503
  accept := acceptPinTaps

/-! ### MAC commands (03 R116 to R119) -/

def acceptPortState (c : Cmd) (d : Dev) : Dev :=
  let n := d.portField c.e
  let d := d.portM n fun p => { p with requests := p.requests ++ [{ ring := c.e.ring, tag := c.e.tag, enable := c.e.b 16 16 }] }
  Dev.runRequests 64 n d

def macSetPortState : CmdSpec where
  op := 0x0601
  kind := fun c => if c.e.b 16 16 then .waiting else .long
  check := fun d e => d.needsPort e
  accept := acceptPortState

def acceptFlowControl (c : Cmd) (d : Dev) : Dev :=
  let e := c.e
  let n := d.portField e
  let d := d.portM n fun p => { p with
    prioSent := if e.f 16 17 16 = p.fcMode then p.prioSent else 0
    fcMode := e.f 16 17 16, pfcTx := max 1 (e.f 20 15 0)
    pfcMap := (List.range 8).map fun k => e.f (24 + 2 * k) 15 0
    sa := if e.b 47 7 then setBit (e.f 40 47 0) 40 false else p.sa
    flowDue := true }
  okAfter c d

def macSetFlowControl : CmdSpec where
  op := 0x0602
  check := fun d e => firstOf [d.needsPort e, failsIf (e.f 16 17 16 == 3) (rejField 16 16)]
  accept := acceptFlowControl

/-- The port's PHY type has low-power idle (03 R99). -/
def Port.hasLpi (p : Port) : Bool := p.framing == 0 && rowLpi p.speed p.laneCount p.phy

def acceptLpi (c : Cmd) (d : Dev) : Dev :=
  let e := c.e
  let n := d.portField e
  let d := d.portM n fun p => { p with
    lpiEn := e.b 16 16
    twUs := max (Config.minWake p.speed p.phy p.fec % 65536) (e.f 20 15 0)
    holdUs := max 1 (e.f 24 15 0)
    lpiWaking := if e.b 16 16 then p.lpiWaking else p.lpiTx
    lpiWakeAt := if e.b 16 16 || p.lpiWaking then p.lpiWakeAt else d.now }
  okAfter c d

def macSetLpi : CmdSpec where
  op := 0x0603
  check := fun d e => d.needsPort e
  permit := fun d e => failsIf (e.b 16 16 && !(d.port (d.portField e)).hasLpi) 0
  accept := acceptLpi

def macSetFrame : CmdSpec where
  op := 0x0604
  check := fun d e => d.needsPort e
  accept := fun c d => okAfter c (d.portM (d.portField c.e) fun p => { p with maxLenOld := p.maxLen, maxLenAt := d.now, maxLen := clamp 1518 9216 (c.e.f 20 15 0) })

def portSpecs : List CmdSpec := [lneFormPort, lneDissolvePort, lnePinTaps, macSetPortState, macSetFlowControl, macSetLpi, macSetFrame]

/-! ### Rows: lanes (03 R91) -/

/-- A lane goes from one state to another; from any other state it stays. -/
def Dev.laneStep (d : Dev) (l : Nat) (old new : LaneState) (f : Lane → Lane) : Dev :=
  if (d.lane l).state = old then d.laneTo l new f else d

/-- The time that a lane may spend in a state has passed: it waits for signal again (03 R91). -/
def Dev.laneExpires (d : Dev) (l : Nat) (old : LaneState) (time : Nat) (f : Lane → Lane) : Dev :=
  d.when ((d.lane l).state == old) fun d => (d.reach ((d.lane l).since + time)).laneStep l old .waitSignal f

/-- Port whose settings a lane index follows: a spare lane that bridges follows the port of the lane it bridges (16 R516). -/
def Dev.portFor (d : Dev) (i : Nat) : Nat :=
  if 1024 ≤ i ∧ (d.cluster (i - 1024)).spareState ≠ 0 then (d.lane ((i - 1024) * 8 + (d.cluster (i - 1024)).replaces)).port else (d.lane i).port

/-- State after WAIT_SIGNAL: AN, TRAIN or ADAPT by the port of the lane; a buddy lane runs without AN, on a module attachment (03 R91, 17 R528). -/
def Dev.afterSignal (d : Dev) (l : Nat) : LaneState :=
  let p := d.port (d.portFor l)
  if isBuddyIx l then .adapt
  else if p.anEn then .an else if p.phy < 2 then .train else .adapt

/-- One eye reading (03 R92, R94; buddy lanes 17 R528). -/
def Dev.eyeReading (d : Dev) (r : EyeReading) : Dev :=
  let x := d.lane r.lane
  if x.state = .up ∨ x.pinTx = true ∨ x.pinRx = true then
    let low := x.state == .up && decide (r.vert < d.lne.readaptMv * 10)
    let d := d.when (r.refused && x.pinTx) fun d => d.emit (.coefficientRefused r.lane)
    ((d.wearReading 0 r.lane).wearReading 1 r.lane).laneM r.lane fun x => { x with
      vert := r.vert % 65536, horiz := r.horiz % 65536, eyeAt := d.now
      adapting := low && !x.pinRx
      pinConflict := x.pinConflict || (low && x.pinRx) || (r.refused && x.pinTx) }
  else d

/-- The eye of a lane is measured every eye_ms (03 R92). -/
def Dev.eyeDue (d : Dev) (r : EyeReading) : Dev :=
  let last := (d.lane r.lane).eyeAt
  if last = 0 then d else d.reach (last + d.lne.eyeMs * qPerMs)

/-! ### Rows: port states (03 R107) -/

/-- The port enters UP: hold lists wait for the next bell, and fair queues wake (08 R307, R309, 09 R338). -/
def Dev.toUp (d : Dev) (n : Nat) : Dev :=
  let d := ((d.endHold n).setPortState n .up).portM n fun p => { p with idleSince := d.now }
  d.each d.wfqClasses fun c d => d.wake (qIx n c)

/-- Since when a port that meets the UP condition has met it: its last lane came UP, or its last fault ended (03 R107). -/
def Dev.qualifiedSince (d : Dev) (n : Nat) : Nat := (d.carriers n).foldl (fun t l => max t (d.lane l).since) (d.port n).faultEnd

/-! ### Rows: flow control (03 R102 to R106) -/

/-- PAUSE with quanta. -/
def Dev.pauseRx (d : Dev) (n quanta : Nat) : Dev :=
  ((d.portM n fun p => { p with pauseUntil := if quanta = 0 then 0 else d.now + quantaTime p.bps quanta }).count (cPort n 14) 1).pauseUpdate n

/-- PFC with its enable vector and eight times. -/
def Dev.pfcRx (d : Dev) (n vec : Nat) (times : List Nat) : Dev :=
  let d := d.portM n fun p => { p with
    pfcUntil := (List.range 8).map fun k => if bit vec k then (if nth times k 0 = 0 then 0 else d.now + quantaTime p.bps (nth times k 0)) else nth p.pfcUntil k 0
    pfcHeld := (List.range 8).map fun k => if bit vec k then nth p.pfcMap k 0 else nth p.pfcHeld k 0 }
  let d := d.each (List.range 8) fun k d => d.when (bit vec k) fun d => d.count (cPort n (16 + k)) 1
  d.pauseUpdate n

/-- A good MAC control frame is terminated (03 R102): data from the destination address, its EtherType at byte off. -/
def Dev.macControl (d : Dev) (port off sof : Nat) (data : List Byte) : Dev :=
  let op := natBE (subBytes data (off + 2) 2)
  let mode := (d.port port).fcMode
  if op = 1 ∧ mode = 1 then d.pauseRx port (natBE (subBytes data (off + 4) 2))
  else if op = 0x0101 ∧ mode = 2 then
    d.pfcRx port (natBE (subBytes data (off + 4) 2)) ((List.range 8).map fun k => natBE (subBytes data (off + 6 + 2 * k) 2))
  else if op = 1 ∨ op = 0x0101 then (d.count (cPort port 32) 1).portM port fun p => { p with fcBadNow := true }
  else
    let d := d.count (cPort port 33) 1
    d.when d.mac.ctrlPunt fun d =>
      d.deliverRx d.prs.slowRing { time := d.rxTime port sof, frameLen := data.length + 4, port, module := d.module, reason := 8 } data

/-- End of the pause that runs out first, of those still running. -/
def Dev.nextPauseEnd (d : Dev) (n : Nat) : Option Nat :=
  ((d.port n).pauseUntil :: (d.port n).pfcUntil).foldl (fun m t =>
    if d.now < t then (match m with | none => some t | some x => some (min x t)) else m) none

/-- The transmitter starts to wake. -/
def Dev.startWake (d : Dev) (n : Nat) : Dev :=
  if (d.port n).lpiTx && !(d.port n).lpiWaking then d.portM n fun p => { p with lpiWaking := true, lpiWakeAt := d.now } else d

/-- At a frame boundary a flow-control frame that is due goes out; a transmitter in LPI wakes for it (03 R99, R106). -/
def Dev.flowAtBoundary (d : Dev) (n : Nat) : Dev :=
  if (d.schPort n).line.isSome then d
  else if (d.port n).lpiTx then (if d.flowWaits n then d.startWake n else d)
  else (d.reach (d.schPort n).lineEnd).sendFlow n

/-- Repeat interval: half the quanta time, at least 672 bit times (03 R106). -/
def Port.repeatTime (p : Port) : Nat := max (quantaTime p.bps p.pfcTx / 2) (if p.bps = 0 then 0 else 672 * 4000000000 / p.bps)

/-! ### Rows: low-power idle (03 R99 to R101) -/

/-- Idle hold in force: 1 microsecond from step 2 of the ladder, on a port with LPI enabled (03 R101, 11 R383). -/
def Dev.idleHold (d : Dev) (n : Nat) : Nat := if 2 ≤ d.gov.step ∧ (d.port n).lpiEn = true then min 1 (d.port n).holdUs else (d.port n).holdUs

end Sys2Proof.Machine
end

