-- ==== Sys2Proof/Machine/Classify.lean ====
section
/-! DEFINITION. The parser, the rules and the meters (06), and the PRS commands. -/

namespace Sys2Proof.Machine

/-! ### Frames (06 R198 to R200) -/

/-- Byte of a frame; one at or beyond the FCS reads 0. -/
def byteAt (data : List Byte) (i : Nat) : Nat := data.getD i 0

/-- Two bytes of a frame, the first transmitted highest. -/
def be16 (data : List Byte) (i : Nat) : Nat := byteAt data i * 256 + byteAt data (i + 1)

/-- A recognised TPID (06 R198). -/
def Prs.isTpid (p : Prs) (x : Nat) : Bool := x == 0x8100 || x == 0x88A8 || (p.tpidEn && x == p.tpid)

/-- Tags recognised: at most two, directly after the source address. -/
def Prs.tags (p : Prs) (data : List Byte) : Nat :=
  if p.isTpid (be16 data 12) then (if p.isTpid (be16 data 16) then 2 else 1) else 0

/-- Tag end: the first byte of the EtherType field (06 R199). -/
def Prs.tagEnd (p : Prs) (data : List Byte) : Nat := 12 + 4 * p.tags data

def Prs.etherType (p : Prs) (data : List Byte) : Nat := be16 data (p.tagEnd data)

/-- PCP and DEI of the first tag; 0 when untagged. -/
def Prs.pcp (p : Prs) (data : List Byte) : Nat := if p.tags data = 0 then 0 else byteAt data 14 / 32
def Prs.dei (p : Prs) (data : List Byte) : Bool := p.tags data != 0 && bit (byteAt data 14) 4

/-- VID of the first tag; 0 when untagged. -/
def Prs.vid (p : Prs) (data : List Byte) : Nat := if p.tags data = 0 then 0 else be16 data 14 % 4096

/-! ### Generations (06 R209) -/

/-- Parity of the current generation. -/
def Prs.parity (p : Prs) : Nat := p.gen % 2
def Prs.current (p : Prs) : Generation := if p.parity = 0 then p.even else p.odd
def Prs.standby (p : Prs) : Generation := if p.parity = 0 then p.odd else p.even
def Prs.standbyM (p : Prs) (f : Generation → Generation) : Prs :=
  if p.parity = 0 then { p with odd := f p.odd } else { p with even := f p.even }

/-- Membership of a rule in a parity. -/
def Rule.member (r : Rule) (parity : Nat) : Bool := if parity = 0 then r.m0 else r.m1
def Rule.setMember (r : Rule) (parity : Nat) (v : Bool) : Rule := if parity = 0 then { r with m0 := v } else { r with m1 := v }

def Dev.rule (d : Dev) (i : Nat) : Rule := AMap.getD d.prs.rules i {}
def Generation.profile (g : Generation) (p : Nat) : Profile := AMap.getD g.profiles p {}
def Generation.map (g : Generation) (n : Nat) : PortMap := AMap.getD g.maps n {}

/-- EtherType class (06 R200): the lowest entry that holds the value. -/
def Generation.etypeClass (g : Generation) (x : Nat) : Nat :=
  if x = 0x0800 then 1 else if x = 0x86DD then 2
  else if x = 0 then 0
  else match g.etypes.findIdx? (· == x) with | some i => i + 3 | none => 0

/-! ### Windows and the key (06 R199 to R203) -/

def winAnchor (w : Nat) : Nat := bits w 1 0
def winOffset (w : Nat) : Nat := bits w 9 2
def winLen (w : Nat) : Nat := bits w 14 10 + 1
def winPos (w : Nat) : Nat := bits w 20 15
def winUsed (w : Nat) : Bool := winAnchor w != 3

/-- A window with its length clamped to the key (06 R202). -/
def clampWindow (w : Nat) : Nat :=
  let w := w % 2 ^ 21
  if 64 < winPos w + winLen w then w - bits w 14 10 * 2 ^ 10 + (63 - winPos w) * 2 ^ 10 else w

/-- l4_used of a profile (06 R202). -/
def Profile.l4Used (p : Profile) : Bool :=
  p.windows.any fun w => winAnchor w == 2 && decide ((if p.l3Kind = 1 then 19 else 39) < winOffset w + winLen w - 1) && p.l3Kind != 0

/-- Frame byte of a key byte, if a window covers it. -/
def Profile.source (p : Profile) (tagEnd k : Nat) : Option Nat :=
  (p.windows.find? fun w => winUsed w && decide (winPos w ≤ k) && decide (k < winPos w + winLen w)).map fun w =>
    let base := if winAnchor w = 0 then 0 else if winAnchor w = 1 then tagEnd else tagEnd + 2
    base + winOffset w + (k - winPos w)

/-- The key as a number whose byte k is key byte k. -/
def Profile.key (p : Profile) (data : List Byte) (tagEnd : Nat) : Nat :=
  natLE ((List.range 64).map fun k => match p.source tagEnd k with | some i => byteAt data i | none => 0)

/-- Some window byte lies at or beyond the FCS. -/
def Profile.short (p : Profile) (data : List Byte) (tagEnd : Nat) : Bool :=
  (List.range 64).any fun k => match p.source tagEnd k with | some i => decide (data.length ≤ i) | none => false

/-- The metadata word (06 R203). -/
def Prs.metaOf (p : Prs) (data : List Byte) (port profile : Nat) (short : Bool) : Nat :=
  fld port 10 0 + fld profile 6 10 + fld (p.tags data) 2 16 + fld (p.pcp data) 3 18 + b2n (p.dei data) * 2 ^ 21 + b2n short * 2 ^ 22

/-! ### The slow path (06 R205) -/

/-- IPv6 next headers that the parser does not read past. -/
def ext6 : List Nat := [0, 43, 50, 51, 60, 135, 139, 140, 253, 254]

/-- Slow-path reason of a frame, if any: the lowest code that holds (06 R204, R205). -/
def slowReason (p : Profile) (data : List Byte) (tagEnd : Nat) : Option Nat :=
  let l3 := tagEnd + 2
  let ver := byteAt data l3 / 16
  let ihl := byteAt data l3 % 16
  let frag := be16 data (l3 + 6)
  let nh := byteAt data (l3 + 6)
  let hlen := if p.l3Kind = 1 then ihl * 4 else 40
  let checks : List (Bool × Nat) :=
    if p.l3Kind = 1 then
      [(bit frag 13 || frag % 8192 != 0, 1), (decide (5 < ihl), 2), (!p.loaded, 4),
        (ver != 4 || decide (ihl < 5) || decide (data.length < l3 + hlen), 5)]
    else if p.l3Kind = 2 then
      [(nh == 44, 1), (p.l4Used && ext6.contains nh, 3), (!p.loaded, 4), (ver != 6 || decide (data.length < l3 + hlen), 5)]
    else [(!p.loaded, 4)]
  (checks.find? fun c => c.1).map (·.2)

/-! ### The lookup (06 R207) -/

def Rule.matches (r : Rule) (parity key md : Nat) : Bool :=
  r.valid && r.member parity && Nat.xor key r.keyValue &&& r.keyMask == 0 && Nat.xor md r.metaValue &&& r.metaMask == 0

/-- The rule of the highest priority that matches, the lowest index on a tie. -/
def Prs.select (p : Prs) (key md : Nat) : Option Rule :=
  p.rules.foldl (fun (best : Option Rule) x =>
    if x.2.matches p.parity key md then
      match best with
      | none => some x.2
      | some b => if b.priority < x.2.priority then some x.2 else best
    else best) none

/-! ### Meters (06 R216 to R220) -/

def Dev.meter (d : Dev) (m : Nat) : Meter := AMap.getD d.prs.meters m {}
def Dev.meterM (d : Dev) (m : Nat) (f : Meter → Meter) : Dev :=
  d.prsM fun p => { p with meters := AMap.upd p.meters m {} f }

/-- Size of the second bucket: EBS or PBS, in 1/256 byte. -/
def Meter.size2 (m : Meter) : Int := ((m.ebs * 256 : Nat) : Int)
def Meter.size1 (m : Meter) : Int := ((m.cbs * 256 : Nat) : Int)

/-- Credit for the core-clock cycles since the last one (06 R216): RFC 2697 fills the second bucket with what the first
does not take, RFC 2698 fills each at its rate. -/
def Meter.credit (m : Meter) (now : Q) : Meter :=
  let n := coreCycles m.last now
  let gc := m.cir * n + m.fracC
  let gp := m.pir * n + m.fracP
  let c : Int := ((gc / 50000 : Nat) : Int)
  let tc := min m.size1 (m.tc + c)
  if m.mode = 0 then
    { m with tc, te := min m.size2 (m.te + (m.tc + c - tc)), fracC := gc % 50000, last := now }
  else { m with tc, te := min m.size2 (m.te + ((gp / 50000 : Nat) : Int)), fracC := gc % 50000, fracP := gp % 50000, last := now }

/-- Length charged: the frame length plus len_adj, at least 1 byte (06 R218). -/
def chargeOf (lenAdj : Int) (len : Nat) : Nat := (max 1 (((len : Nat) : Int) + lenAdj)).toNat

/-- The color of a frame of a charged length: 0 green, 1 yellow, 2 red (RFC 2697, RFC 2698). -/
def Meter.color (m : Meter) (len : Nat) (preYellow : Bool) : Nat :=
  let b : Int := ((len * 256 : Nat) : Int)
  let pre := m.colorAware && preYellow
  if m.mode = 0 then
    if !pre && decide (b ≤ m.tc) then 0 else if b ≤ m.te then 1 else 2
  else if m.te < b then 2
  else if pre || decide (m.tc < b) then 1 else 0

/-- Take a length, or give it back, at the buckets that a color charges in a mode. -/
def Meter.takeAs (m : Meter) (mode color : Nat) (len : Int) : Meter :=
  let b := len * 256
  let tc := min m.size1 (m.tc - b)
  let te := min m.size2 (m.te - b)
  if color = 2 then m
  else if mode = 0 then (if color = 0 then { m with tc } else { m with te })
  else if color = 0 then { m with tc, te } else { m with te }

/-- Meter a frame of a length (06 R216 to R220): its color and the length charged. The packet is counted. -/
def Dev.meterFrame (d : Dev) (m len : Nat) (preYellow : Bool) : Nat × Nat × Dev :=
  let x := (d.meter m).credit d.now
  let b := chargeOf x.lenAdj len
  let color := x.color b preYellow
  (color, b, (d.meterM m fun _ => x.takeAs x.mode color b).count (cMeter m (2 * color)) 1)

/-- What a color does at its port: reds are discarded under reason 1 (06 R219, 08 R304). -/
def Dev.countColor (d : Dev) (port color : Nat) : Dev :=
  if color = 2 then (d.count (cPort port 47) 1).count (cDev 263) 1 else d

/-- Re-mark a frame found yellow (06 R219). -/
def remark (tags mark pcp : Nat) (data : List Byte) : List Byte :=
  if tags = 0 ∨ mark = 0 then data
  else
    let b := byteAt data 14
    let b := if mark = 1 ∨ mark = 3 then setBit b 4 true else b
    let b := if mark = 2 ∨ mark = 3 then b % 32 + (pcp % 8) * 32 else b
    setBytes data 14 [b]

/-- Declared length of an IP frame (06 R218). -/
def declaredLen (l3Kind tagEnd : Nat) (data : List Byte) : Nat :=
  let l3 := tagEnd + 2
  max 64 (if l3Kind = 1 then l3 + be16 data (l3 + 2) + 4 else l3 + 40 + be16 data (l3 + 4) + 4)

/-! ### Retirement and flips (06 R212 to R215) -/

/-- Copy the current generation over the standby one, and free what belongs to neither (06 R213): entries freed. -/
def Prs.copyDown (p : Prs) : Prs × Nat :=
  let other := 1 - p.parity
  let rules := AMap.mapV p.rules fun _ r =>
    let m := r.member p.parity
    { r.setMember other m with valid := r.valid && m }
  (({ p with rules }).standbyM fun _ => p.current, sumBy p.rules fun x => b2n (x.2.valid && !x.2.member p.parity))

/-- GENERATION_RETIRE: at the bell after a flip (06 R212 step 1, R213). -/
def Dev.genRetire (d : Dev) : Dev :=
  if d.prs.retiring then
    let (p, freed) := d.prs.copyDown
    (d.prsM fun _ => { p with retiring := false }).post 0x0902 [.wide (d.prs.gen - 1), .value freed]
  else d

/-! ### Commands (06 R211, R221, R223 to R231) -/

def prfHeader (e : CmdEntry) : Nat := e.f 20 31 0
def prfWindow (e : CmdEntry) (w : Nat) : Nat := clampWindow (e.f (24 + 4 * w) 31 0)

/-- Two used windows that overlap in the key: the lower of the two (06 R202). -/
def prfOverlap (e : CmdEntry) : Option Nat :=
  (List.range 8).find? fun a => (List.range 8).any fun b =>
    decide (a < b) && winUsed (prfWindow e a) && winUsed (prfWindow e b) &&
      decide (winPos (prfWindow e a) < winPos (prfWindow e b) + winLen (prfWindow e b)) &&
      decide (winPos (prfWindow e b) < winPos (prfWindow e a) + winLen (prfWindow e a))

def prsWriteProfile : CmdSpec where
  op := 0x0901
  kind := fun _ => .commit
  pairWide := true
  seals := 4
  check := fun _ e => firstOf [failsIf (bits (prfHeader e) 2 1 == 3) (rejField 20 1),
    failsIf (bits (prfHeader e) 2 1 == 0 && (List.range 8).any fun w => winAnchor (prfWindow e w) == 2) (rejField 20 1),
    (prfOverlap e).map fun w => rejField (24 + 4 * w) 10]
  claims := fun _ e => [claim1 itProfile (e.f 16 5 0)]
  apply := fun c d => okAfter c (d.prsM fun p => p.standbyM fun g => { g with
    profiles := AMap.set g.profiles (c.e.f 16 5 0)
      { loaded := bit (prfHeader c.e) 0, l3Kind := bits (prfHeader c.e) 2 1, windows := (List.range 8).map (prfWindow c.e) } })
  rank := 63
  abort := abortPlain

def prsWritePortMap : CmdSpec where
  op := 0x0902
  kind := fun _ => .commit
  seals := 4
  check := fun d e => d.needsPort e
  claims := fun d e => [claim1 itPortMap (d.portField e)]
  apply := fun c d => okAfter c (d.prsM fun p => p.standbyM fun g => { g with
    maps := AMap.set g.maps (d.portField c.e)
      { profiles := (List.range 16).map fun k => c.e.f (20 + k) 5 0, deiColor := c.e.b 16 16 } })
  rank := 63
  abort := abortPlain

/-- An EtherType as stored (06 R225). -/
def Prs.etypeStored (p : Prs) (x : Nat) : Nat := if x < 0x0600 ∨ x = 0x0800 ∨ x = 0x86DD ∨ p.isTpid x = true then 0 else x

def prsWriteEtypes : CmdSpec where
  op := 0x0903
  kind := fun _ => .commit
  pairWide := true
  seals := 4
  claims := fun _ _ => [claim1 itEtypes 0]
  apply := fun c d => okAfter c (d.prsM fun p => p.standbyM fun g => { g with
    etypes := (List.range 13).map fun k => p.etypeStored (c.e.f (16 + 2 * k) 15 0) })
  rank := 63
  abort := abortPlain

/-- A rule image (06 R206): a value bit whose mask bit is 0 is stored as 0. -/
def ruleOf (image : List Byte) : Rule :=
  let n := fun (off len : Nat) => natLE (subBytes image off len)
  { keyMask := n 64 64, keyValue := n 0 64 &&& n 64 64, metaMask := n 136 8, metaValue := n 128 8 &&& n 136 8
    counter := n 144 4 % 2 ^ 20, countEn := bit (n 144 4) 31, meter := n 148 4 % 2 ^ 18, meterEn := bit (n 148 4) 31
    priority := n 152 2 }

/-- The image of a rule (06 R206, R230). -/
def Rule.image (r : Rule) : List Byte :=
  bytesLE 64 r.keyValue ++ bytesLE 64 r.keyMask ++ bytesLE 8 r.metaValue ++ bytesLE 8 r.metaMask ++
    bytesLE 4 (r.counter + b2n r.countEn * 2 ^ 31) ++ bytesLE 4 (r.meter + b2n r.meterEn * 2 ^ 31) ++ bytesLE 2 r.priority ++ bytesLE 6 0

def applyWriteRule (c : Cmd) (d : Dev) : Dev :=
  let i := c.e.f 16 15 0
  let r := d.rule i
  if r.valid && r.member d.prs.parity then d.finish c stNotPermitted 0
  else okAfter c (d.prsM fun p => { p with
    rules := AMap.set p.rules i { (ruleOf c.e.mem).setMember (1 - p.parity) true with valid := true } })

def prsWriteRule : CmdSpec where
  op := 0x0904
  kind := fun _ => .commit
  pairWide := true
  seals := 4
  reads := true
  check := fun _ e => e.needsAddr
  claims := fun _ e => [claim1 itRule (e.f 16 15 0)]
  apply := applyWriteRule
  rank := 63
  abort := abortPlain

def memberFirst (e : CmdEntry) : Nat := e.f 16 15 0
def memberCount (e : CmdEntry) : Nat := clamp 1 (65536 - memberFirst e) (e.f 20 16 0)

/-- The valid rules of the range that a PRS.SET_MEMBER names. -/
def memberTakes (e : CmdEntry) (i : Nat) (r : Rule) : Bool := decide (memberFirst e ≤ i) && decide (i < memberFirst e + memberCount e) && r.valid

/-- How many of them it changes (06 R227). -/
def Dev.memberChanges (d : Dev) (e : CmdEntry) : Nat :=
  sumBy d.prs.rules fun x => b2n (memberTakes e x.1 x.2 && x.2.member (1 - d.prs.parity) != e.b 20 24)

def applySetMember (c : Cmd) (d : Dev) : Dev :=
  (d.prsM fun p => { p with
    rules := AMap.mapV p.rules fun i r => if memberTakes c.e i r then r.setMember (1 - d.prs.parity) (c.e.b 20 24) else r }).finish c stOk
      (d.memberChanges c.e)

def prsSetMember : CmdSpec where
  op := 0x0905
  kind := fun _ => .commit
  pairWide := true
  seals := 4
  claims := fun _ e => [{ kind := itRule, lo := memberFirst e, hi := memberFirst e + memberCount e - 1 }]
  apply := applySetMember
  rank := 63
  abort := abortPlain

def prsDiscardStaged : CmdSpec where
  op := 0x0906
  kind := fun _ => .commit
  pairWide := true
  seals := 4
  claims := fun _ _ => [{ kind := itProfile, lo := 0, hi := 63 }, { kind := itPortMap, lo := 0, hi := 1023 }, claim1 itEtypes 0,
    { kind := itRule, lo := 0, hi := 65535 }]
  apply := fun c d => okAfter c (d.prsM fun p => p.copyDown.1)
  rank := 61
  abort := abortPlain

/-- PRS.COMMIT at its bell (06 R215). -/
def applyCommit (c : Cmd) (d : Dev) : Dev :=
  let d := d.prsM fun p => { p with gen := (p.gen + 1) % 2 ^ 64, retiring := true }
  (d.post 0x0901 [.wide d.prs.gen, .code d.prs.parity]).finish c stOk (d.prs.gen % 65536)

def prsCommit : CmdSpec where
  op := 0x0907
  kind := fun _ => .commit
  pairWide := true
  seals := 4
  claims := fun _ _ => [claim1 itPrs 0]
  apply := applyCommit
  rank := 64
  abort := abortPlain

def meterIx (e : CmdEntry) : Nat := e.f 16 17 0

/-- The configuration that PRS.SET_METER gives (06 R221); buckets are credited up to its bell first. -/
def meterOf (e : CmdEntry) (old : Meter) (now : Q) : Meter :=
  let mode := e.f 20 0 0
  let cir := min 800000000 (e.f 24 31 0)
  let cbs := clamp 64 16777215 (e.f 32 23 0)
  let ebs := if mode = 0 then e.f 36 23 0 else clamp 64 16777215 (e.f 36 23 0)
  let x := old.credit now
  let full := e.b 16 24
  { x with
    mode, colorAware := e.b 20 1, yellowMark := e.f 20 3 2, yellowPcp := e.f 20 6 4, lenAdj := clampI (-32) 63 (e.i 21 8)
    cir, pir := if mode = 0 then 0 else clamp cir 800000000 (e.f 28 31 0), cbs, ebs
    tc := if full then ((cbs * 256 : Nat) : Int) else min ((cbs * 256 : Nat) : Int) x.tc
    te := if full then ((ebs * 256 : Nat) : Int) else min ((ebs * 256 : Nat) : Int) x.te }

def prsSetMeter : CmdSpec where
  op := 0x0908
  kind := fun _ => .commit
  pairWide := true
  seals := 4
  claims := fun _ e => [claim1 itMeter (meterIx e)]
  apply := fun c d => okAfter c (d.meterM (meterIx c.e) fun m => meterOf c.e m d.now)
  rank := 62
  abort := abortPlain

def prsReadRule : CmdSpec where
  op := 0x0909
  journal := false
  writes := true
  check := fun _ e => e.needsAddr
  accept := fun c d =>
    let r := d.rule (c.e.f 16 15 0)
    d.readOut c c.e.addr (r.image ++ bytesLE 32 (b2n r.valid + 2 * b2n r.m0 + 4 * b2n r.m1)) 0

/-- The record of PRS.READ_METER (06 R231). -/
def Meter.record (m : Meter) : List Byte :=
  packRec 32 [(0, 0, 1, m.mode), (0, 1, 1, b2n m.colorAware), (0, 2, 2, m.yellowMark), (0, 4, 3, m.yellowPcp), (0, 8, 8, twos 8 m.lenAdj),
    (4, 0, 32, m.cir), (8, 0, 32, m.pir), (12, 0, 24, m.cbs), (16, 0, 24, m.ebs),
    (20, 0, 32, twos 32 (divFloor m.tc 256)), (24, 0, 32, twos 32 (divFloor m.te 256))]

def prsReadMeter : CmdSpec where
  op := 0x090A
  journal := false
  writes := true
  check := fun _ e => e.needsAddr
  accept := fun c d => d.readOut c c.e.addr (((d.meter (meterIx c.e)).credit d.now).record) 0

def prsSpecs : List CmdSpec :=
  [prsWriteProfile, prsWritePortMap, prsWriteEtypes, prsWriteRule, prsSetMember, prsDiscardStaged, prsCommit, prsSetMeter, prsReadRule, prsReadMeter]

end Sys2Proof.Machine
end

