-- ==== Sys2Proof/Machine/Forward.lean ====
section
/-! DEFINITION. What becomes of frames (07, 06 R218, 08 R290 to R294, 17 R533): copy sets, classes, streams, mirror copies, admission,
and the rows of reception. -/

namespace Sys2Proof.Machine

/-! ### Tables of FWD (07 R235 to R248) -/

def Dev.vlan (d : Dev) (v : Nat) : Vlan := AMap.getD d.fwd.vlans v { fid := v }
def Dev.fwdPort (d : Dev) (n : Nat) : FwdPort := AMap.getD d.fwd.ports n {}
def Dev.classMap (d : Dev) (i : Nat) : ClassMap := AMap.getD d.fwd.maps i {}
def Dev.group (d : Dev) (g : Nat) : Group := AMap.getD d.fwd.groups g {}
def Dev.stream (d : Dev) (h : Nat) : Stream := AMap.getD d.fwd.streams h {}
def Dev.streamM (d : Dev) (h : Nat) (f : Stream → Stream) : Dev :=
  d.fwdM fun w => { w with streams := AMap.upd w.streams h {} f }

/-! ### Crossing to the buddy (17 R531, R533) -/

/-- Copies can cross now: while PAIRED, and in ISOLATED until the hold-down of the link's copies ends (17 R545). -/
def Dev.canCross (d : Dev) : Bool :=
  !d.bdy.unpairDraining && (d.bdy.state == .paired || (d.bdy.state == .isolated && decide (d.now < d.bdy.holdUntil)))

/-- Credit held for a class; 4,096 cells when the link comes up (17 R531). -/
def Dev.credit (d : Dev) (cls : Nat) : Nat := AMap.getD d.bdy.credit cls 0

/-- The copy of a class that goes next over the link, if it may: complete, and with credit. -/
def Dev.buddyHead (d : Dev) (cls : Nat) : Option BuddyCopy :=
  match d.bdy.txq.find? fun c => c.cls == cls with
  | some c => if (d.frameAt c.frame).complete && decide (cellsOf (c.data.length + 4) ≤ d.credit cls) then some c else none
  | none => none

/-- Classes in the order of service: 15, 14, 13, 12, then 0 to 11 round-robin (17 R531). -/
def Dev.buddyOrder (d : Dev) : List Nat := [15, 14, 13, 12] ++ (List.range 12).map fun k => (d.bdy.rr + 1 + k) % 12

/-- Take the first copy of a class out of the queue. -/
def dropFirst (cls : Nat) : List BuddyCopy → List BuddyCopy
  | [] => []
  | c :: r => if c.cls = cls then r else c :: dropFirst cls r

/-- Send one transit frame (17 R533). -/
def Dev.sendTransit (d : Dev) (c : BuddyCopy) : Dev :=
  let fr := d.frameAt c.frame
  let d := d.bdyM fun b => { b with
    txq := dropFirst c.cls b.txq, rr := if c.cls < 12 then c.cls else b.rr
    credit := AMap.set b.credit c.cls (AMap.getD b.credit c.cls 0 - cellsOf (c.data.length + 4)) }
  let d := d.emit (.buddyFrame { cls := c.cls, dest := c.dest, isGroup := c.isGroup, stream := c.stream, ingress := fr.ingress, sof := fr.sof
                                 periodTai := c.periodTai, home := fr.tx.map fun _ => c.frame, onestep := c.onestep, data := c.data })
  if fr.tx.isSome then d.sendAway c.frame else d.dropCopy { frame := c.frame } true

/-- Send the transit frames that may go, at most n (17 R531). -/
def Dev.buddySend : Nat → Dev → Dev
  | 0, d => d
  | n + 1, d =>
    if d.bdy.linkUp && (d.bdy.state == .paired || d.bdy.unpairDraining) then
      match d.buddyOrder.findSome? d.buddyHead with
      | some c => Dev.buddySend n (d.sendTransit c)
      | none => d
    else d

/-- Send all that may go. -/
def Dev.buddyDrain (d : Dev) : Dev := Dev.buddySend d.bdy.txq.length d

/-! ### Copy sets and classes (07 R234 to R237, R247) -/

/-- The copy set of a frame. -/
structure CopySet where
  ports : List Nat := []
  buddy : Option (Nat × Bool) := none
  stream : Option Nat := none
  deriving DecidableEq, Repr

/-- Ports of a group that exist. -/
def Dev.groupPorts (d : Dev) (g : Nat) : List Nat := d.portList.filter fun n => bit (d.group g).mask n

/-- Copy set before step 4. -/
def Dev.rawSet (d : Dev) (mac fid flood : Nat) : CopySet :=
  let ofGroup := fun (g : Nat) (stream : Option Nat) =>
    ({ ports := d.groupPorts g, buddy := if (d.group g).buddy then some (g, true) else none, stream } : CopySet)
  match d.fdbFind mac fid with
  | some (_, e) =>
    let stream := if e.streamEn then some e.stream else none
    if e.group then ofGroup e.dest stream
    else if e.module = d.module then { ports := [e.dest], stream }
    else { buddy := some (e.dest, false), stream }
  | none => ofGroup flood none

/-- Copy set of a frame from an ingress port (07 R236). -/
def Dev.copySet (d : Dev) (ingress mac vid : Nat) : CopySet :=
  let v := d.vlan vid
  let s := d.rawSet mac v.fid v.flood
  { s with ports := s.ports.filter fun n => n != ingress && d.portExists n, buddy := if d.canCross then s.buddy else none }

/-- DSCP of a frame, where its EtherType is of IP (07 R247). -/
def Prs.dscp (p : Prs) (data : List Byte) : Option Nat :=
  let l3 := p.tagEnd data + 2
  if p.etherType data = 0x0800 then some (byteAt data (l3 + 1) / 4)
  else if p.etherType data = 0x86DD then some (be16 data l3 % 4096 / 64)
  else none

/-- Class of a frame by the settings of its port (07 R247); in VOQ mode classes from 8 become 7 (08 R314). -/
def Dev.classOf (d : Dev) (cfg : FwdPort) (m : ClassMap) (data : List Byte) : Nat :=
  let byPcp := if d.prs.tags data = 0 then cfg.defClass else bits m.pcpDei (4 * (2 * d.prs.pcp data + b2n (d.prs.dei data)) + 3) (4 * (2 * d.prs.pcp data + b2n (d.prs.dei data)))
  let c := match cfg.trust with
    | 0 => cfg.defClass
    | 1 => byPcp
    | _ => match d.prs.dscp data with | some x => bits m.dscp (4 * x + 3) (4 * x) | none => byPcp
  if d.buf.voq then min c 7 else c

/-- Offset of the PTP message in a frame, with the offset of its UDP checksum (02 R57). -/
def Prs.ptpAt (p : Prs) (data : List Byte) : Option (Nat × Option Nat) :=
  let l3 := p.tagEnd data + 2
  let udp := fun (o : Nat) => be16 data (o + 2) == 319 || be16 data (o + 2) == 320
  if p.etherType data = 0x88F7 then some (l3, none)
  else if p.etherType data = 0x0800 ∧ byteAt data l3 = 0x45 ∧ byteAt data (l3 + 9) = 17 ∧ udp (l3 + 20) = true then some (l3 + 28, some (l3 + 26))
  else if p.etherType data = 0x86DD ∧ byteAt data (l3 + 6) = 17 ∧ udp (l3 + 40) = true then some (l3 + 48, some (l3 + 46))
  else none

/-! ### Streams (07 R251 to R258) -/

/-- What the stream functions make of a frame. -/
inductive Verdict where
  | pass | eliminate | rogue | untagged
  deriving DecidableEq, Repr

/-- Restart a stream's reset timer: a frame has passed. -/
def Dev.streamPass (d : Dev) (h : Nat) : Dev := (d.streamM h fun x => { x with passedAt := some d.now }).count (cStream h 0) 1

/-- Vector recovery of an R-TAGged frame (07 R254). -/
def Dev.recoverSeq (d : Dev) (h seq : Nat) : Verdict × Dev :=
  let x := d.stream h
  let l := x.histM1 + 1
  let ones := 2 ^ l - 1
  if x.takeAny then (.pass, (d.streamM h fun x => { x with num := seq, hist := ones, takeAny := false }).streamPass h)
  else
    let delta := signed 16 (seq + 65536 - x.num)
    if ((l : Nat) : Int) ≤ delta ∨ delta ≤ -((l : Nat) : Int) then (.rogue, d.count (cStream h 4) 1)
    else if delta ≤ 0 then
      let k := (-delta).toNat
      if bit x.hist k then (.eliminate, d.count (cStream h 1) 1)
      else (.pass, ((d.streamM h fun x => { x with hist := setBit x.hist k true }).count (cStream h 2) 1).streamPass h)
    else
      let k := delta.toNat
      let lost := sumBy (List.range k) fun i => b2n (!bit x.hist (l - k + i))
      (.pass, ((d.streamM h fun x => { x with hist := (x.hist * 2 ^ k + 1) % 2 ^ l, num := seq }).count (cStream h 3) lost).streamPass h)

/-- Recovery of a frame under the settings of its decision (07 R238, R254, R255). -/
def Dev.recover (d : Dev) (h : Nat) (x : Stream) (data : List Byte) : Verdict × Dev :=
  if d.prs.etherType data = 0xF1C1 then d.recoverSeq h (be16 data (d.prs.tagEnd data + 4))
  else if x.takeNoSeq then (.pass, d.streamPass h)
  else (.untagged, d.count (cStream h 5) 1)

/-- Removal and generation under the settings of the decision (07 R238, R255, R256): the bytes to send, or none where the R-TAG would not
fit. -/
def Dev.retag (d : Dev) (h : Nat) (x : Stream) (data : List Byte) : Option (List Byte) × Dev :=
  let at_ := d.prs.tagEnd data
  let tagged := d.prs.etherType data == 0xF1C1
  let data := if tagged && x.rcvEn && x.strip then data.take at_ ++ data.drop (at_ + 6) else data
  let tagged := d.prs.etherType data == 0xF1C1
  if x.genEn && !tagged then
    if 9216 < data.length + 10 then (none, d.count (cStream h 5) 1)
    else
      (some (data.take at_ ++ [0xF1, 0xC1, 0, 0] ++ bytesBE 2 (d.stream h).gen ++ data.drop at_),
        (d.streamM h fun x => { x with gen := (x.gen + 1) % 65536 }).count (cStream h 7) 1)
  else (some data, d)

/-! ### Copies and mirror copies (07 R249, R259 to R262) -/

def Dev.rxM (d : Dev) (n : Nat) (f : RxFrame → RxFrame) : Dev :=
  d.fwdM fun w => { w with rx := AMap.upd w.rx n {} f }

/-- A mirror copy of a frame under its session's settings: for a port it is queued; for a ring or a recorder it is written, or kept until the
frame that port rx is receiving has ended. -/
def Dev.mirrorFrame (d : Dev) (s : Nat) (set : Mirror) (f port : Nat) (egress : Bool) (cls : Nat) (data : List Byte) (rx : Option Nat) : Dev :=
  let (take, d) := d.sampled s set.sample
  if !take then d
  else if set.kind = 0 then d.mirrorToPort s set f data
  else
    let m : MirrorOut := { session := s, set, port, egress, cls, data }
    match rx with
    | some n => d.rxM n fun x => { x with mirrors := x.mirrors ++ [m] }
    | none => d.writeMirror m (d.frameAt f).sof false

/-- The ingress copy of a frame (07 R249, R260): a copy for a port refers to the stored frame, or stores the frame where nothing else does. -/
def Dev.ingressMirror (d : Dev) (n s : Nat) (set : Mirror) (h : FrameHead) (cls : Nat) (frame : Option Nat) : Dev :=
  if set.kind = 0 ∧ frame = none then
    let (take, d) := d.sampled s set.sample
    if take then
      let (f, d) := d.store { source := .own, data := h.data, ingress := n, sof := h.sof, complete := false, refs := 1, holds := 1 }
      let d := d.mirrorToPort s set f h.data
      (d.rxM n fun x => { x with mframe := some f }).endWait f
    else d
  else d.mirrorFrame s set (frame.getD 0) n false cls h.data (some n)

/-- The enabled egress session that a port names, with its settings (07 R259). -/
def Dev.egrOf (d : Dev) (n : Nat) : Option (Nat × Mirror) :=
  let cfg := d.fwdPort n
  if cfg.egrEn && (d.mirror cfg.egrSession).en then some (cfg.egrSession, d.mirror cfg.egrSession) else none

/-- Egress sessions of ports as they stand. -/
def Dev.egrMap (d : Dev) (ports : List Nat) : AMap (Nat × Mirror) := ports.filterMap fun n => (d.egrOf n).map fun x => (n, x)

/-- Queue one original copy on a port, with its egress mirror copy (07 R260). -/
def Dev.queueCopy (d : Dev) (n cls f period : Nat) (data : List Byte) (cut : Bool) (egr : Option (Nat × Mirror)) (rx : Option Nat) : Dev :=
  let len := data.length + 4
  let takes := (d.port n).state.takes
  let d := d.enqueue n cls { frame := f, cells := cellsOf len, len, period, cutThrough := cut }
  match egr with
  | some (s, set) => d.when takes fun d => d.mirrorFrame s set f n true cls data rx
  | none => d

/-- Assigned period of a cyclic frame by its arrival: in the period under way or in the one before it, and in the passing window that was
in force there or after it (01 R33). -/
def Dev.periodOf (d : Dev) (ingress sof : Nat) : Nat :=
  let p := d.belPort ingress
  if d.bel.lastAt + p.passOpen * qPerNs ≤ sof then d.bel.seq
  else if d.bel.lastAt ≤ sof ∨ d.bel.prevAt + p.passPrev * qPerNs ≤ sof then d.bel.seq - 1
  else d.bel.seq - 2

/-- TAI of the bell that opened a period (17 R533). -/
def Dev.tainOf (d : Dev) (period : Nat) : Nat := if period < d.bel.seq then d.bel.lastTai - d.bel.period else d.bel.lastTai

/-! ### Admission and the governor (08 R290, 11 R385) -/

/-- Best-effort bytes admitted at step 5: past the budget the governor asserts XOFF until the next bell (11 R385). -/
def Dev.govCount (d : Dev) (cls len : Nat) : Dev :=
  if cls < (if d.buf.voq then 7 else 12) then
    let d := d.govM fun g => { g with beBytes := g.beBytes + len }
    if d.gov.step = 5 ∧ d.gov.beBudget < d.gov.beBytes ∧ d.gov.beHold = false then
      let d := d.govM fun g => { g with beHold := true, held := true }
      d.each d.portList fun n d => d.when ((d.port n).fcMode == 2) fun d => d.portM n fun p => { p with flowDue := true }
    else d
  else d

/-- While only the governor holds a point and class in XOFF, frames take headroom before shared cells (11 R385, log). -/
def Dev.admitFor (d : Dev) (point cls n len : Nat) : Dev × Option CellSource :=
  let a := d.acct point cls
  let r :=
    if d.govXoff point cls && decide (a.minCells < a.useMin + n) && decide (a.useHead + n ≤ a.headroom) then
      (d.acctM point cls fun a => a.charge .headroom n, some .headroom)
    else d.takeCells point cls n
  match r.2 with
  | some _ => (r.1.govCount cls len, r.2)
  | none =>
    -- TX rings and the buddy link are slowed before they run out, and lose nothing to congestion (08 R293, R305)
    if 1024 ≤ point then ((r.1.acctM point cls fun a => a.charge .shared n).govCount cls len, some .shared) else r

/-- A frame that finds no cell (08 R293). -/
def Dev.noCell (d : Dev) (point cls : Nat) : Dev :=
  let d := ((d.count (cAcct point cls 2) 1).count (cDev 264) 1).postOnce d.buf.noCellPosted 0x0B04 [.index point, .index cls]
  d.bufM fun b => { b with noCellPosted := true }

/-- Where a frame comes from. -/
structure Origin where
  point : Nat := 0
  ingress : Nat := 0
  sof : Nat := 0
  complete : Bool := true
  /-- It may leave cut-through. -/
  cut : Bool := false
  rx : Option Nat := none
  tx : Option (Nat × Nat × Nat) := none
  fate : Option Nat := none
  ts : Bool := false
  onestep : Bool := false
  period : Nat := 0
  deriving DecidableEq, Repr

/-- Store a frame of a length with the cells of its point and class, and a reference that stands for the decision about its copies; none
where no cell was found (08 R290). -/
def Dev.takeFrame (d : Dev) (o : Origin) (cls len : Nat) (data : List Byte) : Option Nat × Dev :=
  match d.admitFor o.point cls (cellsOf len) len with
  | (d, none) => (none, d.noCell o.point cls)
  | (d, some src) =>
    let (f, d) := d.store { point := o.point, cls, source := src, cells := cellsOf len, data, ingress := o.ingress, sof := o.sof, complete := o.complete, refs := 1, holds := 1, tx := o.tx, fate := o.fate, ts := o.ts, onestep := o.onestep }
    (some f, d)

/-- Queue the copies of a stored frame (07 R249). Bytes for the buddy are those before the stream functions of this module (17 R533). -/
def Dev.fan (d : Dev) (f : Nat) (o : Origin) (cls : Nat) (data bdata : List Byte) (ports : List Nat) (egr : AMap (Nat × Mirror)) (buddy : Option (Nat × Bool)) (stream : Option Nat) : Dev :=
  let k := ports.length + b2n buddy.isSome
  let d := d.frameM f fun x => { x with data, refs := x.refs + k, holds := x.holds + k }
  let d := d.each ports fun p d => d.queueCopy p cls f o.period data o.cut (AMap.find? egr p) o.rx
  let d := match buddy with
    | some (dest, isGroup) =>
      let c : BuddyCopy := { frame := f, cls, dest, isGroup, stream, data := bdata, periodTai := if 12 ≤ cls ∧ cls ≤ 14 then d.tainOf o.period else 0, onestep := o.onestep }
      (d.bdyM fun b => { b with txq := b.txq ++ [c] }).buddyDrain
    | none => d
  d.endWait f

/-- Store a frame and queue its copies; none where no cell was found. -/
def Dev.place (d : Dev) (o : Origin) (cls : Nat) (data bdata : List Byte) (ports : List Nat) (buddy : Option (Nat × Bool)) (stream : Option Nat) :
    Option Nat × Dev :=
  match d.takeFrame o cls (data.length + 4) data with
  | (some f, d) => (some f, d.fan f o cls data bdata ports (d.egrMap ports) buddy stream)
  | (none, d) => (none, d)

/-! ### The head of a frame (01 R17) -/

/-- A punt that waits until the frame proves good. -/
def Dev.puntLater (d : Dev) (n ring reason aux : Nat) (data : List Byte) : Dev :=
  d.rxM n fun x => { x with punts := x.punts ++ [{ ring, reason, aux, data }] }

/-- Origin of the frame that a port is receiving. -/
def Dev.rxOrigin (d : Dev) (n : Nat) (h : FrameHead) (p : FwdPlan) (complete : Bool) : Origin :=
  { point := n, ingress := n, sof := h.sof, complete, cut := !p.recover && decide (64 ≤ h.data.length + 4), rx := some n, period := (AMap.getD d.fwd.rx n {}).period }

/-- Length of a frame as its stream's removal and generation leave it. -/
def Dev.retaggedLen (d : Dev) (p : FwdPlan) : Nat :=
  match p.stream with
  | some s => if p.ports.isEmpty then p.data.length + 4 else ((d.retag s p.strm p.data).1.getD p.data).length + 4
  | none => p.data.length + 4

/-- Forward a received frame whose color is known and whose recovery, if any, has passed (07 R236, R237, R253 to R256). -/
def Dev.release (d : Dev) (n : Nat) (h : FrameHead) (p : FwdPlan) (complete : Bool) : Dev :=
  match p.frame with
  | none => d
  | some f =>
    let send := fun (d : Dev) (data : List Byte) (ports : List Nat) =>
      d.fan f (d.rxOrigin n h p complete) p.cls data p.data ports p.egr p.buddy p.stream
    match p.stream with
    | some s =>
      if p.ports.isEmpty then send d p.data []
      else
        match d.retag s p.strm p.data with
        | (some data, d) => send d data p.ports
        | (none, d) => send (d.puntLater n p.frerRing 10 s p.data) p.data []
    | none => send d p.data p.ports

/-- The place of a received frame in the near store, taken as soon as its class is known (08 R290). -/
def Dev.takePlace (d : Dev) (n : Nat) (h : FrameHead) (p : FwdPlan) (complete : Bool) : FwdPlan × Dev :=
  if p.ports.isEmpty && p.buddy.isNone then (p, d)
  else
    let (f, d) := d.takeFrame (d.rxOrigin n h p complete) p.cls (d.retaggedLen p) p.data
    ({ p with frame := f }, d.rxM n fun x => { x with frame := f, cut := f.isNone })

/-- What follows the color (06 R219, 07 R247, R260): re-marking, class, admission, ingress copy, and either forwarding or the wait for the
last byte. -/
def Dev.colored (d : Dev) (n : Nat) (x : RxFrame) (p : FwdPlan) (color mark pcp : Nat) (complete : Bool) : Dev :=
  let d := d.rxM n fun x => { x with color }
  if color = 2 then (d.countColor n color).rxM n fun x => { x with plan := none }
  else
    let tags := d.prs.tags x.head.data
    let data := if color = 1 then remark tags mark pcp x.head.data else x.head.data
    let d := d.when (color == 1 && tags != 0 && mark != 0) fun d => d.count (cPort n 46) 1
    let p := { p with data, cls := d.classOf p.cfg p.cmap data }
    let d := d.rxM n fun x => { x with cls := p.cls, plan := none }
    let (p, d) := d.takePlace n x.head p complete
    let d := match p.ingress with | some (s, set) => d.ingressMirror n s set x.head p.cls p.frame | none => d
    if p.stay then d
    else if p.ports.isEmpty && p.buddy.isNone then (d.count (cPort n 50) 1).puntLater n p.emptyRing 6 0 p.data
    else if p.recover && p.frame.isSome then d.rxM n fun x => { x with plan := some p }
    else d.release n x.head p complete

/-- Peer delay messages that a P2P transparent clock does not forward (02 R59). -/
def Dev.peerOnly (d : Dev) (n : Nat) (data : List Byte) : Bool :=
  d.tim.tcEn && d.tim.tcP2p && (d.timPort n).role == 0 &&
    (match d.prs.ptpAt data with | some (o, _) => byteAt data o % 16 == 2 || byteAt data o % 16 == 3 | none => false)

/-- The plan that the bridging state gives a frame (07 R234 to R238). -/
def Dev.planFor (d : Dev) (n : Nat) (data : List Byte) : FwdPlan :=
  let cfg := d.fwdPort n
  let vid := if d.prs.vid data = 0 then cfg.pvid else d.prs.vid data
  let stay := d.peerOnly n data
  let s : CopySet := if stay then {} else d.copySet n (macAt data 0) vid
  let strm : Stream := match s.stream with | some h => d.stream h | none => {}
  { cfg, cmap := d.classMap cfg.mapSet, ports := s.ports, buddy := s.buddy, stream := s.stream, strm, stay
    recover := !s.ports.isEmpty && s.stream.isSome && strm.rcvEn
    ingress := if cfg.ingEn && (d.mirror cfg.ingSession).en then some (cfg.ingSession, d.mirror cfg.ingSession) else none
    egr := d.egrMap s.ports, emptyRing := d.fwd.emptyRing, frerRing := d.fwd.frerRing }

/-- FID that a frame may teach (07 R242), its color and FCS apart. -/
def Dev.learnFid (d : Dev) (n : Nat) (data : List Byte) : Option Nat :=
  let cfg := d.fwdPort n
  let vid := if d.prs.vid data = 0 then cfg.pvid else d.prs.vid data
  if cfg.learn && (d.vlan vid).learn && !isGroupMac (macAt data 6) then some (d.vlan vid).fid else none

/-- Lookup, metering and forwarding of a frame that the parser takes (06 R201 to R220). -/
def Dev.classify (d : Dev) (n : Nat) (h : FrameHead) : Dev :=
  let data := h.data
  let g := d.prs.current
  let pi := nth (g.map n).profiles (g.etypeClass (d.prs.etherType data)) 0
  let prof := g.profile pi
  let at_ := d.prs.tagEnd data
  match slowReason prof data at_ with
  | some r => (d.count (cPort n (38 + r)) 1).puntLater n d.prs.slowRing r r data
  | none =>
    let short := prof.short data at_
    let d := d.when short fun d => d.count (cPort n 44) 1
    let hit := d.prs.select (prof.key data at_) (d.prs.metaOf data n pi short)
    let d := d.when hit.isNone fun d => d.count (cPort n 45) 1
    let flow := match hit with | some r => if r.countEn then some r.counter else none | none => none
    let meter := match hit with | some r => if r.meterEn then some r.meter else none | none => none
    let d := match flow with | some i => d.count (cFlow i 0) 1 | none => d
    let pre := (g.map n).deiColor && d.prs.dei data
    let x : RxFrame := { (AMap.getD d.fwd.rx n {} : RxFrame) with head := h, flow, meter, preYellow := pre, learn := d.learnFid n data }
    let d := d.rxM n fun _ => x
    let p := d.planFor n data
    match meter with
    | none => d.colored n x p (if pre then 1 else 0) 0 0 false
    | some m =>
      if prof.l3Kind = 0 then d.rxM n fun x => { x with plan := some p }
      else
        let (color, b, d) := d.meterFrame m (declaredLen prof.l3Kind at_ data) pre
        let d := d.rxM n fun x => { x with charged := some (b, (d.meter m).mode, (d.meter m).lenAdj) }
        d.colored n x p color (d.meter m).yellowMark (d.meter m).yellowPcp false

/-! ### PTP (02 R49, R55 to R57) -/

/-- The multicast addresses of a profile (02 R48, R55): those of IEEE 1588 for its default profile. -/
def ptpMulticast (profile mac : Nat) : Bool :=
  mac == 0x0180C200000E || (decide (profile < 2) && mac == 0x011B19000000) ||
    (profile == 0 && (mac == 0x01005E000181 || mac == 0x01005E00006B || mac == 0x333300000181 || mac == 0x33330000006B))

/-- A message type is an event message (02 R57). -/
def ptpEvent (t : Nat) : Bool := decide (t < 4)

/-- Messages of a domain that the engines do not serve: any but the servo's for Sync, and any but 0 under 802.1AS (02 R48). -/
def Dev.otherDomain (d : Dev) (t domain : Nat) : Bool := (t == 0 || t == 8 || d.tim.profile == 2) && domain != d.tim.domain

/-- The message engines take a message of this type on this port (02 R56); its own row carries it. -/
def Dev.engineTakes (d : Dev) (n t domain : Nat) : Bool :=
  let p := d.timPort n
  d.engine n && !d.otherDomain t domain &&
    match t with
    | 0 => p.role == 2
    | 8 => p.role == 2
    | 1 => p.role == 1
    | 9 => p.role == 2 && !p.p2p
    | 2 => p.p2p && p.role != 3
    | 3 => p.p2p && p.role != 3
    | 10 => p.p2p && p.role != 3
    | _ => false

/-- A PTP frame that its port terminates (02 R55). -/
def Dev.ptpTerminated (d : Dev) (n : Nat) (data : List Byte) : Option Nat :=
  let role := (d.timPort n).role
  if role = 3 ∨ (role ≠ 0 ∧ ptpMulticast d.tim.profile (macAt data 0) = true) then (d.prs.ptpAt data).map (·.1) else none

/-- An ESMC frame, as ITU-T G.8264 marks it: the slow protocol of subtype 10 with the ITU's identifier (02 R49). -/
def Prs.isEsmc (p : Prs) (data : List Byte) : Bool :=
  let o := p.tagEnd data + 2
  p.etherType data == 0x8809 && byteAt data o == 10 && subBytes data (o + 1) 5 == [0x00, 0x19, 0xA7, 0x00, 0x01]

/-- Maximum length for a frame whose first byte arrived at an instant (03 R119). -/
def Port.limitFor (p : Port) (sof : Nat) : Nat := if sof < p.maxLenAt then p.maxLenOld else p.maxLen

/-- FRAME_RX_HEAD (01 R17): a frame beyond the maximum is received up to it plus 1. -/
def Dev.rxHead (d : Dev) (h : FrameHead) : Dev :=
  let n := h.port
  let st := (d.port n).state
  if st != .up && st != .draining then d
  else
    let d := d.rxM n fun _ => { head := h, period := d.periodOf n h.sof, limit := (d.port n).limitFor h.sof }
    if d.prs.etherType h.data = 0x8808 then d
    else
      let d := d.when (match d.prs.ptpAt h.data with | some (o, _) => ptpEvent (byteAt h.data o % 16) && (d.ptpTerminated n h.data).isNone | none => false)
        fun d => d.count (cPort n 0) 1
      match d.ptpTerminated n h.data with
      | some o =>
        let t := byteAt h.data o % 16
        if d.engineTakes n t (byteAt h.data (o + 4)) then d
        else
          let d := d.when (ptpEvent t) fun d => d.count (cPort n 0) 1
          d.puntLater n d.tim.puntRing 7 0 h.data
      | none =>
        if d.prs.isEsmc h.data then d.puntLater n d.tim.puntRing 7 0 h.data
        else d.classify n { h with data := h.data.take ((d.port n).limitFor h.sof - 3) }

/-! ### The end of a frame (03 R95, R96, 06 R208, R218) -/

/-- Copies of a frame that have not started leave every queue (03 R96): the frame is discarded. -/
def Dev.purgeFrame (d : Dev) (f : Nat) : Dev :=
  let keep := fun (c : Copy) => c.frame != f || c.mirror.isSome
  let runs := fun (l : List Run) => l.filter fun r => keep r.copy
  let all := d.buf.queues.flatMap (fun p => p.2.copies) ++ d.buf.voqs.flatMap (fun p => p.2)
  let gone := all.filter fun c => !keep c
  let back := sumBy d.buf.queues fun p => sumBy p.2.h fun r => if r.recalled && !keep r.copy then r.n else 0
  let d := d.bufM fun b => { b with
    recalled := b.recalled - back
    queues := AMap.mapV b.queues fun _ q => { q with
      h := runs q.h, t := runs q.t, f := q.f.map (fun p => { p with runs := runs p.runs })
      recv := q.recv.filter keep, tran := q.tran.filter keep, pass := q.pass.filter keep, hold := q.hold.filter keep }
    voqs := AMap.mapV b.voqs fun _ l => l.filter keep }
  let d := d.each (d.buf.queues.map (·.1)) fun q d => d.emptyCredit q
  let bgone := d.bdy.txq.filter fun c => c.frame == f
  let d := d.bdyM fun b => { b with txq := b.txq.filter fun c => c.frame != f }
  let d := d.each gone fun c d => d.dropCopy c false
  d.each bgone fun c d => d.dropCopy { frame := c.frame } false

/-- Some copy of a frame has left or is leaving. -/
def Dev.onSomeLine (d : Dev) (f : Nat) : Bool :=
  d.sch.ports.any fun p => match p.2.line with | some l => l.copy.frame == f | none => false

/-- Deliver what waited for a good frame. -/
def Dev.rxPunts (d : Dev) (n : Nat) (x : RxFrame) : Dev :=
  d.each x.punts fun p d =>
    let d := d.when (p.reason == 7 && !d.prs.isEsmc x.head.data) fun d => d.count (cPort n 4) 1
    d.deliverRx p.ring { time := d.rxTime n x.head.sof, frameLen := p.data.length + 4, port := n, module := d.module, cls := x.cls, reason := p.reason, aux := p.aux } p.data

/-- The stream functions of a frame that was held for them (07 R253, R257). -/
def Dev.recovered (d : Dev) (n : Nat) (h : FrameHead) (p : FwdPlan) : Dev :=
  match p.stream with
  | none => d.release n h p true
  | some s =>
    match d.recover s p.strm p.data with
    | (.pass, d) => d.release n h p true
    | (.eliminate, d) => d.release n h { p with ports := [] } true
    | (.rogue, d) => (d.puntLater n p.frerRing 9 s p.data).release n h { p with ports := [] } true
    | (.untagged, d) => (d.puntLater n p.frerRing 10 s p.data).release n h { p with ports := [] } true

/-- METER_LENGTH_CORRECTION (06 R218): of a frame charged at its head, the difference, at the buckets and with the len_adj of the charge; of a
held one, the whole decision. -/
def Dev.meterEnd (d : Dev) (n len : Nat) (x : RxFrame) : Dev :=
  match x.meter, x.charged with
  | some m, some (b, mode, adj) =>
    let y := (d.meter m).credit d.now
    let actual := chargeOf adj len
    (d.meterM m fun _ => y.takeAs mode x.color (((actual : Nat) : Int) - ((b : Nat) : Int))).count (cMeter m (2 * x.color + 1)) actual
  | some m, none =>
    let (color, b, d) := d.meterFrame m len x.preYellow
    (d.count (cMeter m (2 * color + 1)) b).rxM n fun y => { y with color, charged := some (b, (d.meter m).mode, (d.meter m).lenAdj) }
  | none, _ => d

/-- The end of a bad one, or of one cut off (03 R95, R96, 07 R261, 08 R293): copies not started are discarded, those on the line end stomped,
and mirror copies are marked. A frame already counted as a discard is not counted again. -/
def Dev.rxBad (d : Dev) (n : Nat) : Dev :=
  let x := AMap.getD d.fwd.rx n {}
  let d := if x.cut || (x.color == 2 && x.plan.isNone) then d else d.count (cDev 264) 1
  let d := d.each (x.frame.toList ++ x.mframe.toList) fun f d => d.frameM f fun fr => { fr with complete := true, bad := true }
  let d := match x.frame with | some f => d.purgeFrame f | none => d
  let d := match x.plan with | some p => (match p.frame with | some f => d.endWait f | none => d) | none => d
  d.each x.mirrors fun m d => d.writeMirror m x.head.sof true

/-- The end of a good frame: what waited is done, and the frame teaches its source (07 R242). -/
def Dev.rxGood (d : Dev) (n : Nat) (x0 : RxFrame) : Dev :=
  let x := AMap.getD d.fwd.rx n {}
  let d := match x0.plan with
    | some p =>
      let d := if x0.meter.isSome && x0.charged.isNone then
          let m := d.meter (x0.meter.getD 0)
          d.colored n x p x.color m.yellowMark m.yellowPcp true
        else d
      match (AMap.getD d.fwd.rx n {}).plan with
      | some p => d.recovered n x.head p
      | none => d
    | none => d
  let x := AMap.getD d.fwd.rx n {}
  -- a frame admitted only now may find no cell
  if x.cut then d.rxBad n
  else
    let d := d.each (x.frame.toList ++ x.mframe.toList) fun f d => d.frameM f fun fr => { fr with complete := true }
    let d := if x.color = 2 then d else match x.learn with | some fid => d.learnSource (macAt x.head.data 6) fid n x.head.sof | none => d
    let d := d.each x.mirrors fun m d => d.writeMirror m x.head.sof false
    (d.rxPunts n x).buddyDrain

/-- FRAME_RX_END (03 R96): counters, the verdict on the frame, and what waited for it. -/
def Dev.rxEnd (d : Dev) (r : FrameEnd) : Dev :=
  let n := r.port
  match AMap.find? d.fwd.rx n with
  | none => d
  | some x =>
    let len := x.head.data.length + 4
    let d := ((d.count (cPort n 5) 1).count (cPort n 6) len).count (cPort n 37) r.fecCorrected
    let d := d.count (cPort n 38) r.fecUncorrectable
    let d := match x.flow with | some i => d.count (cFlow i 1) len | none => d
    let d := d.meterEnd n len x
    let err : Option Nat :=
      if r.fcsBad || r.cutOff then some 9 else if r.codeErr || r.fecUncorrectable != 0 then some 10
      else if len < 64 then some 11 else if x.limit < len then some 12 else none
    let d := match err with
      | some k => (d.count (cPort n k) 1).rxBad n
      | none =>
        if x.cut then d.rxBad n else
        if d.prs.etherType x.head.data = 0x8808 then d.macControl n (d.prs.tagEnd x.head.data) x.head.sof x.head.data
        else d.rxGood n x
    d.fwdM fun w => { w with rx := AMap.erase w.rx n }

end Sys2Proof.Machine
end

