-- ==== Sys2Proof/Machine/FwdCommands.lean ====
section
/-! DEFINITION. The FWD commands (07 R269 to R282), and the rows that end a flush and a readout. -/

namespace Sys2Proof.Machine

/-! ### The FDB (07 R269 to R272) -/

/-- The entry that FWD.WRITE_FDB gives. -/
def fdbOf (d : Dev) (e : CmdEntry) : FdbEntry :=
  let group := e.b 16 62
  { mac := e.f 16 47 0, fid := e.f 16 59 48, static := e.b 16 61, group
    dest := if group then min 16383 (e.f 24 15 0) else d.clampLane (e.f 24 15 0)
    module := e.f 24 16 16, stream := e.f 24 28 17, streamEn := e.b 24 29 }

/-- Key of the commands that name an FDB entry. -/
def fdbKeyOf (e : CmdEntry) : Nat := fdbKey (e.f 16 47 0) (e.f 16 59 48)

/-- A flush has removed the key since bell B+1: the commit loses (13 R446). -/
def Dev.keyTaken (d : Dev) (e : CmdEntry) : Bool := d.fwd.flushedKeys.contains (fdbKeyOf e)

def applyWriteFdb (c : Cmd) (d : Dev) : Dev :=
  if d.keyTaken c.e then d.finish c stConflict 0
  else
    match d.fdbWrite (fdbOf d c.e) with
    | some d => okAfter c d
    | none => (d.fdbFull (c.e.f 16 47 0) (c.e.f 16 59 48)).finish c stFailed 0

def fwdWriteFdb : CmdSpec where
  op := 0x0A01
  kind := fun _ => .commit
  pairWide := true
  claims := fun _ e => [claim1 itFdbKey (fdbKeyOf e)]
  apply := applyWriteFdb
  abort := abortPlain

def applyDeleteFdb (c : Cmd) (d : Dev) : Dev :=
  if d.keyTaken c.e then d.finish c stConflict 0
  else
    match d.fdbFind (c.e.f 16 47 0) (c.e.f 16 59 48) with
    | some (loc, _) => (d.fwdM fun w => { w with fdb := AMap.erase w.fdb loc }).finish c stOk 1
    | none => d.finish c stOk 0

def fwdDeleteFdb : CmdSpec where
  op := 0x0A02
  kind := fun _ => .commit
  pairWide := true
  claims := fun _ e => [claim1 itFdbKey (fdbKeyOf e)]
  apply := applyDeleteFdb
  abort := abortPlain

/-- An entry that FWD.FLUSH_FDB removes. -/
def Dev.flushTakes (d : Dev) (e : CmdEntry) (x : FdbEntry) : Bool :=
  (e.b 16 16 || d.namesPort (d.portField e) x) && (e.b 16 17 || !x.static) && (e.b 20 16 || x.fid == e.f 20 11 0)

/-- Entries that the scan of FWD.FLUSH_FDB can have examined: at most a bucket of 4 for each core-clock cycle (07 R271). -/
def Dev.flushPace (d : Dev) (c : Cmd) : Nat := 4 * coreCycles c.since d.now

/-- The scan goes on to a position: matching entries on the way are removed (07 R271). -/
def Dev.flushTo (d : Dev) (c : Cmd) (pos : Nat) : Dev :=
  let hit := fun (x : Nat × FdbEntry) => decide (c.pos ≤ x.1) && decide (x.1 < pos) && d.flushTakes c.e x.2
  let gone := d.fwd.fdb.filter hit
  let d := d.fwdM fun w => { w with fdb := w.fdb.filter fun x => !hit x }
  let d := d.each gone fun x d => d.fdbTell 2 x.2.mac x.2.fid x.2.dest x.2.taught
  d.cmdM c fun c => { c with pos, tally := c.tally + gone.length }

def fwdFlushFdb : CmdSpec where
  op := 0x0A03
  kind := fun _ => .long
  check := fun d e => if e.b 16 16 then none else d.needsPort e
  accept := fun c d => d.cmdM c fun c => { c with total := 1048576 }
  abort := fun c d => some (d.finish c stAborted c.tally)

/-- The 16 bytes of an FDB entry (07 R239). -/
def FdbEntry.bytes (x : FdbEntry) (valid : Bool) : List Byte :=
  packRec 16 [(0, 0, 48, x.mac), (0, 48, 12, x.fid), (0, 60, 1, b2n valid), (0, 61, 1, b2n x.static), (0, 62, 1, b2n x.group),
    (8, 0, 16, x.dest), (8, 16, 1, x.module), (8, 17, 12, x.stream), (8, 29, 1, b2n x.streamEn), (8, 30, 4, x.age), (8, 34, 1, b2n x.hit),
    (8, 35, 1, b2n x.learned)]

def fwdReadFdb : CmdSpec where
  op := 0x0A04
  journal := false
  writes := true
  check := fun _ e => e.needsAddr
  accept := fun c d =>
    let mac := c.e.f 16 47 0
    let fid := c.e.f 16 59 48
    d.readOut c c.e.addr (match d.fdbFind mac fid with | some (_, x) => x.bytes true | none => ({ mac, fid } : FdbEntry).bytes false) 0

/-! ### VLANs, ports, maps, groups, streams (07 R273 to R277) -/

def fwdSetVlan : CmdSpec where
  op := 0x0A05
  kind := fun _ => .commit
  pairWide := true
  claims := fun _ e => [claim1 itVlan (e.f 16 11 0)]
  apply := fun c d => okAfter c (d.fwdM fun w => { w with
    vlans := AMap.set w.vlans (c.e.f 16 11 0) { fid := c.e.f 20 11 0, learn := c.e.b 20 16, flood := c.e.f 24 13 0 } })
  abort := abortPlain

/-- A named session whose direction does not fit (07 R259). -/
def Dev.wrongSession (d : Dev) (e : CmdEntry) : Bool :=
  (e.b 24 6 && (d.mirror (e.f 24 5 0)).dir) || (e.b 24 14 && !(d.mirror (e.f 24 13 8)).dir)

def applyFwdPort (c : Cmd) (d : Dev) : Dev :=
  let e := c.e
  if d.wrongSession e then d.finish c stRejected (rejField 24 0)
  else
    let x : FwdPort := { pvid := clamp 1 4094 (e.f 20 11 0), learn := e.b 20 12, trust := e.f 20 14 13, mapSet := e.f 20 18 15, defClass := e.f 20 22 19, ingSession := e.f 24 5 0, ingEn := e.b 24 6, egrSession := e.f 24 13 8, egrEn := e.b 24 14 }
    okAfter c (d.fwdM fun w => { w with ports := AMap.set w.ports (d.portField e) x })

def fwdSetPort : CmdSpec where
  op := 0x0A06
  kind := fun _ => .commit
  check := fun d e => firstOf [d.needsPort e, failsIf (e.f 20 14 13 == 3) (rejField 20 13)]
  admits := fun d e => failsIf (d.wrongSession e) (rejField 24 0)
  claims := fun d e => [claim1 itFwdPort (d.portField e)]
  apply := applyFwdPort
  abort := abortPlain

def fwdSetClassMap : CmdSpec where
  op := 0x0A07
  kind := fun _ => .commit
  claims := fun _ e => [claim1 itClassMap (e.f 16 3 0)]
  apply := fun c d => okAfter c (d.fwdM fun w => { w with
    maps := AMap.set w.maps (c.e.f 16 3 0) ({ pcpDei := c.e.f 20 63 0, dscp := c.e.f 32 255 0 } : ClassMap) })
  abort := abortPlain

def fwdSetGroup : CmdSpec where
  op := 0x0A08
  kind := fun _ => .commit
  reads := true
  check := fun _ e => e.needsAddr
  claims := fun _ e => [claim1 itGroup (e.f 16 13 0)]
  apply := fun c d => okAfter c (d.fwdM fun w => { w with
    groups := AMap.set w.groups (c.e.f 16 13 0) ({ mask := natLE (c.e.mem.take 128), buddy := c.e.b 16 16 } : Group) })
  abort := abortPlain

def applySetStream (c : Cmd) (d : Dev) : Dev :=
  let e := c.e
  let m1 := clamp 2 64 (e.f 20 14 8) - 1
  okAfter c (d.streamM (e.f 16 11 0) fun x => { x with
    rcvEn := e.b 20 0, genEn := e.b 20 1, strip := e.b 20 2, takeNoSeq := e.b 20 3, takeAny := x.takeAny || e.b 20 4
    histM1 := m1, hist := if m1 = x.histM1 then x.hist else 0, resetMs := max 1 (e.f 24 15 0) })

def fwdSetStream : CmdSpec where
  op := 0x0A09
  kind := fun _ => .commit
  claims := fun _ e => [claim1 itStream (e.f 16 11 0)]
  apply := applySetStream
  abort := abortPlain

/-! ### Mirrors and the recorder (07 R278 to R282) -/

/-- Some port names a session. -/
def Dev.sessionNamed (d : Dev) (s : Nat) : Bool :=
  d.fwd.ports.any fun p => (p.2.ingEn && p.2.ingSession == s) || (p.2.egrEn && p.2.egrSession == s)

/-- A change of direction of a named session (07 R259). -/
def Dev.turnsSession (d : Dev) (e : CmdEntry) : Bool :=
  d.sessionNamed (e.f 16 5 0) && (d.mirror (e.f 16 5 0)).dir != e.b 16 9

def applySetMirror (c : Cmd) (d : Dev) : Dev :=
  let e := c.e
  let kind := e.f 16 11 10
  let t := e.f 20 9 0
  if d.turnsSession e then d.finish c stNotPermitted 0
  else okAfter c (d.mirrorM (e.f 16 5 0) fun x => { x with
    en := e.b 16 8, dir := e.b 16 9, kind
    target := if kind = 0 then d.clampLane t else if kind = 1 then min 63 t else min 7 t
    cls := min 11 (e.f 20 19 16), trunc := if e.f 24 13 0 = 0 then 0 else clamp 64 9216 (e.f 24 13 0)
    sample := max 1 (e.f 24 31 16), seen := 0, quota := max 1 (e.f 28 15 0) })

def fwdSetMirror : CmdSpec where
  op := 0x0A0A
  kind := fun _ => .commit
  check := fun d e => firstOf [failsIf (e.f 16 11 10 == 3) (rejField 16 10),
    failsIf (e.f 16 11 10 == 0 && !d.portExists (d.clampLane (e.f 20 9 0))) (rejField 20 0)]
  permit := fun d e => failsIf (d.turnsSession e) 0
  claims := fun _ e => [claim1 itMirror (e.f 16 5 0)]
  apply := applySetMirror
  abort := abortPlain

def regionOf (e : CmdEntry) : Nat := e.f 16 2 0
def pagesOf (e : CmdEntry) : Nat := clamp 16 67108864 (e.f 20 26 0)

/-- Far-store pages can be reserved (08 R287). -/
def Dev.farAvailable (d : Dev) (n : Nat) : Bool := decide (d.buf.farStop + 65536 + n ≤ d.farFree)

/-- The pages of an enabled region would change. -/
def Dev.resizes (d : Dev) (e : CmdEntry) : Bool :=
  e.b 16 8 && (d.region (regionOf e)).state != .off && (d.region (regionOf e)).pages != pagesOf e

def applySetRecorder (c : Cmd) (d : Dev) : Dev :=
  let e := c.e
  let r := regionOf e
  let st := (d.region r).state
  let post := min (pagesOf e - 1) (e.f 24 26 0)
  let mask := e.f 28 5 0 &&& 0x3E
  if d.resizes e || d.buf.voq || (e.b 16 8 && !d.drc.ready) then d.finish c stNotPermitted 0
  else if e.b 16 8 then
    if st = .off then
      if d.farAvailable (pagesOf e) then
        okAfter c ((d.bufM fun b => { b with farReserved := b.farReserved + pagesOf e }).regionM r fun _ =>
          { state := .recording, pages := pagesOf e, postPages := post, trigMask := mask })
      else d.finish c stFailed 0
    else okAfter c (d.regionM r fun x => { x with postPages := post, trigMask := mask })
  else if st = .off then okAfter c d
  else if st = .reading then
    (d.regionM r fun x => { x with disableWait := x.disableWait ++ [(e.ring, e.tag)] }).cmdM c fun c => { c with stage := .waiting }
  else okAfter c (d.disableRegion r)

def fwdSetRecorder : CmdSpec where
  op := 0x0A0B
  kind := fun _ => .commit
  permit := fun d e => failsIf (d.buf.voq || d.resizes e) 0
  claims := fun _ e => [claim1 itRegion (regionOf e)]
  apply := applySetRecorder
  abort := fun c d => match c.stage with | .waiting => none | _ => abortPlain c d

def acceptFreeze (c : Cmd) (d : Dev) : Dev :=
  let r := regionOf c.e
  let d := d.triggerRegion r 0
  if (d.region r).state = .frozen then okAfter c d
  else d.regionM r fun x => { x with freezeWait := x.freezeWait ++ [(c.e.ring, c.e.tag)] }

def fwdFreezeRecorder : CmdSpec where
  op := 0x0A0C
  kind := fun _ => .waiting
  permit := fun d e => failsIf ((d.region (regionOf e)).state == .off || (d.region (regionOf e)).state == .reading) 0
  accept := acceptFreeze

def acceptRearm (c : Cmd) (d : Dev) : Dev :=
  let r := regionOf c.e
  match (d.region r).state with
  | .recording => okAfter c d
  | .frozen => okAfter c (d.rearmRegion r)
  | _ => d.regionM r fun x => { x with rearmWait := x.rearmWait ++ [(c.e.ring, c.e.tag)] }

def fwdRearmRecorder : CmdSpec where
  op := 0x0A0D
  kind := fun _ => .waiting
  permit := fun d e => failsIf ((d.region (regionOf e)).state == .off) 0
  accept := acceptRearm

/-- The first page of a readout and how many pages it takes, out of those of the region (07 R267, R282). -/
def readFirst (x : Region) (e : CmdEntry) : Nat := min (x.pages - 1) (e.f 20 31 0)
def readCount (x : Region) (e : CmdEntry) : Nat := clamp 1 (x.pages - readFirst x e) (e.f 24 31 0)
def readAddr (e : CmdEntry) : Nat := e.f 32 63 0 / 4096 * 4096

/-- Page k of a readout, from the oldest. What a page that the region has not written holds is free. -/
def Region.pageOf (x : Region) (r : Nat) (e : CmdEntry) (k : Nat) : List Byte :=
  let oldest := if x.pageSeq ≤ x.pages then 0 else x.pageSeq
  let i := (oldest + readFirst x e + k) % max 1 x.pages
  match AMap.find? x.store i with
  | some p => p
  | none => (List.range 4096).map fun b => Config.staleByte r i b % 256

/-- The readout goes on to a position: pages on the way are written (07 R267). -/
def Dev.readPagesTo (d : Dev) (c : Cmd) (pos : Nat) : Dev :=
  let x := d.region (regionOf c.e)
  let d := d.each ((List.range c.total).filter fun k => decide (c.pos ≤ k) && decide (k < pos)) fun k d =>
    (d.pageNow (d.regionPage (regionOf c.e) (readFirst x c.e + k)) 6 false 0 64).emit (.data (readAddr c.e + k * 4096) (x.pageOf (regionOf c.e) c.e k))
  d.cmdM c fun c => { c with pos }

/-- The region returns to FROZEN from a readout. -/
def Dev.readEnded (d : Dev) (r : Nat) : Dev :=
  ((d.regionM r fun x => { x with reader := none }).toFrozen r).afterFrozen r

def acceptReadRecorder (c : Cmd) (d : Dev) : Dev :=
  let r := regionOf c.e
  let n := readCount (d.region r) c.e
  ((d.cmdM c fun c => { c with total := n }).drcM fun x => { x with dmaRows := [] }).regionM r fun x => { x with state := .reading, reader := some (c.e.ring, c.e.tag) }

def fwdReadRecorder : CmdSpec where
  op := 0x0A0E
  kind := fun _ => .long
  journal := false
  writes := true
  check := fun _ e => failsIf (readAddr e == 0) (rejField 32 0)
  permit := fun d e => failsIf ((d.region (regionOf e)).state != .frozen) 0
  accept := acceptReadRecorder
  abort := fun c d => some ((d.finish c stAborted c.tally).readEnded (regionOf c.e))

def fwdSpecs : List CmdSpec :=
  [fwdWriteFdb, fwdDeleteFdb, fwdFlushFdb, fwdReadFdb, fwdSetVlan, fwdSetPort, fwdSetClassMap, fwdSetGroup, fwdSetStream, fwdSetMirror,
    fwdSetRecorder, fwdFreezeRecorder, fwdRearmRecorder, fwdReadRecorder]

end Sys2Proof.Machine
end

