-- ==== Sys2Proof/Machine/Ptp.lean ====
section
/-! DEFINITION. The hardware message engines of network time (02 R49, R55, R56, R59, R63): the PTP messages that they form, and those that
they take. -/

namespace Sys2Proof.Machine

/-! ### Messages formed (02 R56, R59) -/

/-- messageType of a kind (02 R57). -/
def PtpKind.code : PtpKind → Nat
  | .sync => 0 | .delayReq => 1 | .pdelayReq => 2 | .pdelayResp => 3 | .followUp => 8 | .delayResp => 9 | .pdelayRespFollowUp => 10

/-- controlField of a kind. -/
def PtpKind.control : PtpKind → Nat
  | .sync => 0 | .delayReq => 1 | .followUp => 2 | .delayResp => 3 | _ => 5

/-- Messages whose body has ten bytes after its timestamp. -/
def PtpKind.long : PtpKind → Bool
  | .delayResp | .pdelayReq | .pdelayResp | .pdelayRespFollowUp => true
  | _ => false

/-- Peer delay messages. -/
def PtpKind.peer : PtpKind → Bool
  | .pdelayReq | .pdelayResp | .pdelayRespFollowUp => true
  | _ => false

/-- A timestamp of a message: device time truncated to ns, 6 bytes of seconds and 4 of nanoseconds. -/
def originStamp (q : Nat) : List Byte := bytesBE 6 (q / 4000000000) ++ bytesBE 4 (q % 4000000000 / 4)

/-- The frame of a PTP message from its destination address to before the FCS. -/
def ptpBytes (dst sa sdo domain clockId portNum : Nat) (log : Int) (m : PtpMsg) (two : Bool) (ts : Nat) (corr : Int) : List Byte :=
  bytesBE 6 dst ++ bytesBE 6 sa ++ [0x88, 0xF7, sdo * 16 + m.kind.code, 0x12] ++ bytesBE 2 (if m.kind.long then 54 else 44) ++
    [domain, 0, if two then 2 else 0, 0] ++ bytesBE 8 (twos 64 corr) ++ bytesBE 4 0 ++ bytesBE 8 clockId ++ bytesBE 2 portNum ++
    bytesBE 2 m.seq ++ [m.kind.control, twos 8 log] ++ originStamp ts ++
    (if m.kind = .pdelayReq then bytesBE 10 0 else if m.kind.long then bytesBE 8 m.reqClock ++ bytesBE 2 m.reqPort else [0, 0])

/-- Destination address of the messages of a profile (02 R48, R75). -/
def Dev.ptpDest (d : Dev) (k : PtpKind) : Nat :=
  if d.tim.profile = 2 ∨ (d.tim.profile = 0 ∧ k.peer = true) ∨ (d.tim.profile = 1 ∧ d.tim.nonfwd = true) then 0x0180C200000E else 0x011B19000000

/-- logMessageInterval of a message on a port. -/
def TimPort.logOf (p : TimPort) : PtpKind → Int
  | .sync => p.logSync | .followUp => p.logSync | .delayResp => p.logDelayReq | _ => 127

/-- The frame of a message on a port: clockIdentity from TIM_CLOCK_ID, portNumber one more than the port (02 R56). -/
def Dev.ptpFrame (d : Dev) (n : Nat) (m : PtpMsg) (two : Bool) (ts : Nat) (corr : Int) : List Byte :=
  ptpBytes (d.ptpDest m.kind) (d.port n).sa (if d.tim.profile = 2 then 1 else 0) d.tim.domain (d.tim.clockHi * 2 ^ 32 + d.tim.clockLo) (n + 1)
    ((d.timPort n).logOf m.kind) m two ts corr

/-- The frame of a message whose departure time is now (02 R58, R59): the fields that depend on it are written. -/
def Dev.ptpSent (d : Dev) (n : Nat) (m : PtpMsg) : List Byte :=
  let t := d.txTime n d.now
  let two := (d.timPort n).twoStep
  match m.kind with
  | .sync => if two then d.ptpFrame n m true 0 0 else d.ptpFrame n m false t (q16 ((t % 4 : Nat) : Int))
  | .delayReq => d.ptpFrame n m false t 0
  | .pdelayReq => d.ptpFrame n m false t 0
  | .pdelayResp => if two then d.ptpFrame n m true 0 0 else d.ptpFrame n m false 0 (m.corr + q16 ((t : Int) - (m.ts : Int)))
  | .delayResp => d.ptpFrame n m false m.ts (m.corr - q16 ((m.ts % 4 : Nat) : Int))
  | _ => d.ptpFrame n m false m.ts m.corr

/-- Class of network control: 15, or 7 in VOQ mode (08 R314, 09 R326, R340). -/
def Dev.controlClass (d : Dev) : Nat := if d.buf.voq then 7 else 15

/-- Queue a PTP message in class 15 of its port (09 R326), with its egress mirror copy (07 R260). It occupies one cell and is charged to no
point. -/
def Dev.queuePtp (d : Dev) (n : Nat) (m : PtpMsg) : Dev :=
  let data := d.ptpFrame n m false 0 0
  let (f, d) := d.store { cells := 1, source := .own, data, ingress := n, refs := 1, holds := 1, ptp := some m }
  d.queueCopy n d.controlClass f d.bel.seq data false (d.egrOf n) none

/-! ### Messages received -/

/-- Punt a PTP message to the host (02 R49). -/
def Dev.puntPtp (d : Dev) (n ref : Nat) (data : List Byte) : Dev :=
  (d.count (cPort n 4) 1).deliverRx d.tim.puntRing
    { time := d.rxTime n ref, frameLen := data.length + 4, port := n, reason := 7, module := d.module } data

/-! ### Intervals (02 R56) -/

/-- 2^log seconds in device time. -/
def logInterval (log : Int) : Nat := if 0 ≤ log then qPerS * 2 ^ log.toNat else qPerS / 2 ^ (-log).toNat

/-- An interval that last expired at an instant expires again; none has when the instant is 0. -/
def Dev.intervalEnds (d : Dev) (last : Nat) (log : Int) : Dev := if last = 0 then d else d.reach (last + logInterval log)

end Sys2Proof.Machine
end

