-- ==== Sys2Proof/Machine/Egress.lean ====
section
/-! DEFINITION. Frames that leave (02 R58 to R62, 03 R95, R98 to R100, 09 R322 to R331): selection, one-step insertion, and the end of a
frame on its line. -/

namespace Sys2Proof.Machine

/-! ### One-step insertion (02 R58 to R60) -/

/-- Sum of 16-bit words in one's complement. -/
def onesAdd (a b : Nat) : Nat := let s := a + b; s % 65536 + s / 65536

/-- Sixteen-bit words of bytes, from an even place of their checksum. -/
def words16 : List Byte → List Nat
  | [] => []
  | [a] => [a * 256]
  | a :: b :: r => (a * 256 + b) :: words16 r

/-- The UDP checksum repaired for bytes that changed, at an even distance from it (02 R60). -/
def repairSum (sum : Nat) (v4 : Bool) (old new : List Byte) : Nat :=
  if v4 && sum == 0 then 0
  else
    let s := 65535 - sum
    let s := (words16 old).foldl (fun s w => onesAdd s (65535 - w)) s
    let s := (words16 new).foldl onesAdd s
    let c := 65535 - s
    if c = 0 then 65535 else c

/-- Write bytes into a frame and repair its UDP checksum. -/
def patchFrame (data : List Byte) (off : Nat) (bs : List Byte) (csum : Option Nat) (v4 : Bool) : List Byte :=
  let old := subBytes data off bs.length
  let out := setBytes data off bs
  match csum with
  | some c => setBytes out c (bytesBE 2 (repairSum (be16 data c) v4 old bs))
  | none => out

/-- A correctionField with an amount in 2^-16 ns added, as 8 bytes. -/
def addCorr (data : List Byte) (off : Nat) (x : Int) : List Byte :=
  bytesBE 8 (twos 64 (signed 64 (natBE (subBytes data (off + 8) 8)) + x))

/-- The bytes of a frame whose departure time is now (02 R59): as originated by this device where the descriptor asks for it, and
corrected in transit at a port of role 0. None where nothing is rewritten. -/
def Dev.oneStep (d : Dev) (n : Nat) (fr : Frame) (data : List Byte) : Option (List Byte) :=
  match d.prs.ptpAt data with
  | none => none
  | some (o, csum) =>
    let v4 := d.prs.etherType data == 0x0800
    let t := byteAt data o % 16
    let tx := d.txTime n d.now
    if fr.tx.isSome || fr.fate.isSome then
      if !fr.onestep then none
      else if t = 0 ∨ t = 1 ∨ t = 2 then
        let data := patchFrame data (o + 34) (originStamp tx) csum v4
        some (if t = 0 then patchFrame data (o + 8) (addCorr data o (q16 ((tx % 4 : Nat) : Int))) csum v4 else data)
      else if t = 3 then
        -- t3 - t2, t2 as the host wrote it in the message (02 R62)
        let t2 := natBE (subBytes data (o + 34) 6) * 4000000000 + natBE (subBytes data (o + 40) 4) * 4
        some (patchFrame data (o + 8) (addCorr data o (q16 ((tx : Int) - (t2 : Int)))) csum v4)
      else none
    else if d.tim.tcEn && (d.timPort n).role == 0 && decide (fr.point < 1024) && (d.timPort fr.ingress).role == 0 && ptpEvent t then
      let residence := q16 ((tx : Int) - ((d.rxTime fr.ingress fr.sof : Nat) : Int))
      let more := if d.tim.tcP2p && t == 0 then (d.meanD fr.ingress).getD 0 + q16 (d.timPort fr.ingress).asym else 0
      some (patchFrame data (o + 8) (addCorr data o (residence + more)) csum v4)
    else none

/-- The picked frame enters the last transmit stage: its departure time is fixed, and what depends on it is written (02 R58). -/
def Dev.launch (d : Dev) (n : Nat) (p : Pick) : Dev :=
  let d := d.startFrame n p
  let f := p.copy.frame
  if p.isMirror then d
  else
    let fr := d.frameAt f
    let d := d.frameM f fun x => { x with txTime := d.txTime n d.now, twoStep := (d.timPort n).twoStep }
    let sends := fun (d : Dev) (data : List Byte) =>
      d.schPortM n fun x => { x with line := x.line.map fun l => { l with copy := { l.copy with data := some data } } }
    match fr.ptp with
    | some m => sends d (d.ptpSent n m)
    | none =>
      match d.oneStep n fr (d.copyData p.copy) with
      | some data => sends (d.count (cPort n 2) 1) data
      | none => d

/-! ### Selection (09 R322 to R331) -/

/-- The port selects its next frame: a flow-control frame alone if one is due, else by the ranks; a transmitter in LPI starts to wake (03 R99). -/
def Dev.selectNext (d : Dev) (n : Nat) : Dev :=
  let st := (d.port n).state
  if (st != .up && st != .draining) || (d.schPort n).line.isSome then d
  else
    let d := d.reach (d.schPort n).lineEnd
    let d := d.when (d.port n).flowDue fun d => d.flowAtBoundary n
    if d.now < (d.schPort n).lineEnd then d
    else
      let d := d.countHolds n
      match d.choose n with
      | some p => if (d.port n).lpiTx then d.startWake n else d.launch n p
      | none => d

/-! ### The end of a frame (07 R249) -/

/-- A PTP message that the device formed has left at its departure time t (02 R56, R59): what a two-step port sends after it is queued, and
a request's time is kept for its answer. -/
def Dev.ptpLeft (d : Dev) (n t : Nat) (two : Bool) (m : PtpMsg) : Dev :=
  let d := d.when (ptpEvent m.kind.code) fun d => d.count (cPort n 1) 1
  match m.kind with
  | .sync =>
    if two then d.queuePtp n { kind := .followUp, seq := m.seq, ts := t / 4 * 4, corr := q16 ((t % 4 : Nat) : Int) } else d.count (cPort n 2) 1
  | .delayReq => (d.timPortM n fun p => { p with delayReq := some (m.seq, t) }).count (cPort n 2) 1
  | .pdelayReq => (d.timPortM n fun p => { p with pdelayReq := some (m.seq, t) }).count (cPort n 2) 1
  | .pdelayResp =>
    if two then d.queuePtp n { m with kind := .pdelayRespFollowUp, ts := t, corr := m.corr + q16 ((t : Int) - (m.ts : Int)) } else d.count (cPort n 2) 1
  | _ => d

/-- The copy on a line has left (07 R249): counters, the frame, and what it held. -/
def Dev.txDone (d : Dev) (n : Nat) (l : OnLine) : Dev :=
  let c := l.copy
  let fr := d.frameAt c.frame
  let len := c.len
  let data := d.copyData c
  let d := ((d.count (cPort n 7) 1).count (cPort n 8) len).when fr.bad fun d => d.count (cPort n 13) 1
  let d := (d.emit (.frame n data fr.bad)).feedClient n data fr.bad
  let d := match (if c.mirror.isNone then fr.ptp else none) with
    | some m => d.ptpLeft n fr.txTime fr.twoStep m
    | none => d.when (match d.prs.ptpAt data with | some (o, _) => c.mirror.isNone && ptpEvent (byteAt data o % 16) | none => false) fun d => d.count (cPort n 1) 1
  let d := d.schPortM n fun x => { x with line := none }
  let d := d.portM n fun p => { p with idleSince := d.now }
  match c.mirror with
  | some t => (d.count (cPort n 54) 1).dropMirror c t
  | none => ((d.count (cQueue (qIx n l.cls) 7) 1).count (cQueue (qIx n l.cls) 8) (d.counted n len)).dropCopy c true

end Sys2Proof.Machine
end

