-- ==== Sys2Proof/Machine/ZubenRx.lean ====
section
/-! DEFINITION. Reception on Zuben lanes (04 R122 to R153): frames, alignment, handshake, pointers, traces, and what reaches
the slot plane (05 R169 to R172, R181, R182). -/

namespace Sys2Proof

/-! ### Codes over bytes -/

/-- One step of the overhead CRC-16: x^16 + x^12 + x^5 + 1, not reflected (04 R126). -/
def crc16Bit (c : Nat) : Nat := if 0x8000 ≤ c then Nat.xor (c * 2 % 65536) 0x1021 else c * 2
def crc16Byte (c b : Nat) : Nat :=
  let x := Nat.xor c (b * 256)
  crc16Bit (crc16Bit (crc16Bit (crc16Bit (crc16Bit (crc16Bit (crc16Bit (crc16Bit x)))))))
def crc16 (l : List Byte) : Nat := l.foldl crc16Byte 0xFFFF

/-- One step of the trace CRC-7: x^7 + x^3 + 1, most significant bit first, from 0 (04 R147). -/
def crc7Bit (c : Nat) : Nat := if 128 ≤ c * 2 then Nat.xor (c * 2 % 128) 0x09 else c * 2
def crc7Step (c bitIn : Nat) : Nat :=
  let top := Nat.xor (c / 64) bitIn
  Nat.xor (c * 2 % 128) (if top = 1 then 0x09 else 0)
def crc7Byte (c b : Nat) : Nat := [7, 6, 5, 4, 3, 2, 1, 0].foldl (fun c i => crc7Step c (b / 2 ^ i % 2)) c
def crc7 (l : List Byte) : Nat := l.foldl crc7Byte 0

/-- The 16 bytes of a trace with its 15 characters (04 R147). -/
def traceBytes (chars : List Byte) : List Byte :=
  let c := Config.padTo 15 (chars.map (· % 128))
  (128 + crc7 (128 :: c)) :: c

/-- A complete cycle is valid (04 R147). -/
def traceValid (t : List Byte) : Bool := t.length == 16 && t == traceBytes (t.drop 1)

/-! ### Frames (04 R122 to R129) -/

/-- Blocks and device time: 0.64 ns a block. -/
def blockTime (n : Nat) : Nat := n * 256 / 100
/-- One frame of 20,484 blocks, in 0.25 ns, rounded up. -/
def frameTime : Nat := 52440

/-- Octets of a block, in the order in which they are sent (04 R123). -/
def blockOctets (b : Block) : List Byte := bytesLE 8 b.content

/-- The alignment word, most significant byte in octet 0 (04 R123). -/
def alignBlock : Block := { hdr := 1, content := natLE [0x5A, 0x3C, 0x96, 0xE1, 0x0F, 0xD2, 0x47, 0xB8] }

/-- The four overhead blocks with their 24 overhead octets (04 R123). -/
def overheadBlocks (oh : List Byte) : List Block :=
  [alignBlock, { hdr := 1, content := natLE (oh.take 8) }, { hdr := 1, content := natLE ((oh.drop 8).take 8) }, { hdr := 1, content := natLE ((oh.drop 16).take 8) }]

/-- Overhead octets OH0 to OH23: blocks 1 to 3. -/
def ZFrame.oh (z : ZFrame) : List Byte := (z.head.drop 1).flatMap blockOctets

/-- The alignment word matches and the four sync headers are 0b01 (04 R126, R142). -/
def ZFrame.wordOk (z : ZFrame) : Bool := z.head.length == 4 && z.head.head? == some alignBlock && z.head.all fun b => b.hdr == 1

def ZFrame.b (z : ZFrame) (i : Nat) : Nat := nth z.oh i 0 % 256
def ZFrame.w (z : ZFrame) (i : Nat) : Nat := z.b i * 256 + z.b (i + 1)
def ZFrame.crcOk (z : ZFrame) : Bool := crc16 ((List.range 22).map z.b) == z.w 22
/-- A good frame (04 R126). -/
def ZFrame.good (z : ZFrame) : Bool := z.wordOk && z.crcOk
def ZFrame.mfc (z : ZFrame) : Nat := z.b 0 % 32
def ZFrame.hs (z : ZFrame) : Nat := z.b 3 % 4
def ZFrame.active (z : ZFrame) : Bool := bit (z.b 3) 2
def ZFrame.rei (z : ZFrame) : Nat := min 8 (bits (z.b 3) 6 3)
def ZFrame.pageTag (z : ZFrame) : Nat := z.w 8
def ZFrame.bellTag (z : ZFrame) : Nat := z.w 6
/-- Frame block index of the marked bell, if the frame marks one validly. -/
def ZFrame.marked (z : ZFrame) : Option Nat := if bit (z.b 4) 7 ∧ z.w 4 % 32768 ≤ 20483 then some (z.w 4 % 32768) else none
def ZFrame.jc (z : ZFrame) (s : Nat) : Nat := z.b (14 + s / 4) / 2 ^ (6 - 2 * (s % 4)) % 4
def ZFrame.prdi (z : ZFrame) (s : Nat) : Bool := bit (z.b (19 + s / 8)) (7 - s % 8)

/-- Parity over octets of a block. -/
def octetParity (x : Nat) : Nat := xorBytes (bytesLE 8 x)
/-- Parity over the payload of a frame (04 R127). -/
def ZFrame.parity (z : ZFrame) : Nat := octetParity (z.payload.foldl (fun a b => Nat.xor a b.content) 0)

/-- Every twentieth block from the front: at most n of them. -/
def everyNth : Nat → List Block → List Block
  | 0, _ => []
  | _ + 1, [] => []
  | n + 1, b :: r => b :: everyNth n (r.drop 19)

/-- A stuff block, and a block of an unequipped seat (04 R129, 05 R170). -/
def stuffBlock : Block := { hdr := 1, content := 0 }
/-- An AIS block (04 R133). -/
def aisBlock : Block := { hdr := 1, content := 0xFFFFFFFFFFFFFFFF }

/-- The 1,024 positions of a slot, those not given filled with stuff blocks (04 R128). -/
def ZFrame.column (z : ZFrame) (s : Nat) : List Block :=
  let c := everyNth 1024 (z.payload.drop s)
  c ++ List.replicate (1024 - c.length) stuffBlock

/-- Frame block index of a slot's position (04 R128). -/
def blockIndex (s k : Nat) : Nat := 4 + 20 * k + s

/-- A position holds a container block under a JC code (04 R129). -/
def jcData (jc k : Nat) : Bool :=
  match jc with
  | 0 => decide (1 ≤ k) | 1 => true | 2 => decide (2 ≤ k) | _ => false

end Sys2Proof

namespace Sys2Proof.Machine

/-! ### Bells on the wire (04 R135, R136) -/

/-- Tag of a TAI instant on the bell grid. -/
def Dev.tagOf (d : Dev) (tai : Nat) : Nat := twos 16 (divFloor ((tai : Int) - (d.bel.epoch : Int)) (max 1 d.bel.period : Nat))

/-- Bells from the last one to the nearest bell with a tag: from -32,768 to 32,767. -/
def Dev.tagAhead (d : Dev) (tag : Nat) : Int := signed 16 (twos 16 ((tag : Int) - (d.tagOf d.bel.lastTai : Int)))

/-- TAI of the nearest bell with a tag. -/
def Dev.tagTai (d : Dev) (tag : Nat) : Nat := ((d.bel.lastTai : Int) + d.tagAhead tag * (d.bel.period : Int)).toNat

/-- Local instant of the nearest bell with a tag. -/
def Dev.tagInstant (d : Dev) (tag : Nat) : Int :=
  let k := d.tagAhead tag
  if k ≤ 0 then (d.bel.lastAt : Int) + k * (d.bel.period * 4 : Nat) else (d.bel.nextAt : Int) + (k - 1) * (d.bel.period * 4 : Nat)

/-- Bell skew of a frame that marks a bell (04 R136). -/
def Dev.checkSkew (d : Dev) (l : Nat) (z : ZFrame) (m : Nat) : Dev :=
  let skew := ((z.start + blockTime m : Nat) : Int) - d.tagInstant z.bellTag
  let err := skew - d.refDelayNs (d.lane l).port * 4
  let mag := err.natAbs
  let wide := decide (d.zbn.skewNs * 4 < mag)
  let first := wide && !(d.zlane l).skewOver
  let d := d.zlaneM l fun x => { x with skew, skewOver := wide, gridMismatch := decide (d.bel.period * 2 ≤ mag) }
  d.when first fun d => d.post 0x0706 [.index l, .value (twos 32 (divFloor skew 4))]

/-! ### Handshake (04 R137 to R139) -/

/-- A standby page is armed for the lane (05 R174). -/
def Dev.armed (d : Dev) (l : Nat) : Bool := match (d.ttbLane l).switch with | some w => w.armed | none => false

/-- Start of the next frame that a port sends: the first that can carry an answer. -/
def Dev.nextFrame (d : Dev) (n : Nat) : Nat := match (d.zport n).sentAt with | some t => max d.now (t + frameTime) | none => d.now

/-- A responder may agree to a bell (04 R138): the bell lies two frame times after the start of the frame that carries the ACK. -/
def Dev.mayAgree (d : Dev) (l tag : Nat) : Bool :=
  d.armed l && !(d.zlane l).gridMismatch &&
    (match d.bel.pend with | some p => decide (d.tagTai tag < p.tai) | none => true) &&
    decide (((d.nextFrame (d.lane l).port + 2 * frameTime : Nat) : Int) ≤ d.tagInstant tag)

/-- An answer received now comes at least one frame time before a bell (04 R137). -/
def Dev.inTime (d : Dev) (tag : Nat) : Bool := decide (((d.now + frameTime : Nat) : Int) ≤ d.tagInstant tag)

/-- The lane answers a request with NAK and stays in its state (04 R138); each request is reported as refused once. -/
def Dev.refuse (d : Dev) (l tag : Nat) : Dev :=
  let z := d.zlane l
  (d.zlaneM l fun z => { z with nakTag := tag, naksLeft := 3 }).when (!(z.naksLeft != 0 && z.nakTag == tag)) fun d => d.postHs l tag 3

/-- The lane agrees to a bell. -/
def Dev.agree (d : Dev) (l tag : Nat) (initiator : Bool) : Dev :=
  let tai := d.tagTai tag
  (d.zlaneM l fun z => { z with hs := .agreed, initiator, hsTag := tag, hsTai := tai, rxSwitch := some (tag, tai), switchSent := false }).postHs l tag 0

/-- Answer a REQ as responder in IDLE. -/
def Dev.respond (d : Dev) (l tag : Nat) : Dev :=
  if d.mayAgree l tag then d.agree l tag false
  else (d.zlaneM l fun z => { z with hs := .naking, nakTag := tag, naksLeft := 3 }).postHs l tag 3

/-- Tag a lies before tag b (04 R139). -/
def tagBefore (a b : Nat) : Bool := let x := (b + 65536 - a % 65536) % 65536; decide (1 ≤ x) && decide (x ≤ 32767)

/-- A received REQ (04 R138, R139). -/
def Dev.reqRx (d : Dev) (l tag : Nat) : Dev :=
  let z := d.zlane l
  match z.hs with
  | .idle => d.respond l tag
  | .requesting =>
    if !z.reqSent then d
    else if tag = z.hsTag then (if d.inTime tag then d.agree l tag true else d)
    else if tagBefore tag z.hsTag then
      let d := d.postHs l z.hsTag 2
      let d := d.ttbLaneM l fun t => { t with switch := t.switch.map fun w => { w with partnerTag := true, deadline := d.now + w.armMs * qPerMs } }
      (d.zlaneM l ZLane.hsIdle).respond l tag
    else d.refuse l tag
  | .agreed => if tag = z.hsTag then d else d.refuse l tag
  | .naking => d

/-- The handshake fields of a good frame. -/
def Dev.handshakeRx (d : Dev) (l : Nat) (z : ZFrame) : Dev :=
  let x := d.zlane l
  let mine := x.hs == .requesting && x.reqSent && z.pageTag == x.hsTag
  match z.hs with
  | 1 => d.reqRx l z.pageTag
  | 2 => if mine && d.inTime z.pageTag then d.agree l z.pageTag true else d
  | 3 => if mine then d.hsFail l 1 else d
  | _ => d

/-! ### Management channel (04 R153) -/

/-- One bit of the FCS of ISO/IEC 13239, least significant bit first. PRESUMED: the standard's polynomial and inversions. -/
def fcsBit (c : Nat) : Nat := if c % 2 = 1 then Nat.xor (c / 2) 0x8408 else c / 2
def fcsByte (c b : Nat) : Nat := fcsBit (fcsBit (fcsBit (fcsBit (fcsBit (fcsBit (fcsBit (fcsBit (Nat.xor c b))))))))
def fcs16 (l : List Byte) : Nat := Nat.xor (l.foldl fcsByte 0xFFFF) 0xFFFF

/-- A management byte of a good frame: a flag ends what came since the last one. -/
def ZLane.mgmtByteRx (z : ZLane) (b : Byte) : ZLane :=
  if b = 0x7E then (if z.mgmtRx.isEmpty then z else { z with mgmtRx := [], mgmtIn := z.mgmtIn ++ [z.mgmtRx] })
  else { z with mgmtRx := if z.mgmtRx.length < 1024 then z.mgmtRx ++ [b] else z.mgmtRx }

/-- Octets without their stuffing: an escape with nothing after it is no frame. -/
def unstuffed : List Byte → Option (List Byte)
  | [] => some []
  | [b] => if b = 0x7D then none else some [b]
  | b :: c :: r => if b = 0x7D then (unstuffed r).map (Nat.xor c 0x20 :: ·) else (unstuffed (c :: r)).map (b :: ·)

/-- Content of a received management frame: its FCS is good and it has at most 256 bytes. -/
def mgmtContent (raw : List Byte) : Option (List Byte) :=
  match unstuffed raw with
  | some l =>
    let content := l.take (l.length - 2)
    if 2 < l.length ∧ l.drop (l.length - 2) = bytesLE 2 (fcs16 content) ∧ content.length ≤ 256 then some content else none
  | none => none

/-! ### Runs of three good frames (04 R145) -/

/-- A condition that changes once three good frames in a row say so: the condition and its run. -/
def debounce (cur seen : Bool) (run : Nat) : Bool × Nat := if seen == cur then (cur, 0) else if 2 ≤ run then (seen, 0) else (cur, run + 1)

/-! ### Traces (04 R147) -/

/-- A complete cycle has been received. -/
def TraceRx.cycle (t : TraceRx) (c : List Byte) : TraceRx :=
  if traceValid c then
    let run := if c = t.last then t.run + 1 else 1
    { t with buf := [], last := c, run, accepted := if 3 ≤ run then c else t.accepted }
  else { t with buf := [], last := [], run := 0 }

/-- A byte of the section trace, at its place in the cycle. -/
def TraceRx.section (t : TraceRx) (pos b : Nat) : TraceRx :=
  let buf := if pos = 0 then [b] else if t.buf.length = pos then t.buf ++ [b] else []
  if buf.length = 16 then t.cycle buf else { t with buf }

/-- A byte of a path trace, which the byte with bit 7 set aligns. -/
def TraceRx.path (t : TraceRx) (b : Nat) : TraceRx :=
  let buf := if 128 ≤ b then [b] else if t.buf.isEmpty then [] else t.buf ++ [b]
  if buf.length = 16 then t.cycle buf else { t with buf }

/-! ### Multiframe alignment (04 R144) -/

/-- The multiframe state after a frame, and the frame's own MFC as the receiver takes it. -/
def ZLane.multiframe (z : ZLane) (good : Bool) (m : Nat) : ZLane :=
  let exp := (z.mfc + 1) % 32
  if z.mfIn then
    if !good then { z with mfc := exp }
    else if m = exp then { z with mfc := exp, mfMiss := 0 }
    else if 2 ≤ z.mfMiss then { z with mfIn := false, mfMiss := 0, mfc := m, mfLast := some m }
    else { z with mfc := exp, mfMiss := z.mfMiss + 1 }
  else if good then
    { z with mfc := m, mfLast := some m, mfIn := z.mfLast == some ((m + 31) % 32), mfMiss := 0 }
  else z

/-! ### Parity windows (04 R146) -/

def BipWindow.add (w : BipWindow) (errors : Nat) : BipWindow :=
  { w with frames := w.frames + 1, errors := w.errors + errors, raised := w.raised || decide (10 ≤ w.errors + errors) }

/-- Frames of a window: 1.25 times a power of ten. -/
def windowFrames (exp : Nat) : Nat := 125 * 10 ^ exp / 100

/-! ### Slots of one frame -/

/-- What a frame says of one slot: container blocks with their positions, packet blocks with theirs, and whether it came as a packet
slot. -/
structure SlotRx where
  packet : Bool := false
  jc : Nat := 0
  packets : List (Nat × Block) := []
  blocks : List (Nat × Block) := []
  deriving DecidableEq, Repr

/-- The container blocks of a slot in a frame (04 R129, R132, R140): was says that it was a packet slot before; sw gives the marked
block of a switch frame, and now what the slot is after it. -/
def slotRxOf (z : ZFrame) (s : Nat) (was : Bool) (sw : Option (Nat × Bool)) (good : Bool) : SlotRx :=
  let cells := (z.column s).zipIdx
  match sw with
  | some (m, after) =>
    { packet := after, jc := if after then 3 else 0
      packets := cells.filterMap fun c => if (if blockIndex s c.2 < m then was else after) then some (20 * c.2 + s, c.1) else none
      blocks := cells.filterMap fun c =>
        let ctn := if blockIndex s c.2 < m then !was else !after
        if decide (1 ≤ c.2) && ctn then some (c.2, c.1) else none }
  | none =>
    let jc := if good then z.jc s else if was then 3 else 0
    { packet := jc == 3, jc, packets := if jc = 3 then cells.map fun c => (20 * c.2 + s, c.1) else [], blocks := cells.filterMap fun c => if jcData jc c.2 then some (c.2, c.1) else none }

/-- A pointer report of a slot that arrives as a container (04 R132). -/
def Dev.pointerRx (d : Dev) (l s ptr : Nat) (ndf : Bool) : Dev :=
  let x := d.zslot l s
  if ndf then (d.zslotM l s fun x => { x with ptr, pending := none }).count (cSlot l s 5) 1
  else if ptr = x.ptr then d.zslotM l s fun x => { x with pending := none }
  else
    let d := d.count (cSlot l s 4) 1
    match x.pending with
    | none => d.zslotM l s fun x => { x with pending := some ptr }
    | some v => d.zslotM l s fun x => { x with ptr := if v = ptr then ptr else x.ptr, pending := none }

/-! ### Delivery to the slot plane (05 R169, R170, R181) -/

/-- Blocks kept of each copy of a protection index: what its cells hold (05 R180). -/
def Prot.ringMax (p : Prot) : Nat := (p.maxDiff + 64) * 80

/-- A list without its oldest elements beyond a limit. -/
def keepLast {α : Type} (n : Nat) (l : List α) : List α := l.drop (l.length - n)

/-- Blocks join a copy's ring, numbered on from those before them. -/
def numbered (from_ : Nat) (bs : List PBlock) : List PBlock := bs.zipIdx.map fun b => { b.1 with no := from_ + b.2 }

/-- Blocks missing between the last block of a ring and the first of those that arrive, at 1,023 blocks a frame: while its lane was out
of SYNC or its slot carried packets, a copy's blocks are invalid (05 R181). -/
def missing (l bs : List PBlock) : Nat :=
  match l.getLast?, bs.head? with
  | some a, some b => if b.seen < a.seen + 1000 then 0 else ((b.seen - a.seen) * 1023 + frameTime / 2) / frameTime - 1
  | _, _ => 0

/-- Invalid blocks that stand for those missing from the time of the last block on: at most n of them, the latest. -/
def fillers (n count from_ seen : Nat) : List PBlock :=
  (List.range n).map fun i => { no := from_ + (count - n) + i, block := aisBlock, seen := seen + (count - n + i + 1) * frameTime / 1023, valid := false }

/-- A copy's ring and the number of its next block after blocks have arrived. -/
def ringPush (max_ count : Nat) (ring bs : List PBlock) : List PBlock × Nat :=
  let gap := missing ring bs
  let seen := match ring.getLast? with | some b => b.seen | none => 0
  (keepLast max_ (ring ++ fillers (min gap max_) gap count seen ++ numbered (count + gap) bs), count + gap + bs.length)

def Prot.pushW (p : Prot) (bs : List PBlock) : Prot :=
  let r := ringPush p.ringMax p.countW p.ringW bs
  { p with ringW := r.1, countW := r.2 }
def Prot.pushP (p : Prot) (bs : List PBlock) : Prot :=
  let r := ringPush p.ringMax p.countP p.ringP bs
  { p with ringP := r.1, countP := r.2 }

/-- Blocks of a source slot that are kept for egress slots which have not taken them. -/
def lineMax : Nat := 4096

/-- An unprotected slot entry or a seat entry of a page takes its blocks from a source slot. -/
def Page.takes (p : Page) (key : Nat) : Bool :=
  (List.range 20).any fun s =>
    let e := p.slot s
    (entMode e == 1 && !entProtected e && entSource e == key) ||
      (entMode e == 2 && (List.range 32).any fun k => seatValid (p.seat s k) && seatSource (p.seat s k) == key)

/-- The container blocks of a source slot join its line, where an entry names it, and the protection rings. -/
def Dev.deliverSlot (d : Dev) (key : Nat) (bs : List PBlock) : Dev :=
  let taken := d.zubenLanes.any fun l => (d.ttbLane l).activePage.takes key || (d.ttbLane l).standbyPage.takes key
  let d := d.when taken fun d => d.ttbM fun t => { t with
    lines := AMap.upd t.lines key {} fun x => { next := x.next + bs.length, blocks := keepLast lineMax (x.blocks ++ numbered x.next bs) } }
  d.ttbM fun t => { t with prots := AMap.mapV t.prots fun _ p =>
    if p.wired then
      let p := if p.work = key then p.pushW bs else p
      if p.prot = key ∧ p.buddy = false then p.pushP bs else p
    else p }

/-- The parity of a frame showed an error: its blocks in the protection rings are invalid (05 R181). -/
def Dev.protSpoil (d : Dev) (l start : Nat) : Dev :=
  let spoil := fun (b : PBlock) => if start ≤ b.seen + frameTime ∧ b.seen < start then { b with valid := false } else b
  d.ttbM fun t => { t with prots := AMap.mapV t.prots fun _ p => { p with
    ringW := if p.work / 32 = l then p.ringW.map spoil else p.ringW
    ringP := if p.prot / 32 = l ∧ p.buddy = false then p.ringP.map spoil else p.ringP } }

/-! ### Alignment of the two copies (05 R182) -/

/-- Blocks n on from a list, if all are valid and so many are there. -/
def signature (l : List PBlock) : Option (List Block) :=
  let s := l.take 32
  if s.length = 32 ∧ s.all (fun b => b.valid) = true then some (s.map (·.block)) else none

/-- Offsets at which a signature stands in a ring within an arrival window, with the arrival of the block there. -/
def offsetsOf (sig : List Block) (no seen win : Nat) : List PBlock → List (Int × Nat)
  | [] => []
  | b :: r =>
    let here := decide (b.seen ≤ seen + win) && decide (seen ≤ b.seen + win) && (signature (b :: r) == some sig)
    if here then ((b.no : Int) - (no : Int), b.seen) :: offsetsOf sig no seen win r else offsetsOf sig no seen win r

/-- The alignment is lost, or begins again. -/
def Prot.acquire (p : Prot) (now : Nat) : Prot :=
  { p with align := .acquiring, acqSince := now, candidate := none, confirms := 0, differRun := 0, sigFrom := p.countW, sig := none, sigHits := []
           unalignedPosted := false }

/-- First working block from which a signature can be taken, and what follows it. -/
def findSig : List PBlock → Option (PBlock × List Block)
  | [] => none
  | b :: r => match signature (b :: r) with | some s => some (b, s) | none => findSig r

/-- A block on a slot, and 32 of them: a slot has one block in twenty of its lane. -/
def slotTime (n : Nat) : Nat := blockTime (20 * n + 4)

/-- A signature has been searched over its whole window: what its matches say (05 R182). -/
def Dev.sigDone (d : Dev) (i no seen : Nat) (hits : List (Int × Nat)) : Dev :=
  let p := d.prot i
  let d := d.protM i fun p => { p with sig := none, sigHits := [], sigFrom := no + 256 }
  match hits with
  | [(o, at_)] =>
    let confirms := if p.candidate = some o then p.confirms + 1 else 0
    if p.candidate = some o ∧ d.ttb.alignConfirm ≤ confirms then
      let diff := divFloor ((at_ : Int) - (seen : Int)) 4
      let d := d.protM i fun p => { p with
        align := .aligned, diff, candidate := some o, confirms := 0, differRun := 0, sigFrom := no
        playNext := if p.selected then ((p.playNext : Int) - o).toNat else p.playNext }
      d.post 0x0804 [.index i, .value (twos 32 diff)]
    else d.protM i fun p => { p with candidate := some o, confirms }
  | _ => d.count (cProt i 3) 1

/-- Take signatures and search the other copy for them (05 R182): as it holds it when the signature is taken, and as it arrives until
the window has passed; at most n steps. -/
def Dev.acquireStep : Nat → Nat → Dev → Dev
  | 0, _, d => d
  | n + 1, i, d =>
    let p := d.prot i
    if p.align ≠ .acquiring then d
    else
      match p.sig with
      | none =>
        match findSig (p.ringW.filter fun b => decide (p.sigFrom ≤ b.no)) with
        | none => d
        | some (b, sig) =>
          Dev.acquireStep n i (d.protM i fun p => { p with sig := some (b.no, b.seen, sig), sigHits := [], sigUpTo := 0 })
      | some (no, seen, sig) =>
        let win := (p.maxDiff + 4) * 4000
        let hits := p.sigHits ++ offsetsOf sig no seen win (p.ringP.filter fun b => decide (p.sigUpTo ≤ b.no))
        if seen + win + slotTime 32 ≤ d.now then Dev.acquireStep n i (d.sigDone i no seen hits)
        else d.protM i fun p => { p with sigHits := hits, sigUpTo := p.countP - 31 }

/-- Compare aligned pairs from a working block on: the run of differing valid pairs, and how many pairs were seen, until the
run reaches 8. -/
def comparePairs : List (PBlock × PBlock) → Nat → Nat → Nat × Nat
  | [], run, n => (run, n)
  | (a, b) :: r, run, n =>
    if 8 ≤ run then (run, n)
    else if a.valid && b.valid then comparePairs r (if a.block = b.block then 0 else run + 1) (n + 1)
    else comparePairs r run (n + 1)

/-- The alignment state of an index after blocks have arrived (05 R182). -/
def Dev.protAlign (d : Dev) (i : Nat) : Dev :=
  let p := d.prot i
  if !p.wired then d
  else
    match p.align with
    | .unaligned =>
      let ok := fun (l : List PBlock) => match l.getLast? with | some b => b.valid | none => false
      if !p.sfW && !p.sfP && ok p.ringW && ok p.ringP then d.protM i fun p => p.acquire d.now else d
    | .acquiring => Dev.acquireStep 16 i d
    | .aligned =>
      let o := p.candidate.getD 0
      let ws := p.ringW.filter fun b => decide (p.sigFrom ≤ b.no)
      let from_ : Int := match ws.head? with | some b => (b.no : Int) + o | none => 0
      let ps := p.ringP.filter fun b => decide (from_ ≤ (b.no : Int))
      let ready := match ps.head? with | some b => (b.no : Int) == from_ | none => false
      if !ready then d
      else
        let r := comparePairs (ws.zip ps) p.differRun 0
        if 8 ≤ r.1 then d.protM i fun p => { p.acquire d.now with playNext := if p.selected then ((p.playNext : Int) + o).toNat else p.playNext }
        else d.protM i fun p => { p with differRun := r.1, sigFrom := (match ws.head? with | some b => b.no | none => p.sigFrom) + r.2 }

def Dev.protAlignAll (d : Dev) : Dev := d.each (d.ttb.prots.map (·.1)) fun i d => d.protAlign i

/-! ### One received frame -/

/-- Marked block of the switch frame, and the mark's being received: in a good frame the one that marks the agreed bell, in a
bad one the local bell with the reference delay (04 R140). -/
def Dev.switchMark (d : Dev) (l : Nat) (z : ZFrame) : Option Nat :=
  match (d.zlane l).rxSwitch with
  | none => none
  | some (tag, _) =>
    if z.good then (if z.bellTag = tag then z.marked else none)
    else
      let at_ := d.tagInstant tag + d.refDelayNs (d.lane l).port * 4 - (z.start : Int)
      let m := divFloor (at_ * 100 + 128) 256
      if 0 ≤ m ∧ m ≤ 20483 then some m.toNat else none

/-- The page whose ingress side is in force after the switch (05 R175): the standby page until this end has switched. -/
def Dev.newPage (d : Dev) (l : Nat) : Page :=
  if (d.zlane l).hs = .agreed then (d.ttbLane l).standbyPage else (d.ttbLane l).activePage

/-- The overhead of one slot and its container blocks: pointers, justification, AIS, PRDI, and delivery. -/
def Dev.slotFrame (d : Dev) (l s : Nat) (z : ZFrame) (good : Bool) (sw : Option Nat) (valid : Bool) : Dev :=
  let was := (d.zslot l s).packet
  let after := if good then z.jc s == 3 else !entRx ((d.newPage l).slot s)
  let r := slotRxOf z s was (sw.map fun m => (m, after)) good
  let d := d.when (good && !r.packet && z.b 11 % 32 == s) fun d => d.pointerRx l s (bits (z.b 11) 7 6 * 256 + z.b 12) (bit (z.b 11) 5)
  let x := d.zslot l s
  let bs : List PBlock := r.blocks.zipIdx.map fun b =>
    { cont := (x.ptr + b.2) % 1024, block := b.1.2, seen := z.start + blockTime (blockIndex s b.1.1), valid := valid && b.1.2 != aisBlock }
  let n := r.blocks.length
  let allAis := n != 0 && r.blocks.all fun b => b.2 == aisBlock
  let a := if good then (if r.jc = 3 then (false, 0) else debounce x.ais allAis x.aisRun) else (x.ais, x.aisRun)
  let p := if good then debounce x.rdi (z.prdi s) x.rdiRun else (x.rdi, x.rdiRun)
  let d := d.zslotM l s fun x => { x with
    ptr := (x.ptr + n) % 1024, pending := x.pending.map fun v => (v + n) % 1024
    packet := r.packet, ais := a.1, aisRun := a.2, rdi := p.1, rdiRun := p.2 }
  let d := d.when (good && r.jc == 2) fun d => (d.count (cSlot l s 0) 1).zlaneM l fun y => { y with pm := { y.pm with slotPos := AMap.upd y.pm.slotPos s 0 (· + 1) } }
  let d := d.when (good && r.jc == 1) fun d => (d.count (cSlot l s 1) 1).zlaneM l fun y => { y with pm := { y.pm with slotNeg := AMap.upd y.pm.slotNeg s 0 (· + 1) } }
  let d := d.forwardSlot l s (r.blocks.map (·.2)) !valid
  let d := d.zlaneM l fun y => { y with packets := some (y.packets.getD [] ++ r.packets) }
  d.deliverSlot (slotKey l s) bs

/-- Two lists of numbered blocks in rising order become one; fuel is their length. -/
def mergeNos : Nat → List (Nat × Block) → List (Nat × Block) → List (Nat × Block)
  | 0, _, _ => []
  | _ + 1, [], b => b
  | _ + 1, a, [] => a
  | n + 1, x :: a, y :: b => if x.1 ≤ y.1 then x :: mergeNos n a (y :: b) else y :: mergeNos n (x :: a) b

/-- The packet positions of one slot after those of another. -/
def mergeAll (l : List (List (Nat × Block))) : List (Nat × Block) := l.foldl (fun a b => mergeNos (a.length + b.length) a b) []

/-- Lanes of a port that deliver frames. -/
def Dev.syncLanes (d : Dev) (n : Nat) : List Nat := (d.portLanes n).filter fun l => d.laneUp l && (d.zlane l).align == .sync

/-- The packet positions of a port's lanes, in order of payload block index and then of lane, leave for the MAC (04 R134). -/
def Dev.collectClient (d : Dev) (n : Nat) : Dev :=
  let ls := d.portLanes n
  let parts := ls.zipIdx.map fun x => ((d.zlane x.1).packets.getD []).map fun b => (b.1 * 8 + x.2, b.2)
  let all := (mergeAll parts).map (·.2)
  let d := d.each ls fun l d => d.zlaneM l fun z => { z with packets := none }
  d.when (!all.isEmpty) fun d => d.emit (.client n all)

/-- A lane begins a frame: what its port's lanes have of the frame before leaves first. -/
def Dev.clientBefore (d : Dev) (l : Nat) : Dev := d.when (d.zlane l).packets.isSome fun d => d.collectClient (d.lane l).port

/-- A lane has its frame: once all lanes of the port have theirs, the packet client's blocks leave. -/
def Dev.clientAfter (d : Dev) (l : Nat) : Dev :=
  let d := d.zlaneM l fun z => { z with packets := z.packets.map fun p => mergeAll ((List.range 20).map fun s => p.filter fun b => b.1 % 20 == s) }
  d.when ((d.syncLanes (d.lane l).port).all fun k => (d.zlane k).packets.isSome) fun d => d.collectClient (d.lane l).port

/-- Received ACTIVE against the lane's own (04 R141), the first frame after a switch frame not counted. -/
def Dev.pageCheck (d : Dev) (l : Nat) (z : ZFrame) : Dev :=
  let mm := z.active != (d.ttbLane l).active
  let d := d.zlaneM l fun x => { x with activeRx := z.active, pageMismatch := mm }
  d.when (!mm && (d.zlane l).pagePosted) fun d => (d.zlaneM l fun x => { x with pagePosted := false, pageBells := 0 }).post 0x0705 [.index l]

/-- Packet status of the received slots against the active page (05 R172). -/
def Dev.rxCheck (d : Dev) (l : Nat) : Dev :=
  let mm := (List.range 20).foldl (fun a s => a + (if (d.zslot l s).packet == entRx ((d.ttbLane l).activePage.slot s) then 2 ^ s else 0)) 0
  let d := d.ttbLaneM l fun t => { t with rxMismatch := mm }
  d.when (mm == 0 && (d.ttbLane l).mmPosted) fun d => (d.ttbLaneM l fun t => { t with mmPosted := false, mmBells := 0 }).post 0x0807 [.index l]

/-- The fields that a good frame alone gives (04 R136 to R141, R147). -/
def Dev.goodFrame (d : Dev) (l : Nat) (z : ZFrame) (isSwitch after : Bool) : Dev :=
  let x := d.zlane l
  let r := debounce x.rdi (bit (z.b 3) 7) x.rdiRun
  let d := d.count (cLane l 4) z.rei
  let d := d.zlaneM l fun x => { x with
    rdi := r.1, rdiRun := r.2, rxBip := z.b 2, rxTrace := x.rxTrace.section (x.mfc % 16) (z.b 1)
    pm := if z.rei = 0 then x.pm else { x.pm with feErrored := AMap.upd x.pm.feErrored (z.start / qPerS) 0 (· + 1) } }
  let d := d.zlaneM l fun x => x.mgmtByteRx (z.b 10)
  let s := z.b 11 % 32
  let d := d.when (decide (s < 20)) fun d => d.zslotM l s fun y => { y with rxTrace := y.rxTrace.path (z.b 13) }
  let d := match z.marked with | some m => d.checkSkew l z m | none => d
  let d := d.when (!after) fun d => d.pageCheck l z
  let d := d.when (!isSwitch && !after) fun d => d.rxCheck l
  d.handshakeRx l z

/-- Every slot of a frame. -/
def Dev.slotFrames (d : Dev) (l : Nat) (z : ZFrame) (good : Bool) (sw : Option Nat) : Dev :=
  ((d.clientBefore l).each (List.range 20) fun s d => d.slotFrame l s z good sw good).clientAfter l

/-- A frame received on a lane in SYNC. -/
def Dev.zubenFrame (d : Dev) (l : Nat) (z : ZFrame) : Dev :=
  let good := z.good
  let x := d.zlane l
  let sw := d.switchMark l z
  let after := x.afterSwitch
  -- BIP8 gives the parity of the frame before
  let e := if good then (match x.bip with | some b => popcount 8 (Nat.xor b (z.b 2)) | none => 0) else 8
  let checked := !good || x.bip.isSome
  let d := d.count (cLane l (if good then 1 else 2)) (if good || !z.crcOk then 1 else 0)
  let d := d.count (cLane l 3) e
  let d := d.zlaneM l fun x =>
    let x := x.multiframe good z.mfc
    { x with badRun := if good then 0 else x.badRun + 1, bip := some z.parity, rei := if checked then e else x.rei
             sd := if checked then x.sd.add e else x.sd, sf := if checked then x.sf.add e else x.sf
             pm := if e = 0 then x.pm else { x.pm with errored := AMap.upd x.pm.errored (z.start / qPerS) 0 (· + 1) } }
  let d := d.when (!good) fun d => d.count (cLane l 8) 1
  let d := d.when (good && e != 0) fun d => d.protSpoil l z.start
  let d := d.slotFrames l z good sw
  let d := d.zlaneM l fun x => { x with rxSwitch := if sw.isSome then none else x.rxSwitch, afterSwitch := sw.isSome }
  let d := d.when good fun d => d.goodFrame l z sw.isSome after
  (d.superviseLane l).protAlignAll

/-- A spare lane without a substitution receives a frame that matches a lane of its cluster: the same MFC and BIP8 as the lane's last frame. A
good frame whose MFC fits no lane shows that the bridge has gone (16 R518). -/
def Dev.bridgeSeen (d : Dev) (c : Nat) (z : ZFrame) : Dev :=
  let hit := (List.range 8).find? fun k =>
    let l := c * 8 + k
    d.isZuben l && (d.zlane l).align == .sync && (d.zlane l).mfc == z.mfc && (d.zlane l).rxBip == z.b 2
  match hit with
  | some k =>
    if z.good && !(d.cluster c).seen && !(d.sub.slots.any fun x => x.2.kind == 1 && x.2.spare == c && x.2.claimed) then
      ((d.clusterM c fun x => { x with seen := true }).post 0x1005 [.index (c * 8 + k)]).count (cCluster c 2) 1
    else d
  | none =>
    let near := (List.range 8).any fun k => d.isZuben (c * 8 + k) && ((d.zlane (c * 8 + k)).mfc == z.mfc || ((d.zlane (c * 8 + k)).mfc + 1) % 32 == z.mfc)
    d.when (z.good && !near && (d.cluster c).seen) fun d => d.clusterM c fun x => { x with seen := false }

/-- A slot substitutes a lane and stands at step 2: its spare lane is aligned, and frames are compared (16 R516). -/
def SubSlot.compares (x : SubSlot) : Bool := (x.kind == 1 || x.kind == 2) && x.claimed && x.step == 2

/-- One frame has come on both lanes: same MFC and BIP8 in a good frame of each, or not. -/
def SubSlot.judge (x : SubSlot) (same : Bool) : SubSlot := { x with matched := if same then min 3 (x.matched + 1) else 0, ahead := none }

/-- A frame of the spare lane: compared with the frame of the same MFC on the worn lane, or kept until that comes. -/
def Dev.spareFrame (d : Dev) (i : Nat) (z : ZFrame) : Dev :=
  let f := fun (x : SubSlot) =>
    let w := d.zlane x.wornIx
    if !(x.compares && x.spareIx == i) then x
    else if w.mfc = z.mfc then x.judge (z.good && w.badRun == 0 && w.rxBip == z.b 2)
    else if (w.mfc + 1) % 32 = z.mfc then { x with ahead := some (z.mfc, z.b 2, z.good) }
    else x.judge false
  d.subM fun s => { s with slots := AMap.mapV s.slots fun _ x => f x }

/-- A frame of the worn lane, for which a frame of the spare lane waits. -/
def Dev.wornFrame (d : Dev) (l : Nat) (z : ZFrame) : Dev :=
  let f := fun (x : SubSlot) =>
    match x.ahead with
    | some (m, b, good) => if x.compares && x.wornIx == l then x.judge (good && z.good && m == z.mfc && b == z.b 2) else x
    | none => x
  d.subM fun s => { s with slots := AMap.mapV s.slots fun _ x => f x }

/-- A frame on a buddy lane: alignment, CRC and BIP as on any lane; its slots carry no container (17 R528). -/
def Dev.buddyLaneFrame (d : Dev) (i : Nat) (z : ZFrame) : Dev :=
  let good := z.good
  let x := d.zlane i
  let e := if good then (match x.bip with | some b => popcount 8 (Nat.xor b (z.b 2)) | none => 0) else 8
  let checked := !good || x.bip.isSome
  let d := d.count (cBuddyLane (i - 1152) 0) (if !good && !z.crcOk then 1 else 0)
  let d := d.count (cBuddyLane (i - 1152) 1) e
  let d := d.zlaneM i fun x =>
    let x := x.multiframe good z.mfc
    { x with badRun := if good then 0 else x.badRun + 1, bip := some z.parity, rxBip := if good then z.b 2 else x.rxBip
             sd := if checked then x.sd.add e else x.sd, sf := if checked then x.sf.add e else x.sf }
  (d.spareFrame i z).wornFrame i z

/-! ### Alignment rows (04 R142, R143, R146) -/

/-- Key of the alignment that a lane index hunts for: the number it carries, or the spare lane itself. -/
def Dev.huntKey (d : Dev) (i : Nat) : Option Nat :=
  match d.carried i with
  | some l => if d.isZuben l then some l else none
  | none => if isBuddyIx i = true ∨ (1024 ≤ i ∧ (d.cluster (i - 1024)).spareState ≠ 0) then some i else none

/-- The lane is in SYNC with the frame z (04 R143, R144), whose payload is delivered: defects follow, and a spare lane reaches step 2 of
its substitution (16 R516). -/
def Dev.enterSync (d : Dev) (l : Nat) (z : ZFrame) (inSeq : Bool) : Dev :=
  let d := d.zlaneM l fun x => { x with
    align := .sync, candidates := [], badRun := 0, mfIn := inSeq, mfc := z.mfc, mfLast := some z.mfc, mfMiss := 0, bip := some z.parity }
  if 1024 ≤ l then d.subStep l 2 else (d.slotFrames l z true none).superviseLane l

/-- The block at which a candidate is checked next (04 R142). -/
def Candidate.next (c : Candidate) : Nat := c.block + 20484 * c.count

/-- The timetable block asks for REQUESTING (04 R137, 05 R174): a lane in NAKING begins when it is IDLE again. -/
def Dev.startRequest (d : Dev) (l : Nat) : Dev :=
  match (d.ttbLane l).switch with
  | some w =>
    d.when (w.armed && w.initiate && !w.partnerTag && (d.zlane l).hs == .idle) fun d =>
      d.zlaneM l fun z => { z.hsIdle with hs := .requesting, initiator := true, hsTai := w.target }
  | none => d

end Sys2Proof.Machine
end

