-- ==== Sys2Proof/Machine/ZubenTx.lean ====
section
/-! DEFINITION. Transmission on Zuben lanes (04 R124 to R140, R148, R153): the overhead of each frame when it begins, and its payload when it
has been sent: the container blocks that the slot plane gives it (05 R169, R170, R178, R179, R183) and the packet client's (04 R134). -/

namespace Sys2Proof.Machine

/-! ### Management channel (04 R153) -/

/-- Bytes of a management frame on the wire: flags, stuffed content and FCS. -/
def hdlcBytes (content : List Byte) : List Byte :=
  let raw := content ++ bytesLE 2 (fcs16 content)
  [0x7E] ++ raw.flatMap (fun b => if b = 0x7E ∨ b = 0x7D then [0x7D, Nat.xor b 0x20] else [b]) ++ [0x7E]

/-- The management byte of the next frame; flags fill the gaps. -/
def ZLane.mgmtByte (z : ZLane) : Byte :=
  match z.mgmt with
  | m :: _ => nth (hdlcBytes m.2.2.1) z.mgmtPos 0x7E
  | [] => 0x7E

/-! ### Bells in a frame (04 R135, R140) -/

/-- Block of a frame that starts now and carries a bell instant, if the bell falls in the frame. -/
def Dev.markOf (d : Dev) (inst : Int) : Option Nat :=
  let m := divFloor ((inst - (d.now : Int)) * 100 + 255) 256
  if m ≤ 0 ∧ inst + frameTime < (d.now : Int) then none
  else if m ≤ 20483 then some m.toNat else none

/-- The marked block of the switch bell, where this frame contains the agreed bell. -/
def Dev.switchIn (d : Dev) (l : Nat) : Option Nat :=
  let z := d.zlane l
  if z.hs = .agreed ∧ z.switchSent = false then d.markOf (d.tagInstant z.hsTag) else none

/-! ### Handshake fields (04 R137) -/

/-- The first bell at or after a TAI instant. -/
def Dev.bellFrom (d : Dev) (tai : Nat) : Nat :=
  let p := max 1 d.bel.period
  let k := divFloor ((tai : Int) - (d.bel.epoch : Int) + (p : Int) - 1) p
  ((d.bel.epoch : Int) + k * (p : Int)).toNat

/-- The first bell at or after a TAI instant that rings at or after an instant of device time: bells ring where BEL has placed them. -/
def Dev.bellAfter (d : Dev) (tai at_ : Nat) : Nat :=
  let p := max 1 d.bel.period
  -- bells from the last one on until one rings late enough
  let k := divFloor ((at_ : Int) - (d.bel.nextAt : Int) + (p * 4 : Nat) - 1) (p * 4 : Nat) + 1
  max (d.bellFrom tai) (((d.bel.lastTai : Int) + max 1 k * (p : Int)).toNat)

/-- The first frame of a request fixes T: at least 8 frame times after its start (04 R137). -/
def Dev.fixTarget (d : Dev) (l : Nat) : Dev :=
  let z := d.zlane l
  if z.hs = .requesting ∧ z.reqSent = false then
    let tai := d.bellAfter z.hsTai (d.now + 8 * frameTime)
    d.zlaneM l fun z => { z with hsTai := tai, hsTag := d.tagOf tai, reqSent := true }
  else d

/-- HS and PAGE_TAG as the frame carries them. -/
def ZLane.hsFields (z : ZLane) : Nat × Nat :=
  if z.naksLeft ≠ 0 then (3, z.nakTag)
  else match z.hs with
    | .requesting => (1, z.hsTag)
    | .agreed => (if z.initiator then 1 else 2, z.hsTag)
    | .idle => (0, 0)
    | .naking => (0, 0)

/-! ### What an egress slot takes (05 R169, R170, R183) -/

/-- Time from the receive reference point of a container block to where it may leave, 240 ns (05 R165). -/
def planeDelay : Nat := 960

/-- Offset of the protection copy's numbers against the working copy's, where aligned. -/
def Prot.offset (p : Prot) : Int := if p.align = .aligned then p.candidate.getD 0 else 0

/-- A block on its way to an egress slot: from when on it may leave, its number in its line or copy, and whether it comes from the copy not
preferred. -/
structure Ready where
  at_ : Nat := 0
  no : Nat := 0
  block : Block := {}
  other : Bool := false
  deriving DecidableEq, Repr

/-- When a block plays out whose two copies are known (05 R183): 28 us after the later copy, or, where that is invalid or does not come in
time, 28 us and the differential delay (in 0.25 ns) after the earlier. -/
def playAt (diff : Int) : Option PBlock → Option PBlock → Nat
  | some w, some p =>
    let e := if w.seen ≤ p.seen then w else p
    let l := if w.seen ≤ p.seen then p else w
    if l.valid ∧ l.seen ≤ e.seen + diff.natAbs + playDelay then l.seen + playDelay else e.seen + diff.natAbs + playDelay
  | some w, none => w.seen + diff.toNat + playDelay
  | none, some p => p.seen + (-diff).toNat + playDelay
  | none, none => 0

/-- The block that plays out, the preferred copy first (05 R183), and whether it came from the other; an invalid block is not sent. -/
def playBlock (pref other : Option PBlock) : Block × Bool :=
  match pref, other with
  | some a, some b => if a.valid then (a.block, false) else if b.valid then (b.block, true) else (aisBlock, false)
  | some a, none => (if a.valid then a.block else aisBlock, false)
  | none, some b => if b.valid then (b.block, true) else (aisBlock, false)
  | none, none => (aisBlock, false)

/-- The blocks of an aligned index from number k on, at most n of them: w and p are the copies' blocks from k on, those of p renumbered.
A number that neither copy has any more is an AIS block. -/
def playList (diff : Int) (sel : Bool) : Nat → Nat → List PBlock → List PBlock → List Ready
  | 0, _, _, _ => []
  | n + 1, k, ws, ps =>
    if ws.isEmpty ∧ ps.isEmpty then []
    else
      let w := match ws with | b :: _ => if b.no = k then some b else none | [] => none
      let p := match ps with | b :: _ => if b.no = k then some b else none | [] => none
      let x := if sel then playBlock p w else playBlock w p
      { at_ := playAt diff w p, no := k, block := x.1, other := x.2 } ::
        playList diff sel n (k + 1) (if w.isSome then ws.drop 1 else ws) (if p.isSome then ps.drop 1 else ps)

/-- Blocks of an index that wait to play out, in order (05 R183): in ALIGNED those of both copies, else those of the preferred copy alone. -/
def Prot.ready (p : Prot) : List Ready :=
  if p.align = .aligned then
    let o := p.offset
    let ps := (p.ringP.filter fun b => decide ((p.playNext : Int) + o ≤ (b.no : Int))).map fun b => { b with no := ((b.no : Int) - o).toNat }
    playList (p.diff * 4) p.selected 2048 p.playNext (p.ringW.filter fun b => decide (p.playNext ≤ b.no)) ps
  else
    ((if p.selected then p.ringP else p.ringW).filter fun b => decide (p.playNext ≤ b.no)).map fun b =>
      { at_ := b.seen + playDelay, no := b.no, block := b.block }

/-- Blocks are taken at the times of positions: at each one the next, if it may leave by then. -/
def takeTimed : List Ready → List Nat → List (Option Ready) × List Ready
  | q, [] => ([], q)
  | [], _ :: ts => let x := takeTimed [] ts; (none :: x.1, x.2)
  | b :: q, t :: ts =>
    if b.at_ ≤ t then let x := takeTimed q ts; (some b :: x.1, x.2) else let x := takeTimed (b :: q) ts; (none :: x.1, x.2)

def Dev.line (d : Dev) (key : Nat) : Line := AMap.getD d.ttb.lines key {}

/-- Where an egress slot begins to take from a line: with the block before the last that may leave at a time. -/
def Line.startAt (x : Line) (t : Nat) : Nat :=
  match (x.blocks.filter fun b => decide (b.seen + planeDelay ≤ t)).getLast? with
  | some b => b.no - 1
  | none => match x.blocks.head? with | some b => b.no | none => x.next

/-- Number of the block that a whole slot takes next. -/
def Dev.slotFrom (d : Dev) (l s src t : Nat) : Nat := (AMap.find? d.ttb.flows (slotKey l s)).getD ((d.line src).startAt t)

/-- Blocks that an unprotected whole slot may still take. -/
def Dev.slotReady (d : Dev) (src from_ : Nat) : List Ready :=
  ((d.line src).blocks.filter fun b => decide (from_ ≤ b.no)).map fun b => { at_ := b.seen + planeDelay, no := b.no, block := b.block }

/-- Blocks of a slot with an entry in mode 1 at the times of its data positions (05 R169, R183). A position at which none may leave carries
a block that the spec does not give. -/
def Dev.takeSlot (d : Dev) (l s e : Nat) (ts : List Nat) : List Block × Dev :=
  let t := nth ts 0 0
  let from_ := d.slotFrom l s (entSource e) t
  let q := if entProtected e then (d.prot (entIndex e)).ready else d.slotReady (entSource e) from_
  let x := takeTimed q ts
  let bs := x.1.zipIdx.map fun r => match r.1 with | some b => b.block | none => { hdr := 1, content := Config.idleBlock (d.free + r.2) % 2 ^ 64 }
  let d := { d with free := d.free + ts.length }
  let next := fun (now : Nat) => match x.2.head?, (x.1.filterMap id).getLast? with
    | some b, _ => b.no
    | none, some b => b.no + 1
    | none, none => now
  if entProtected e then
    (bs, (d.protM (entIndex e) fun p => { p with playNext := next p.playNext }).count (cProt (entIndex e) 1)
      (x.1.filter fun r => match r with | some b => b.other | none => false).length)
  else (bs, d.ttbM fun t => { t with flows := AMap.set t.flows (slotKey l s) (next from_) })

/-- One seat through its elastic store of 8 blocks at the times of its positions (05 R170): the blocks, the slips, and what is left of the
line. Blocks that have arrived since the position before join the store, and the oldest beyond 8 are deleted; an empty store gives an
unequipped block. -/
def seatRun : List PBlock → List Nat → List Block × Nat × List PBlock
  | q, [] => ([], 0, q)
  | q, t :: ts =>
    let past := (q.takeWhile fun b => decide (b.seen + planeDelay ≤ t)).length - 8
    match q.drop past with
    | b :: r =>
      if b.seen + planeDelay ≤ t then let x := seatRun r ts; (b.block :: x.1, past + x.2.1, x.2.2)
      else let x := seatRun (b :: r) ts; (stuffBlock :: x.1, past + 1 + x.2.1, x.2.2)
    | [] => let x := seatRun [] ts; (stuffBlock :: x.1, past + 1 + x.2.1, x.2.2)

/-- One seat of an egress slot at the times of its positions. -/
def Dev.takeSeat (d : Dev) (l s k x : Nat) (ts : List Nat) : List Block × Dev :=
  if !seatValid x then (ts.map fun _ => stuffBlock, d)
  else
    let key := slotKey l s * 32 + k
    let ln := d.line (seatSource x)
    let mine := ln.blocks.filter fun b => b.cont % 32 == seatSeat x
    let from_ := match AMap.find? d.ttb.seatFlows key with
      | some n => n
      | none => match (mine.filter fun b => decide (b.seen + planeDelay ≤ nth ts 0 0)).getLast? with | some b => b.no | none => 0
    let r := seatRun (mine.filter fun b => decide (from_ ≤ b.no)) ts
    let next := match r.2.2.head? with | some b => b.no | none => ln.next
    (if seatAis x then r.1.map fun _ => aisBlock else r.1,
      (d.ttbM fun t => { t with seatFlows := AMap.set t.seatFlows key next }).count (cLane l 12) r.2.1)

/-- Elements of lists in turn, one of each: at most n rounds. -/
def roundRobin {α : Type} : Nat → List (List α) → List α
  | 0, _ => []
  | n + 1, ls => ls.filterMap List.head? ++ roundRobin n (ls.map (List.drop 1))

/-- The seats of some of an egress slot's positions: ks, in the order in which the positions take them. -/
def Dev.takeSeats (d : Dev) (l s : Nat) (pg : Page) : List (Nat × List Nat) → List (List Block) × Dev
  | [] => ([], d)
  | (k, ts) :: r =>
    let x := d.takeSeat l s k (pg.seat s k) ts
    let y := Dev.takeSeats x.2 l s pg r
    (x.1 :: y.1, y.2)

/-- Times of the positions of each seat, from the seat of the container number no on (04 R130). -/
def seatTimes (no : Nat) (ts : List Nat) : List (Nat × List Nat) :=
  (List.range 32).map fun i => ((no + i) % 32, (ts.zipIdx.filter fun x => x.2 % 32 == i).map (·.1))

/-- Container blocks of a slot at the times of its data positions, numbered from no on, under the entries of a page whose force_ais bits say
where AIS goes (05 R178). -/
def Dev.takeBlocks (d : Dev) (l s : Nat) (pg : Page) (no : Nat) (ts : List Nat) : List Block × Dev :=
  let e := pg.slot s
  let x :=
    if ts.isEmpty then ([], d)
    else if entMode e = 2 then let y := d.takeSeats l s pg (seatTimes no ts); (roundRobin 33 y.1, y.2)
    else d.takeSlot l s e ts
  (if entAis e then x.1.map fun _ => aisBlock else x.1, x.2)

/-! ### Entries as a frame uses them (05 R178, R179) -/

/-- PRDI bits of a lane (05 R179). -/
def Dev.prdiFor (d : Dev) (l : Nat) : Nat :=
  if d.ttb.prdiEn then
    (List.range 20).foldl (fun a s => a + (if entRx ((d.ttbLane l).activePage.slot s) && d.copyFailed (slotKey l s) then 2 ^ s else 0)) 0
  else 0

/-- The entry sends AIS in its whole container (05 R178). -/
def Dev.entryAis (d : Dev) (e : Nat) : Bool :=
  entAis e || (entMode e == 1 &&
    (if entProtected e then (d.prot (entIndex e)).sfW && (d.prot (entIndex e)).sfP else d.copyFailed (entSource e)))

/-- The seat sends AIS (05 R178). -/
def Dev.seatSendsAis (d : Dev) (x : Nat) : Bool := seatValid x && (seatAis x || d.copyFailed (seatSource x))

/-- A page as a frame that starts now uses it: force_ais is set wherever the frame sends AIS (05 R178). -/
def Dev.framePage (d : Dev) (pg : Page) : Page :=
  { slots := AMap.mapV pg.slots fun _ e => if d.entryAis e && !entAis e then e + 16 else e
    seats := AMap.mapV pg.seats fun _ x => if d.seatSendsAis x && !seatAis x then x + 2 ^ 21 else x }

/-- The entry makes its slot a container (05 R168). -/
def isContainer (e : Nat) : Bool := entMode e == 1 || entMode e == 2

/-- A slot of a frame's page carries inserted AIS. -/
def Page.sendsAis (pg : Page) (s : Nat) : Bool :=
  isContainer (pg.slot s) && (entAis (pg.slot s) || (entMode (pg.slot s) == 2 && (List.range 32).any fun k => seatValid (pg.seat s k) && seatAis (pg.seat s k)))

/-- The container of an entry has another source than that of another entry (04 R140, 05 R171). -/
def sourceChanges (a b : Nat) : Bool :=
  !(entMode a == entMode b && (entMode a != 1 ||
    (entProtected a == entProtected b && entSource a == entSource b &&
      (!entProtected a || (entProt a == entProt b && entIndex a == entIndex b && entBuddy a == entBuddy b)))))

/-- Slots and seats of a lane whose sources differ between two pages forget where they stood: they begin at the next block they send. -/
def Dev.restartFlows (d : Dev) (l s : Nat) (old new : Page) : Dev :=
  let all := sourceChanges (old.slot s) (new.slot s)
  d.ttbM fun t => { t with
    flows := if all then AMap.erase t.flows (slotKey l s) else t.flows
    seatFlows := t.seatFlows.filter fun f =>
      !(f.1 / 32 == slotKey l s && (all || old.seat s (f.1 % 32) / 2 % 2 ^ 20 != new.seat s (f.1 % 32) / 2 % 2 ^ 20)) }

/-! ### What the overhead fixes of a frame's payload (04 R129, R130, R140) -/

/-- Blocks that wait for a slot at the start of a frame: its fill, from which JC is picked (04 R129). -/
def Dev.fillOf (d : Dev) (l s e : Nat) : Nat :=
  let q := if entProtected e then (d.prot (entIndex e)).ready else d.slotReady (entSource e) (d.slotFrom l s (entSource e) d.now)
  (q.filter fun b => decide (b.at_ ≤ d.now)).length

/-- Data positions of a slot from frame block a to frame block b, position 0 apart. -/
def positionsIn (s a b : Nat) : Nat :=
  ((List.range 1024).filter fun k => decide (1 ≤ k) && decide (a ≤ blockIndex s k) && decide (blockIndex s k < b)).length

/-- One slot of an ordinary frame (04 R129, R130): its JC code, and the number of its first container block. -/
def Dev.slotTx (d : Dev) (l s : Nat) : Nat × Nat × Dev :=
  let e := (d.ttbLane l).activePage.slot s
  if !isContainer e then (3, 0, d.zslotM l s fun x => { x with txPacket := true })
  else
    let jc := if entMode e = 2 then 0 else Config.justify (d.fillOf l s e) % 3
    let n := if jc = 0 then 1023 else if jc = 1 then 1024 else 1022
    -- a container that starts is numbered from 0, and its next report says so
    let d := d.when (d.zslot l s).txPacket fun d => d.zslotM l s fun x => { x with txPacket := false, txPtr := 0, ndf := true }
    let d := d.when (jc != 0) fun d => d.count (cSlot l s (if jc = 2 then 2 else 3)) 1
    let no := (d.zslot l s).txPtr
    (jc, no, d.zslotM l s fun x => { x with txPtr := (no + n) % 1024 })

/-- One slot of the switch frame, whose marked block is m (04 R140). -/
def Dev.slotSwitch (d : Dev) (l s m : Nat) : Nat × Nat × Dev :=
  let old := (d.ttbLane l).activePage.slot s
  let new := (d.ttbLane l).standbyPage.slot s
  let before := if isContainer old then positionsIn s 0 m else 0
  let after := if isContainer new then positionsIn s m 20484 else 0
  let changes := sourceChanges old new
  let no := (d.zslot l s).txPtr
  let start := if changes then 0 else no + before
  (if isContainer new then 0 else 3, no,
    d.zslotM l s fun x => { x with txPtr := (start + after) % 1024, txPacket := !isContainer new, ndf := x.ndf || changes && isContainer new })

/-- All slots of a frame, in order: their JC codes and first numbers. -/
def Dev.slotsTx (d : Dev) (l : Nat) (sw : Option Nat) : List Nat → List Nat × List Nat × Dev
  | [] => ([], [], d)
  | s :: r =>
    let x := match sw with | some m => d.slotSwitch l s m | none => d.slotTx l s
    let y := Dev.slotsTx x.2.2 l sw r
    (x.1 :: y.1, x.2.1 :: y.2.1, y.2.2)

/-! ### The payload (04 R128, R129, R134, R140) -/

/-- JC code that governs a slot's position: in a switch frame the usage of the old page up to the marked block, of the new from it on. -/
def TxPlan.jcAt (p : TxPlan) (s k : Nat) : Nat :=
  match p.mark with
  | none => nth p.jcs s 3
  | some m => if isContainer ((if blockIndex s k < m then p.old else p.new).slot s) then 0 else 3

/-- Transmit reference time of a slot's position. -/
def TxPlan.time (p : TxPlan) (s k : Nat) : Nat := p.start + blockTime (blockIndex s k)

/-- Container blocks of one slot of a frame that has been sent, in order. -/
def Dev.slotData (d : Dev) (l s : Nat) (p : TxPlan) : List Block × Dev :=
  let ks := (List.range 1024).filter fun k => jcData (p.jcAt s k) k
  let no := nth p.nos s 0
  match p.mark with
  | none => d.takeBlocks l s p.old no (ks.map (p.time s))
  | some m =>
    let a := ks.filter fun k => decide (blockIndex s k < m)
    let b := ks.filter fun k => decide (m ≤ blockIndex s k)
    let x := d.takeBlocks l s p.old no (a.map (p.time s))
    let start := if sourceChanges (p.old.slot s) (p.new.slot s) then 0 else no + a.length
    let y := (x.2.restartFlows l s p.old p.new).takeBlocks l s p.new start (b.map (p.time s))
    (x.1 ++ y.1, y.2)

/-- The positions of a slot from k on, n of them, with its container blocks in them: none stands for a packet position. -/
def fillColumn (jc : Nat → Nat) : Nat → Nat → List Block → List (Option Block)
  | 0, _, _ => []
  | n + 1, k, bs =>
    if jc k = 3 then none :: fillColumn jc n (k + 1) bs
    else if jcData (jc k) k then some (bs.headD stuffBlock) :: fillColumn jc n (k + 1) (bs.drop 1)
    else some stuffBlock :: fillColumn jc n (k + 1) bs

/-- The columns of a frame's slots. -/
def Dev.columns (d : Dev) (l : Nat) (p : TxPlan) : List Nat → List (List (Option Block)) × Dev
  | [] => ([], d)
  | s :: r =>
    let x := d.slotData l s p
    let y := Dev.columns x.2 l p r
    (fillColumn (p.jcAt s) 1024 0 x.1 :: y.1, y.2)

/-- The payload blocks of a frame that has been sent, in order of j, packet positions open. -/
def Dev.openPayload (d : Dev) (l : Nat) (p : TxPlan) : List (Option Block) × Dev :=
  let x := d.columns l p (List.range 20)
  (roundRobin 1024 x.1, x.2)

/-- One position of each lane, packet positions filled from the client's stream in ascending lane order, with idle blocks at its end. -/
def placeRow : List (Option Block) → List Block → List Block × List Block
  | [], st => ([], st)
  | some b :: r, st => let x := placeRow r st; (b :: x.1, x.2)
  | none :: r, [] => let x := placeRow r []; (pcsIdle :: x.1, x.2)
  | none :: r, c :: st => let x := placeRow r st; (c :: x.1, x.2)

/-- The payloads of lanes, position by position (04 R134): at most n positions, as rows of one block for each lane; and what is left of
the client's stream. -/
def placeRows : Nat → List (List (Option Block)) → List Block → List (List Block) × List Block
  | 0, _, st => ([], st)
  | n + 1, ls, st =>
    let x := placeRow (ls.filterMap List.head?) st
    let y := placeRows n (ls.map (List.drop 1)) x.2
    (x.1 :: y.1, y.2)

/-- Lanes with a frame under way: their payloads with packet positions open. -/
def Dev.openPayloads (d : Dev) : List Nat → List (Nat × List (Option Block)) × Dev
  | [] => ([], d)
  | l :: r =>
    match (d.zlane l).plan with
    | some p =>
      let x := d.openPayload l p
      let y := Dev.openPayloads x.2 r
      ((l, x.1) :: y.1, y.2)
    | none => Dev.openPayloads d r

/-- Lane indices on which a lane number's frames leave: its own, and the spare lane that bridges it (16 R516). -/
def Dev.txIndices (d : Dev) (l : Nat) : List Nat :=
  let c := l / 8
  (if (d.lane l).state != .off then [l] else []) ++
    (if (d.cluster c).spareState != 0 && (d.cluster c).replaces == l % 8 then [1024 + c] else [])

/-- Parity over payload blocks (04 R127). -/
def payloadParity (bs : List Block) : Nat := octetParity (bs.foldl (fun a b => Nat.xor a b.content) 0)

/-- The frames under way on a port's lanes have been sent: their payloads, and the parity of each. -/
def Dev.endFrames (d : Dev) (n : Nat) : List (Nat × Nat) × Dev :=
  let x := d.openPayloads (d.portLanes n)
  let y := placeRows 20480 (x.1.map (·.2)) (d.zport n).client
  let d := x.2.zportM n fun z => { z with client := y.2 }
  let sent := x.1.zipIdx.map fun p => (p.1.1, y.1.map fun row => nth row p.2 stuffBlock)
  (sent.map fun p => (p.1, payloadParity p.2),
    (d.each sent fun p d => d.each (d.txIndices p.1) fun i d => d.emit (.zubenPayload i p.2)).each (d.portLanes n) fun l d =>
      d.zlaneM l fun z => { z with plan := none })

/-! ### The overhead (04 R125) -/

/-- A trace that waits begins when its cycle does (04 R157). -/
def ZLane.traceStep (mfc : Nat) (z : ZLane) : ZLane :=
  if mfc % 16 = 0 then (match z.txNext with | some t => { z with txTrace := t, txNext := none } | none => z) else z
def ZSlot.traceStep (x : ZSlot) : ZSlot :=
  if x.txTracePos = 0 then (match x.txNext with | some t => { x with txTrace := t, txNext := none } | none => x) else x

/-- OH11 to OH13 of a frame: the report of the slot that its MFC names (04 R131). -/
def Dev.rotating (d : Dev) (l m : Nat) : List Byte :=
  if m < 20 then
    let x := (d.zslot l m).traceStep
    let ptr := if x.txPacket then 0 else x.txPtr
    [ptr / 256 * 64 + b2n (x.ndf && !x.txPacket) * 32 + m, ptr % 256, nth (traceBytes x.txTrace) x.txTracePos 0]
  else [31, 0, 0]

/-- The report has been sent. -/
def Dev.reported (d : Dev) (l m : Nat) : Dev :=
  if m < 20 then
    d.zslotM l m fun x =>
      let x := x.traceStep
      { x with ndf := x.ndf && x.txPacket, txTracePos := (x.txTracePos + 1) % 16 }
  else d

/-- Two-bit codes of four slots in one byte, the lowest slot first. -/
def jcByte (jcs : List Nat) (b : Nat) : Byte := nth jcs (4 * b) 3 * 64 + nth jcs (4 * b + 1) 3 * 16 + nth jcs (4 * b + 2) 3 * 4 + nth jcs (4 * b + 3) 3

/-- One bit for each of eight slots in a byte, the lowest slot first. -/
def maskByte (mask b : Nat) : Byte := (List.range 8).foldl (fun a i => a * 2 + b2n (bit mask (8 * b + i))) 0

/-- The 24 overhead octets: the CRC follows from the others. -/
def sealOverhead (oh : List Byte) : List Byte := oh ++ bytesBE 2 (crc16 oh)

/-- The last bell rang after the start of the previous block: the block that starts now is its marked block (04 R135). -/
def Dev.justRung (d : Dev) : Bool := 0 < d.bel.seq && divFloor (((d.bel.lastAt : Int) - (d.now : Int)) * 100 + 255) 256 == 0

/-- The bell that a frame marks: the agreed switch bell, else the first of the frame (04 R135). -/
def Dev.frameBell (d : Dev) (l : Nat) (sw : Option Nat) : Option (Nat × Nat) :=
  match sw with
  | some m => some (m, (d.zlane l).hsTag)
  | none =>
    if d.justRung then some (0, d.tagOf d.bel.lastTai)
    else (d.markOf d.bel.nextAt).map fun m => (m, d.tagOf (d.bel.lastTai + d.bel.period))

/-- The overhead octets of the frame of a lane that begins now, with the port's multiframe counter, the BIP8 and the slots' codes (04 R125). -/
def Dev.overheadOf (d : Dev) (l mfc bip : Nat) (sw : Option Nat) (rot : List Byte) (jcs : List Nat) (prdi : Nat) : List Byte :=
  let z := d.zlane l
  let hs := z.hsFields
  sealOverhead ([mfc, nth (traceBytes z.txTrace) (mfc % 16) 0, bip,
      b2n (d.laneDefects l % 8 != 0) * 128 + min 8 z.rei * 8 + b2n (d.ttbLane l).active * 4 + hs.1] ++
    (match d.frameBell l sw with | some (m, tag) => bytesBE 2 (32768 + m) ++ bytesBE 2 tag | none => [0, 0, 0, 0]) ++
    bytesBE 2 hs.2 ++ [z.mgmtByte] ++ rot ++ (List.range 5).map (jcByte jcs) ++ (List.range 3).map (maskByte prdi))

/-- The frame of a lane number begins: its overhead leaves, and fixes what its payload will be. -/
def Dev.beginFrame (d : Dev) (l mfc bip : Nat) : Dev :=
  let d := (d.fixTarget l).zlaneM l (ZLane.traceStep mfc)
  let sw := d.switchIn l
  let old := d.framePage (d.ttbLane l).activePage
  let new := d.framePage (d.ttbLane l).standbyPage
  let prdi := d.prdiFor l
  let rot := d.rotating l mfc
  let (jcs, nos, e) := (d.reported l mfc).slotsTx l sw (List.range 20)
  let blocks := overheadBlocks (e.overheadOf l mfc bip sw rot jcs prdi)
  let e := e.each (e.txIndices l) fun i e => e.emit (.zubenHead i blocks)
  let ais := (List.range 20).any fun s => old.sendsAis s || (sw.isSome && new.sendsAis s)
  let e := (e.when ais fun e => e.count (cLane l 14) 1).ttbLaneM l fun t => { t with prdiTx := prdi }
  e.zlaneM l fun x => { x with
    plan := some { start := d.now, mark := sw, old, new, jcs, nos }
    naksLeft := x.naksLeft - 1, switchSent := x.switchSent || sw.isSome
    mgmtPos := if x.mgmt.isEmpty then 0 else x.mgmtPos + 1
    mgmt := match x.mgmt with | m :: r => (m.1, m.2.1, m.2.2.1, true) :: r | [] => [] }

/-- The transmitter of a lane sends frames: it is on and in neither auto-negotiation nor training. DEDUCED: RDI answers LOS too
(04 R148), so frames leave while the receive side is not UP. -/
def Dev.laneSends (d : Dev) (l : Nat) : Bool :=
  match (d.lane (d.carrier l)).state with
  | .off => false | .an => false | .train => false | _ => true

/-- All lanes of a port begin their frames now, with the same MFC (04 R124); the frames before have been sent. The first frame of a lane
gives a parity of no frame, which the spec leaves open. -/
def Dev.zubenSend (d : Dev) (n : Nat) : Dev :=
  let x := d.endFrames n
  let mfc := (d.zport n).mfc
  let d := x.2.each ((d.portLanes n).filter d.laneSends) fun l e =>
    let bip := match x.1.find? fun p => p.1 == l with | some p => p.2 | none => Config.openValue e.free % 256
    { e.beginFrame l mfc bip with free := (e.beginFrame l mfc bip).free + 1 }
  d.zportM n fun z => { z with mfc := (mfc + 1) % 32, sentAt := some d.now }

end Sys2Proof.Machine
end

