-- ==== Sys2Proof/Machine/ZubenCommands.lean ====
section
/-! DEFINITION. Performance monitoring, FlexE and the ZBN commands (04 R150 to R162). -/

namespace Sys2Proof.Machine

/-! ### Performance monitoring (04 R150, R151) -/

/-- A count that saturates at 32 bits. -/
def sat32 (x : Nat) : Nat := satTo (2 ^ 32 - 1) x

/-- Seconds by which bins are shifted against TAI: UTC when it is valid (04 R151). -/
def Dev.pmShift (d : Dev) : Nat := if d.tim.utcValid then d.tim.utcOffset else 0

/-- Start, in seconds of TAI, of the bin of a length that holds a second. -/
def Dev.binStart (d : Dev) (len sec : Nat) : Nat :=
  let s := d.pmShift
  if sec < s then 0 else (sec - s) / len * len + s

/-- Seconds of a 15-minute and of a 24-hour bin. -/
def binLen (day : Bool) : Nat := if day then 86400 else 900

/-- Change the bin that covers a second: the current one, or the one that follows it while the current one still waits to
close. Starts are in seconds. -/
def Dev.inBin (d : Dev) (day : Bool) (sec : Nat) (f : PmBin → PmBin) (p : PmLane) : PmLane :=
  let len := binLen day
  let start := d.binStart len sec
  let cur := if day then p.cur24 else p.cur15
  let next := if day then p.next24 else p.next15
  let late := match p.joined with | some t => decide (start < t) | none => true
  let new : PmBin := { start, suspect := late || (if day then p.doubt24 else p.doubt15), valid := true }
  if !cur.valid then
    let b := f new
    if day then { p with cur24 := b, doubt24 := false } else { p with cur15 := b, doubt15 := false }
  else if cur.start < start then
    let b := f (next.getD new)
    if day then { p with next24 := some b, doubt24 := false } else { p with next15 := some b, doubt15 := false }
  else
    let b := f cur
    if day then { p with cur24 := b } else { p with cur15 := b }

/-- Change both bins that cover a second. -/
def Dev.inBins (d : Dev) (sec : Nat) (f : PmBin → PmBin) (p : PmLane) : PmLane := d.inBin true sec f (d.inBin false sec f p)

/-- One judged second joins a bin. -/
def PmBin.add (b : PmBin) (far unavailable : Bool) (s : PmSecond) : PmBin :=
  let bbe := if s.ses then 0 else s.errored
  match far, unavailable with
  | false, true => { b with seconds := sat32 (b.seconds + 1), uas := sat32 (b.uas + 1) }
  | false, false => { b with seconds := sat32 (b.seconds + 1), es := sat32 (b.es + b2n s.es), ses := sat32 (b.ses + b2n s.ses), bbe := sat32 (b.bbe + bbe) }
  | true, true => { b with feUas := sat32 (b.feUas + 1) }
  | true, false => { b with feEs := sat32 (b.feEs + b2n s.es), feSes := sat32 (b.feSes + b2n s.ses), feBbe := sat32 (b.feBbe + bbe) }

/-- A second is added to those that wait: which seconds are judged now, and how (04 R150). -/
def PmAvail.step (a : PmAvail) (s : PmSecond) : PmAvail × List (Bool × PmSecond) :=
  -- a change of availability begins with the first of ten seconds that speak for it
  if s.ses != a.unavailable then
    let run := a.waiting ++ [s]
    if run.length < 10 then ({ a with waiting := run }, [])
    else ({ waiting := [], unavailable := !a.unavailable }, run.map fun x => (!a.unavailable, x))
  else ({ a with waiting := [] }, (a.waiting ++ [s]).map fun x => (a.unavailable, x))

/-- Judged seconds join their bins. -/
def Dev.judge (d : Dev) (far : Bool) (l : List (Bool × PmSecond)) (p : PmLane) : PmLane :=
  l.foldl (fun p x => d.inBins x.2.at_ (fun b => b.add far x.1 x.2) p) p

/-- Counts of the slots of one second. -/
def PmBin.addSlots (b : PmBin) (saw pos neg : AMap Nat) : PmBin :=
  { b with slots := (List.range 20).foldl (fun m s =>
      let w := AMap.getD saw s 0
      let x := AMap.getD pos s 0
      let y := AMap.getD neg s 0
      if w = 0 ∧ x = 0 ∧ y = 0 then m
      else AMap.upd m s {} fun c => { c with
        pos := sat32 (c.pos + x), neg := sat32 (c.neg + y)
        aisS := sat32 (c.aisS + b2n (bit w 0)), rdiS := sat32 (c.rdiS + b2n (bit w 1)), timS := sat32 (c.timS + b2n (bit w 2)) }) b.slots }

/-- Errored frames whose block 0 arrived in a second or before it. -/
def erroredTo (l : AMap Nat) (sec : Nat) : Nat := sumBy (l.filter fun x => decide (x.1 ≤ sec)) (·.2)

/-- A second of device time ends on one lane (04 R150). -/
def Dev.pmSecondOf (d : Dev) (sec : Nat) (p : PmLane) : PmLane :=
  let errored := erroredTo p.errored sec
  let feErrored := erroredTo p.feErrored sec
  let near : PmSecond := { at_ := sec, es := errored != 0 || p.sawLoss, ses := decide (22884 ≤ errored) || p.sawLoss || p.sawSf, errored }
  let far : PmSecond := { at_ := sec, es := feErrored != 0 || p.sawRdi, ses := decide (22884 ≤ feErrored) || p.sawRdi, errored := feErrored }
  let n := p.near.step near
  let f := p.far.step far
  let p := d.judge true f.2 (d.judge false n.2 p)
  let p := d.inBins sec (fun b => b.addSlots p.sawSlot p.slotPos p.slotNeg) p
  let later := fun (l : AMap Nat) => l.filter fun x => decide (sec < x.1)
  { p with near := n.1, far := f.1, errored := later p.errored, feErrored := later p.feErrored, sawLoss := false, sawSf := false, sawRdi := false, sawSlot := [], slotPos := [], slotNeg := [] }

/-- A bin closes on one lane: its contents move on (04 R151). -/
def PmLane.close (p : PmLane) (day : Bool) : PmLane :=
  if day then { p with prev24 := p.cur24, cur24 := p.next24.getD {}, next24 := none }
  else { p with history := (p.prev15 :: p.history).take 16, prev15 := p.cur15, cur15 := p.next15.getD {}, next15 := none }

/-- The record of ZBN.READ_PM (04 R152). -/
def pmRecord (l sel : Nat) (b : PmBin) : List Byte :=
  packRec 64 [(0, 0, 64, b.start * qPerS), (8, 0, 10, l), (12, 0, 6, sel), (12, 8, 1, b2n b.suspect), (12, 9, 1, b2n b.valid), (16, 0, 32, b.seconds),
    (32, 0, 32, b.es), (36, 0, 32, b.ses), (40, 0, 32, b.uas), (44, 0, 32, b.bbe), (48, 0, 32, b.feEs), (52, 0, 32, b.feSes),
    (56, 0, 32, b.feBbe), (60, 0, 32, b.feUas)] ++
  (List.range 20).flatMap fun s =>
    let c := AMap.getD b.slots s {}
    packRec 20 [(0, 0, 32, c.pos), (4, 0, 32, c.neg), (8, 0, 32, c.aisS), (12, 0, 32, c.rdiS), (16, 0, 32, c.timS)]

/-- The bin that a selector names (04 R159). -/
def PmLane.bin (p : PmLane) (sel : Nat) : PmBin :=
  if sel = 0 then p.cur15 else if sel = 1 then p.prev15 else if sel = 32 then p.cur24 else if sel = 33 then p.prev24
  else nth p.history (sel - 2) {}

/-! ### Commands on lanes (04 R157 to R161) -/

/-- Lane that a ZBN or TTB command names (00 R3), and its rejection outside a Zuben port. -/
def Dev.laneField (d : Dev) (e : CmdEntry) : Nat := d.clampLane (e.f 16 9 0)
def Dev.needsZuben (d : Dev) (e : CmdEntry) : Option Nat := failsIf (!d.isZuben (d.laneField e)) (rejField 16 0)

/-- Characters of a trace field: bit 7 cleared. -/
def traceField (e : CmdEntry) (off : Nat) : List Byte := (e.bytes off 15).map (· % 128)

def acceptSetLane (c : Cmd) (d : Dev) : Dev :=
  let e := c.e
  let l := d.laneField e
  let d := d.zlaneM l fun z => { z with
    sdExp := clamp 5 9 (e.f 16 19 16), timSecEn := e.b 16 20, timPathEn := e.b 16 21
    txNext := if e.b 16 22 then some (traceField e 24) else z.txNext
    expTrace := if e.b 16 23 then traceField e 40 else z.expTrace }
  okAfter c (d.superviseLane l)

def zbnSetLane : CmdSpec where
  op := 0x0701
  check := fun d e => d.needsZuben e
  accept := acceptSetLane

def acceptSlotTrace (c : Cmd) (d : Dev) : Dev :=
  let e := c.e
  let l := d.laneField e
  let d := d.zslotM l (satTo 19 (e.f 16 20 16)) fun x => { x with
    txNext := if e.b 16 24 then some (traceField e 24) else x.txNext
    expTrace := if e.b 16 25 then traceField e 40 else x.expTrace }
  okAfter c (d.superviseLane l)

def zbnSetSlotTrace : CmdSpec where
  op := 0x0702
  check := fun d e => d.needsZuben e
  accept := acceptSlotTrace

/-- Selector of ZBN.READ_PM. -/
def pmSel (e : CmdEntry) : Nat := e.f 16 23 16

def zbnReadPm : CmdSpec where
  op := 0x0703
  user := true
  writes := true
  journal := false
  check := fun d e => firstOf [d.needsZuben e, failsIf (decide (17 < pmSel e) && pmSel e != 32 && pmSel e != 33) (rejField 18 0), e.needsAddr]
  accept := fun c d => d.readOut c c.e.addr (pmRecord (d.laneField c.e) (pmSel c.e) ((d.zlane (d.laneField c.e)).pm.bin (pmSel c.e))) 0

def zbnReadTrace : CmdSpec where
  op := 0x0704
  user := true
  writes := true
  journal := false
  check := fun d e => firstOf [d.needsZuben e, e.needsAddr]
  accept := fun c d =>
    let l := d.laneField c.e
    d.readOut c c.e.addr (Config.padTo 16 (d.zlane l).rxTrace.accepted ++
      (List.range 20).flatMap fun s => Config.padTo 16 (d.zslot l s).rxTrace.accepted) 0

def acceptSendMgmt (c : Cmd) (d : Dev) : Dev :=
  let l := d.laneField c.e
  if d.laneUp l then
    d.zlaneM l fun z => { z with mgmt := z.mgmt ++ [(c.e.ring, c.e.tag, c.e.bytes 24 (clamp 1 40 (c.e.f 16 23 16)), false)] }
  else d.finish c stFailed 0

/-- A frame may be withdrawn until its opening flag is sent (13 R454). -/
def abortSendMgmt (c : Cmd) (d : Dev) : Option Dev :=
  let l := d.laneField c.e
  let mine := fun (m : Nat × Nat × List Byte × Bool) => m.1 == c.e.ring && m.2.1 == c.e.tag
  if (d.zlane l).mgmt.any fun m => mine m && !m.2.2.2 then
    some ((d.zlaneM l fun z => { z with mgmt := z.mgmt.filter fun m => !mine m }).finish c stAborted 0)
  else none

def zbnSendMgmt : CmdSpec where
  op := 0x0705
  kind := fun _ => .waiting
  check := fun d e => d.needsZuben e
  permit := fun d e => failsIf (decide (16 ≤ (d.zlane (d.laneField e)).mgmt.length)) 0
  accept := acceptSendMgmt
  abort := abortSendMgmt

/-! ### FlexE (04 R154, R155, R162) -/

/-- Slot counts of the clients offered (04 R154). -/
def flexeCounts : List Nat := [2, 5, 8, 10, 15, 20]

/-- FlexE state with a standby calendar loaded. -/
def FlexE.load (f : FlexE) (slots : Nat) : FlexE := if f.calTx then { f with calA := slots } else { f with calB := slots }

/-- The load would overfill the port (01 R30, R31). -/
def Dev.flexeOverfills (d : Dev) (e : CmdEntry) : Bool :=
  let n := d.portField e
  let f := (d.flexe n).load (e.f 28 19 0)
  !d.portFits (d.belPort n) (min (calendarBps f.calA) (calendarBps f.calB) * 20484) d.bel.slew d.bel.guard

/-- FlexE overhead as it is sent (04 R154): the PHY map names the port's own PHY, and RPF tells the partner that this end does not
receive. -/
def Dev.sendFlexe (d : Dev) (n : Nat) : Dev :=
  let f := d.flexe n
  d.emit (.flexe n { rpf := (d.port n).state != .up || !f.ohLock, group := f.group, phy := f.phy, map := [f.phy], calA := f.calA, calB := f.calB
                     ccc := f.calTx, cr := f.crAt.isSome, ca := f.ackTx })

/-- A field of the overhead has changed: the frames from now on carry it. -/
def Dev.flexeTell (d : Dev) (n : Nat) (f : FlexE → FlexE) : Dev := (d.flexeM n f).sendFlexe n

def acceptSetFlexe (c : Cmd) (d : Dev) : Dev :=
  let e := c.e
  let n := d.portField e
  let d := d.flexeTell n fun f => { f.load (e.f 28 19 0) with
    group := clamp 1 0xFFFFE (e.f 20 19 0), phy := clamp 1 254 (e.f 24 7 0) }
  -- a second switch follows the one under way
  if e.b 16 16 then d.flexeM n fun f => { f with pend := f.pend ++ [(e.ring, e.tag, d.bel.seq + 2)] }
  else okAfter c d

/-- The first pending switch ends. -/
def FlexE.noSwitch (f : FlexE) : FlexE := { f with pend := f.pend.drop 1, crAt := none, acked := false }

def abortSetFlexe (c : Cmd) (d : Dev) : Option Dev :=
  let n := d.portField c.e
  let mine := fun (p : Nat × Nat × Nat) => p.1 == c.e.ring && p.2.1 == c.e.tag
  let f := d.flexe n
  if f.crAt.isSome ∧ (f.pend.head?.map mine) = some true then none
  else some ((d.flexeM n fun f => { f with pend := f.pend.filter fun p => !mine p }).finish c stAborted 0)

def zbnSetFlexe : CmdSpec where
  op := 0x0706
  kind := fun c => if c.e.b 16 16 then .waiting else .short
  check := fun d e => firstOf [failsIf ((d.port (d.portField e)).state == .absent || (d.port (d.portField e)).framing != 2) (rejField 16 0),
    failsIf (!flexeCounts.contains (popcount 20 (e.f 28 19 0))) (rejField 28 0)]
  admits := fun d e => failsIf (d.flexeOverfills e) (d.portField e + 0xF * 2 ^ 16)
  accept := acceptSetFlexe
  abort := abortSetFlexe

def zbnSpecs : List CmdSpec := [zbnSetLane, zbnSetSlotTrace, zbnReadPm, zbnReadTrace, zbnSendMgmt, zbnSetFlexe]

end Sys2Proof.Machine
end

