-- ==== Sys2Proof/Machine/Timetable.lean ====
section
/-! DEFINITION. The timetable (05): entries, pages and their switch, protection, the TTB commands and rows; and the capacity that
commits of one period plan (01 R31). -/

namespace Sys2Proof.Machine

/-! ### What commits plan (01 R30, R31) -/

/-- A slot entry as it is stored: fields clamped, protected only in mode 1 (05 R166). -/
def Dev.slotEntry (d : Dev) (e : CmdEntry) : Nat :=
  let x := e.f 24 63 0
  let lane := fun (hi lo : Nat) => fld (d.clampLane (bits x hi lo)) 10 lo
  fld (entMode x) 2 0 + fld (bits x 2 2) 1 2 + fld (b2n (entProtected x)) 1 3 + fld (bits x 4 4) 1 4 + lane 14 5 +
    fld (min 19 (bits x 19 15)) 5 15 + lane 29 20 + fld (min 19 (bits x 34 30)) 5 30 + fld (bits x 45 35) 11 35 + fld (bits x 46 46) 1 46

/-- A seat entry as it is stored (05 R167). -/
def Dev.seatEntry (d : Dev) (x : Nat) : Nat :=
  bits x 0 0 + fld (d.clampLane (bits x 10 1)) 10 1 + fld (min 19 (bits x 15 11)) 5 11 + fld (bits x 20 16) 5 16 + fld (bits x 21 21) 1 21

def slotField (e : CmdEntry) : Nat := min 19 (e.f 16 20 16)

/-- Standby page of a lane with the slot writes and copies of some commands (05 R173). -/
def Dev.plannedPage (d : Dev) (l : Nat) (cs : List Cmd) : Page :=
  cs.foldl (fun pg c =>
    if d.laneField c.e ≠ l then pg
    else if c.op = 0x0801 then { pg with slots := AMap.set pg.slots (slotField c.e) (d.slotEntry c.e) }
    else if c.op = 0x0804 then (d.ttbLane l).activePage
    else pg) (d.ttbLane l).standbyPage

/-- Slots assigned on a port with the writes of some commands: the larger of both pages (01 R30). -/
def Dev.plannedSlots (d : Dev) (n : Nat) (cs : List Cmd) : Nat :=
  max (d.assignedActive n) (sumBy (d.portLanes n) fun l => (d.plannedPage l cs).assigned)

/-- Budgets of a port with those of some commands (01 R44). -/
def Dev.plannedBudget (d : Dev) (n : Nat) (cs : List Cmd) : BelPort :=
  cs.foldl (fun b c =>
    if c.op = 0x0303 ∧ d.portField c.e = n then
      match c.e.f 16 19 16 with
      | 12 => { b with b12 := c.e.f 20 31 0 }
      | 13 => { b with b13 := c.e.f 20 31 0 }
      | 14 => { b with b14 := c.e.f 20 31 0 }
      | _ => { b with b15 := c.e.f 20 31 0 }
    else b) (d.belPort n)

/-- A port would keep its budgets within its capacity with all of some commands applied (01 R31). -/
def Dev.planFits (d : Dev) (n : Nat) (cs : List Cmd) : Bool :=
  d.portFits (d.plannedBudget n cs) (d.rateNum n (d.plannedSlots n cs)) d.bel.slew d.bel.guard

/-- A write that raises the slots assigned on its port is admitted under 01 R31; the result names the port. -/
def Dev.admitSlots (d : Dev) (op : Nat) (e : CmdEntry) : Option Nat :=
  let n := (d.lane (d.laneField e)).port
  let c : Cmd := { e, op }
  failsIf (decide (d.assignedMost n < d.plannedSlots n [c]) && !d.planFits n [c]) (n + 0xF * 2 ^ 16)

def Dev.slotsFit (d : Dev) (op : Nat) (e : CmdEntry) (won : List Cmd) : Bool :=
  let n := (d.lane (d.laneField e)).port
  let c : Cmd := { e, op }
  !decide (d.plannedSlots n won < d.plannedSlots n (won ++ [c])) || d.planFits n (won ++ [c])

/-! ### Entries in force and protection indices (05 R180, R186, R188) -/

/-- Every slot entry of a page, with its slot. -/
def Page.entries (p : Page) : List (Nat × Nat) := (List.range 20).map fun s => (s, p.slot s)

/-- An index is named by an entry of either page of some lane. -/
def Dev.protInUse (d : Dev) (i : Nat) : Bool :=
  d.zubenLanes.any fun l => ((d.ttbLane l).pageA.entries ++ (d.ttbLane l).pageB.entries).any fun x => entProtected x.2 && entIndex x.2 == i

/-- The entry in force of an index: egress slot and entry. -/
def Dev.protEntry (d : Dev) (i : Nat) : Option (Nat × Nat) :=
  d.zubenLanes.findSome? fun l =>
    ((d.ttbLane l).activePage.entries.find? fun x => entProtected x.2 && entIndex x.2 == i).map fun x => (slotKey l x.1, x.2)

/-- A protection index with its configuration and nothing else. -/
def Prot.fresh (p : Prot) : Prot := { holdOff := p.holdOff, wtrS := p.wtrS, revertive := p.revertive, maxDiff := p.maxDiff }

/-- An index returns to NR, UNALIGNED and the working copy (05 R186); that too is a change of the selected copy (05 R185). -/
def Dev.protReset (d : Dev) (i : Nat) (f : Prot → Prot) : Dev :=
  let old := d.prot i
  let d := d.protM i fun p => f p.fresh
  d.when old.selected fun d => ((d.count (cProt i 0) 1).post 0x0803 [.index i, .code old.request, .code 0, .code 0]).trigger 1

/-- An index takes over the entry now in force; kept sources leave its state untouched, others reset it to NR and UNALIGNED
(05 R186). -/
def Dev.rewire (d : Dev) (i : Nat) : Dev :=
  let p := d.prot i
  match d.protEntry i with
  | some (key, e) =>
    if p.wired && p.work == entSource e && p.prot == entProt e && p.buddy == entBuddy e then d.protM i fun p => { p with egress := key }
    else (d.protReset i fun p => { p with wired := true, egress := key, work := entSource e, prot := entProt e, buddy := entBuddy e }).protRefresh i
  | none => if p.wired then d.protReset i id else d

def Dev.rewireAll (d : Dev) : Dev := d.each (d.ttb.prots.map (·.1)) fun i d => d.rewire i

/-! ### Writes of the standby page (05 R173, R174, R189, R190, R192) -/

def TtbLane.standbyM (t : TtbLane) (f : Page → Page) : TtbLane := if t.active then { t with pageA := f t.pageA } else { t with pageB := f t.pageB }

/-- An entry with protected set names an index that is not enabled, or one that another slot of the page uses (05 R180). -/
def Dev.badIndex (d : Dev) (e : CmdEntry) : Bool :=
  let x := d.slotEntry e
  entProtected x &&
    ((AMap.find? d.ttb.prots (entIndex x)).isNone ||
      (d.ttbLane (d.laneField e)).standbyPage.entries.any fun y => y.1 != slotField e && entProtected y.2 && entIndex y.2 == entIndex x)

/-- Slots that entries of this module ask of the buddy (17 R534). -/
def Dev.buddySlots (d : Dev) : Nat :=
  sumBy d.zubenLanes fun l => sumBy ((d.ttbLane l).activePage.entries ++ (d.ttbLane l).standbyPage.entries) fun x => b2n (entProtected x.2 && entBuddy x.2)

/-- The write would ask for more than 64 slots of the buddy (17 R534). -/
def Dev.buddySlotsFull (d : Dev) (e : CmdEntry) : Bool :=
  let x := d.slotEntry e
  let old := (d.ttbLane (d.laneField e)).standbyPage.slot (slotField e)
  entProtected x && entBuddy x && !(entProtected old && entBuddy old) && decide (64 ≤ d.buddySlots)

def applyWriteSlot (c : Cmd) (d : Dev) : Dev :=
  let l := d.laneField c.e
  if d.armed l || d.badIndex c.e || !d.isZuben l then d.finish c stNotPermitted 0
  else okAfter c (d.ttbLaneM l fun t => t.standbyM fun pg => { pg with slots := AMap.set pg.slots (slotField c.e) (d.slotEntry c.e) })

def ttbWriteSlot : CmdSpec where
  op := 0x0801
  kind := fun _ => .commit
  seals := 2
  check := fun d e => firstOf [d.needsZuben e, failsIf (e.f 24 1 0 == 3) (rejField 24 0)]
  permit := fun d e => failsIf (d.armed (d.laneField e) || d.badIndex e) 0
  admits := fun d e => firstOf [failsIf (d.buddySlotsFull e) (rejField 24 46), d.admitSlots 0x0801 e]
  claims := fun d e => [claim1 itSlot (slotKey (d.laneField e) (slotField e))]
  fits := fun d e won => d.slotsFit 0x0801 e won
  apply := applyWriteSlot
  rank := 72
  abort := abortPlain

/-- First seat of TTB.WRITE_SEATS and how many. -/
def seatFirst (e : CmdEntry) : Nat := e.f 20 4 0
def seatCount (e : CmdEntry) : Nat := min (clamp 1 8 (e.f 20 11 8)) (32 - seatFirst e)

def applyWriteSeats (c : Cmd) (d : Dev) : Dev :=
  let e := c.e
  let l := d.laneField e
  if d.armed l || !d.isZuben l then d.finish c stNotPermitted 0
  else
    okAfter c (d.ttbLaneM l fun t => t.standbyM fun pg => { pg with
      seats := (List.range (seatCount e)).foldl (fun m k => AMap.set m (slotField e * 32 + seatFirst e + k) (d.seatEntry (e.f (32 + 4 * k) 31 0))) pg.seats })

def ttbWriteSeats : CmdSpec where
  op := 0x0802
  kind := fun _ => .commit
  seals := 2
  check := fun d e => d.needsZuben e
  permit := fun d e => failsIf (d.armed (d.laneField e)) 0
  claims := fun d e =>
    let base := slotKey (d.laneField e) (slotField e) * 32 + seatFirst e
    [{ kind := itSeat, lo := base, hi := base + seatCount e - 1 }]
  apply := applyWriteSeats
  rank := 72
  abort := abortPlain

def applyCopyPage (c : Cmd) (d : Dev) : Dev :=
  let l := d.laneField c.e
  if d.armed l || !d.isZuben l then d.finish c stNotPermitted 0
  else okAfter c (d.ttbLaneM l fun t => t.standbyM fun _ => t.activePage)

def ttbCopyPage : CmdSpec where
  op := 0x0804
  kind := fun _ => .commit
  seals := 2
  check := fun d e => d.needsZuben e
  permit := fun d e => failsIf (d.armed (d.laneField e)) 0
  admits := fun d e => d.admitSlots 0x0804 e
  claims := fun d e =>
    let l := d.laneField e
    [{ kind := itSlot, lo := slotKey l 0, hi := slotKey l 31 }, { kind := itSeat, lo := slotKey l 0 * 32, hi := slotKey l 31 * 32 + 31 }]
  fits := fun d e won => d.slotsFit 0x0804 e won
  apply := applyCopyPage
  rank := 72
  abort := abortPlain

/-! ### The page switch (05 R174 to R176, R191) -/

/-- The earliest bell that a request gets whose command is accepted now: its first frame begins after the page has armed, at the second
bell from now (05 R174, 04 R137). -/
def Dev.reachableBell (d : Dev) (target : Nat) : Nat := d.bellAfter target (d.bel.nextAt + d.bel.period * 4 + 8 * frameTime)

/-- A period change is pending at or before the bell asked for, or the bell lies too far away (05 R176). -/
def Dev.badTarget (d : Dev) (e : CmdEntry) : Bool :=
  let t := d.reachableBell (e.f 24 63 0)
  e.b 16 16 &&
    ((match d.bel.pend with | some p => decide (p.tai ≤ t) | none => false) ||
      decide (d.tai + 32767 * d.bel.period < e.f 24 63 0))

def acceptSwitchPage (c : Cmd) (d : Dev) : Dev :=
  let e := c.e
  d.ttbLaneM (d.laneField e) fun t => { t with
    switch := some { ring := e.ring, tag := e.tag, initiate := e.b 16 16, armMs := clamp 1 60000 (e.f 20 15 0), target := e.f 24 63 0, due := d.bel.seq + 2 } }

/-- A switch may be withdrawn until the lane reaches AGREED; the standby page is disarmed (13 R454). -/
def abortSwitchPage (c : Cmd) (d : Dev) : Option Dev :=
  let l := d.laneField c.e
  if (d.zlane l).hs = .agreed then none
  else
    let d := d.when ((d.zlane l).hs == .requesting) fun d => d.zlaneM l ZLane.hsIdle
    some ((d.ttbLaneM l fun t => { t with switch := none }).finish c stAborted 0)

def ttbSwitchPage : CmdSpec where
  op := 0x0803
  kind := fun _ => .waiting
  seals := 2
  check := fun d e => firstOf [d.needsZuben e, failsIf (d.badTarget e) (rejField 24 0)]
  permit := fun d e => failsIf (d.ttbLane (d.laneField e)).switch.isSome 0
  accept := acceptSwitchPage
  abort := abortSwitchPage

/-- The standby page arms at its bell (05 R174): an initiator requests, a responder waits. -/
def Dev.armPage (d : Dev) (l : Nat) : Dev :=
  match (d.ttbLane l).switch with
  | some w =>
    if w.armed || w.due != d.bel.seq then d
    else
      let d := d.ttbLaneM l fun t => { t with switch := some { w with armed := true, deadline := d.now + w.armMs * qPerMs } }
      d.startRequest l
  | none => d

def Dev.armPages (d : Dev) : Dev := d.each (d.ttb.lanes.map (·.1)) fun l d => d.armPage l

/-- Slots of a lane whose container restarts with a page, where no switch frame has done so (04 R140). -/
def Dev.restartSlots (d : Dev) (l : Nat) (old new : Page) : Dev :=
  d.each (List.range 20) fun s d =>
    let ctn := isContainer (new.slot s)
    (d.when (sourceChanges (old.slot s) (new.slot s)) fun d =>
      d.zslotM l s fun x => { x with txPtr := 0, ndf := ctn, txPacket := !ctn }).restartFlows l s old new

/-- Bell T of a lane's agreement: the standby page becomes active (04 R140, 05 R175). -/
def Dev.switchPage (d : Dev) (l : Nat) : Dev :=
  let z := d.zlane l
  let t := d.ttbLane l
  let d := d.when (!z.switchSent) fun d => d.restartSlots l t.activePage t.standbyPage
  let d := d.ttbLaneM l fun t => { t with active := !t.active, switch := none }
  let d := d.zlaneM l fun z => { z.hsIdle with rxSwitch := z.rxSwitch }
  let d := (d.count (cLane l 13) 1).post 0x0801 [.index l, .code (b2n !t.active), .index z.hsTag]
  let d := d.rewireAll.protScan
  match t.switch with
  | some w => d.finishAt w.ring w.tag stOk (z.hsTag + b2n w.partnerTag * 2 ^ 16)
  | none => d

/-- A lane's turn at a bell: it switches where its agreed bell has rung. -/
def Dev.pageTurn (l : Nat) (d : Dev) : Dev :=
  d.when ((d.zlane l).hs == .agreed && decide (2 * (d.zlane l).hsTai ≤ 2 * d.bel.lastTai + d.bel.period)) fun d => d.switchPage l

/-- The capacities that switches have changed, once a port (09 R339). -/
def Dev.ratesSince (d was : Dev) : Dev := d.each d.portList fun n d => d.rateChanged n (was.portRate n)

/-- Item 5 of 01 R28: every lane whose agreed bell has rung; then the capacities that this changes. -/
def Dev.switchPages (d : Dev) : Dev := (d.each d.zubenLanes Dev.pageTurn).ratesSince d

/-! ### Protection commands (05 R180, R193, R194) -/

def protField (e : CmdEntry) : Nat := e.f 16 10 0

/-- The configuration that TTB.SET_PROTECTION gives an index, on top of its state (05 R182). -/
def Dev.protConfig (d : Dev) (e : CmdEntry) : Prot :=
  let p := d.prot (protField e)
  let m := clamp 1 250 (e.f 20 26 19)
  let p' : Prot := { p with holdOff := satTo 100 (e.f 20 7 0), wtrS := clamp 10 720 (e.f 20 17 8), revertive := e.b 20 18, maxDiff := m }
  if (AMap.find? d.ttb.prots (protField e)).isSome ∧ m ≠ p.maxDiff then
    { p' with align := .unaligned, candidate := none, confirms := 0, playNext := if p.selected then ((p.playNext : Int) + p.offset).toNat else p.playNext }
  else p'

/-- An index with the settings of TTB.SET_PROTECTION, or disabled by it. -/
def Dev.setProt (d : Dev) (e : CmdEntry) : Dev := d.ttbM fun t => { t with prots := AMap.set t.prots (protField e) (d.protConfig e) }
def Dev.dropProt (d : Dev) (e : CmdEntry) : Dev := d.ttbM fun t => { t with prots := AMap.erase t.prots (protField e) }

def applySetProtection (c : Cmd) (d : Dev) : Dev :=
  let i := protField c.e
  if c.e.b 16 16 then
    if c.noRoom then d.finish c stFailed 0 else okAfter c ((d.setProt c.e).rewire i).xoffScan
  else if d.protInUse i then d.finish c stNotPermitted 0
  else okAfter c (d.dropProt c.e).xoffScan

def ttbSetProtection : CmdSpec where
  op := 0x0805
  kind := fun _ => .commit
  seals := 2
  permit := fun d e => failsIf (!e.b 16 16 && d.protInUse (protField e)) 0
  claims := fun _ e => [claim1 itProt (protField e)]
  apply := applySetProtection
  rank := 73
  abort := abortPlain

/-- A manual switch, MS-P of code 4 or MS-W of code 3, meets a higher request (05 R185). -/
def Dev.msRefused (d : Dev) (e : CmdEntry) : Bool := (e.f 20 2 0 == 3 || e.f 20 2 0 == 4) && decide (7 - e.f 20 2 0 < (d.prot (protField e)).request)

/-- The index is not enabled, or refuses the command. -/
def Dev.protRefuses (d : Dev) (e : CmdEntry) : Bool := (AMap.find? d.ttb.prots (protField e)).isNone || d.msRefused e

/-- Held host commands after one more (05 R184, R185). -/
def hostAfter (held cmd : Nat) : Nat :=
  match cmd with
  | 0 => 0
  | 1 => setBit held 0 true
  | 2 => setBit held 1 true
  | 3 => setBit (setBit held 3 false) 2 true
  | _ => setBit (setBit held 2 false) 3 true

def applyProtectCommand (c : Cmd) (d : Dev) : Dev :=
  let i := protField c.e
  if d.protRefuses c.e then d.finish c stNotPermitted 0
  else okAfter c ((d.protM i fun p => { p with host := hostAfter p.host (c.e.f 20 2 0) }).protDecide i)

def ttbProtectCommand : CmdSpec where
  op := 0x0806
  kind := fun _ => .commit
  check := fun _ e => failsIf (decide (4 < e.f 20 2 0)) (rejField 20 0)
  permit := fun d e => failsIf (d.protRefuses e) 0
  claims := fun _ e => [claim1 itProt (protField e)]
  apply := applyProtectCommand
  rank := 74
  abort := abortPlain

/-- The readout of a page (05 R195). -/
def Page.readout (p : Page) : List Byte :=
  (List.range 20).flatMap (fun s => bytesLE 8 (p.slot s)) ++ (List.range 20).flatMap fun s => (List.range 32).flatMap fun k => bytesLE 4 (p.seat s k)

def ttbReadPage : CmdSpec where
  op := 0x0807
  journal := false
  writes := true
  check := fun d e => firstOf [d.needsZuben e, e.needsAddr]
  accept := fun c d =>
    let t := d.ttbLane (d.laneField c.e)
    d.readOut c c.e.addr (if c.e.b 16 16 then t.pageB else t.pageA).readout 0

def ttbSpecs : List CmdSpec := [ttbWriteSlot, ttbWriteSeats, ttbSwitchPage, ttbCopyPage, ttbSetProtection, ttbProtectCommand, ttbReadPage]

end Sys2Proof.Machine
end

