-- ==== Sys2Proof/Machine/FarStore.lean ====
section
/-! DEFINITION. The far-store controller (10): training, retraining, errors, scrub and repair. The channels' queues are in
Machine/Channels.lean. -/

namespace Sys2Proof.Machine

def Dev.dramLane (d : Dev) (j : Nat) : DramLane := AMap.getD d.drc.lanes j {}

/-- Bursts of one channel (10 R347). -/
def chanBursts : Nat := 67108864

/-- Physical channels of a stack (10 R347). -/
def stackChans (k : Nat) : List Nat := (List.range 34).map (34 * k + ·)

/-- Physical channel that serves a logical channel (10 R361). -/
def Dev.serving (d : Dev) (k logical : Nat) : Option Nat := (stackChans k).find? fun i => (d.chan i).holds && (d.chan i).logical == logical

/-- Lowest channel of a stack in SPARE. -/
def Dev.spareChan (d : Dev) (k : Nat) : Option Nat := (stackChans k).find? fun i => (d.chan i).state == .spare

/-- The target that takes dual writes of a source (10 R362). -/
def Dev.targetOf (d : Dev) (i : Nat) : Option Nat :=
  (stackChans (i / 34)).find? fun t => (d.chan t).state == .target && (d.chan t).logical == (d.chan i).logical && (d.chan i).state == .source

/-! ### Training (10 R359, R360) -/

/-- The longest run of passing steps, of several the lowest: its length and its first step. -/
def longestRun (pass : Nat) : Nat × Nat :=
  let r := (List.range 128).foldl (fun (b : Nat × Nat × Nat) k =>
    let c := if bit pass k then b.2.2 + 1 else 0
    if b.1 < c then (c, k + 1 - c, c) else (b.1, b.2.1, c)) (0, 0, 0)
  (r.1, r.2.1)

/-- The centre of the longest run, rounded down. -/
def runCentre (pass : Nat) : Nat := let r := longestRun pass; r.2 + (r.1 - 1) / 2

/-- A byte lane after its sweeps: it has failed when either run is shorter than 12 steps. The fields of 7 bits saturate. -/
def laneEye (t : LaneTrain) : DramLane :=
  let w := (longestRun t.wrPass).1
  let r := (longestRun t.rdPass).1
  { wrDly := runCentre t.wrPass, rdDly := runCentre t.rdPass, wrWidth := min 127 w, rdWidth := min 127 r, failed := decide (w < 12) || decide (r < 12) }

/-- Record the training of byte lanes; each lane that failed is posted. -/
def Dev.laneTrained (d : Dev) (t : LaneTrain) : Dev :=
  let x := laneEye t
  let d := d.drcM fun r => { r with lanes := AMap.set r.lanes t.lane x }
  d.when x.failed fun d => d.post 0x0D02 [.index t.lane, .value x.wrWidth, .value x.rdWidth]

/-- A channel fails with any of its byte lanes. -/
def Dev.chanFailed (d : Dev) (i : Nat) : Bool := (List.range 5).any fun b => (d.dramLane (5 * i + b)).failed

/-- Failed channels of a stack. -/
def Dev.failedIn (d : Dev) (k : Nat) : Nat := ((stackChans k).filter d.chanFailed).length

/-- Map the channels of a stack to its lowest-numbered good channels; a stack with more than two failed goes out (10 R360). -/
def Dev.mapStack (d : Dev) (k : Nat) : Dev :=
  let good := (stackChans k).filter fun i => !d.chanFailed i
  let out := decide (good.length < 32)
  let d := d.each (stackChans k) fun i d => d.when (d.chanFailed i) fun d => d.chanM i fun _ => { state := .failed }
  let d := d.each (List.range good.length) fun c d =>
    d.chanM (nth good c 0) fun _ => {
      state := if out || decide (32 ≤ c) then .spare else .service, logical := if 32 ≤ c then 0 else c, scrubAt := d.now, scrubDue := d.now * chanBursts }
  let d := d.stackM k fun s => { s with out }
  d.when out fun d => d.post 0x0D03 [.index k]

/-- Start-up training ends: lanes recorded, channels mapped, `ready` set (10 R359, R360). -/
def Dev.drcTrained (d : Dev) (ts : List LaneTrain) : Dev :=
  let ks := List.range d.glb.part.stacks
  let d := d.each (ts.filter fun t => decide (t.lane < 170 * d.glb.part.stacks)) fun t d => d.laneTrained t
  let d := d.each ks fun k d => d.mapStack k
  let lost := (ks.filter fun k => (d.stack k).out).length
  let d := (d.bufM fun b => { b with farTotal := (d.glb.part.stacks - lost) * 33554432 }).drcM fun r => { r with ready := true, training := false }
  let outs := sumBy ks fun k => b2n (d.stack k).out * 2 ^ k
  let fails := sumBy ks fun k => satTo 15 (d.failedIn k) * 2 ^ (4 * k)
  -- stacks out at byte 12, failed channels at bytes 16 to 23 (13 R461)
  d.post 0x0D01 [.set outs, .wide fails]

/-! ### Quarantine and repair (10 R367) -/

/-- A page is free. Repair of its row begins then. -/
def Dev.pageFreeNow (d : Dev) (p : Nat) : Bool × Dev :=
  if d.pageHeld p then (false, d)
  else if d.buf.farReserved = 0 then (true, d)
  else
    -- which pages a region or the shadow holds is left open
    let (k, d) := d.fresh
    if Config.openValue k % 2 = 0 then (true, d) else (false, d.drcM fun r => { r with keptBad := p :: r.keptBad })

/-- Quarantine a row, or retire it where its bank has no spare row left. Whether its page is free and its repair has begun goes back to the caller. -/
def Dev.quarantine (d : Dev) (i bank row : Nat) : Dev × Bool :=
  let c := d.chan i
  let key := rowKey bank row
  let page := d.pageAt i bank row
  if c.retired.contains key then (d, false)
  else if c.quarantined.contains key then (d, (match page with | some p => !d.pageHeld p && !d.drc.keptBad.contains p | none => true))
  else
    let spent := AMap.getD c.sparesUsed bank 0 + (c.quarantined.filter fun k => k / 32768 == bank).length
    let (free, d) := match page with | some p => d.pageFreeNow p | none => (true, d)
    if spent < 4 then (d.chanM i fun c => { c with quarantined := key :: c.quarantined }, free)
    else
      let d := d.chanM i fun c => { c with retired := key :: c.retired }
      let d := d.stackM (i / 34) fun s => { s with retired := s.retired + 1 }
      (d.post 0x0D09 [.index i, .index bank, .index row], false)

/-! ### Errors (10 R364, R365) -/

/-- Code of a client: its rank in 10 R350. The spec states no other code. -/
def clientCode : DrcClient → Nat
  | .retrainCopy => 1 | .recallReader => 2 | .tableExtension => 3 | .spillWriter => 4 | .recorderWriter => 5 | .hostDma => 6 | .scrubber => 7

/-- Every UE is counted; the first in each bell is posted. -/
def Dev.ueSeen (d : Dev) (b : BurstAt) (client : DrcClient) : Dev :=
  let items : List Item := [.index b.chan, .index b.bank, .index b.row, .index b.burst, .code (clientCode client)]
  let d := d.count (cChan b.chan 1) 1
  if d.drc.uePosted then d.occur 0x0D06 items else (d.drcM fun r => { r with uePosted := true }).post 0x0D06 items

/-- Stored frames with a cell in one burst of a page: four bursts to a cell (10 R348). -/
def framesAt : List Run → Nat → List Nat
  | [], _ => []
  | r :: rs, cell => if cell < r.n then [r.copy.frame] else framesAt rs (cell - r.n)

/-- Copies of the given frames are taken out of a queue's segments and discarded under reason 2 (10 R365, 08 R304). -/
def Dev.dropBroken (d : Dev) (q : Nat) (fs : List Nat) : Dev :=
  let x := d.queue q
  let hit := fun (r : Run) => fs.contains r.copy.frame
  let all := x.h ++ x.f.flatMap (fun p => p.runs) ++ x.t
  let gone := (all.filter fun r => hit r && r.last).map fun r => r.copy
  let back := sumBy (x.h.filter hit) fun r => if r.recalled then r.n else 0
  let d := d.queueM q fun x => { x with
    h := x.h.filter fun r => !hit r
    f := x.f.map fun p => { p with runs := p.runs.filter fun r => !hit r }
    t := x.t.filter fun r => !hit r }
  let d := ((d.bufM fun b => { b with recalled := b.recalled - back }).emptyCredit q).when (back != 0) fun d => d.xoffScan
  d.each gone fun c d => (d.count (cDev 264) 1).dropCopy c false

/-- A recalled burst proves uncorrectable: every frame with a cell in it is discarded (10 R365). -/
def Dev.recallUe (d : Dev) (b : BurstAt) : Dev :=
  match d.pageAt b.chan b.bank b.row with
  | none => d
  | some p =>
    d.each (d.buf.queues.filter fun q => q.2.f.any fun x => x.page == p) fun q d =>
      let fs := q.2.f.flatMap fun x => if x.page = p then framesAt x.runs (b.burst / 4) else []
      ((d.dropBroken q.1 fs).count (cStack (b.chan / 34) 2) fs.length).spillStep q.1

/-- Both copies of a list page have failed at a group of its words: the rest of F is lost (10 R365). -/
def Dev.listLost (d : Dev) (q idx group stack : Nat) : Dev :=
  let x := d.queue q
  let keep := idx * 1023 + 64 * group - x.listPos
  let lost := x.f.drop keep
  let fs := lost.flatMap fun p => p.runs.map fun r => r.copy.frame
  let d := d.dropBroken q fs
  let d := d.queueM q fun x => { x with f := x.f.take keep, lists := if keep = 0 then [] else x.lists.take (idx + 1), listPos := if keep = 0 then 0 else x.listPos }
  let d := (d.bufM fun b => { b with farLeaks := b.farLeaks ++ lost.map fun p => p.page }).count (cStack stack 3) lost.length
  ((d.post 0x0D07 [.index q, .value lost.length]).farFreed).spillStep q

/-- A copy of a list page meets a UE: the other copy is read, and if that has failed too the chain is lost. -/
def Dev.listUe (d : Dev) (b : BurstAt) : Dev :=
  match d.pageAt b.chan b.bank b.row with
  | none => d
  | some p =>
    d.each (d.buf.queues.filter fun q => q.2.lists.any fun l => l.a == p || l.b == p) fun q d =>
      let idx := (q.2.lists.takeWhile fun l => !(l.a == p || l.b == p)).length
      let d := d.queueM q.1 fun x => { x with lists := x.lists.mapIdx fun k l =>
        if k = idx then { l with badA := l.badA || l.a == p, badB := l.badB || l.b == p } else l }
      let l := nth (d.queue q.1).lists idx {}
      if l.badA && l.badB then d.listLost q.1 idx (b.burst / 4) (b.chan / 34)
      else d.pageNow (if l.badA then l.b else l.a) 3 false b.burst 1

/-- A recorder readout counts the pages that held a UE (10 R365). -/
def Dev.dmaUe (d : Dev) (b : BurstAt) : Dev :=
  let key := b.chan * 2 ^ 20 + rowKey b.bank b.row
  if d.drc.dmaRows.contains key then d
  else
    let d := d.drcM fun r => { r with dmaRows := key :: r.dmaRows }
    match (d.fwd.regions.filterMap fun r => r.2.reader).head? with
    | some (ring, tag) => (match d.cmdAt ring tag with | some c => d.cmdM c fun c => { c with tally := c.tally + 1 } | none => d)
    | none => d

/-- A corrected error: counted by channel and device, and its row quarantined once it has shown enough of them (10 R364, R367). -/
def Dev.ceSeen (d : Dev) (b : BurstAt) (device : Nat) : Dev :=
  let key := rowKey b.bank b.row
  let d := (d.count (cChan b.chan 0) 1).count (cChan b.chan (6 + min 9 device)) 1
  let d := d.chanM b.chan fun c => { c with ceNow := c.ceNow + 1, rowCe := AMap.upd c.rowCe key 0 (· + 1) }
  if d.drc.pprEn && decide (d.drc.pprCe ≤ AMap.getD (d.chan b.chan).rowCe key 0) then (d.quarantine b.chan b.bank b.row).1 else d

/-- The request of a client of a rank for one burst. -/
def burstReq (b : BurstAt) (rank : Nat) (write : Bool) : DramReq := { rank, write, bank := b.bank, row := b.row, first := b.burst, n := 1 }

/-- Write one burst back to a channel, for a client of a rank. -/
def Dev.writeBurst (d : Dev) (rank : Nat) (b : BurstAt) : Dev := (d.emit (.dram false b)).serveNow b.chan (burstReq b rank true)

/-! ### Retraining and substitution (10 R361 to R363, 16 R513) -/

def Dev.retrain (d : Dev) (k slot : Nat) : Retrain := AMap.getD d.drc.retrains (2 * k + slot) {}
def Dev.retrainM (d : Dev) (k slot : Nat) (f : Retrain → Retrain) : Dev :=
  d.drcM fun r => { r with retrains := AMap.upd r.retrains (2 * k + slot) {} f }

/-- Slot of a stack that satisfies a test. -/
def Dev.slotWhere (d : Dev) (k : Nat) (p : Retrain → Bool) : Option Nat := (List.range 2).find? fun s => p (d.retrain k s)

/-- KiB of one copy direction (10 R362). -/
def copyKib : Nat := 4194304

/-- Position of a retrain: the copy back counts on from the copy out. -/
def Retrain.start (x : Retrain) : Nat := if x.phase = 5 then copyKib else 0

/-- The copy of a slot has reached a position: the command or the substitution it runs for shows it, and a whole copy makes
the cut-over due (10 R362, 16 R513). -/
def Dev.copyTo (d : Dev) (k slot pos : Nat) : Dev :=
  let x := d.retrain k slot
  if x.phase ≠ 2 ∧ x.phase ≠ 5 then d
  else
    let p := max x.pos (min pos (x.start + copyKib))
    let d := d.retrainM k slot fun x => { x with pos := p, copied := decide (x.start + copyKib ≤ p) }
    if x.permanent then
      d.subM fun s => { s with slots := AMap.mapV s.slots fun _ y =>
        if y.kind = 4 ∧ y.unit = 32 * k + x.logical ∧ y.claimed = true then { y with pos := p, step := if copyKib ≤ p then 6 else y.step } else y }
    else
      match x.command with
      | some (r, t) => (match d.cmdAt r t with | some c => d.cmdM c fun c => { c with pos := p } | none => d)
      | none => d

/-- Start the dual writes of a slot: the serving channel becomes SOURCE, a spare becomes TARGET (10 R362). -/
def Dev.startCopy (d : Dev) (k slot src tgt logical : Nat) : Dev :=
  let d := (d.chanM src fun c => { c with state := .source }).chanM tgt fun c => { c with state := .target, logical }
  d.retrainM k slot fun x => { x with phase := 2, logical, source := src % 34, target := tgt % 34, pos := 0, copied := false }

/-- Reads of a logical channel that have not been issued move with it; dual writes to the channel it leaves last until its writes are done (10 R362). -/
def Dev.moveReads (d : Dev) (src dst logical : Nat) : Dev :=
  let c := d.chan src
  let moved := c.reads ++ c.waits.filter fun r => !r.write
  let d := d.chanM src fun c => { c with reads := [], waits := c.waits.filter fun r => r.write, lasting := some logical }
  ((d.chanM dst fun c => { c with waits := c.waits ++ moved }).serveChan src fun _ => true).serveChan dst fun _ => true

/-- A target is dropped: what it was to take is forgotten. -/
def Chan.dropped (c : Chan) : Chan := { c with state := .spare, logical := 0, reads := [], writes := [], waits := [], inOrder := [], drain := false, poison := [] }

/-- Reads of a logical channel move at a bell to the channel that the copy has filled (10 R362 phases 3 and 5). -/
def Dev.cutChannel (d : Dev) (k slot : Nat) : Dev :=
  let x := d.retrain k slot
  let src := 34 * k + x.source
  let tgt := 34 * k + x.target
  let d :=
    if x.phase = 2 then
      (d.chanM src fun c => { c with state := if x.permanent then .failed else .retraining }).chanM tgt fun c => { c with state := .service }
    else (d.chanM tgt fun c => { c with state := .spare, logical := 0, poison := [] }).chanM src fun c => { c with state := .service }
  let d := if x.phase = 2 then d.moveReads src tgt x.logical else d.moveReads tgt src x.logical
  let d := d.post 0x0D05 [.index k, .index x.logical, .index (if x.phase = 2 then src else tgt), .index (if x.phase = 2 then tgt else src)]
  if x.phase = 2 ∧ x.permanent = false then d.retrainM k slot fun x => { x with phase := 4, copied := false }
  else
    let d := d.retrainM k slot fun _ => {}
    match x.command with
    | some (r, t) => if x.permanent then d else d.finishAt r t stOk 0
    | none => d

/-- Long operations stand while held, and copies while the background pool is paused (16 R512, 13 R452). -/
def Dev.retrainHeld (d : Dev) (x : Retrain) : Bool :=
  match x.command with
  | some (r, t) => (match d.cmdAt r t with | some c => c.held | none => false)
  | none => false

/-- Slots of retrained channels whose cut-over is due at a bell, as 2 k + slot. -/
def Dev.channelsDue (d : Dev) : AMap Retrain :=
  d.drc.retrains.filter fun x => x.2.copied && (x.2.phase == 2 || x.2.phase == 5) && !x.2.permanent && !d.retrainHeld x.2

/-- One of them cuts over. -/
def Dev.channelTurn (x : Nat × Retrain) (d : Dev) : Dev := d.cutChannel (x.1 / 2) (x.1 % 2)

/-- Item 3 of 01 R28: every cut-over of a retrained channel that is due. -/
def Dev.channelCuts (d : Dev) : Dev := d.each d.channelsDue Dev.channelTurn

/-- Claim a spare for a logical channel, if it is in SERVICE and the stack has a spare and a slot (10 R362, R363). -/
def Dev.claimChannel (d : Dev) (k logical : Nat) (permanent : Bool) (command : Option (Nat × Nat)) : Option Dev :=
  match d.serving k logical, d.spareChan k, d.slotWhere k (fun x => x.phase == 0 || (x.phase == 1 && x.command == command)) with
  | some src, some tgt, some slot =>
    if (d.chan src).state = .service then
      some ((d.startCopy k slot src tgt logical).retrainM k slot fun x => { x with permanent, command, aborted := false })
    else none
  | _, _, _ => none

/-- DRC.RETRAIN_CHANNEL claims at the first bell after acceptance (10 R362). -/
def Dev.claimRetrain (d : Dev) (c : Cmd) : Dev :=
  let k := min (c.e.f 16 3 0) (d.glb.part.stacks - 1)
  match d.claimChannel k (c.e.f 16 12 8) false (some (c.e.ring, c.e.tag)) with
  | some d => d
  | none => (d.drcM fun r => { r with retrains := r.retrains.filter fun x => !(x.2.phase == 1 && x.2.command == some (c.e.ring, c.e.tag)) }).finish c stNotPermitted 0

/-- The slot that a command runs in has a copy under way. -/
def Dev.claimed (d : Dev) (c : Cmd) : Bool :=
  d.drc.retrains.any fun x => decide (2 ≤ x.2.phase) && x.2.command == some (c.e.ring, c.e.tag)

/-- Commands that claim a channel at this bell. -/
def Dev.retrainClaims (d : Dev) : List Cmd := d.hif.inflight.filter fun c => c.op == 0x0D01 && c.stage == .long && !d.claimed c

/-- Dual writes of a slot stop and its target returns to SPARE (10 R363, 16 R521). -/
def Dev.dropCopySlot (d : Dev) (k slot : Nat) : Dev :=
  let x := d.retrain k slot
  let d :=
    if x.phase = 2 then (d.chanM (34 * k + x.target) Chan.dropped).chanM (34 * k + x.source) fun c => { c with state := .service }
    -- after the first cut-over the former spare serves, and the retrained channel is the target of the copy back
    else if x.phase = 5 then (d.chanM (34 * k + x.source) Chan.dropped).chanM (34 * k + x.target) fun c => { c with state := .service }
    else d
  d.retrainM k slot fun _ => {}

/-- Abort of DRC.RETRAIN_CHANNEL (10 R363). -/
def abortRetrain (c : Cmd) (d : Dev) : Option Dev :=
  match List.find? (fun x => x.2.command == some (c.e.ring, c.e.tag)) d.drc.retrains with
  | none => some (d.finish c stAborted 0)
  | some (key, x) =>
    if x.phase = 4 then
      some ((d.retrainM (key / 2) (key % 2) fun x => { x with aborted := true, command := none }).finish c stAborted 1)
    else some ((d.dropCopySlot (key / 2) (key % 2)).finish c stAborted (if x.phase = 5 then 1 else 0))

/-- Stack field of the DRC commands, clamped; an out-of-service stack is rejected. -/
def Dev.stackField (d : Dev) (e : CmdEntry) : Nat := min (e.f 16 3 0) (d.glb.part.stacks - 1)
def Dev.needsStack (d : Dev) (e : CmdEntry) : Option Nat := failsIf (d.stack (d.stackField e)).out (rejField 16 0)

def acceptRetrain (c : Cmd) (d : Dev) : Dev :=
  let k := d.stackField c.e
  let d := d.cmdM c fun c => { c with total := 2 * copyKib }
  match d.slotWhere k fun x => x.phase == 0 with
  | some slot => d.retrainM k slot fun _ => { phase := 1, logical := c.e.f 16 12 8, command := some (c.e.ring, c.e.tag) }
  | none => d

/-- The channel that serves a logical channel is in SERVICE. -/
def Dev.chanInService (d : Dev) (k logical : Nat) : Bool :=
  match d.serving k logical with | some i => (d.chan i).state == .service | none => false

def drcRetrain : CmdSpec where
  op := 0x0D01
  kind := fun _ => .long
  check := fun d e => d.needsStack e
  permit := fun d e => failsIf (!d.chanInService (d.stackField e) (e.f 16 12 8)) 0
  accept := acceptRetrain
  abort := abortRetrain

/-- Page field of DRC.QUARANTINE_PAGE, clamped. -/
def Dev.pageField (d : Dev) (e : CmdEntry) : Nat := min (e.f 16 28 0) (d.glb.part.farPages - 1)

def acceptQuarantine (c : Cmd) (d : Dev) : Dev :=
  let p := d.pageField c.e
  let n := d.glb.part.stacks
  match d.serving (p % n) (p / n % 32) with
  | some i =>
    let (d, free) := d.quarantine i (p / (n * 32) % 32) (p / (n * 1024))
    d.finish c stOk (b2n free)
  | none => d.finish c stOk 0

def drcQuarantine : CmdSpec where
  op := 0x0D02
  check := fun d e => failsIf (d.stack (d.pageStack (d.pageField e))).out (rejField 16 0)
  accept := acceptQuarantine

/-- DRC_LANE_EYE (10 R368). -/
def DramLane.word (x : DramLane) : Nat :=
  fld x.wrDly 7 0 + fld (b2n x.failed) 1 7 + fld x.rdDly 7 8 + fld x.wrWidth 7 16 + fld x.rdWidth 7 24

def drcReadEyes : CmdSpec where
  op := 0x0D03
  journal := false
  writes := true
  check := fun d e => firstOf [d.needsStack e, e.needsAddr]
  accept := fun c d =>
    d.readOut c c.e.addr ((List.range 170).flatMap fun b => bytesLE 4 (d.dramLane (170 * d.stackField c.e + b)).word) 0

def drcSpecs : List CmdSpec := [drcRetrain, drcQuarantine, drcReadEyes]

/-! ### Rows -/

/-- Burst position in the copy, in KiB copied once it has been written: channels are copied in rising order of address. -/
def burstKib (b : BurstAt) : Nat := (rowKey b.bank b.row * 64 + b.burst + 1) / 16

/-- A client write to a burst is pending; after a read of it has returned it was accepted behind that read, which it would otherwise
have delayed (10 R353, R354). -/
def Dev.writePending (d : Dev) (b : BurstAt) : Bool :=
  (d.chan b.chan).requests.any fun r =>
    r.write && r.rank != 1 && r.rank != 7 && r.bank == b.bank && r.row == b.row && decide (r.first ≤ b.burst) && decide (b.burst < r.first + r.n)

/-- A write-back to a channel, cancelled by a client write accepted after its read (10 R354). -/
def Dev.writeBack (d : Dev) (rank : Nat) (src b : BurstAt) : Dev := if d.writePending src then d.count (cChan b.chan 5) 1 else d.writeBurst rank b

/-- Key of a burst within a channel. -/
def burstKey (b : BurstAt) : Nat := rowKey b.bank b.row * 64 + b.burst

/-- What the retrain copy does with a burst read from the source; one with an uncorrectable error is written so that it stays one (10 R362 phase 2). -/
def Dev.copyBurst (d : Dev) (b : BurstAt) (bad : Bool) : Dev :=
  match d.targetOf b.chan with
  | none => d
  | some t =>
    let again := d.writePending b
    let d := d.writeBack 1 b { b with chan := t }
    let d := d.when (!again) fun d => d.chanM t fun c => { c with poison := (if bad then [burstKey b] else []) ++ c.poison.filter fun k => k != burstKey b }
    -- a cancelled copy is followed by a fresh read of the burst
    if again then d
    else match d.slotWhere (b.chan / 34) fun x => (x.phase == 2 || x.phase == 5) && x.logical == (d.chan b.chan).logical with
    | some slot => d.copyTo (b.chan / 34) slot ((d.retrain (b.chan / 34) slot).start + burstKib b)
    | none => d

/-- A client is suspended while its stack is in panic (10 R350, R355). -/
def suspended : DrcClient → Bool
  | .recorderWriter => true | .hostDma => true | .scrubber => true | _ => false

/-- The channel has issued the read that returns, and all that its rules put before it. -/
def Dev.readServed (d : Dev) (b : BurstAt) (client : DrcClient) : Dev :=
  let asked := fun (c : Chan) => c.requests.any fun r =>
    !r.write && r.rank == clientCode client && r.bank == b.bank && r.row == b.row && decide (r.first ≤ b.burst) && decide (b.burst < r.first + r.n)
  d.when (asked (d.chan b.chan)) fun d => d.serveChan b.chan fun c => !asked c

/-- A burst read returns to its client (10 R364, R365). A read that waited its turn behind the writes it meets is in order. -/
def Dev.readReturn (d : Dev) (b : BurstAt) (client : DrcClient) (r : EccOutcome) (inOrder : Bool) : Dev :=
  let d := (d.readServed b client).count (cChan b.chan 2) 1
  let r := if (d.chan b.chan).poison.contains (burstKey b) then .uncorrectable else r
  let d := match r with
    | .clean => d
    | .corrected device =>
      let d := d.ceSeen b device
      if client = .scrubber then (if inOrder then d.writeBurst 7 b else d.writeBack 7 b b) else d
    | .uncorrectable =>
      let d := d.ueSeen b client
      let d := match client with
        | .recallReader => d.recallUe b
        | .tableExtension => d.listUe b
        | .hostDma => d.dmaUe b
        | _ => d
      (d.quarantine b.chan b.bank b.row).1
  match client with
  | .retrainCopy => d.copyBurst b (r == .uncorrectable)
  -- the last burst of a recalled page completes it in the prefetch buffer (10 R355)
  | .recallReader =>
    if b.burst = 63 then (d.stackM (b.chan / 34) fun s => { s with prefetch := min 64 (s.prefetch + 1) }).panicLook (b.chan / 34) else d
  | _ => d

/-- A channel that exists and holds data. -/
def Dev.chanLive (d : Dev) (i : Nat) : Bool := d.drc.ready && decide (i < 34 * d.glb.part.stacks) && (d.chan i).state != .failed

/-- The scrubber visits a burst; the last one ends the cycle (10 R366, R368). -/
def Dev.scrub (d : Dev) (b : BurstAt) (r : EccOutcome) : Dev :=
  let d := d.readReturn b .scrubber r true
  let d := d.when ((d.chan b.chan).scrubbed + 1 == chanBursts) fun d => d.wearReading 2 b.chan
  d.chanM b.chan fun c =>
    if c.scrubbed + 1 = chanBursts then { c with scrubbed := 0, ceLast := c.ceNow, ceNow := 0, rowCe := [] } else { c with scrubbed := c.scrubbed + 1 }

/-- When a channel's next scrub read is due: the visits of a cycle are spread evenly over it, and one that has fallen behind catches up at up
to twice the pace (10 R366). -/
def Dev.scrubNext (d : Dev) (i : Nat) : Nat :=
  let c := d.chan i
  max (c.scrubAt + d.drc.scrubH * 3600 * qPerS / (2 * chanBursts)) (c.scrubDue / chanBursts)

/-- The scrubber's next read of a channel is made: bursts come in rising order of address. -/
def Dev.scrubTurn (d : Dev) (i : Nat) : Dev :=
  let d := d.reach (d.scrubNext i)
  d.chanM i fun c => { c with scrubAt := d.now, scrubDue := c.scrubDue + d.drc.scrubH * 3600 * qPerS }

/-- Refreshes that an interval of a bank issues: the choice that 10 R357 leaves, within its bounds. Owed counts have 8 added. -/
def refreshes (owed : Nat) (pending : Bool) (choice : Nat) : Nat :=
  if 16 ≤ owed then 1 + (if pending then 0 else choice % 17)
  else if pending then choice % 2
  else choice % (owed + 2)

/-- Refresh n times. -/
def Dev.refreshN (d : Dev) (chan bank : Nat) (n : Nat) : Dev :=
  d.each (List.range n) fun _ d => d.emit (.dram true { chan, bank })

/-- Refresh interval of a channel's banks: half of it while the stack is hot (10 R357, R358). -/
def Dev.refreshSpan (d : Dev) (chan : Nat) : Nat := (if (d.stack (chan / 34)).hot then 1950 else 3900) * qPerNs

/-- The retraining of a channel ends: the copy back begins, or the channel has failed (10 R362, R363). -/
def Dev.retrainEnds (d : Dev) (k slot : Nat) (ts : List LaneTrain) : Dev :=
  let x := d.retrain k slot
  let src := 34 * k + x.source
  let tgt := 34 * k + x.target
  let d := d.each (ts.filter fun t => t.lane / 5 == src) fun t d => d.laneTrained t
  if d.chanFailed src then
    let d := (d.chanM src fun c => { c with state := .failed, logical := 0 }).retrainM k slot fun _ => {}
    match x.command with
    | some (r, t) => d.finishAt r t stFailed 0
    | none => d
  else if x.aborted then (d.chanM src fun c => { c with state := .spare, logical := 0 }).retrainM k slot fun _ => {}
  else
    let d := (d.chanM src fun c => { c with state := .target }).chanM tgt fun c => { c with state := .source }
    d.retrainM k slot fun x => { x with phase := 5, pos := copyKib, copied := false }

end Sys2Proof.Machine
end

