-- ==== Sys2Proof/Machine/Governor.lean ====
section
/-! DEFINITION. The energy governor (11): settlement, the throttle ladder, ceilings and the core rails. -/

namespace Sys2Proof.Machine

/-- One conflict between host policy and the governor (11 R388). -/
def Dev.conflict (d : Dev) (c : Nat) : Dev :=
  (d.govM fun g => { g with conflictNow := g.conflictNow ||| 2 ^ c, conflicts := g.conflicts + 1 }).count (cDev (269 + c)) 1

/-- Ports whose flow control shows the governor's XOFF look at it again (11 R385, 03 R106). -/
def Dev.flowAgain (d : Dev) (p : Nat → Bool) : Dev :=
  d.each (d.portList.filter p) fun n d => d.when ((d.port n).fcMode == 2) fun d => d.portM n fun x => { x with flowDue := true }

/-- The best-effort XOFF is asserted or released; credit for the buddy follows (11 R385). -/
def Dev.setBeHold (d : Dev) (on : Bool) : Dev :=
  if d.gov.beHold == on then d
  else ((d.govM fun g => { g with beHold := on, held := g.held || on }).flowAgain fun _ => true).xoffScan

/-- The ladder step changes: posted with its cause (11 R382, R397). -/
def Dev.setStep (d : Dev) (k cause : Nat) : Dev :=
  let old := d.gov.step
  if old = k then d else ((d.govM fun g => { g with step := k, lowBells := 0 }).post 0x0E01 [.code old, .code k, .code cause]).sweepPause

/-! ### Energies in 1/256 microjoule (11 R377, R378) -/

/-- Energy of a power in 1/10000 W over a time in ns. -/
def energyOf (power ns : Nat) : Nat := power * ns * 256 / 10000000

/-- Balance after a period, and what lies below its clamp (11 R378). -/
def balanceAfter (b : Int) (a e debt : Nat) : Int × Nat :=
  let x := b + a - e
  let lo := -((debt * a : Nat) : Int)
  (clampI lo 0 x, (lo - x).toNat)

/-- Drain limit of 11 R381. -/
def drainOf (held : Bool) (drainMin coefPage : Nat) (ge eFwd eRec : Nat) : Nat :=
  if held then drainMin else max drainMin ((ge - eFwd - eRec) * 1000 / (256 * coefPage))

/-- Best-effort budget of 11 R381: nanojoules over the coefficient's picojoules. -/
def budgetOf (coefPage coefByte ge drain eRec : Nat) : Nat :=
  ((ge - eRec) * 1000 - drain * coefPage * 256) * 1000 / (256 * coefByte)

/-- The levers of the ladder as the step sets them (11 R381, R383, R385). -/
def Dev.setLevers (d : Dev) (i : BellInput) : Dev :=
  let g := d.gov
  let held := g.held
  let drain := if 3 ≤ g.step then drainOf held g.drainMin Config.coefPage g.grant i.eFwd i.eRec else 0
  let budget := if 5 ≤ g.step then budgetOf Config.coefPage Config.coefByte g.grant drain i.eRec else 0
  let d := d.drcM fun r => { r with drainLimit := drain }
  -- a budget of 0 holds best effort from the start of the period (11, the example at B+4)
  let hold := decide (5 ≤ g.step) && budget == 0
  (d.govM fun g => { g with beBudget := budget, beBytes := 0, held := hold }).setBeHold hold

/-! ### The bell (11 R374 to R390) -/

/-- p_thermal after a bell, in 1/10000 W (11 R390). -/
def Gov.derate (g : Gov) (temp : Nat) : Nat :=
  let step := g.envelope * g.thermStep
  if g.thermal ≤ temp then g.pThermal - step
  else if temp + 2 < g.thermal then max g.pThermal (min (g.pThermal + step) (g.envelope * 10000))
  else g.pThermal

/-- The junction ceiling begins or ends at a bell (11 R386). -/
def Dev.junction (d : Dev) (i : BellInput) : Dev :=
  let was := d.gov.hwThermal
  let on := if was then decide (103 ≤ i.tempC) else decide (105 ≤ i.tempC)
  let d := d.govM fun g => { g with
    hwThermal := on, tj := satTo 255 i.tempC, site := i.site, floor := i.floorW
    pThermal := if on then i.floorW * 10000 else g.derate i.tempC }
  let d := d.when (on != was) fun d => d.post 0x0E03 [.index i.site, .value i.tempC]
  let d := d.when on fun d => (d.setStep 5 2).count (cDev 283) 1
  d.when (on && decide (d.gov.maxStep < 5)) fun d => d.conflict 4

/-- The effective power, in 1/10000 W (11 R376). -/
def Gov.effective (g : Gov) : Nat := max (g.floor * 10000) (min (g.envelope * 10000) g.pThermal)

/-- Mismatch of the floor with the envelope, and how long it has stood (11 R376). -/
def Dev.floorLook (d : Dev) : Dev :=
  if d.gov.envelope < d.gov.floor then d.govM fun g => { g with mmBells := g.mmBells + 1 }
  else
    let posted := d.gov.mmPosted
    let d := d.govM fun g => { g with mmBells := 0, mmPosted := false }
    d.when posted fun d => d.post 0x0E06 [.value (d.gov.pEff / 10000)]

/-- The rail current ceiling of a quadrant ends at a bell below 95 % of its limit; while it stands under a lower max_step it
is a conflict of the period that it acted in (11 R386, R388). -/
def Dev.railLook (d : Dev) (q amps : Nat) : Dev :=
  let was := (d.quad q).limited
  let on := was && decide ((d.quad q).limit * 95 ≤ amps * 100)
  let d := d.quadM q fun x => { x with amps, limited := on }
  let d := d.when (was && !on) fun d => (d.post 0x0E04 [.index q, .value amps]).flowAgain fun n => portQuad n == q
  d.when (was && decide (d.gov.maxStep < 5)) fun d => d.conflict 5

/-- Climb, or count towards a descent (11 R382). -/
def Dev.climb (d : Dev) (a e : Nat) : Dev :=
  let g := d.gov
  if g.balance < 0 then
    let d := d.govM fun g => { g with lowBells := 0 }
    if g.hwThermal || decide (5 ≤ g.step) then d
    else if g.step < g.maxStep then d.setStep (g.step + 1) 0
    else d.conflict 2
  else if e * 100 ≤ (100 - g.downPct) * a then d.govM fun g => { g with lowBells := g.lowBells + 1 }
  else d.govM fun g => { g with lowBells := 0 }

/-- A descent is due: the bells that count towards it are complete (11 R382). -/
def Gov.descends (g : Gov) : Bool := g.step != 0 && decide (g.holdBells ≤ g.lowBells) && !g.hwThermal

/-- Settlement of the period just ended (11 R378), policy commits having been applied. -/
def Dev.settleEnergy (d : Dev) (i : BellInput) (pOld : Nat) : Dev :=
  let el := i.eFwd + i.eRec + i.eDram
  let e := i.eCommitted + el + i.eBackground
  let a := energyOf pOld d.bel.lastLen
  let (b, forgiven) := balanceAfter d.gov.balance a e d.gov.debtPeriods
  let d := (d.junction i).govM fun g => { g with balance := b, eCommitted := i.eCommitted, eElastic := el, eBackground := i.eBackground }
  let owed := d.gov.forgiven + forgiven
  let d := ((d.govM fun g => { g with forgiven := owed % 256 }).count (cDev 281) (owed / 256)).when d.gov.held fun d => d.count (cDev 282) 1
  let d := d.climb a e
  let d := d.govM fun g => { g with pEff := g.effective }
  let aNew := energyOf d.gov.pEff d.bel.period
  let d := d.govM fun g => { g with allow := aNew, grant := (((aNew : Nat) : Int) + b - i.eCommitted).toNat }
  -- the step that the bell settles at: a descent that is due belongs to this bell
  let d := d.count (cDev (275 + (d.gov.step - b2n d.gov.descends))) 1
  let d := d.each (List.range d.glb.part.quads) fun q d => d.railLook q (nth i.amps q 0)
  (d.setLevers i).floorLook

/-- The period closes: its conflicts are shown, and posted once (11 R388). -/
def Dev.closeConflicts (d : Dev) : Dev :=
  let g := d.gov
  let d := d.when (g.conflicts != 0) fun d => d.post 0x0E02 [.set g.conflictNow, .value g.conflicts]
  d.govM fun g => { g with conflict := g.conflictNow, conflictNow := 0, conflicts := 0 }

/-! ### Commands (11 R395, R396) -/

def applyPolicy (c : Cmd) (d : Dev) : Dev :=
  let e := c.e
  let m := min 5 (e.f 16 26 24)
  let d := d.govM fun g => { g with envelope := clamp 100 1500 (e.f 16 15 0), thermal := clamp 60 105 (e.f 16 23 16), maxStep := m }
  let d := d.when (decide (m < d.gov.step) && !d.gov.hwThermal) fun d => d.setStep m 1
  okAfter c d

def govSetPolicy : CmdSpec where
  op := 0x0E01
  kind := fun _ => .commit
  rank := 20
  claims := fun _ _ => [claim1 itPolicy 0]
  apply := applyPolicy
  abort := abortPlain

/-- Quadrant field, clamped to the variant. -/
def Dev.quadField (d : Dev) (e : CmdEntry) : Nat := min (e.f 16 1 0) (d.glb.part.quads - 1)

def govSetVbound : CmdSpec where
  op := 0x0E02
  kind := fun _ => .commit
  rank := 20
  claims := fun d e => [claim1 itVbound (d.quadField e)]
  apply := fun c d =>
    let hi := clamp 650 800 (c.e.f 20 25 16)
    okAfter c (d.quadM (d.quadField c.e) fun q => { q with vmin := min hi (clamp 650 800 (c.e.f 20 9 0)), vmax := hi })
  abort := abortPlain

def govSpecs : List CmdSpec := [govSetPolicy, govSetVbound]

/-! ### Rows -/

/-- A target rounded up to a multiple of the step. -/
def roundUp (x step : Nat) : Nat := (x + step - 1) / step * step

/-- One evaluation of a rail: the target within the host's bounds, one write towards it (11 R391, R392). -/
def Dev.avsQuad (d : Dev) (q target : Nat) : Dev :=
  let x := d.quad q
  let step := d.gov.stepMv
  let want := roundUp target step
  let t := clamp x.vmin x.vmax want
  let run := if t < x.mv then min 8 (x.lowRun + 1) else 0
  let mv := if x.mv < t then min t (x.mv + step) else if 8 ≤ run then max t (x.mv - step) else x.mv
  let d := d.when (t != want) fun d => d.conflict 3
  let d := d.quadM q fun x => { x with mv, acked := x.mv, lowRun := run, want, avsFault := false }
  d.when (mv != x.mv || x.avsFault) fun d => (d.emit (.avs q mv)).count (cQuad q 1) 1

end Sys2Proof.Machine
end

