-- ==== Sys2Proof/Machine/Host.lean ====
section
/-! DEFINITION. The host interface (12): doorbells, ring states, descriptors, interrupts, interim completions, function-level
reset and the reset ledger. -/

namespace Sys2Proof.Machine

/-! ### Ring states (12 R409, R410) -/

/-- Which of the five kinds a ring is (12 R403). -/
def isCommandRing (g : Nat) : Bool := decide (g < 32)
def isComplRing (g : Nat) : Bool := decide (32 ≤ g) && decide (g < 64)
def isTxRing (g : Nat) : Bool := decide (64 ≤ g) && decide (g < 128)
def isRxRing (g : Nat) : Bool := decide (128 ≤ g) && decide (g < 192)
def isEventRing (g : Nat) : Bool := decide (192 ≤ g) && decide (g < 200)

/-- A ring changes state: posted (12 R409). -/
def Dev.setRing (d : Dev) (g : Nat) (new : RingState) (f : Ring → Ring) : Dev :=
  let old := (d.ring g).state
  let d := d.ringM g fun r => { f r with state := new }
  if old == new then d else d.post 0x0201 [.index g, .code old.code, .code new.code]

/-- A ring enters RUNNING with fresh indices, and takes its base, size and binding as they stand (12 R408, R409). -/
def Ring.start (r : Ring) : Ring :=
  { r with
    hostIdx := 0, devIdx := 0, armed := false, error := false, fetchEnded := false, unsignalled := 0, posted := [], flushMarks := []
    lBase := r.base, lSize := r.sizeLog, lCring := r.cring }

/-- An OFF ring starts if it is asked to and a write has asked since it last stopped. -/
def Dev.startRing (d : Dev) (g : Nat) : Dev :=
  let r := d.ring g
  if r.state == .off && r.en && r.enWritten then d.setRing g .running Ring.start else d

/-- A ring reaches OFF, and starts again if it is to. -/
def Dev.ringOff (d : Dev) (g : Nat) : Dev := (d.setRing g .off id).startRing g

/-- Descriptors of TX ring r read and not dispatched. -/
def Dev.txRead (d : Dev) (r : Nat) : List TxDesc := d.hif.tx.filter fun t => t.ring == r && t.stage == .read

/-- The descriptors of a TX ring that have not been dispatched: index of the first and how many (12 R410, R434). -/
def Dev.undispatched (d : Dev) (r : Nat) : Nat × Nat :=
  let x := d.ring (64 + r)
  let read := d.txRead r
  ((read.head?.map fun t => t.index).getD (x.devIdx % x.n), read.length + x.waiting)

/-- The kind 2 completion that covers them, if there are any. -/
def txRange (r first count status : Nat) : List Compl :=
  if count = 0 then [] else [{ kind := 2, status, ring := r, value := count, index := first }]

/-- Forget the descriptors of a TX ring that have not been dispatched. -/
def Dev.dropRead (d : Dev) (r : Nat) : Dev :=
  d.hifM fun h => { h with tx := h.tx.filter fun t => !(t.ring == r && t.stage == .read) }

/-- A RUNNING ring starts to stop: what ends at once ends (12 R410). -/
def Dev.stopRing (d : Dev) (g : Nat) : Dev :=
  let d := d.setRing g .stopping fun r => { r with enWritten := false }
  if isTxRing g then
    let r := g - 64
    let (first, count) := d.undispatched r
    let d := (d.dropRead r).ringM g fun x => { x with devIdx := x.hostIdx }
    d.each (txRange r first count stAborted) fun c d => d.complete (d.ring g).lCring c
  else if isRxRing g || isEventRing g then d.ringOff g
  else d

/-- A write of HIF_RING_CTRL (12 R409). -/
def Dev.ringCtrl (d : Dev) (g : Nat) (en : Bool) : Dev :=
  let d := d.ringM g fun r => { r with en, enWritten := r.enWritten || en }
  if en then d.startRing g
  else if (d.ring g).state == .running then d.stopRing g
  else d

/-- The conditions under which a STOPPING ring reaches OFF (12 R410). -/
def Dev.mayOff (d : Dev) (g : Nat) : Bool :=
  let r := d.ring g
  if isCommandRing g then
    (r.waiting == 0 || r.fetchEnded) && !(d.hif.inflight.any fun c => !c.mirrored && c.e.ring == g) &&
      d.unwritten (fun c => c.kind == 0 && c.ring == g) == 0
  else if isTxRing g then !(d.hif.tx.any fun t => t.ring == g - 64) && d.unwritten (fun c => c.kind == 1 && c.ring == g - 64) == 0
  else if isComplRing g then
    ((List.range 32).all fun c => (d.ring c).state == .off || (d.ring c).lCring != g - 32) &&
      ((List.range 64).all fun t => (d.ring (64 + t)).state == .off || (d.ring (64 + t)).lCring != g - 32) && d.finalsOwed (g - 32) == 0
  else true

/-! ### Doorbells (12 R404, R406) -/

/-- The host index that a doorbell gives, and whether it was clamped. -/
def Ring.doorbellIdx (r : Ring) (g data : Nat) : Nat × Bool :=
  let n2 := 2 * r.n
  let x := data % 2 ^ 17 % n2
  if isComplRing g || isEventRing g then
    -- consumer: never past what the device has written
    if r.n < (r.devIdx + n2 - x) % n2 then (r.devIdx, true) else (x, false)
  else if r.n < (x + n2 - r.devIdx) % n2 then ((r.devIdx + r.n) % n2, true)
  else (x, false)

/-- The entries from a ring's host index up to a new one, as the host has written them (12 R427). -/
def Ring.post (r : Ring) (idx : Nat) (posted : List (Nat × Nat)) : Ring :=
  let more := (idx + 2 * r.n - r.hostIdx) % (2 * r.n)
  { r with posted := (posted.take (if more ≤ r.n then more else 0)).zipIdx.foldl (fun m p => AMap.set m ((r.hostIdx + p.2) % r.n) p.1) r.posted }

/-- A doorbell of a RUNNING ring. -/
def Dev.ringDoorbell (d : Dev) (g data : Nat) (posted : List (Nat × Nat)) : Dev :=
  let r := d.ring g
  let (idx, clamped) := r.doorbellIdx g data
  let arms := bit data 31 && !(isCommandRing g || isTxRing g)
  let d := d.when (isRxRing g) fun d => d.ringM g fun r => r.post idx posted
  let d := d.ringM g fun r => { r with hostIdx := idx, armed := r.armed || arms }
  let d := d.count (cRing g 0) 1
  let d := d.when clamped fun d => d.count (cRing g 1) 1
  d.when (isComplRing g) fun d => d.drainOwed (g - 32)

/-! ### Failed reads (12 R412) -/

/-- A ring entry could not be read. -/
def Dev.entryFailed (d : Dev) (g index : Nat) (poisoned : Bool) : Dev :=
  let d := (d.ringM g fun r => { r with error := true, fetchEnded := true }).post 0x0202 [.index g, .value index, .code (b2n poisoned)]
  if (d.ring g).state == .running then d.stopRing g else d

/-- The frame of a descriptor could not be read. -/
def Dev.frameDataFailed (d : Dev) (r index : Nat) : Dev :=
  match d.hif.tx.find? fun t => t.ring == r && t.index == index && t.stage == .read with
  | none => d
  | some t =>
    let d := d.hifM fun h => { h with tx := h.tx.filter fun t => !(t.ring == r && t.index == index && t.stage == .read) }
    (d.count (cRing (64 + r) 5) 1).complete (d.ring (64 + r)).lCring { kind := 1, status := stFailed, ring := r, cookie := t.cookie, index }

/-- A command still reads host memory: it has not been accepted, or runs on (12 R412). -/
def Cmd.reading (c : Cmd) : Bool := c.stage == .fetched || c.stage == .waiting || c.stage == .long

/-! ### Frames from the host (12 R422 to R426) -/

/-- A TX descriptor as its ring entry gives it. -/
def Dev.descOf (d : Dev) (r : Nat) (raw data : List Byte) : TxDesc :=
  let x := d.ring (64 + r)
  let w := natLE raw
  let mode := bits w 79 78
  let cls := bits w 83 80
  let buddy := bit w 86 && mode == 0
  let port := d.clampLane (bits w 111 96)
  let most := if mode = 1 ∨ buddy = true then 9212 else (d.port port).maxLen - 4
  let len := max 60 (min most (bits w 77 64))
  { ring := r, index := x.devIdx % x.n, mode
    cls := if d.buf.voq then min 7 cls else if x.user then min 11 cls else cls
    ts := bit w 84 && mode == 0, onestep := bit w 85 && mode == 0 && !x.user
    module := buddy, port, cookie := bits w 159 128
    data := Config.padTo len (data.take (min most (bits w 77 64))) }

/-- A descriptor that is rejected: its mode, or a port that does not exist (12 R422, R423). -/
def Dev.descBad (d : Dev) (t : TxDesc) : Bool := decide (2 ≤ t.mode) || (!t.module && !d.portExists t.port)

/-- The device may fetch from a TX ring, of which at most N descriptors are in flight (12 R411, R425). -/
def Dev.mayFetchTx (d : Dev) (r : Nat) : Bool :=
  let x := d.ring (64 + r)
  decide (r < 64) && x.state == .running && !x.fetchEnded && x.waiting != 0 && d.bindRoom (64 + r) &&
    decide ((d.hif.tx.filter fun t => t.ring == r).length < x.n)

/-- The fetch record of a TX ring, while PAIRED (17 R537). -/
def Dev.fetchRecord (d : Dev) (r : Nat) : Dev :=
  if d.bdy.state == .paired then
    let s := d.bdy.nextSeq
    let i := (d.ring (64 + r)).devIdx
    (d.bdyM fun b => { b with nextSeq := s + 1, own := b.own ++ [.fetch s r i] }).emit (.buddyMsg bmFetch [s, r, i])
  else d

/-- The descriptor at a ring's device index was posted before the port that it names began to flush (08 R308 step 2). -/
def Dev.flushedEntry (d : Dev) (t : TxDesc) : Bool :=
  let r := d.ring (64 + t.ring)
  match AMap.find? r.flushMarks t.port with
  | some h =>
    let left := (h + 2 * r.n - r.devIdx) % (2 * r.n)
    t.mode == 0 && !t.module && left != 0 && decide (left ≤ r.n)
  | none => false

/-- The device index of a TX ring passes one entry. -/
def Ring.passEntry (r : Ring) : Ring :=
  let i := (r.devIdx + 1) % (2 * r.n)
  { r with devIdx := i, flushMarks := r.flushMarks.filter fun m => m.2 != i }

/-- A descriptor ends without being dispatched. -/
def Dev.endDesc (d : Dev) (t : TxDesc) (status : Nat) : Dev :=
  d.complete (d.ring (64 + t.ring)).lCring { kind := 1, status, ring := t.ring, cookie := t.cookie, index := t.index }

/-- Mark the descriptor at the head of what a ring has read as dispatched. -/
def markDispatched (r : Nat) : List TxDesc → List TxDesc
  | [] => []
  | t :: l => if t.ring = r ∧ t.stage = .read then { t with stage := .dispatched } :: l else t :: markDispatched r l

/-- A host frame that no port is to send ends at once. -/
def Dev.txNowhere (d : Dev) (t : TxDesc) : Dev :=
  let d := d.hifM fun h => { h with tx := h.tx.filter fun x => !(x.ring == t.ring && x.index == t.index && x.stage == .dispatched) }
  d.complete (d.ring (64 + t.ring)).lCring { kind := 1, status := stOk, ring := t.ring, cookie := t.cookie, index := t.index }

/-- Where a descriptor's frame goes: its bytes, ports, buddy destination and stream. -/
def Dev.txSend (d : Dev) (t : TxDesc) (data : List Byte) (ports : List Nat) (buddy : Option (Nat × Bool)) (stream : Option Nat) : Dev :=
  let o : Origin := { point := ptTx t.ring, ingress := t.port, sof := d.now, tx := some (t.ring, t.index, t.cookie), ts := t.ts, onestep := t.onestep, period := d.bel.seq }
  if ports.isEmpty && buddy.isNone then d.txNowhere t
  else (d.place o t.cls data t.data ports buddy stream).2

/-- A lookup-mode frame for an RX ring (07 R237, R255, R256). -/
def Dev.txPunt (d : Dev) (t : TxDesc) (ring reason aux : Nat) : Dev :=
  d.deliverRx ring { time := d.rxTime t.port d.now, frameLen := t.data.length + 4, port := t.port, module := d.module, cls := t.cls, reason, aux } t.data

/-- Lookup mode: the copy set of the frame, and what its stream does (12 R423, 07 R236, R253 to R256). A frame without a
destination goes to the host as any other (07 R237), and so does one that recovery or generation takes out of its stream. -/
def Dev.txLookup (d : Dev) (t : TxDesc) : Dev :=
  let vid := if d.prs.vid t.data = 0 then (d.fwdPort t.port).pvid else d.prs.vid t.data
  let c := d.copySet t.port (macAt t.data 0) vid
  if c.ports.isEmpty && c.buddy.isNone then ((d.count (cPort t.port 50) 1).txPunt t d.fwd.emptyRing 6 0).txNowhere t
  else
    match c.stream with
    | none => d.txSend t t.data c.ports c.buddy none
    | some h =>
      if c.ports.isEmpty then d.txSend t t.data [] c.buddy c.stream
      else
        let x := d.stream h
        let (v, d) := if x.rcvEn then d.recover h x t.data else (.pass, d)
        match v with
        | .pass =>
          match d.retag h x t.data with
          | (some data, d) => d.txSend t data c.ports c.buddy c.stream
          | (none, d) => (d.txPunt t d.fwd.frerRing 10 h).txSend t t.data [] c.buddy c.stream
        | .eliminate => d.txSend t t.data [] c.buddy c.stream
        | .rogue => (d.txPunt t d.fwd.frerRing 9 h).txSend t t.data [] c.buddy c.stream
        | .untagged => (d.txPunt t d.fwd.frerRing 10 h).txSend t t.data [] c.buddy c.stream

/-- Dispatch of a ring is halted: its class is in XOFF, or its fetch record has not been stored (12 R425, 17 R537). -/
def Dev.txHalted (d : Dev) (t : TxDesc) : Bool :=
  d.xoffNow (ptTx t.ring) t.cls || d.bdy.own.any fun o => match o with | .fetch _ r _ => r == t.ring | .completion _ _ _ => false

/-! ### Events lost, and interrupts (12 R431, R432) -/

/-- An MSI-X vector is raised, or stays pending while its table entry is masked (12 R402). The reset value of an entry is masked. -/
def Dev.raiseVector (d : Dev) (v : Nat) : Dev :=
  if bit (AMap.getD d.hif.msixTable v (2 ^ 96)) 96 then
    d.hifM fun h => { h with msixPending := if h.msixPending.contains v then h.msixPending else v :: h.msixPending }
  else (d.emit (.msix v)).count (cDev (4 + v)) 1

/-! ### Progress of long operations (12 R420, 13 R455) -/

/-- Operations that run from the background pool (11 R379). -/
def backgroundOp (op : Nat) : Bool := op == 0x0A03 || op == 0x0B03 || op == 0x0D01 || op == 0x1003

/-- A long operation reaches a position; one that has an effect on the way has it. -/
def Dev.advance (d : Dev) (c : Cmd) (pos : Nat) : Dev :=
  let p := max c.pos (min pos c.total)
  if c.op = 0x0A03 then d.flushTo c (max c.pos (min p (d.flushPace c)))
  else if c.op = 0x0A0E then d.readPagesTo c p
  else if c.op = 0x0601 then d.cmdM c fun c => { c with pos := d.heldBytes (d.portField c.e) }
  else if c.op = 0x0D01 then
    match List.find? (fun (x : Nat × Retrain) => x.2.command == some (c.e.ring, c.e.tag)) d.drc.retrains with
    | some (k, _) => d.copyTo (k / 2) (k % 2) p
    | none => d
  else if c.op = 0x1003 then
    match List.find? (fun (x : Nat × SubSlot) => x.2.command == some (c.e.ring, c.e.tag)) d.sub.slots with
    | some (k, x) =>
      -- lane kinds move by their steps; a channel by its copy; the others stop before the last location
      if x.kind = 4 then
        match List.find? (fun (y : Nat × Retrain) => y.2.permanent && y.1 / 2 == x.unit / 32 && y.2.logical == x.unit % 32) d.drc.retrains with
        | some (j, _) => d.copyTo (j / 2) (j % 2) p
        | none => d
      else if x.kind ≤ 2 ∨ x.claimed = false then d.cmdM c fun c => { c with pos := x.pos }
      else (d.subM fun s => { s with slots := AMap.upd s.slots k {} fun y => { y with pos := max y.pos (min p (y.total - 1)) } }).cmdM c fun c => { c with pos := max x.pos (min p (x.total - 1)) }
    | none => d
  else d.cmdM c fun c => { c with pos := p }

/-! ### Function-level reset (12 R433 to R435) -/

/-- Put a final completion of kind 0 into the order of ring and tag. -/
def insertCompl (c : Compl) : List Compl → List Compl
  | [] => [c]
  | x :: r => if c.ring * 4096 + c.tag < x.ring * 4096 + x.tag then c :: x :: r else x :: insertCompl c r

/-- Runs of descriptors of one ring with one status become one entry of kind 2 (12 R417, R435). -/
def mergeRuns : List Compl → List Compl
  | [] => []
  | x :: r =>
    let y : Compl := if x.kind = 1 then { x with kind := 2, value := 1, cookie := 0, result := 0 } else x
    match mergeRuns r with
    | [] => [y]
    | z :: l => if y.kind = 2 ∧ z.kind = 2 ∧ y.ring = z.ring ∧ y.status = z.status then { y with value := y.value + z.value } :: l else y :: z :: l

/-- The ledger as it is written: commands by ring and tag, then each ring's descriptors in ring order. Outcomes still to come
(status ST_INTERIM) are left. -/
def ledgerOrder (l : List Compl) : List Compl :=
  let known := l.filter fun c => c.status != 1
  let cmds := (known.filter fun c => c.kind == 0).foldl (fun acc c => insertCompl c acc) []
  cmds ++ (List.range 64).flatMap fun r => mergeRuns (known.filter fun c => c.kind != 0 && c.ring == r)

/-- The ledger entries that TX ring r leaves behind: places for what was dispatched, and the range that was not. -/
def Dev.txLedger (d : Dev) (r : Nat) : List Compl :=
  let mine := d.hif.tx.filter fun t => t.ring == r && t.stage == .dispatched
  let (first, count) := d.undispatched r
  (mine.map fun t => ({ kind := 1, status := 1, ring := r, index := t.index, cookie := t.cookie, module := d.module, ledger := true } : Compl)) ++
    (txRange r first count stAborted).map fun c => { c with module := d.module, ledger := true }

/-- Records of this module that the buddy has not stored yet now lead to the ledger. -/
def OwnRecord.toLedger : OwnRecord → OwnRecord
  | .completion s _ c => .completion s 32 c
  | .fetch s r i => .fetch s r i

/-- The host interface restarts; what it held goes to the ledger (12 R433, R434). Commands that still had to write host memory
have been ended by the caller. -/
def Dev.restartHif (d : Dev) : Dev :=
  let rings := (d.hif.rings.filter fun r => r.2.state != .off).map fun r => (r.1, r.2.state)
  let owed := d.hif.owed.map fun p => { p.2 with ledger := true }
  let tx := (List.range 64).flatMap d.txLedger
  let d := d.hifM fun h => { h with
    rings := [], ledgerRing := 0, msixTable := [], msixPending := [], flr := true, owed := []
    inflight := h.inflight.map fun c => if c.mirrored then c else { c with cring := 32 }
    tx := (h.tx.filter fun t => t.stage == .dispatched).map fun t => { t with ring := t.ring % 64 + 64 }
    ledger := h.ledger ++ owed ++ tx }
  let d := d.bufM fun b => { b with frames := AMap.mapV b.frames fun _ f => { f with tx := f.tx.map fun t => (t.1 % 64 + 64, t.2.1, t.2.2) } }
  let d := d.bdyM fun b => { b with own := b.own.map OwnRecord.toLedger }
  d.each rings fun r d => d.post 0x0201 [.index r.1, .code r.2.code, .code 0]

/-- Write ledger entries into a completion ring while it has room; the rest stay. -/
def Dev.writeLedger (d : Dev) (k : Nat) : List Compl → Dev × List Compl
  | [] => (d, [])
  | c :: r =>
    if (d.ring (32 + k)).room then (d.writeEntry (32 + k) (c.bytes d.bell24)).writeLedger k r
    else (d, c :: r)

end Sys2Proof.Machine
end

