-- ==== Sys2Proof/Machine/Counters.lean ====
section
/-! DEFINITION. The counter block (15): flips, monitors, event counters, windows and readouts. -/

namespace Sys2Proof.Machine

/-- Live peaks restart from the occupancy of the moment (15 R486). -/
def Dev.restartPeaks (d : Dev) : Dev :=
  d.each d.cnt.monitors fun (m, mon) d => d.when mon.live fun d => d.setLive (cMon m 1) (d.occupancy mon.kind mon.index)

/-- A flip of the banks at the bell of a sequence number (15 R486, R504). -/
def Dev.flip (d : Dev) (seq cause : Nat) : Dev :=
  let d := d.cntM fun c => { c with frozen := c.live, frozenMarks := c.liveMarks, liveMarks := [], snapSeq := seq, flippedFor := seq }
  d.restartPeaks.post 0x0F01 [.wide seq, .code cause]

/-- The automatic interval ends at a bell (15 R488). -/
def Dev.autoFlip (d : Dev) (seq : Nat) : Bool := d.cnt.autoBells != 0 && seq % d.cnt.autoBells == 0

/-- A snapshot command takes effect at a bell. -/
def Dev.snapsAt (d : Dev) (seq : Nat) : Bool :=
  d.hif.inflight.any fun c => c.op == 0x0102 && (match c.stage with | .won due => decide (due ≤ seq) | _ => false)

/-- Cause of a flip: 1 command, 2 automatic, 3 both; 0 where there is none. -/
def Dev.flipCause (d : Dev) (seq : Nat) : Nat := b2n (d.snapsAt seq) + 2 * b2n (d.autoFlip seq)

/-- The flip of a bell, if it has not been made (15 R488: both causes give one flip). -/
def Dev.flipAt (d : Dev) (seq : Nat) : Dev :=
  if d.flipCause seq = 0 ∨ d.cnt.flippedFor = seq then d else d.flip seq (d.flipCause seq)

/-- What belongs to the bell cycle whose instant has come, ahead of its BELL row, which does not repeat it: under the number of that bell, and
after its flip (01 R28). -/
def Dev.inNextBell (d : Dev) (f : Dev → Dev) : Dev :=
  if d.now < d.bel.nextAt then d
  else
    let d := d.belM fun b => { b with seq := b.seq + 1 }
    (f (d.flipAt d.bel.seq)).belM fun b => { b with seq := b.seq - 1 }

/-! ### Monitors and event counters (15 R491 to R495) -/

/-- Index of a monitor, clamped to the range of its kind. -/
def Dev.monIndex (d : Dev) (kind i : Nat) : Nat :=
  match kind with
  | 1 => min i (d.glb.part.lanes * 16 - 1)
  | 2 => min i (d.glb.part.lanes * 16 - 1)
  | 7 => min i (d.glb.part.lanes * 16 - 1)
  | 3 => min i 32783
  | 6 => min i 199
  | 8 => min i (d.glb.part.stacks - 1)
  | _ => i

/-- A live value returns to 0 and its mark clears. -/
def Dev.clearLive (d : Dev) (key : Nat) : Dev :=
  d.cntM fun c => { c with live := AMap.erase c.live key, liveMarks := c.liveMarks.filter fun k => k != key }

def applyMonitor (c : Cmd) (d : Dev) : Dev :=
  let e := c.e
  let m := e.f 16 7 0
  let kind := e.f 20 5 2
  let new : Monitor := { en := e.b 20 0, below := e.b 20 1, kind, index := d.monIndex kind (e.f 20 31 16), thresh := e.f 24 31 0 }
  let old := AMap.getD d.cnt.monitors m {}
  let d := d.cntM fun c => { c with monitors := AMap.set c.monitors m new }
  let d := if new == old && new.en then d
    else (d.clearLive (cMon m 0)).setLive (cMon m 1) (if new.live then d.occupancy kind new.index else 0)
  okAfter c d

def cntSetMonitor : CmdSpec where
  op := 0x0F01
  kind := fun _ => .commit
  rank := 11
  check := fun _ e => failsIf (decide (9 ≤ e.f 20 5 2)) (rejField 20 2)
  claims := fun _ e => [claim1 itMonitor (e.f 16 7 0)]
  apply := applyMonitor
  abort := abortPlain

/-- Events that the chapters define: for each block, how many (13 R462, 15 R504, 16 R526, 17 R553, 18 R584). -/
def eventCounts : List (Nat × Nat) :=
  [(2, 5), (3, 5), (4, 5), (5, 2), (6, 3), (7, 8), (8, 7), (9, 2), (10, 5), (11, 7), (12, 1), (13, 9), (14, 7), (15, 1), (16, 6), (17, 8), (18, 2)]

/-- An event number that some chapter defines. -/
def eventKnown (ev : Nat) : Bool := eventCounts.any fun p => p.1 == ev / 256 && decide (1 ≤ ev % 256) && decide (ev % 256 ≤ p.2)

/-- Events whose first record item is not of the index kind (13 R461): they take no filter. -/
def noFilter : List Nat :=
  [0x0204, 0x0205, 0x0301, 0x0302, 0x0303, 0x0401, 0x0402, 0x0403, 0x0404, 0x0901, 0x0902, 0x0A01, 0x0A02, 0x0B01, 0x0B02, 0x0B06, 0x0B07,
    0x0D01, 0x0E01, 0x0E02, 0x0E05, 0x0E06, 0x0F01, 0x1001, 0x1006, 0x1101, 0x1102, 0x1103, 0x1104, 0x1105, 0x1106, 0x1107, 0x1201, 0x1202]

def applyEvCounter (c : Cmd) (d : Dev) : Dev :=
  let e := c.e
  let k := e.f 16 5 0
  let ev := e.f 20 15 0
  let new : EvCounter := { event := ev, en := e.b 20 16, filterEn := e.b 20 17 && !noFilter.contains ev, filter := e.f 24 13 0 }
  let old := AMap.getD d.cnt.evcs k {}
  let d := d.cntM fun c => { c with evcs := AMap.set c.evcs k new }
  okAfter c (if new == old && new.en then d else d.clearLive (cEvc k))

def cntSetEvCounter : CmdSpec where
  op := 0x0F02
  kind := fun _ => .commit
  rank := 11
  check := fun _ e => failsIf (!eventKnown (e.f 20 15 0)) (rejField 20 0)
  claims := fun _ e => [claim1 itEvc (e.f 16 5 0)]
  apply := applyEvCounter
  abort := abortPlain

/-! ### Families, windows and readouts (15 R489, R496 to R503) -/

/-- Members and stride of each family. -/
def families : List (Nat × Nat × Nat) :=
  [(1, 1048576, 2), (2, 1024, 64), (3, 16384, 16), (4, 32784, 4), (5, 1152, 16), (6, 20480, 8), (7, 2048, 4), (8, 262144, 8), (9, 4096, 8),
    (10, 64, 2), (11, 8, 4), (12, 16, 8), (13, 544, 16), (14, 200, 8), (15, 4, 4), (16, 1, 512), (17, 256, 2), (18, 64, 1), (19, 128, 4),
    (20, 18, 4), (21, 16384, 1)]

def familyOf (f : Nat) : Option (Nat × Nat) := (families.find? fun x => x.1 == f).map (·.2)
def famMembers (f : Nat) : Nat := ((familyOf f).map (·.1)).getD 0
def famStride (f : Nat) : Nat := ((familyOf f).map (·.2)).getD 1

/-- First member, clamped to the family's last one. -/
def famFirst (f first : Nat) : Nat := min first (famMembers f - 1)

/-- Value of a bank by family and value index; beyond the family's end 0. -/
def Cnt.value (c : Cnt) (live : Bool) (family v : Nat) : Nat :=
  if v < famMembers family * famStride family then AMap.getD (if live then c.live else c.frozen) (cKey family 0 0 v) 0 else 0

/-- Overflow mark of a value. -/
def Cnt.mark (c : Cnt) (live : Bool) (family v : Nat) : Bool := (if live then c.liveMarks else c.frozenMarks).contains (cKey family 0 0 v)

def cntSetWindow : CmdSpec where
  op := 0x0F03
  check := fun _ e => failsIf (familyOf (e.f 20 4 0)).isNone (rejField 20 0)
  accept := fun c d =>
    let e := c.e
    okAfter c (d.cntM fun x => { x with
      windows := AMap.set x.windows (e.f 16 3 0) ({ en := e.b 16 8, family := e.f 20 4 0, first := famFirst (e.f 20 4 0) (e.f 24 19 0) } : Window) })

/-- Values that a readout takes: the index of the first, and how many. -/
def readRange (e : CmdEntry) : Nat × Nat :=
  (famFirst (e.f 16 4 0) (e.f 20 19 0) * famStride (e.f 16 4 0), clamp 1 4096 (e.f 32 12 0))

/-- Values of a window (15 R496). -/
def windowValues : Nat := 516096

/-- A range lies wholly within one enabled window. -/
def Cnt.granted (c : Cnt) (family first n : Nat) : Bool :=
  c.windows.any fun w => w.2.en && w.2.family == family && decide (w.2.first * famStride family ≤ first) &&
    decide (first + n ≤ w.2.first * famStride family + windowValues)

/-- Bits as bytes, least significant first, padded to whole groups of 8 bytes. -/
def bitBytes (bs : List Bool) : List Byte :=
  bytesLE ((bs.length + 63) / 64 * 8) (bs.foldr (fun b acc => 2 * acc + b2n b) 0)

def acceptReadCounters (c : Cmd) (d : Dev) : Dev :=
  let e := c.e
  let fam := e.f 16 4 0
  let live := e.b 16 8
  let (first, n) := readRange e
  let idx := (List.range n).map (first + ·)
  let head := packRec 64 [(0, 0, 64, if live then d.bel.seq else d.cnt.snapSeq), (8, 0, 13, n), (10, 0, 1, b2n live)]
  d.readOut c e.addr (head ++ (idx.flatMap fun v => bytesLE 8 (d.cnt.value live fam v)) ++ bitBytes (idx.map fun v => d.cnt.mark live fam v)) 0

def cntReadCounters : CmdSpec where
  op := 0x0F04
  user := true
  journal := false
  writes := true
  check := fun _ e => firstOf [failsIf (familyOf (e.f 16 4 0)).isNone (rejField 16 0), e.needsAddr]
  permit := fun d e => failsIf ((d.ring e.ring).user && !d.cnt.granted (e.f 16 4 0) (readRange e).1 (readRange e).2) 0
  accept := acceptReadCounters

def cntSpecs : List CmdSpec := [cntSetMonitor, cntSetEvCounter, cntSetWindow, cntReadCounters]

/-- What a read of one byte of BAR4 returns (15 R496, R497). -/
def Dev.readBar4 (d : Dev) (addr : Nat) : Byte :=
  let w := AMap.getD d.cnt.windows (addr / 0x400000) {}
  let o := addr % 0x400000
  let base := w.first * famStride w.family
  if !w.en then 0
  else if o < 0x3F0000 then d.cnt.value false w.family (base + o / 8) / 256 ^ (o % 8) % 256
  else if o < 0x3FFC00 then sumBy (List.range 8) fun i => b2n (d.cnt.mark false w.family (base + (o - 0x3F0000) * 8 + i)) * 2 ^ i
  else if 0x3FFF00 ≤ o ∧ o < 0x3FFF08 then d.cnt.snapSeq / 256 ^ (o - 0x3FFF00) % 256
  else if 0x3FFF08 ≤ o ∧ o < 0x3FFF10 then (w.family + w.first * 2 ^ 12) / 256 ^ (o - 0x3FFF08) % 256
  else 0

end Sys2Proof.Machine
end

