-- ==== Sys2Proof/Machine/Global.lean ====
section
/-! DEFINITION. The global commands (13 R449 to R453). -/

namespace Sys2Proof.Machine

/-- Member of a buddy pair: a module that BDY.PAIR has brought up and BDY.UNPAIR has not ended. -/
def Dev.inPair (d : Dev) : Bool := d.bdy.state != .off && d.bdy.state != .linking

/-- The Proctor is in its operational state (18 R562). -/
def Dev.approved (d : Dev) : Bool := d.prc.state == .operational

/-- The record of GLB.QUERY, selector 0. -/
def Dev.queryRecord (d : Dev) : List Byte :=
  let p := d.glb.part
  let nStacks := sumBy (List.range p.stacks) fun k => b2n (!(d.stack k).out)
  packRec 64 [(0, 0, 16, p.code), (2, 0, 8, Config.revision), (2, 8, 8, if d.inPair then d.module else 0xFF), (4, 0, 16, p.lanes),
    (6, 0, 16, d.portList.length), (8, 0, 8, p.pipelines), (8, 8, 8, nStacks), (8, 16, 16, p.clusters), (12, 0, 32, d.buf.farTotal),
    (16, 0, 32, d.glb.fwVersion), (20, 0, 1, b2n p.rollcall), (20, 1, 1, b2n d.buf.voq), (20, 2, 1, b2n d.approved), (20, 3, 1, b2n d.inPair),
    (24, 0, 64, d.bel.seq), (32, 0, 64, d.now), (40, 0, 13, d.inflightCount), (40, 16, 7, 64 - d.hif.prog.length)]

/-- State of a command for selector 1. -/
def Cmd.queryState (c : Cmd) : Nat :=
  match c.stage with
  | .fetched => 1
  | .journalled => 1
  | .long => if c.held then 4 else 3
  | _ => 2

def acceptQuery (c : Cmd) (d : Dev) : Dev :=
  let e := c.e
  if e.f 16 1 0 = 0 then d.readOut c e.addr d.queryRecord 0
  else
    match d.cmdAt (e.f 20 4 0) (e.f 20 27 16) with
    | some t => d.finish c stOk (t.queryState + (if t.stage == .long then t.bp else 0) * 2 ^ 16)
    | none => d.finish c stOk 0

def glbQuery : CmdSpec where
  op := 0x0101
  user := true
  journal := false
  writes := true
  check := fun _ e => firstOf [failsIf (decide (2 ≤ e.f 16 1 0)) (rejField 16 0), if e.f 16 1 0 = 0 then e.needsAddr else none]
  accept := acceptQuery

/-- The banks have been flipped ahead of every commit of the bell (13 R450). -/
def glbSnapshot : CmdSpec where
  op := 0x0102
  kind := fun _ => .commit
  pairWide := true
  rank := 10
  apply := fun c d => d.finish c stOk (d.bel.seq % 2 ^ 32)
  abort := abortPlain

/-- Commands that a barrier waits for: accepted before it, in its scope. -/
def Dev.awaited (d : Dev) (c : Cmd) : List (Nat × Nat) :=
  let all := c.e.b 16 0
  let skip := c.e.b 16 1
  (d.hif.inflight.filter fun x =>
    !x.mirrored && !x.same c && x.stage != .fetched && x.stage != .journalled && (all || x.e.ring == c.e.ring) && !(skip && x.stage == .long)).map
      fun x => (x.e.ring, x.e.tag)

def acceptBarrier (c : Cmd) (d : Dev) : Dev :=
  let w := d.awaited c
  if w.isEmpty then d.finish c stOk 0 else d.cmdM c fun c => { c with waits := w, waited := w.length }

def glbBarrier : CmdSpec where
  op := 0x0103
  kind := fun _ => .waiting
  user := true
  accept := acceptBarrier
  abort := abortPlain

def acceptHold (c : Cmd) (d : Dev) : Dev :=
  match d.cmdAt (c.e.f 16 4 0) (c.e.f 16 27 16) with
  | some t => okAfter c (d.cmdM t fun t => { t with held := c.e.b 20 0 })
  | none => okAfter c d

/-- A running long operation that can be held. -/
def Dev.holdable (d : Dev) (e : CmdEntry) : Bool :=
  match d.cmdAt (e.f 16 4 0) (e.f 16 27 16) with
  | some t => t.stage == .long && t.op != 0x0601
  | none => false

def glbHoldOp : CmdSpec where
  op := 0x0104
  permit := fun d e => failsIf (!d.holdable e) 0
  accept := acceptHold

/-- A user ring may name its own ring only, and no abort can be aborted (13 R453). -/
def Dev.abortBarred (d : Dev) (e : CmdEntry) : Bool :=
  ((d.ring e.ring).user && e.f 16 4 0 != e.ring) ||
    (match d.cmdAt (e.f 16 4 0) (e.f 16 27 16) with | some t => t.op == 0x0105 && !(t.e.ring == e.ring && t.e.tag == e.tag) | none => false)

/-- GLB.ABORT, given what every other opcode is (13 R453, R454). -/
def glbAbort (specOf : Nat → Option CmdSpec) : CmdSpec where
  op := 0x0105
  kind := fun _ => .waiting
  user := true
  permit := fun d e => failsIf (d.abortBarred e) 0
  accept := fun c d =>
    match d.cmdAt (c.e.f 16 4 0) (c.e.f 16 27 16) with
    | none => d.finish c stOk 0
    | some t =>
      if t.same c then d.finish c stNotPermitted 0
      else if t.stage == .fetched || t.stage == .journalled then (d.finish t stAborted 0).finish c stOk 1
      else
        match (specOf t.op).bind fun sp => sp.abort t d with
        | some d => d.finish c stOk 1
        | none => d.finish c stNotPermitted 0

def glbSpecs : List CmdSpec := [glbQuery, glbSnapshot, glbBarrier, glbHoldOp]

end Sys2Proof.Machine
end

