-- ==== Sys2Proof/Machine/Substitutes.lean ====
section
/-! DEFINITION. Substitutes and wear (16): wear levels, claims of spares, copies, cut-overs and their commands. -/

namespace Sys2Proof.Machine

/-! ### Units (16 R505) -/

/-- A near-store bank, a pipeline, a table block: at cold reset in service under its own number, or spare. -/
def Dev.bank (d : Dev) (b : Nat) : SpareUnit := AMap.getD d.sub.banks b { state := b2n (decide (b < 64)), logical := b }
def Dev.pipe (d : Dev) (p : Nat) : SpareUnit := AMap.getD d.sub.pipes p { state := b2n (decide (p < 16)), logical := p }
def Dev.tableBlock (d : Dev) (t : Nat) : SpareUnit := AMap.getD d.sub.tables t { state := b2n (decide (t < 240)), logical := t }

/-- A unit of the three kinds that copies serve: 3 banks, 5 pipelines, 6 table blocks. -/
def Dev.unitAt (d : Dev) (kind u : Nat) : SpareUnit := if kind = 3 then d.bank u else if kind = 5 then d.pipe u else d.tableBlock u
def Dev.setUnit (d : Dev) (kind u : Nat) (x : SpareUnit) : Dev :=
  d.subM fun s =>
    if kind = 3 then { s with banks := AMap.set s.banks u x }
    else if kind = 5 then { s with pipes := AMap.set s.pipes u x }
    else { s with tables := AMap.set s.tables u x }

/-- Units of those kinds. -/
def unitCount (kind : Nat) : Nat := if kind = 3 then 68 else if kind = 5 then 17 else 256

/-- A buddy lane at cold reset and at pairing: lanes 0 to 15 hold their own position (17 R529, R552). -/
def buddyLane0 (k : Nat) : BuddyLane := { position := if k < 16 then k else 31 }

def Dev.buddyLane (d : Dev) (k : Nat) : BuddyLane := AMap.getD d.bdy.lanes k (buddyLane0 k)
def Dev.buddyLaneM (d : Dev) (k : Nat) (f : BuddyLane → BuddyLane) : Dev :=
  d.bdyM fun b => { b with lanes := AMap.upd b.lanes k (buddyLane0 k) f }

def Dev.slotOf (d : Dev) (k : Nat) : SubSlot := AMap.getD d.sub.slots k {}
def Dev.slotM (d : Dev) (k : Nat) (f : SubSlot → SubSlot) : Dev :=
  d.subM fun s => { s with slots := AMap.upd s.slots k {} f }

/-- A substitution of a unit is running. -/
def Dev.substituting (d : Dev) (kind u : Nat) : Bool := d.sub.slots.any fun x => x.2.kind == kind && x.2.unit == u

/-- A unit is in service (16 R505, R511). -/
def Dev.unitInService (d : Dev) (kind u : Nat) : Bool :=
  match kind with
  | 1 => d.isZuben u
  | 2 => (d.buddyLane u).position != 31
  | 4 => d.chanInService (u / 32) (u % 32)
  | _ => (d.unitAt kind u).state == 1

/-- Spare unit that a substitution of a unit would claim (16 R505). A split keeps its own spare lane (16 R517). -/
def Dev.spareFor (d : Dev) (kind u : Nat) : Option Nat :=
  match kind with
  | 1 =>
    let c := d.cluster (u / 8)
    if c.spareState = 0 ∨ (c.spareState = 3 ∧ c.replaces = u % 8) then some (u / 8) else none
  | 2 => [16, 17, 0, 1, 2, 3, 4, 5, 6, 7, 8, 9, 10, 11, 12, 13, 14, 15].find? fun k =>
      (d.buddyLane k).position == 31 && !(d.sub.slots.any fun x => x.2.kind == 2 && x.2.claimed && x.2.spare == k)
  | 4 => d.spareChan (u / 32)
  | _ => (List.range (unitCount kind)).find? fun s => (d.unitAt kind s).state == 0

/-! ### Wear (16 R506 to R510) -/

def Dev.wear (d : Dev) (kind unit : Nat) : Wear := AMap.getD d.sub.wear (wearKey kind unit) {}

/-- Lower values are worse for the eye margins. -/
def lowerWorse (kind : Nat) : Bool := decide (kind < 2)

/-- A value is worse than a threshold; a threshold of 0 disables its level (16 R507). -/
def worseThan (kind : Nat) (v : Int) (t : Nat) : Bool := t != 0 && (if lowerWorse kind then decide (v < t) else decide ((t : Int) < v))

/-- A value is better than a threshold by an eighth of it. -/
def wellBetter (kind : Nat) (v : Int) (t : Nat) : Bool :=
  t == 0 || (if lowerWorse kind then decide (9 * (t : Int) ≤ 8 * v) else decide (8 * v ≤ 7 * (t : Int)))

/-- A run of consecutive evaluations, counted up to the persistence. -/
def runStep (persist run : Nat) (hit : Bool) : Nat := if hit then min persist (run + 1) else 0

/-- One evaluation of a unit (16 R507). -/
def Wear.evaluate (w : Wear) (kind persist report act : Nat) (v : Int) : Wear :=
  let r := runStep persist w.worse (worseThan kind v report)
  let a := runStep persist w.worseAct (worseThan kind v act)
  let b := runStep persist w.better (w.level != 0 && wellBetter kind v (if w.level = 2 then act else report))
  let w := { w with value := v, worse := r, worseAct := a, better := b }
  if w.level < 2 ∧ persist ≤ a then { w with level := 2, better := 0 }
  else if w.level = 0 ∧ persist ≤ r then { w with level := 1, better := 0 }
  else if w.level ≠ 0 ∧ persist ≤ b then { w with level := w.level - 1, better := 0 }
  else w

/-- Unit kind and unit that a monitored unit stands for, if it is one in service. Monitored lanes are lane indexes 0 to 1,151, then
buddy lanes from 1,152; monitored channels are physical. -/
def Dev.unitOf (d : Dev) (kind u : Nat) : Option (Nat × Nat) :=
  match kind with
  | 2 => if (d.chan u).holds then some (4, u / 34 * 32 + (d.chan u).logical) else none
  | 3 => if (d.bank u).state = 1 ∨ (d.bank u).state = 2 then some (3, u) else none
  | 4 => if (d.pipe u).state = 1 ∨ (d.pipe u).state = 2 then some (5, u) else none
  | 5 => some (0, u)
  | 6 => if (d.tableBlock u).state = 1 ∨ (d.tableBlock u).state = 2 then some (6, u) else none
  | _ =>
    if 1152 ≤ u then (if (d.buddyLane (u - 1152)).position = 31 then none else some (2, u - 1152))
    else if 1024 ≤ u then (if (d.cluster (u - 1024)).spareState = 2 then some (1, (u - 1024) * 8 + (d.cluster (u - 1024)).replaces) else none)
    else if (d.lane u).use = 0 ∨ d.carrier u = u then some (1, u) else none

/-- A unit that a monitor kind watches, and that the variant has (16 R506). -/
def Dev.monitored (d : Dev) (kind u : Nat) : Bool :=
  match kind with
  | 2 => decide (u < 34 * d.glb.part.stacks)
  | 3 => decide (u < 68)
  | 4 => decide (u < d.glb.part.pipelines) || u == 16
  | 5 => decide (u < d.glb.part.quads)
  | 6 => decide (u < 256)
  | _ => d.hasLane u || isBuddyIx u

/-- What a monitor kind reads of a unit: eye margins and CEs of a scrub cycle as the module holds them; the CEs of a window, the slowdown and
the drift, a signed value, as measured (16 R506, R522). -/
def Dev.wearValue (d : Dev) (kind u measured : Nat) : Int :=
  match kind with
  | 0 => (d.lane u).vert
  | 1 => (d.lane u).horiz
  | 2 => (d.chan u).ceLast
  | 5 => signed 16 measured
  | _ => measured

/-- Kinds whose evaluation follows a reading that the module holds; the others are evaluated at their interval. -/
def readingKind (kind : Nat) : Bool := decide (kind < 3)

/-- Time between evaluations of the other kinds: window_s for CEs, one second for the slowdown and the drift (16 R506). -/
def Dev.wearInterval (d : Dev) (kind : Nat) : Nat := (if kind = 3 ∨ kind = 6 then d.sub.windowS else 1) * qPerS

/-- Policy of a unit kind: two bits each (16 R522). -/
def Sub.policyOf (s : Sub) (kind : Nat) : Nat := bits s.policy (2 * kind - 1) (2 * kind - 2)

/-- Why a unit at level 2 cannot be substituted: 1 not at all, 2 report only, 0 no spare (16 R510). -/
def Dev.whyNot (d : Dev) (kind u : Nat) : Option Nat :=
  if kind = 0 ∨ (kind = 1 ∧ d.isZuben u = false) then some 1
  else if d.sub.policyOf kind = 0 then some 2
  else if (d.spareFor kind u).isNone then some 0
  else none

/-- A unit has reached level 2 (16 R509, R510). -/
def Dev.reachedAct (d : Dev) (kind u : Nat) : Dev :=
  match d.unitOf kind u with
  | none => d
  | some (k, x) =>
    if d.substituting k x then d
    else
      match d.whyNot k x with
      | some cause => (d.count (cDev 289) 1).post 0x1006 [.code kind, .index u, .code cause]
      | none =>
        if d.sub.policyOf k = 2 ∧ d.sub.autoDue.contains (k, x) = false then d.subM fun s => { s with autoDue := s.autoDue ++ [(k, x)] } else d

/-- Unit index that an event carries (16 R505): a channel in service by stack and logical channel. -/
def Dev.eventUnit (d : Dev) (kind u : Nat) : Nat :=
  if kind = 2 ∧ (d.chan u).holds = true then u / 34 * 32 + (d.chan u).logical else u

/-- One evaluation falls due for a unit (16 R507). -/
def Dev.evaluateWear (d : Dev) (kind u measured : Nat) : Dev :=
  let v := d.wearValue kind u measured
  let t := nth d.sub.thresh kind (0, 0)
  let old := d.wear kind u
  let new := { old.evaluate kind d.sub.persist t.1 t.2 v with fresh := false, lastAt := some d.now }
  let d := d.subM fun s => { s with wear := AMap.set s.wear (wearKey kind u) new }
  if new.level = old.level then d
  else
    let d := d.post 0x1001 [.code kind, .index (d.eventUnit kind u), .code old.level, .code new.level, .value (twos 32 v)]
    let d := d.when (decide (kind < 2) && decide (u < 1152)) fun d => d.count (cCluster (if u < 1024 then u / 8 else u - 1024) 0) 1
    if new.level = 2 then d.reachedAct kind u else d

/-! ### Claims (16 R511) -/

/-- Total of a substitution (13 R456, R458). -/
def subTotal (kind u : Nat) : Nat :=
  match kind with
  | 3 => 65536 | 4 => copyKib | 5 => Config.pipeTotal u % 2 ^ 32 + 1 | 6 => Config.tableTotal u % 2 ^ 32 + 1 | _ => 4

/-- The claimed spare starts to take what the worn unit takes. -/
def Dev.beginCopy (d : Dev) (k kind u spare : Nat) : Option Dev :=
  match kind with
  | 1 =>
    let split := (d.cluster spare).spareState == 3
    let d := d.clusterM spare fun c => { c with spareState := 1, replaces := u % 8, seen := true }
    let up := (d.lane (1024 + spare)).state == .up
    let d := if split then d else d.laneTo (1024 + spare) .waitSignal fun x => { x with signal := false, cdrLock := false, blockLock := false }
    some (d.slotM k fun x => { x with step := b2n (split && up), pos := b2n (split && up) })
  | 2 => some (d.laneTo (buddyIx spare) .waitSignal fun x => { x with signal := false, cdrLock := false, blockLock := false })
  | 4 => (d.claimChannel (u / 32) (u % 32) true (d.slotOf k).command).map fun d => d.slotM k fun x => { x with step := 5 }
  | _ => some (((d.setUnit kind u { d.unitAt kind u with state := 2 }).setUnit kind spare { d.unitAt kind spare with state := 2, logical := (d.unitAt kind u).logical }).slotM k fun x => { x with step := 5 })

/-- The spare of slot k is claimed; none where no spare is free. -/
def Dev.subClaim (d : Dev) (k : Nat) : Option Dev :=
  let x := d.slotOf k
  match d.spareFor x.kind x.unit with
  | none => none
  | some sp =>
    (d.beginCopy k x.kind x.unit sp).map fun d =>
      let d := (d.slotM k fun y => { y with claimed := true, spare := sp }).count (cDev 284) 1
      let d := d.when x.auto fun d => d.count (cDev 288) 1
      d.post 0x1002 [.index k, .code x.kind, .index x.unit, .code (b2n x.auto)]

/-- Lowest free substitution slot. -/
def Dev.freeSlot (d : Dev) : Option Nat := (List.range 8).find? fun k => (AMap.find? d.sub.slots k).isNone

/-- Slot of a SUB.SUBSTITUTE. -/
def Dev.slotOfCmd (d : Dev) (c : Cmd) : Option (Nat × SubSlot) :=
  List.find? (fun (x : Nat × SubSlot) => x.2.command == some (c.e.ring, c.e.tag)) d.sub.slots

/-- A substitution command claims at its bell; without a spare it ends, not permitted. -/
def Dev.claimSub (d : Dev) (c : Cmd) : Dev :=
  match d.slotOfCmd c with
  | none => d
  | some (k, _) =>
    match d.subClaim k with
    | some d => d
    | none => (d.subM fun s => { s with slots := AMap.erase s.slots k }).finish c stNotPermitted 0

/-- Commands that claim at this bell. -/
def Dev.subClaims (d : Dev) : List Cmd :=
  d.hif.inflight.filter fun c => c.op == 0x1003 && c.stage == .long && (match d.slotOfCmd c with | some (_, x) => !x.claimed | none => false)

/-- Two retrains or substitutions run in a stack already (10 R363). -/
def Dev.stackBusy (d : Dev) (k : Nat) : Bool := (d.slotWhere k fun x => x.phase == 0).isNone

/-- Monitor kind and number under which a unit of a kind stands at level 2. -/
def Dev.wornMonitor (d : Dev) (kind u : Nat) : Nat × Nat :=
  match List.find? (fun (w : Nat × Wear) => w.2.level == 2 && d.unitOf (w.1 / 4096) (w.1 % 4096) == some (kind, u)) d.sub.wear with
  | some w => (w.1 / 4096, w.1 % 4096)
  | none => (0, u)

/-- An automatic substitution that is due starts at its bell, as a fault action. It waits for a slot, and in a stack for one of the two
places (16 R509, R511). -/
def Dev.autoStart (d : Dev) (kind unit : Nat) : Dev :=
  match if d.sub.autoDue.contains (kind, unit) && !(kind == 4 && d.stackBusy (unit / 32)) then d.freeSlot else none with
  | none => d
  | some k =>
    let gone := d.subM fun s => { s with autoDue := s.autoDue.filter fun x => x != (kind, unit) }
    if d.substituting kind unit || !d.unitInService kind unit then gone
    else
      let d := gone.slotM k fun _ => { kind, auto := true, unit, total := subTotal kind unit, deadline := d.now + d.sub.autoAgree * qPerS }
      -- a buddy lane needs the buddy to do the same (16 R515)
      let d := d.when (kind == 2) fun d => d.emit (.buddyMsg bmPair [kind, unit])
      match d.subClaim k with
      | some d => d
      | none =>
        let m := gone.wornMonitor kind unit
        ((gone.count (cDev 289) 1).post 0x1006 [.code m.1, .index (gone.eventUnit m.1 m.2), .code 0])

/-! ### Steps, copies and cut-overs (16 R513 to R517) -/

/-- A substitution stands while its command is held (16 R512). -/
def Dev.subHeld (d : Dev) (x : SubSlot) : Bool :=
  match x.command with
  | some (r, t) => (match d.cmdAt r t with | some c => c.held | none => false)
  | none => false

/-- The units of a substitution return to what they were (16 R517, R521). -/
def Dev.undoSub (d : Dev) (x : SubSlot) : Dev :=
  if !x.claimed then d
  else
    match x.kind with
    | 1 => d.spareBack x.spare
    | 2 => d.laneTo (buddyIx x.spare) .off fun y => { y with signal := false, cdrLock := false, blockLock := false }
    | 4 =>
      match List.find? (fun (y : Nat × Retrain) => y.2.permanent && y.1 / 2 == x.unit / 32 && y.2.logical == x.unit % 32) d.drc.retrains with
      | some (j, _) => d.dropCopySlot (j / 2) (j % 2)
      | none => d
    | k => (d.setUnit k x.unit { d.unitAt k x.unit with state := 1 }).setUnit k x.spare { d.unitAt k x.spare with state := 0, logical := x.spare }

/-- A cut-over takes effect: posted, and the substitution is done. -/
def Dev.subDone (d : Dev) (k worn spare : Nat) : Dev :=
  let x := d.slotOf k
  (d.post 0x1003 [.index k, .code x.kind, .index worn, .index spare]).subEnd k stOk 0

/-- The receive side of a lane moves to the spare lane (16 R516); a spare lane out of SYNC leaves a split (16 R517). -/
def Dev.cutLane (d : Dev) (k : Nat) (x : SubSlot) : Dev :=
  let l := x.unit
  let i := 1024 + x.spare
  if (d.zlane i).align != .sync then
    (d.clusterM x.spare fun c => { c with spareState := 3 }).subEnd k stFailed 3
  else
    let d := d.clusterM x.spare fun c => { c with spareState := 2 }
    let d := d.laneM i fun y => { y with use := 2, replaces := l, port := (d.lane l).port }
    let d := d.subM fun s => { s with linger := AMap.set s.linger l (d.now + s.lingerMs * qPerMs) }
    let d := (d.count (cCluster x.spare 1) 1).slotM k fun x => { x with step := 4, pos := 4 }
    (d.superviseLane l).subDone k l i

/-- The position of a buddy lane moves to the spare buddy lane, which must be in SYNC (16 R516, R517). -/
def Dev.cutBuddyLane (d : Dev) (k : Nat) (x : SubSlot) : Dev :=
  let p := (d.buddyLane x.unit).position
  if (d.zlane (buddyIx x.spare)).align != .sync then d.subEnd k stFailed 3
  else
    let d := (d.buddyLaneM x.spare fun y => { y with position := p }).buddyLaneM x.unit fun y => { y with position := 31 }
    let d := d.subM fun s => { s with linger := AMap.set s.linger (buddyIx x.unit) (d.now + s.lingerMs * qPerMs) }
    (d.slotM k fun x => { x with step := 4, pos := 4 }).subDone k x.unit x.spare

/-- The spare takes the worn unit's place; the worn unit is retired. -/
def Dev.cutUnit (d : Dev) (k : Nat) (x : SubSlot) : Dev :=
  let logical := (d.unitAt x.kind x.unit).logical
  let d := (d.setUnit x.kind x.unit { d.unitAt x.kind x.unit with state := 3 }).setUnit x.kind x.spare { d.unitAt x.kind x.spare with state := 1, logical }
  (d.slotM k fun x => { x with pos := x.total }).subDone k x.unit x.spare

/-- A lane cut-over is due at a bell: its target, and 1 ms after agreement (16 R516). -/
def SubSlot.laneDue (x : SubSlot) (now : Nat) : Bool :=
  x.step == 3 && decide (x.agreedAt + qPerMs ≤ now) && decide (x.target * qPerNs ≤ now)

/-- Substitutions that a bell may cut over: claimed, and not held. -/
def Dev.subsAtBell (d : Dev) : AMap SubSlot := d.sub.slots.filter fun s => s.2.claimed && !d.subHeld s.2

/-- One of them cuts over where that is due. The substitution of a channel ends with its cut-over. -/
def Dev.subTurn (s : Nat × SubSlot) (d : Dev) : Dev :=
  let k := s.1
  let x := s.2
  if x.kind = 1 then (if x.laneDue d.now then d.cutLane k x else d)
  else if x.kind = 2 then (if x.laneDue d.now then d.cutBuddyLane k x else d)
  else if x.step ≠ 6 then d
  else if x.kind = 4 then
    match List.find? (fun (y : Nat × Retrain) => y.2.permanent && y.1 / 2 == x.unit / 32 && y.2.logical == x.unit % 32) d.drc.retrains with
    | some (j, y) => (d.cutChannel (j / 2) (j % 2)).subDone k (34 * (x.unit / 32) + y.source) (34 * (x.unit / 32) + y.target)
    | none => d
  else d.cutUnit k x

/-- Item 3 of 01 R28: the substitutions whose cut-over is due. -/
def Dev.subCuts (d : Dev) : Dev := d.each d.subsAtBell Dev.subTurn

/-! ### Commands (16 R523 to R525) -/

def acceptThreshold (c : Cmd) (d : Dev) : Dev :=
  let k := c.e.f 16 2 0
  let report := c.e.f 20 15 0
  let act := c.e.f 20 31 16
  let act := if lowerWorse k then min act report else max act report
  okAfter c (d.subM fun s => { s with thresh := s.thresh.set k (report, act) })

def subSetThreshold : CmdSpec where
  op := 0x1001
  check := fun _ e => failsIf (e.f 16 2 0 == 7) (rejField 16 0)
  accept := acceptThreshold

/-- A unit at level 2 whose policy has become automatic is due at the next bell (16 R524). -/
def Dev.dueAuto (d : Dev) (kind u : Nat) : Dev :=
  match d.unitOf kind u with
  | some x => if d.substituting x.1 x.2 || !d.unitInService x.1 x.2 || d.sub.autoDue.contains x then d else d.subM fun s => { s with autoDue := s.autoDue ++ [x] }
  | none => d

/-- Units of a kind at level 2, as monitored. -/
def Dev.wornUnits (d : Dev) (kind : Nat) : List (Nat × Nat) :=
  (d.sub.wear.filter fun w => w.2.level == 2 && (match d.unitOf (w.1 / 4096) (w.1 % 4096) with | some (k, _) => k == kind | none => false)).map
    fun w => (w.1 / 4096, w.1 % 4096)

def acceptPolicy (c : Cmd) (d : Dev) : Dev :=
  let old := d.sub
  let d := d.subM fun s => { s with policy := c.e.f 16 11 0, autoAgree := max 1 (c.e.f 20 7 0) }
  let turned := [1, 2, 3, 4, 5, 6].filter fun k => d.sub.policyOf k == 2 && old.policyOf k != 2
  okAfter c (d.each turned fun k d => d.each (d.wornUnits k) fun u d => d.dueAuto u.1 u.2)

def subSetPolicy : CmdSpec where
  op := 0x1002
  check := fun _ e => firstOf ([1, 2, 3, 4, 5, 6].map fun k => failsIf (bits (e.f 16 11 0) (2 * k - 1) (2 * k - 2) == 3) (rejField 16 (2 * k - 2)))
  accept := acceptPolicy

/-- Unit field of SUB.SUBSTITUTE, clamped under 00 R3. -/
def Dev.unitField (d : Dev) (e : CmdEntry) : Nat :=
  let p := d.glb.part
  let u := e.f 16 25 16
  match e.f 16 2 0 with
  | 1 => min u (p.lanes - 1) | 2 => min u 17 | 3 => min u 67 | 4 => min u (p.stacks * 32 - 1) | 5 => min u (p.pipelines - 1) | _ => min u 255

def acceptSubstitute (c : Cmd) (d : Dev) : Dev :=
  let e := c.e
  let kind := e.f 16 2 0
  let u := d.unitField e
  let total := subTotal kind u
  let d := d.cmdM c fun c => { c with total }
  match d.freeSlot with
  | none => d
  | some k =>
    d.slotM k fun _ => { kind, unit := u, spare := if kind = 1 then u / 8 else 0, total, target := e.f 24 63 0
                         deadline := d.now + clamp 10 60000 (e.f 20 15 0) * qPerMs, command := if c.mirrored then none else some (e.ring, e.tag) }

/-- Conditions of 16 R511. -/
def Dev.mayNotSub (d : Dev) (e : CmdEntry) : Bool :=
  let kind := e.f 16 2 0
  let u := d.unitField e
  d.freeSlot.isNone || !d.unitInService kind u || d.substituting kind u || (kind == 4 && d.stackBusy (u / 32))

/-- Abort: a lane until step 3, a copy until its cut-over (16 R521). -/
def abortSubstitute (c : Cmd) (d : Dev) : Option Dev :=
  match d.slotOfCmd c with
  | none => none
  | some (k, x) => if x.kind ≤ 2 ∧ 3 ≤ x.step then none else some ((d.undoSub x).subEnd k stAborted 0)

def subSubstitute : CmdSpec where
  op := 0x1003
  kind := fun _ => .long
  check := fun d e => firstOf [failsIf (e.f 16 2 0 == 0 || e.f 16 2 0 == 7) (rejField 16 0),
    failsIf (e.f 16 2 0 == 4 && (d.stack (d.unitField e / 32)).out) (rejField 16 16)]
  permit := fun d e => failsIf (d.mayNotSub e) 0
  accept := acceptSubstitute
  abort := abortSubstitute

def subSpecs : List CmdSpec := [subSetThreshold, subSetPolicy, subSubstitute]

end Sys2Proof.Machine
end

