-- ==== Sys2Proof/Machine/Buddy.lean ====
section
/-! DEFINITION. The buddy pair (17): link, states, heartbeats, transit frames, rejoin data, and the BDY commands. The rows that
accept or settle commands of both modules are in Journal. -/

namespace Sys2Proof.Machine

/-! ### States (17 R543) -/

/-- The pair changes state: posted. -/
def Dev.setPair (d : Dev) (new : PairState) : Dev :=
  let old := d.bdy.state
  if old == new then d
  else (d.bdyM fun b => { b with state := new }).post 0x1101 [.code old.code, .code new.code]

/-- A buddy lane starts over, or stops. -/
def Dev.buddyLaneTo (d : Dev) (k : Nat) (new : LaneState) : Dev :=
  d.laneTo (buddyIx k) new fun x => { x with signal := false, cdrLock := false, blockLock := false }

/-- Buddy lanes that hold a position (17 R529). -/
def Dev.positions (d : Dev) : List Nat := (List.range 18).filter fun k => (d.buddyLane k).position != 31

/-- A buddy lane in SYNC holds position p (17 R529). -/
def Dev.positionHeld (d : Dev) (p : Nat) : Bool :=
  (List.range 18).any fun k => (d.buddyLane k).position == p && (d.lane (buddyIx k)).state == .up && (d.zlane (buddyIx k)).align == .sync

/-- Every position is held by a lane in SYNC (17 R529). -/
def Dev.linkWhole (d : Dev) : Bool :=
  d.positions.length == 16 && d.positions.all fun k => (d.lane (buddyIx k)).state == .up && (d.zlane (buddyIx k)).align == .sync

/-- The link stops: its lanes are off. -/
def Dev.linkOff (d : Dev) : Dev :=
  (d.each (List.range 18) fun k d => d.buddyLaneTo k .off).bdyM fun b => { b with linkUp := false }

/-- FDB entries that name the other module are removed (17 R545, R546, R550). -/
def Dev.dropOtherModule (d : Dev) (fault : Bool) : Dev := d.fdbRemove fault fun e => !e.group && e.module != d.module

/-- Copies queued for the buddy link are flushed under reason 3 (17 R545, R546, 08 R304). -/
def Dev.flushBuddyTx (d : Dev) : Dev :=
  let gone := d.bdy.txq
  let d := d.bdyM fun b => { b with txq := [] }
  d.each gone fun c d => ((d.count (cDev (296 + c.cls)) 1).count (cDev 265) 1).dropCopy { frame := c.frame } false

/-- The shadow's pages are given back. -/
def Dev.freeShadow (d : Dev) : Dev :=
  if d.bdy.shadowReserved then
    (d.bufM fun b => { b with farReserved := b.farReserved - 4096 }).keptFreed.farFreed.bdyM fun b => { b with shadowReserved := false, shadow := [] }
  else d

/-- Completions that waited for the buddy are written at once, in their order (17 R537, R545). -/
def Dev.releaseOwn (d : Dev) : Dev :=
  let own := d.bdy.own
  let d := d.bdyM fun b => { b with own := [] }
  d.each own fun o d => match o with | .completion _ k c => d.deliver k c | .fetch _ _ _ => d

/-! ### Configuration that both modules must share (17 R539) -/

/-- The values that a heartbeat carries, bits 0 to 5. -/
def Dev.sharedRegs (d : Dev) : List Nat :=
  [d.bel.slew + d.bel.guard * 2 ^ 8 + b2n d.bel.stepEn * 2 ^ 16, d.bel.stepThresh, d.fwd.age,
    d.prs.tpid + b2n d.prs.tpidEn * 2 ^ 16, d.cnt.autoBells, d.buf.holddown]

/-- Registers that differ from those of the last heartbeat. -/
def Dev.cfgDiff (d : Dev) : Nat :=
  match d.bdy.summary with
  | none => 0
  | some h => (List.range 6).foldl (fun acc k => acc + b2n (nth d.sharedRegs k 0 != nth h.regs k 0) * 2 ^ k) 0

/-- BDY_STATUS.cfg_mismatch follows; an end after the event is posted. -/
def Dev.cfgLook (d : Dev) : Dev :=
  let on := d.cfgDiff != 0
  let d := d.bdyM fun b => { b with cfgMismatch := on, cfgBells := if on then b.cfgBells else 0 }
  if !on && d.bdy.cfgPosted then (d.bdyM fun b => { b with cfgPosted := false }).post 0x1107 [.set d.bdy.cfgSet] else d

/-! ### Heartbeats (17 R540 to R544) -/

/-- Offset and delay of the latest exchange (17 R542). The buddy gives the arrival of the own heartbeat that left before the bell
of its own. -/
def Dev.exchange (d : Dev) (h : Heartbeat) : Dev :=
  let t1 : Int := ((if h.bellTai ≤ d.bel.lastTai then d.bdy.sentPrev else d.bdy.sentAt : Nat) : Int)
  let fwd : Int := (h.prevArrived : Int) - t1
  let back : Int := (h.arrived : Int) - (h.sent : Int)
  d.bdyM fun b => { b with offset := divFloor (fwd - back) 2, delay := divFloor (fwd + back) 2 }

/-- Completion records whose completions the buddy has written need no longer be kept (17 R547). -/
def Dev.trimStored (d : Dev) (mark : Nat) : Dev := d.bdyM fun b => { b with stored := b.stored.filter fun x => decide (mark < x.1) }

/-- The counts of 17 R544 and of the level bits, at a bell. -/
def Dev.heartbeatCounts (d : Dev) : Dev :=
  let beat := d.bdy.linkSeen || (d.bdy.beatSeen && d.bdy.beatEn)
  let counting := d.bdy.state == .paired || d.bdy.state == .isolated
  d.bdyM fun b => { b with
    linkMissed := if counting then (if b.linkSeen then 0 else satTo 255 (b.linkMissed + 1)) else b.linkMissed
    missed := if counting then (if beat then 0 else min 3 (b.missed + 1)) else b.missed
    backBells := if b.state == .isolated && b.linkSeen then b.backBells + 1 else 0
    skewBells := if decide (80 < b.offset.natAbs) then b.skewBells + 1 else 0
    skewPosted := b.skewPosted && decide (80 < b.offset.natAbs)
    cfgBells := if b.cfgMismatch then b.cfgBells + 1 else 0
    linkSeen := false, beatSeen := false, countedFor := some d.bel.seq }

/-- The items of the bell summary that follow its times and states (17 R540): fetch index of each command ring, fetch and dispatch
index of each TX ring, the progress window, and the frames held in each queue that holds any, by its number. -/
def Dev.summaryItems (d : Dev) : List Nat :=
  ((List.range 32).map fun g => (d.ring g).devIdx) ++ (List.range 64).flatMap (fun r => [(d.ring (64 + r)).devIdx, (d.undispatched r).1]) ++
    (d.hif.prog.flatMap fun p => [p.1, p.2.1, p.2.2.1, p.2.2.2.1, p.2.2.2.2]) ++
    d.buf.queues.flatMap fun q => if q.2.copies.isEmpty then [] else [q.1, q.2.copies.length]

/-- The heartbeat of a bell (17 R540, R541): its bell, times, states, marks, the values of R539 and the rest of the bell summary; the
pin toggles. -/
def Dev.sendHeartbeat (d : Dev) : Dev :=
  let d := d.pinsM fun p => { p with buddyBeatOut := !p.buddyBeatOut }
  if d.bdy.linkUp && d.bdy.state != .off then
    let arrived := match d.bdy.summary with | some h => h.arrived | none => 0
    let d := d.bdyM fun b => { b with sentPrev := b.sentAt, sentAt := d.now }
    d.emit (.buddyMsg bmHeartbeat ([d.bel.lastTai, d.bel.seq, d.now, arrived, d.bdy.state.code, d.tim.servo.state.code, d.bdy.lastStored, d.bdy.writtenMark] ++
      d.sharedRegs ++ d.summaryItems))
  else d

/-! ### The link (17 R528 to R531) -/

/-- Credit when the link comes up (17 R531). -/
def fullCredit : AMap Nat := (List.range 16).map fun c => (c, 4096)

/-- The reason for which BDY.PAIR fails once the buddy has said who it is (17 R548), or none. -/
def Dev.pairFails (d : Dev) (p : Pairing) (b : BuddyId) : Option Nat :=
  if b.part ≠ d.glb.part.code then some 2
  else if p.peerSerial ≠ 0 ∧ b.serial ≠ p.peerSerial then some 3
  else if b.index = d.bdy.index then some 4
  else if b.period ≠ d.bel.period ∨ b.epoch ≠ d.bel.epoch then some 5
  else if b.major ≠ d.glb.fwVersion / 2 ^ 24 then some 6
  else if d.bdy.shadowReserved = false ∧ d.farAvailable 4096 = false then some 7
  else none

/-- BDY.PAIR ends without a pair: the module returns to its previous state (17 R543, R548). -/
def Dev.pairUndo (d : Dev) (p : Pairing) : Dev :=
  let d := d.bdyM fun b => { b with
    pairing := none, index := p.prevIndex, authority := p.previous == .solo, summary := if p.previous = .off then none else b.summary }
  (d.linkOff.setPair p.previous).cfgLook

/-- The authority of a pair that has been linked: the survivor of a take-over, or module 0 where neither or both are (17 R545). -/
def authorityOf (own buddy : Bool) (index : Nat) : Bool := if own == buddy then index == 0 else own

/-- The buddy is known: LINKED. The authority is settled at pairing, and stands when the link comes back (17 R545). -/
def Dev.linked (d : Dev) (b : BuddyId) : Dev :=
  let d := d.when (!d.bdy.shadowReserved) fun d => d.bufM fun x => { x with farReserved := x.farReserved + 4096 }
  let d := d.bdyM fun x => { x with
    pairing := none, peerSerial := b.serial, shadowReserved := true
    authority := match x.pairing with | some p => authorityOf (p.previous == .solo) b.survivor x.index | none => x.authority }
  d.setPair .linked

/-- A rejoin ends without PAIRED (17 R549). -/
def Dev.rejoinEnd (d : Dev) (status : Nat) : Dev :=
  match d.bdy.rejoin with
  | none => d
  | some r =>
    let d := d.bdyM fun b => { b with rejoin := none }
    d.when r.source fun d => d.finishAt r.ring r.tag status 0

/-! ### Transit frames (17 R531, R533) -/

/-- Credit for cells that never were charged goes back. -/
def Dev.oweCredit (d : Dev) (cls n : Nat) : Dev :=
  (d.bdyM fun b => { b with creditOwed := AMap.upd b.creditOwed cls 0 (· + n) }).returnCredit cls

/-- A frame from the buddy for an RX ring (07 R237, R255, R256). -/
def Dev.transitPunt (d : Dev) (f : TransitFrame) (ring reason aux : Nat) : Dev :=
  d.deliverRx ring { time := f.sof, frameLen := f.data.length + 4, port := f.ingress, module := 1 - d.module, cls := f.cls, reason, aux } f.data

/-- The stream functions for a frame from the buddy (17 R533, 07 R253): its bytes, or none where no copy is made. -/
def Dev.transitStream (d : Dev) (f : TransitFrame) : Option (List Byte) × Dev :=
  match f.stream with
  | none => (some f.data, d)
  | some h =>
    let x := d.stream h
    let (v, d) := if x.rcvEn then d.recover h x f.data else (.pass, d)
    match v with
    | .pass =>
      match d.retag h x f.data with
      | (some data, d) => (some data, d)
      | (none, d) => (none, d.transitPunt f d.fwd.frerRing 10 h)
    | .eliminate => (none, d)
    | .rogue => (none, d.transitPunt f d.fwd.frerRing 9 h)
    | .untagged => (none, d.transitPunt f d.fwd.frerRing 10 h)

/-- A transit frame of which no copy is made here: its cells' credit goes back, and its sender hears of it if it waits (17 R531, R533). -/
def Dev.transitEnds (d : Dev) (f : TransitFrame) : Dev :=
  let d := match f.home with | some k => d.emit (.buddyMsg bmFate [k, 0, 0, 0]) | none => d
  d.oweCredit f.cls (cellsOf (f.data.length + 4))

/-- BUDDY_FRAME_RX: charged to the buddy link and enqueued. A cyclic frame joins the receiving bin if its period is current, and the
passing bin otherwise. One for which no port exists has no destination (07 R237). -/
def Dev.transitRx (d : Dev) (f : TransitFrame) : Dev :=
  let ports := (if f.isGroup then d.groupPorts f.dest else [f.dest]).filter d.portExists
  if ports.isEmpty then (d.transitPunt f d.fwd.emptyRing 6 0).transitEnds f
  else
    match d.transitStream f with
    | (none, d) => d.transitEnds f
    | (some data, d) =>
      let period := if f.periodTai = d.bel.lastTai then d.bel.seq else d.bel.seq - 1
      (d.place { point := ptBuddy, ingress := f.ingress, sof := f.sof, period, fate := f.home, onestep := f.onestep } f.cls data data ports none none).2

/-! ### FDB and shadow updates (07 R246, 17 R538) -/

/-- A learn or a move on the buddy, applied here (07 R246). -/
def Dev.mirrorLearn (d : Dev) (mac fid port sof : Nat) : Dev :=
  match d.fdbFind mac fid with
  | none =>
    match d.fdbWrite { mac, fid, dest := port, module := 1 - d.module, hit := true, learned := true, taught := sof, period := d.bel.seq } with
    | some d => d
    | none => (d.count (cDev 260) 1).fdbFull mac fid
  | some (loc, x) =>
    if x.static || d.taughtLater x (1 - d.module) sof then d else d.fdbSet loc (x.moveTo port (1 - d.module) sof d.bel.seq)

/-- The key was changed by an operation mirrored from the buddy: commits of this period on it lose, and rejoin data does not
overwrite it (13 R445, 17 R536, R549). -/
def Dev.noteHw (d : Dev) (mac fid : Nat) : Dev :=
  let k := fdbKey mac fid
  d.bdyM fun b => { b with
    hwKeys := b.hwKeys ++ [(d.bel.seq, k)]
    rejoin := b.rejoin.map fun r => if r.source then r else { r with liveKeys := k :: r.liveKeys } }

/-- Add to the buddy's local configuration, in order of application. -/
def Dev.shadowAdd (d : Dev) (op body : Nat) : Dev :=
  d.bdyM fun b => { b with shadow := b.shadow ++ [(op, body)] }

/-! ### Rejoin (17 R549) -/

/-- Fields of a meter's configuration as rejoin data. -/
def meterData (x : Nat × Meter) : List Nat := [4, x.1, natLE x.2.record]

/-- The pair-wide state as it stands, item by item. -/
def Dev.rejoinData (d : Dev) : List (List Nat) :=
  let gen := fun (parity : Nat) (g : Generation) =>
    g.profiles.map (fun p => [6, parity, p.1, b2n p.2.loaded + 2 * p.2.l3Kind] ++ p.2.windows) ++ [[7, parity] ++ g.etypes]
  d.fwd.fdb.map (fun x => [2, natLE ((x.2.bytes true).take 8), natLE ((x.2.bytes true).drop 8)]) ++
    d.fwd.vlans.map (fun v => [3, v.1, v.2.fid, b2n v.2.learn, v.2.flood]) ++ d.prs.meters.map meterData ++
    d.prs.rules.map (fun r => [5, r.1, natLE r.2.image, b2n r.2.valid, b2n r.2.m0, b2n r.2.m1]) ++
    gen 0 d.prs.even ++ gen 1 d.prs.odd ++ [[8, d.prs.gen]]

/-- The start bell: SYNCING, and the source sends the pair-wide state. The local configuration of the target comes from the source's
shadow, or goes from the target to the source, whose shadow it builds (17 R549 steps 1 and 2). -/
def Dev.rejoinStart (d : Dev) : Dev :=
  match d.bdy.rejoin with
  | some r =>
    if r.started || d.bdy.state != .linked then d
    else
      let d := (d.bdyM fun b => { b with rejoin := some { r with started := true } }).setPair .syncing
      if r.source then
        let d := d.each d.rejoinData fun m d => d.emit (.buddyMsg bmRejoin m)
        if r.restoreLocal then d.each d.bdy.shadow fun x d => d.emit (.buddyMsg bmRejoin [9, x.1, x.2])
        else d.bdyM fun b => { b with shadow := [] }
      else if r.restoreLocal then d
      else d.each d.hif.applied fun x d => d.emit (.buddyMsg bmRejoin [9, x.1, x.2])
  | none => d

/-- The FDB entry of rejoin data. -/
def fdbItem (lo hi : Nat) : FdbEntry :=
  { mac := bits lo 47 0, fid := bits lo 59 48, static := bit lo 61, group := bit lo 62, dest := bits hi 15 0, module := bits hi 16 16,
    stream := bits hi 28 17, streamEn := bit hi 29, age := bits hi 33 30, hit := bit hi 34, learned := bit hi 35 }

/-- A generation by parity. -/
def Prs.parityM (p : Prs) (parity : Nat) (f : Generation → Generation) : Prs :=
  if parity = 0 then { p with even := f p.even } else { p with odd := f p.odd }

/-- One item of the pair-wide state reaches the target. -/
def Dev.takeItem (d : Dev) (r : Rejoin) (item : RejoinItem) : Dev :=
  match item with
  | .fdb lo hi =>
    let e := fdbItem lo hi
    if r.liveKeys.contains (fdbKey e.mac e.fid) then d else (d.fdbWrite e).getD d
  | .vlan vid fid learn flood => d.fwdM fun w => { w with vlans := AMap.set w.vlans vid { fid, learn, flood } }
  | .meter body =>
    let e : CmdEntry := { body }
    d.meterM (meterIx e) fun m => meterOf e m d.now
  | .rule i image valid m0 m1 => d.prsM fun p => { p with rules := AMap.set p.rules i { ruleOf image with valid, m0, m1 } }
  | .profile parity k words => d.prsM fun p => p.parityM parity fun g =>
      { g with profiles := AMap.set g.profiles k { loaded := bit (nth words 0 0) 0, l3Kind := bits (nth words 0 0) 2 1, windows := (List.range 8).map fun w => clampWindow (nth words (w + 1) 3) } }
  | .etypes parity vals => d.prsM fun p => p.parityM parity fun g => { g with etypes := (List.range 13).map fun k => p.etypeStored (nth vals k 0) }
  | .generation gen => d.prsM fun p => { p with gen := gen % 2 ^ 64 }
  | .localCmd op body =>
    if r.restoreLocal then d.bdyM fun b => { b with rejoin := b.rejoin.map fun r => { r with restore := r.restore ++ [(op, body)] } } else d
  | .start _ => d
  | .abort => (d.rejoinEnd stAborted).setPair .linked

/-! ### Commands (17 R548 to R550, R553 to R555) -/

def acceptPair (c : Cmd) (d : Dev) : Dev :=
  let e := c.e
  let p : Pairing := { ring := e.ring, tag := e.tag, previous := d.bdy.state, prevIndex := d.bdy.index, deadline := d.now + clamp 10 60000 (e.f 20 15 0) * qPerMs, peerSerial := e.f 24 63 0 }
  -- module 0 of a new pair, or the survivor, is the authority; at pairing lane k takes position k (17 R529, R545)
  let d := d.bdyM fun b => { b with
    pairing := some p, index := e.f 16 0 0, authority := p.previous == .solo || e.f 16 0 0 == 0, linkUp := false, lanes := AMap.mapV b.lanes fun k _ => buddyLane0 k }
  let d := d.each d.positions fun k d => d.buddyLaneTo k .waitSignal
  d.setPair .linking

def abortPair (c : Cmd) (d : Dev) : Option Dev := d.bdy.pairing.map fun p => (d.pairUndo p).finish c stAborted 0

def bdyPair : CmdSpec where
  op := 0x1101
  kind := fun _ => .waiting
  permit := fun d _ => failsIf (!(d.bdy.state == .off || d.bdy.state == .solo) || d.buf.voq) 0
  accept := acceptPair
  abort := abortPair

def acceptRejoin (c : Cmd) (d : Dev) : Dev :=
  let r := c.e.b 16 0
  let d := d.bdyM fun b => { b with rejoin := some { source := true, ring := c.e.ring, tag := c.e.tag, restoreLocal := r } }
  (d.cmdM c fun c => { c with total := Config.rejoinTotal d.bel.seq }).emit (.buddyMsg bmRejoin [0, b2n r])

/-- Both modules return to LINKED (17 R549). -/
def abortRejoin (c : Cmd) (d : Dev) : Option Dev :=
  let d := (d.bdyM fun b => { b with rejoin := none }).emit (.buddyMsg bmRejoin [1])
  some ((if d.bdy.state == .syncing then d.setPair .linked else d).finish c stAborted 0)

def bdyRejoin : CmdSpec where
  op := 0x1102
  kind := fun _ => .long
  permit := fun d _ => failsIf (!(d.bdy.authority && d.bdy.state == .linked && d.bdy.rejoin.isNone)) 0
  accept := acceptRejoin
  abort := abortRejoin

/-- BDY.UNPAIR at its bell: no new copies cross; it completes when the copies queued have drained (17 R550). -/
def applyUnpair (c : Cmd) (d : Dev) : Dev :=
  let d := (d.dropOtherModule false).bdyM fun b => { b with unpairDraining := true, unpairing := if c.mirrored then none else some (c.e.ring, c.e.tag) }
  if c.mirrored then d.finish c stOk 0 else d.cmdM c fun c => { c with stage := .waiting }

def bdyUnpair : CmdSpec where
  op := 0x1103
  kind := fun _ => .commit
  pairWide := true
  claims := fun _ _ => [claim1 itPair 0]
  apply := applyUnpair
  abort := fun c d => match c.stage with | .waiting => none | _ => abortPlain c d

def bdySpecs : List CmdSpec := [bdyPair, bdyRejoin, bdyUnpair]

end Sys2Proof.Machine
end

