-- ==== Sys2Proof/Machine/Proctor.lean ====
section
/-! DEFINITION. The Proctor (18): states, firmware, officer key, seals, the audit log, and the PRC commands. -/

namespace Sys2Proof.Machine

/-- The Proctor changes state: posted (18 R562, R584). -/
def Dev.setPrc (d : Dev) (new : PrcState) : Dev :=
  let old := d.prc.state
  if old == new then d else (d.prcM fun p => { p with state := new }).post 0x1201 [.code old.code, .code new.code]

/-- The states in which Proctor services run (18 R560). -/
def Dev.serves (d : Dev) : Bool := d.prc.state == .operational || d.prc.state == .zeroized

/-- Result bit 31: the service ran as an approved one (18 R574). -/
def ranApproved : Nat := 2 ^ 31

/-- The running bank. -/
def Prc.running_ (p : Prc) : FwBank := if p.bank = 0 then p.bankA else p.bankB

/-- SM3 of the running image (18 R573, R583). -/
def Dev.fwDigest (d : Dev) : List Byte := Config.sm3 d.prc.running_.image

/-- The officer key as bytes (18 R570). -/
def Prc.keyBytes (p : Prc) : List Byte := p.key.flatMap fun w => bytesBE 4 w

/-! ### Transcript, random numbers, audit export (18 R573, R574, R582) -/

/-- Bytes 0 to 319 of a transcript (18 R573). -/
def Dev.transcriptBody (d : Dev) (nonce : List Byte) : List Byte :=
  let p := d.prc
  packRec 64 [(0, 0, 16, 1), (2, 0, 8, p.state.code), (3, 0, 1, b2n (p.state == .operational)), (3, 1, 3, p.sealed), (3, 4, 2, p.keyState),
    (4, 0, 32, d.glb.part.code + Config.revision * 2 ^ 16 + 2 ^ 24), (8, 0, 64, Config.serial), (16, 0, 32, d.glb.fwVersion), (20, 0, 7, p.running),
    (21, 0, 7, p.rollback), (24, 0, 64, d.bel.seq), (32, 0, 64, d.now), (40, 0, 64, p.officerSeq), (48, 0, 32, p.auditNext)] ++
    Config.padTo 32 nonce ++ Config.romDigest ++ d.fwDigest ++ Config.padTo 32 (if p.sealed = 0 then [] else p.sealDigest) ++
    Config.padTo 32 (if p.keyState = 2 then Config.sm3 p.keyBytes else []) ++ Config.identityKey ++ List.replicate 32 0

/-- A signature by the identity key, with a fresh per-signature value. -/
def Dev.sign (d : Dev) (msg : List Byte) : List Byte × Dev :=
  let (k, d) := d.fresh
  (Config.sm2Sign msg k, d)

def acceptTranscript (c : Cmd) (d : Dev) : Dev :=
  let e := c.e
  if e.f 16 0 0 = 0 then
    let m := d.transcriptBody (e.bytes 32 32)
    let (sig, d) := d.sign m
    (d.count (cDev 315) 1).readOut c e.addr (m ++ sig) (384 + ranApproved)
  else
    let x := Config.certChain
    d.readOut c e.addr (bytesLE 4 x.length ++ x) (4 + x.length)

def prcGetTranscript : CmdSpec where
  op := 0x1201
  journal := false
  writes := true
  check := fun _ e => e.needsAddr
  permit := fun d _ => failsIf (d.prc.state != .operational) 0
  accept := acceptTranscript

def acceptRandom (c : Cmd) (d : Dev) : Dev :=
  let e := c.e
  let n := clamp 1 4096 (e.f 16 12 0)
  let (k, d) := d.fresh
  if e.b 16 16 then d.readOut c e.addr ((List.range n).map fun i => Config.noiseFree k i % 256) 0
  else
    let d := (d.prcM fun p => { p with generated := if 65536 ≤ p.generated + 1 then 0 else p.generated + 1 }).count (cDev 316) n
    d.readOut c e.addr ((List.range n).map fun i => Config.randomFree k i % 256) ranApproved

def prcGetRandom : CmdSpec where
  op := 0x1206
  journal := false
  writes := true
  check := fun _ e => e.needsAddr
  permit := fun d _ => failsIf (!d.serves) 0
  accept := acceptRandom

/-- The 32 bytes of an audit record (18 R580). -/
def AuditRec.bytes (r : AuditRec) : List Byte :=
  packRec 32 [(0, 0, 32, r.seq), (4, 0, 16, r.code), (6, 0, 16, r.count), (8, 0, 64, r.time), (16, 0, 64, r.bellSeq), (24, 0, 32, r.arg0), (28, 0, 32, r.arg1)]

/-- Held records at or after a sequence, compared modulo 2^32 against the held range (18 R582). -/
def Prc.auditFrom (p : Prc) (seq : Nat) : List AuditRec :=
  let first := match p.audit with | r :: _ => r.seq | [] => p.auditNext
  let k := (seq % 2 ^ 32 + 2 ^ 32 - first) % 2 ^ 32
  if 2 ^ 31 ≤ k then p.audit else p.audit.drop k

def acceptExport (c : Cmd) (d : Dev) : Dev :=
  let rs := d.prc.auditFrom (c.e.f 16 31 0)
  let first := match rs with | r :: _ => r.seq | [] => d.prc.auditNext
  let m := packRec 64 [(0, 0, 16, 1), (4, 0, 32, rs.length), (8, 0, 64, Config.serial), (16, 0, 32, first), (20, 0, 32, d.prc.auditNext), (24, 0, 64, d.now)] ++
    rs.flatMap AuditRec.bytes
  if d.prc.identity then
    let (sig, d) := d.sign m
    d.readOut c c.e.addr (m ++ sig) ranApproved
  else d.readOut c c.e.addr (m ++ List.replicate 64 0) 0

def prcExportAudit : CmdSpec where
  op := 0x1204
  journal := false
  writes := true
  check := fun _ e => e.needsAddr
  permit := fun d _ => failsIf (!d.serves) 0
  accept := acceptExport

/-! ### Firmware update (18 R565, R567) -/

/-- Why an image is not valid, as the reasons of 18 R567, given the payload digest and the rollback counter. -/
def imageFault (image payload : List Byte) (rollback : Nat) : Option Nat :=
  let h := fun (off n : Nat) => natLE (subBytes image off n)
  let body := image.drop 256
  if Config.sm3 image ≠ payload then some 5
  else if subBytes image 0 4 ≠ textBytes "OVFW" ∨ h 4 2 ≠ 1 ∨ 33554432 < h 16 4 ∨ 64 < h 12 1 % 128 then some 1
  else if image.length ≠ 256 + h 16 4 then some 7
  else if Config.sm3 (body.take 64) ≠ Config.vendorDigest ∨ Config.sm2Verify (body.take 64) (image.take 192) (subBytes image 192 64) = false then some 2
  else if Config.sm3 body ≠ subBytes image 32 32 then some 3
  else if h 12 1 % 128 < rollback then some 4
  else none

/-- What a bank holds, given the bytes from its start: an image, whose validity the ROM finds but for the rollback counter, or nothing that
can boot (18 R565, 20 R609). -/
def bankOf (flash : List Byte) : FwBank :=
  let image := flash.take (256 + natLE (subBytes flash 16 4))
  { valid := (imageFault image (Config.sm3 image) 0).isNone, version := natLE (subBytes flash 8 4), secVersion := natLE (subBytes flash 12 1) % 128, image }

/-- Length field of PRC.UPDATE_FIRMWARE. -/
def fwLength (e : CmdEntry) : Nat := clamp 256 33554688 (e.f 16 31 0)

def acceptUpdate (c : Cmd) (d : Dev) : Dev :=
  let e := c.e
  let image := Config.padTo (fwLength e) e.mem
  let u : FwUpdate := { ring := e.ring, tag := e.tag, activate := e.b 20 0, version := natLE (subBytes image 8 4), secVersion := natLE (subBytes image 12 1) % 128, image }
  (d.cmdM c fun c => { c with total := (fwLength e + 1023) / 1024 }).prcM fun p => { p with update := some u }

/-- Put an image, or an invalid bank, into the inactive bank. -/
def Prc.setInactive (p : Prc) (b : FwBank) : Prc := if p.bank = 0 then { p with bankB := b } else { p with bankA := b }

/-- An update ends without an image. -/
def Dev.updateEnds (d : Dev) (status result : Nat) : Dev :=
  match d.prc.update with
  | none => d
  | some u => (d.prcM fun p => { p with update := none }).finishAt u.ring u.tag status result

/-- The inactive bank is left invalid: no image waits for the next reset. -/
def Dev.bankSpoilt (d : Dev) : Dev := d.prcM fun p => { p.setInactive { valid := false } with staged := none }

/-- An update is cut short: what has been written is no image. -/
def Dev.updateCut (d : Dev) : Dev :=
  match d.prc.update with
  | some u => d.when (match d.cmdAt u.ring u.tag with | some c => c.pos != 0 | none => false) Dev.bankSpoilt
  | none => d

def abortUpdate (c : Cmd) (d : Dev) : Option Dev :=
  some ((d.when (c.pos != 0) Dev.bankSpoilt).updateEnds stAborted 0)

/-- Test 10 of 18 R568 has passed or failed. -/
def Dev.loadTest (d : Dev) (ok : Bool) : Dev := d.prcM fun p => { p with passed := setBit p.passed 9 ok }

def prcUpdateFirmware : CmdSpec where
  op := 0x1202
  kind := fun _ => .long
  officer := true
  reads := true
  check := fun _ e => e.needsAddr
  permit := fun d _ => failsIf (!d.serves || d.prc.update.isSome) 0
  accept := acceptUpdate
  abort := abortUpdate

/-! ### Seals (18 R575 to R577) -/

/-- A queue block, or with another head the port shaper block (18 R576). -/
def shaperBlock (head : List Byte) (idle hi : Nat) (lo : Int) : List Byte := head ++ bytesLE 4 idle ++ bytesLE 4 hi ++ bytesLE 4 (twos 32 lo)

/-- MAC_PORT_CTRL of a port (03 R112). -/
def Port.ctrlWord (p : Port) : Nat :=
  b2n p.admin + p.fcMode * 2 + b2n p.lpiEn * 8 + b2n p.anEn * 16 + p.speed * 32 + p.framing * 256 + p.fec * 1024 + p.lanes * 4096 + p.phy * 16384

/-- BEL_CTRL (01 R41). -/
def Bel.ctrlWord (b : Bel) : Nat := b.slew + b.guard * 2 ^ 8 + b2n b.stepEn * 2 ^ 16

/-- 256 bytes of the schedule part for one port. -/
def Dev.sealPort (d : Dev) (n : Nat) : List Byte :=
  let b := d.belPort n
  let x := d.schPort n
  bytesLE 2 n ++ bytesLE 2 ((d.port n).ctrlWord / 32) ++ bytesLE 4 b.pass ++ bytesLE 4 b.b12 ++ bytesLE 4 b.b13 ++ bytesLE 4 b.b14 ++ bytesLE 4 b.b15 ++
    shaperBlock (bytesLE 1 (twos 8 x.overhead) ++ [b2n x.shaperEn] ++ bytesLE 2 x.refillNs) x.idleReq x.hi x.lo ++
    ((List.range 12 ++ [15]).flatMap fun c =>
      let q := d.queue (qIx n c)
      shaperBlock (bytesLE 2 q.weight ++ [b2n q.shaperEn, 0]) q.idleReq q.hi q.lo) ++ List.replicate 8 0

def Dev.sealSchedule (d : Dev) : List Byte :=
  bytesLE 4 d.bel.period ++ bytesLE 8 d.bel.epoch ++ bytesLE 4 d.bel.ctrlWord ++ d.portList.flatMap d.sealPort

/-- TTB_PROT_CFG of an enabled index (05 R188). -/
def Prot.cfgWord (p : Prot) : Nat := p.holdOff + p.wtrS * 2 ^ 8 + b2n p.revertive * 2 ^ 18 + p.maxDiff * 2 ^ 19

def Dev.sealTimetable (d : Dev) : List Byte :=
  (d.zubenLanes.flatMap fun l =>
    let t := d.ttbLane l
    bytesLE 2 l ++ [b2n t.active, 0] ++ t.pageA.readout ++ t.pageB.readout) ++
    d.ttb.prots.flatMap fun p => bytesLE 2 p.1 ++ [0, 0] ++ bytesLE 4 p.2.cfgWord

/-- Header word of a profile (06 R202). -/
def Profile.header (p : Profile) : Nat := b2n p.loaded + p.l3Kind * 2

def Dev.sealRules (d : Dev) : List Byte :=
  let g := d.prs.current
  let rules := d.prs.rules.filter fun r => r.2.valid && r.2.member d.prs.parity
  let meters := (List.range 262144).filter fun m => rules.any fun r => r.2.meterEn && r.2.meter == m
  g.etypes.flatMap (bytesLE 2) ++ List.replicate 6 0 ++
    ((List.range 64).flatMap fun k => bytesLE 4 (g.profile k).header ++ (g.profile k).windows.flatMap (bytesLE 4)) ++
    (d.portList.flatMap fun n => bytesLE 2 n ++ [b2n (g.map n).deiColor, 0] ++ (g.map n).profiles) ++
    (rules.flatMap fun r => bytesLE 4 r.1 ++ r.2.image) ++ (meters.flatMap fun m => bytesLE 4 m ++ (d.meter m).record.take 20)

/-- The seal image of a scope (18 R576). -/
def Dev.sealImage (d : Dev) (scope : Nat) : List Byte :=
  textBytes "OVSL" ++ bytesLE 2 1 ++ [scope % 8, 0] ++ (if bit scope 0 then d.sealSchedule else []) ++ (if bit scope 1 then d.sealTimetable else []) ++
    (if bit scope 2 then d.sealRules else [])

/-- SEAL_IMAGE_COMPUTE: after item 7 of the seal bell (18 R577). -/
def Dev.computeSeals (d : Dev) : Dev :=
  d.prcM fun p => { p with sealing := p.sealing.map fun s =>
    if s.due ≤ d.bel.seq ∧ s.computed.isNone = true then { s with computed := some (Config.sm3 (d.sealImage s.scope)) } else s }

/-- First four bytes of a digest, byte 0 highest (18 R581). -/
def digestHead (x : List Byte) : Nat := natBE (x.take 4)

def sealScope (e : CmdEntry) : Nat := e.f 16 2 0

def acceptSeal (c : Cmd) (d : Dev) : Dev :=
  let scope := sealScope c.e
  if scope = 0 then
    if c.e.payload = List.replicate 32 0 then
      (((d.prcM fun p => { p with sealed := 0, sealDigest := [] }).audit 11 0 0)).finish c stOk ranApproved
    else (d.audit 12 0 0).finish c stFailed ranApproved
  else d.prcM fun p => { p with sealing := p.sealing ++ [{ ring := c.e.ring, tag := c.e.tag, scope, payload := c.e.payload, due := d.bel.seq + 2 }] }

/-- A TTB.SWITCH_PAGE of the module has been accepted and not completed. -/
def Dev.switchInFlight (d : Dev) : Bool := d.hif.inflight.any fun c => c.op == 0x0803 && c.stage != .fetched && c.stage != .journalled

def abortSeal (c : Cmd) (d : Dev) : Option Dev :=
  match d.prc.sealing.find? fun x => x.ring == c.e.ring && x.tag == c.e.tag with
  | some x =>
    if x.computed.isSome then none
    else some ((d.prcM fun p => { p with sealing := p.sealing.filter fun z => !(z.ring == x.ring && z.tag == x.tag) }).finish c stAborted 0)
  | none => none

def prcSealConfig : CmdSpec where
  op := 0x1205
  kind := fun _ => .waiting
  officer := true
  permit := fun d e => failsIf (!d.serves || (bit (sealScope e) 1 && d.switchInFlight)) 0
  accept := acceptSeal
  abort := abortSeal

/-! ### ERROR and zeroization (18 R562, R563, R578) -/

/-- Commands under way in the Proctor end: an update is aborted or refused with the rest (18 R563, R567). -/
def Dev.prcStops (d : Dev) (status : Nat) : Dev :=
  let seals := d.prc.sealing
  let d := d.updateCut.updateEnds status 0
  (d.prcM fun p => { p with sealing := [] }).finishAll (seals.map fun s => (s.ring, s.tag)) status

/-- A test has failed: ERROR (18 R562, R568). -/
def Dev.prcError (d : Dev) (test : Nat) : Dev :=
  let d := d.prcM fun p => { p with failed := test, passed := setBit p.passed (test - 1) false }
  (((d.audit 3 test 0)).prcStops stNotPermitted).setPrc .error

/-- Zeroization starts (18 R578). -/
def Dev.zeroize (d : Dev) (contact : Bool) : Dev :=
  if d.prc.zeroizing.isSome then d
  else
    let began := d.prc.state.code
    (((d.prcStops stAborted).prcM fun p => { p with zeroizing := some { contact, began } })).setPrc .zeroizing

/-- A zeroization under way absorbs a further command, which ends with it. -/
def acceptZeroize (c : Cmd) (d : Dev) : Dev :=
  (d.zeroize false).prcM fun p => { p with zeroizing := p.zeroizing.map fun z => { z with commands := z.commands ++ [(c.e.ring, c.e.tag)] } }

def prcZeroize : CmdSpec where
  op := 0x1203
  kind := fun _ => .waiting
  officer := true
  permit := fun d _ => failsIf (!d.serves && d.prc.state != .zeroizing) 0
  accept := acceptZeroize

def prcSpecs : List CmdSpec := [prcGetTranscript, prcUpdateFirmware, prcZeroize, prcExportAudit, prcSealConfig, prcGetRandom]

/-! ### The officer key (18 R570) -/

/-- An officer key word locks; with the sixteenth, the key is checked. -/
def Dev.lockKeyWord (d : Dev) (k value : Nat) : Dev :=
  let d := d.prcM fun p => { p with key := p.key.set k (value % 2 ^ 32), keyLocks := setBit p.keyLocks k true, keyState := 1 }
  if d.prc.keyLocks = 65535 then
    let st := if Config.onCurve d.prc.keyBytes then 2 else 3
    (d.prcM fun p => { p with keyState := st, passed := setBit p.passed 10 (st == 2) }).audit 13 st 0
  else d

end Sys2Proof.Machine
end

