-- ==== Sys2Proof/Machine/BellCommands.lean ====
section
/-! DEFINITION. The BEL commands (01 R23, R24, R42 to R46) and the search for a common bell. -/

namespace Sys2Proof.Machine

/-! ### Common bells (01 R23) -/

/-- Extended Euclid with fuel: a coefficient of each number in their greatest common divisor. -/
def egcd : Nat → Nat → Nat → Int × Int
  | 0, _, _ => (1, 0)
  | f + 1, a, b => if b = 0 then (1, 0) else
    let r := egcd f b (a % b)
    (r.2, r.1 - ((a / b : Nat) : Int) * r.2)

/-- First bell of a grid at or after an instant. -/
def gridFrom (period epoch t : Nat) : Int :=
  let p : Int := ((max 1 period : Nat) : Int)
  (epoch : Int) + divFloor ((t : Int) - (epoch : Int) + p - 1) p * p

/-- First instant from t on that is a bell of the grid (p, e) and of the grid (p', e'), within 2^32 periods p. -/
def commonFrom (p e p' e' t : Nat) : Option Nat :=
  let t0 := gridFrom p e t
  let g := Nat.gcd p p'
  let m := p' / g
  let diff : Int := (e' : Int) - t0
  if g = 0 ∨ diff % (g : Int) ≠ 0 then none
  else
    let x := (egcd 64 (p / g) m).1
    let k := ((diff / (g : Int)) * x) % (m : Int)
    if k < 2 ^ 32 then some (t0 + k * (p : Int)).toNat else none

/-- The second bell after now on the grid in force: the earliest instant that qualifies. -/
def Dev.secondBell (d : Dev) : Nat :=
  let next := (2 * d.bel.nextAt + d.bel.period * qPerNs) / (2 * qPerNs)
  ((gridFrom d.bel.period d.bel.epoch (next - d.bel.period + 1)) + (d.bel.period : Int)).toNat

def perField (e : CmdEntry) : Nat := clamp 2000 1000000 (e.f 16 31 0)
def epochField (e : CmdEntry) : Nat := e.f 24 63 0

/-- Effective instant of BEL.SET_PERIOD (01 R23). -/
def Dev.effectiveTai (d : Dev) (e : CmdEntry) : Option Nat :=
  commonFrom d.bel.period d.bel.epoch (perField e) (epochField e) (max d.secondBell (e.f 32 63 0))

/-- First port that a period would overfill (01 R24). -/
def Dev.overfilledBy (d : Dev) (period : Nat) : Option Nat :=
  d.portList.find? fun n => overfilled (d.belPort n) (capOf (d.rateNum n (d.assignedMost n)) period d.bel.slew d.bel.guard (d.belPort n).b15)

/-- A pending change is replaced, and the replaced command ends (01 R25). -/
def acceptSetPeriod (c : Cmd) (d : Dev) : Dev :=
  match d.effectiveTai c.e with
  | none => d.finish c stRejected 0x100000
  | some tai =>
    let old := d.hif.inflight.find? fun x => x.op == 0x0301 && x.stage == .waiting && !x.same c
    let d := match old with | some x => d.finish x stAborted 0 | none => d
    d.belM fun b => { b with pend := some { period := perField c.e, epoch := epochField c.e, tai, ring := c.e.ring, tag := c.e.tag } }

def abortSetPeriod (c : Cmd) (d : Dev) : Option Dev := some ((d.belM fun b => { b with pend := none }).finish c stAborted 0)

def belSetPeriod : CmdSpec where
  op := 0x0301
  kind := fun _ => .waiting
  pairWide := true
  seals := 1
  admits := fun d e => firstOf [(d.overfilledBy (perField e)).map fun n => n + 0xF * 2 ^ 16, failsIf (d.effectiveTai e).isNone 0x100000]
  accept := acceptSetPeriod
  abort := abortSetPeriod

/-- PERIOD_CHANGE: the bell that rings is the common bell (01 R25). -/
def Dev.periodChange (d : Dev) : Dev :=
  match d.bel.pend with
  | none => d
  | some p =>
    if 2 * p.tai ≤ 2 * d.bel.lastTai + d.bel.period then
      let d := d.belM fun b => { b with
        period := p.period, epoch := p.epoch, pend := none
        ports := AMap.mapV b.ports fun _ x => { x with pass := min x.pass (p.period / 2) } }
      let d := d.post 0x0301 [.value p.period, .wide d.bel.seq]
      match d.hif.inflight.find? fun c => c.op == 0x0301 && c.stage == .waiting with
      | some c => d.finish c stOk 0
      | none => d
    else d

/-- The window as clamped at acceptance: half the current period, and half of any pending one (01 R43). -/
def Dev.windowField (d : Dev) (e : CmdEntry) : Nat := d.periods.foldl (fun w p => min w (p / 2)) (e.f 20 31 0)

def belSetPassing : CmdSpec where
  op := 0x0302
  kind := fun _ => .commit
  seals := 1
  check := fun d e => d.needsPort e
  claims := fun d e => [claim1 itPassing (d.portField e)]
  rank := 75
  accept := fun c d => d.cmdM c fun x => { x with pos := d.windowField c.e }
  apply := fun c d => okAfter c (d.belPortM (d.portField c.e) fun p => { p with pass := min c.pos (d.bel.period / 2) })
  abort := abortPlain

def classField (e : CmdEntry) : Nat := e.f 16 19 16

def belSetBudget : CmdSpec where
  op := 0x0303
  kind := fun _ => .commit
  seals := 1
  check := fun d e => firstOf [d.needsPort e, failsIf (decide (classField e < 12)) (rejField 16 16)]
  permit := fun d _ => failsIf d.buf.voq 0
  admits := fun d e => failsIf (!d.planFits (d.portField e) [{ e, op := 0x0303 }]) (d.portField e + classField e * 2 ^ 16)
  claims := fun d e => [claim1 itBudget (d.portField e * 16 + classField e)]
  fits := fun d e won => d.planFits (d.portField e) (won ++ [{ e, op := 0x0303 }])
  apply := fun c d => okAfter c (let n := d.portField c.e; let b := d.plannedBudget n [c]; d.belPortM n fun _ => b)
  rank := 75
  abort := abortPlain

/-- Position 1: its step is under way, and the next bell completes it (01 R45). -/
def belRealign : CmdSpec where
  op := 0x0304
  kind := fun _ => .waiting
  abort := fun c d => if c.pos = 0 then abortPlain c d else none

def belSpecs : List CmdSpec := [belSetPeriod, belSetPassing, belSetBudget, belRealign]

end Sys2Proof.Machine
end

