-- ==== Sys2Proof/Machine/SpecIndex.lean ====
section
/-! DEFINITION. The opcode index (13 R459); the fetch and acceptance rows, which need it; and the function-level reset. -/

namespace Sys2Proof.Machine

/-- Every command but GLB.ABORT. -/
def commandSpecs : List CmdSpec :=
  glbSpecs ++ belSpecs ++ timSpecs ++ portSpecs ++ zbnSpecs ++ ttbSpecs ++ prsSpecs ++ fwdSpecs ++ bufSpecs ++ schSpecs ++ drcSpecs ++ govSpecs ++
    cntSpecs ++ subSpecs ++ bdySpecs ++ prcSpecs

def specOf0 (op : Nat) : Option CmdSpec := commandSpecs.find? fun s => s.op == op

/-- What the command of an opcode is, if it is one of the index. -/
def specOf (op : Nat) : Option CmdSpec := if op = 0x0105 then some (glbAbort specOf0) else specOf0 op

/-! ### Fetch and acceptance (12 R414 to R416, 13 R441) -/

/-- The command entry that 64 bytes of ring memory hold; the extension and the memory that the command reads come with the row. -/
def entryOf (ring : Nat) (raw : List Byte) (e : CmdEntry) : CmdEntry :=
  let w := natLE (Config.padTo 64 raw)
  { ring, tag := bits w 27 16, fence := bit w 28, ext := bit w 29, cookie := bits w 63 32, body := w / 2 ^ 128
    extBytes := e.extBytes, mem := e.mem, readFail := e.readFail }

/-! ### Function-level reset (12 R433, R434) -/

/-- A command of this module that the reset ends: not accepted, or still due to write host memory. -/
def flrEnds (c : Cmd) : Bool :=
  !c.mirrored && (c.stage == .fetched || (c.stage != .journalled && (match specOf c.op with | some sp => sp.writes | none => false)))

/-- A command ends by the reset, as an abort would end it; its outcome goes to the ledger. -/
def Dev.flrAbort (d : Dev) (c : Cmd) : Dev :=
  let c' : Cmd := { c with cring := 32 }
  let d := d.cmdM c fun _ => c'
  if c.stage == .fetched then d.finish c' stAborted 0
  else ((specOf c.op).bind fun sp => sp.abort c' d).getD (d.finish c' stAborted 0)

/-- The host interface restarts (12 R433). -/
def Dev.flrStart (d : Dev) : Dev :=
  let ends := d.hif.inflight.filter flrEnds
  (d.each ends fun c d => d.flrAbort c).restartHif

end Sys2Proof.Machine
end

