-- ==== Sys2Proof/Machine/Settle.lean ====
section
/-! DEFINITION. Settlement of the commits of a period, and their application at their bell (01 R29, 13 R445, R446, 17 R536). -/

namespace Sys2Proof.Machine

/-! ### Settlement -/

/-- Claims made and commits that won, with the module. -/
structure Settling where
  d : Dev := {}
  claimed : List Claim := []
  won : List Cmd := []
  deriving DecidableEq, Repr

/-- One commit of a period: it loses by a claim of another, or where it does not fit beside the winners, and wins otherwise
(13 R445). -/
def Settling.take (x : Settling) (period : Nat) (c : Cmd) : Settling :=
  match specOf c.op with
  | none => x
  | some sp =>
    let mine := sp.claims x.d c.e
    if meetsAny mine x.claimed || !sp.fits x.d c.e x.won then { x with d := x.d.finish c stConflict 0 }
    else { d := x.d.cmdM c fun c => { c with stage := .won (period + 2) }, claimed := x.claimed ++ mine, won := x.won ++ [c] }

/-- Commits accepted in a period, in the order of settlement. -/
def Dev.commitsOf (d : Dev) (period : Nat) : List Cmd := sortBy d.orderKey (d.hif.inflight.filter fun c => c.stage == .accepted period)

/-- Settle the period that the bell of this number opened. Keys that operations mirrored from the buddy have changed in it
stand before every commit (13 R445). -/
def Dev.settlePeriod (d : Dev) (period : Nat) : Dev :=
  let keys := (d.bdy.hwKeys.filter fun k => k.1 == period).map fun k => claim1 itFdbKey k.2
  ((d.commitsOf period).foldl (fun (x : Settling) c => x.take period c) { d, claimed := keys }).d

/-- Put a number into a rising list that does not hold it. -/
def insertNat (k : Nat) : List Nat → List Nat
  | [] => [k]
  | x :: r => if k < x then k :: x :: r else if k = x then x :: r else x :: insertNat k r

/-- Periods up to one that have commits to settle, the earliest first. -/
def Dev.openPeriods (d : Dev) (last : Nat) : List Nat :=
  let all := d.hif.inflight.filterMap fun c => match c.stage with | .accepted k => if k ≤ last then some k else none | _ => none
  all.foldl (fun acc k => insertNat k acc) []

/-- Settle every period up to one. -/
def Dev.settleUpTo (d : Dev) (last : Nat) : Dev := d.each (d.openPeriods last) fun k d => d.settlePeriod k

/-! ### Application -/

/-- Rank of a command among the changes of a bell. -/
def rankOf (c : Cmd) : Nat := match specOf c.op with | some sp => sp.rank | none => 0

/-- A winner whose bell has come. -/
def Dev.isDue (d : Dev) (c : Cmd) : Bool := match c.stage with | .won k => decide (k ≤ d.bel.seq) | _ => false

/-- Winners due with ranks from lo to below hi, in rank and order. -/
def Dev.dueIn (d : Dev) (lo hi : Nat) : List Cmd :=
  sortBy (fun c => rankOf c * 2 ^ 48 + d.orderKey c) (d.hif.inflight.filter fun c => d.isDue c && decide (lo ≤ rankOf c) && decide (rankOf c < hi))

/-- Apply a winner, as it now stands, if nothing has ended it since. -/
def Dev.applyWinner (d : Dev) (c : Cmd) : Dev :=
  match d.hif.inflight.find? fun x => x.same c && d.isDue x, specOf c.op with
  | some x, some sp => sp.apply x d
  | _, _ => d

/-- Apply the winners due whose ranks lie from lo to below hi (01 R28). -/
def Dev.applyRange (d : Dev) (lo hi : Nat) : Dev := d.each (d.dueIn lo hi) fun c d => d.applyWinner c

end Sys2Proof.Machine
end

