-- ==== Sys2Proof/Machine/Journal.lean ====
section
/-! DEFINITION. The journal and the records of a buddy pair, isolation, take-over and its report, the cut-over of a rejoin and the
end of a pair (17 R535 to R550). -/

namespace Sys2Proof.Machine

/-! ### Shadow (17 R538) -/

/-- The command that a shadow item stands for. It is of no ring. -/
def shadowEntry (body : Nat) : CmdEntry := { ring := 64, body := body % 2 ^ 384, mem := bytesLE 128 (body / 2 ^ 384) }

/-- A command of the buddy has taken effect there: what it configured joins the shadow. -/
def Dev.shadowTake (d : Dev) (op : Nat) (e : CmdEntry) : Dev := if shadowOps.contains op then d.shadowAdd op (shadowBody e) else d

/-! ### Journal records of the buddy (17 R535) -/

/-- BEL_SEQ of the period that the bell at a TAI opened, from the bells that have rung. -/
def Dev.seqAt (d : Dev) (tai : Nat) : Nat :=
  let p := max 1 d.bel.period
  if d.bel.lastTai ≤ tai then d.bel.seq + (tai - d.bel.lastTai + p / 2) / p else d.bel.seq - (d.bel.lastTai - tai + p / 2) / p

/-- A command of the buddy that this module runs too. -/
def mirrorOf (r : JournalRecord) : Cmd := { e := r.entry, op := r.opcode, mirrored := true, entry := r.index }

/-- Store a record: its stamp is the period under way. -/
def Dev.storeRecord (d : Dev) (r : JournalRecord) : Dev :=
  d.bdyM fun b => { b with
    lastStored := max b.lastStored r.seq
    held := b.held ++ [{ opcode := r.opcode, entry := r.entry, index := r.index, seq := r.seq, stamp := d.bel.seq }]
    cmdMark := AMap.set b.cmdMark r.entry.ring (r.index + 1) }

/-- The answer to a record: its sequence, whether it is refused, the stamp or the status, and the result. -/
def Dev.answer (d : Dev) (seq : Nat) (refused : Option (Nat × Nat)) : Dev :=
  d.emit (.buddyMsg bmAck (match refused with | some (st, r) => [seq, 1, st, r] | none => [seq, 0, d.bel.lastTai, 0]))

/-- The mirrored command that an abort of the buddy names (17 R537). -/
def Dev.mirrorTarget (d : Dev) (e : CmdEntry) : Option Cmd :=
  d.hif.inflight.find? fun c => c.mirrored && c.e.ring == e.f 16 4 0 && c.e.tag == e.f 16 27 16

/-- Whether this module acts on a record of the buddy: pair-wide commands, and the substitution of a lane of the link (16 R511). -/
def runsHere (sp : CmdSpec) (r : JournalRecord) : Bool := sp.pairWide || (r.opcode == 0x1003 && r.entry.f 16 2 0 == 2)

/-- What a stored record does on this module. -/
def Dev.actOnRecord (d : Dev) (sp : CmdSpec) (r : JournalRecord) : Dev :=
  if r.opcode = 0x0105 then
    match d.mirrorTarget r.entry with
    | some c => ((specOf c.op).bind fun sp => sp.abort c d).getD d
    | none => d
  else if runsHere sp r then
    let c := mirrorOf r
    (d.hifM fun h => { h with inflight := h.inflight ++ [c] }).takeUp sp c
  else d

/-! ### Completion and fetch records (17 R537) -/

/-- Entry indices from an index up to another, of a ring of n entries that counts modulo 2n. -/
def indicesFrom (n : Nat) : Nat → Nat → List Nat
  | 0, _ => []
  | k + 1, i => (i % n) :: indicesFrom n k (i + 1)

/-- Sequence of a record. -/
def OwnRecord.seq : OwnRecord → Nat
  | .completion s _ _ => s
  | .fetch s _ _ => s

/-! ### Isolation (17 R543 to R545) -/

/-- Own records that await storage, when the module may no longer wait for the buddy: pair-wide commands of the module that is not
the authority fail with result bit 0, since the buddy may have stored them; the others are accepted. -/
def Dev.freeJournalled (d : Dev) (alone : Bool) : Dev :=
  let mine := d.hif.inflight.filter fun c => !c.mirrored && c.stage == .journalled
  d.each mine fun c d =>
    match specOf c.op with
    | some sp => if sp.pairWide && !alone then d.finish c stFailed 1 else d.takeUp sp c
    | none => d

/-! ### Take-over (17 R546, R547) -/

/-- Progress of the long operations in the last summary. -/
def Dev.lastProgress (d : Dev) : List (Nat × Nat × Nat × Nat) := match d.bdy.summary with | some x => x.progress | none => []

/-- Kind of the command of a held record. -/
def heldKind (h : HeldRecord) : Option CmdKind := (specOf h.opcode).map fun sp => sp.kind (mirrorOf { opcode := h.opcode, entry := h.entry })

/-- A command record without a completion record, as the report gives it, and whether its outcome must be awaited. -/
def Dev.reportHeld (d : Dev) (failed : Nat) (h : HeldRecord) : Compl × Bool :=
  let c : Compl := { op := h.opcode, tag := h.entry.tag, kind := 0, status := stTakenOver, ring := h.entry.ring, module := failed, result := stAborted, cookie := h.entry.cookie }
  match specOf h.opcode with
  | none => (c, false)
  | some sp =>
    if sp.pairWide then (c, true)
    else if heldKind h == some .long then
      match d.lastProgress.find? fun p => p.1 == h.entry.ring && p.2.1 == h.entry.tag with
      | some p => ({ c with value := p.2.2.1, index := p.2.2.2 }, false)
      | none => (c, false)
    else (c, false)

/-- Order of the report: commands by ring and tag, then TX descriptors by ring and entry index. -/
def reportKey (c : Compl) : Nat :=
  if c.kind = 0 then c.ring * 2 ^ 16 + c.tag else 2 ^ 40 + c.ring * 2 ^ 20 + c.index

def insertReport (x : Compl × Bool) : List (Compl × Bool) → List (Compl × Bool)
  | [] => [x]
  | y :: r => if reportKey x.1 < reportKey y.1 then x :: y :: r else y :: insertReport x r

/-- The entries of the report. A descriptor's cookie is not in a fetch record: a free value. -/
def Dev.buildReport (d : Dev) (failed : Nat) : List (Compl × Bool) :=
  let echoes := d.bdy.stored.map fun x => ({ x.2 with status := stTakenOver, module := failed, result := x.2.status + 256 }, false)
  let held := d.bdy.held.map (d.reportHeld failed)
  let tx := d.bdy.txOpen.map fun x =>
    (({ kind := 1, status := stTakenOver, ring := x.1, index := x.2, module := failed, result := stFailed
        cookie := Config.openValue (2 ^ 40 + x.1 * 2 ^ 32 + x.2) % 2 ^ 32 } : Compl), false)
  (echoes ++ held ++ tx).foldl (fun acc x => insertReport x acc) []

/-- Frames that the failed module held at the bell of its last summary (17 R546 step 8). -/
def Dev.countLost (d : Dev) : Nat × Dev :=
  let queues := match d.bdy.summary with | some h => h.queues | none => []
  let sum := sumBy queues fun q => q.2
  (sum, (d.each queues fun q d => d.count (cLost q.1) q.2).count (cDev 268) sum)

/-- The take-over at bell T. -/
def Dev.takeOver (d : Dev) : Dev :=
  let failed := 1 - d.module
  let d := (d.setPair .solo).count (cDev 293) 1
  let d := d.bdyM fun b => { b with authority := true, holdUntil := 0 }
  let d := (d.flushBuddyTx.loseAway.dropOtherModule true).releaseOwn.freeJournalled true
  let d := (d.trigger 5).protScan
  let (lost, d) := d.countLost
  let tai := match d.bdy.summary with | some h => h.bellTai | none => 0
  let d := d.postAs 0x1102 [.code failed, .wide (tai * qPerNs), .value lost] failed 1
  d.bdyM fun b => { b with report := d.buildReport failed, reported := 0, echoes := 0, reportPending := true }

/-- Heartbeats are counted once at every bell, and the third one missed on both paths makes the module take over there (17 R544, R546). -/
def Dev.bellPair (d : Dev) : Dev :=
  if d.bdy.countedFor = some d.bel.seq then d
  else
    let d := d.heartbeatCounts
    if (d.bdy.state == .paired || d.bdy.state == .isolated) && decide (3 ≤ d.bdy.missed) then d.takeOver else d

/-- Room for one more report entry in its completion ring (12 R411). -/
def Dev.reportRoom (d : Dev) : Bool :=
  let k := d.bdy.takeoverRing
  let r := d.ring (32 + k)
  r.state == .running && decide (r.filled + d.finalsOwed k < r.n)

/-- The entry with its outcome, once that is known. -/
def Dev.reportOutcome (d : Dev) (x : Compl × Bool) : Option Compl :=
  if x.2 then
    match d.bdy.held.find? fun h => h.entry.ring == x.1.ring && h.entry.tag == x.1.tag with
    | some h => if h.fate = 0 then none else some { x.1 with result := h.fate - 1 }
    | none => some x.1
  else some x.1

/-- Ring marks and the end of the report. -/
def Dev.reportEnd (d : Dev) : Dev :=
  let failed := 1 - d.module
  let d := d.each (List.range 32) fun r d => d.postAs 0x1103 [.code 0, .index r, .value (AMap.getD d.bdy.cmdMark r 0)] failed 1
  let d := d.each (List.range 64) fun r d => d.postAs 0x1103 [.code 1, .index r, .value (AMap.getD d.bdy.fetchIdx r 0)] failed 1
  let d := d.bdyM fun b => { b with reportPending := false, held := [], stored := [], txOpen := [], fetchIdx := [], cmdMark := [] }
  d.postAs 0x1104 [.value d.bdy.reported, .value d.bdy.echoes] failed 1

/-- Write the report entries that may be written, in order. -/
def Dev.writeReport : Nat → Dev → Dev
  | 0, d => d
  | n + 1, d =>
    match d.bdy.report with
    | [] => d.reportEnd
    | x :: rest =>
      match if d.reportRoom then d.reportOutcome x else none with
      | none => d
      | some c =>
        let echo := bit c.result 8
        let d := (d.deliver d.bdy.takeoverRing c).when echo fun d => d.count (cDev 295) 1
        Dev.writeReport n (d.bdyM fun b => { b with report := rest, reported := b.reported + 1, echoes := b.echoes + b2n echo })

/-! ### The cut-over of a rejoin (17 R549) -/

/-- One command of the restored configuration. A page switch of the failed module is a switch without a handshake. -/
def Dev.restoreOne (d : Dev) (op body : Nat) : Dev :=
  let e := shadowEntry body
  let c : Cmd := { e, op, mirrored := true }
  if op = 0x0803 then (d.ttbLaneM (e.f 16 9 0) fun t => { t with active := !t.active }).rewireAll
  else
    match specOf op with
    | none => d
    | some sp => if (d.checks sp e).isSome then d else if sp.kind c == .commit then sp.apply c d else sp.accept c d

/-- The local configuration of the target goes: its ports, and what is configured by index. -/
def Dev.dropLocal (d : Dev) : Dev :=
  let d := d.each d.portList fun n d => ((d.setPortState n .flushing).flushDescriptors n).dissolve n
  let d := d.fwdM fun w => { w with ports := [], maps := [], groups := [], streams := [], mirrors := [] }
  let d := d.ttbM fun t => { t with prots := [] }
  d.bufM fun b => { b with accounts := b.accounts.map fun a => (a.1, { a.2 with minCells := 0, headroom := 0, alphaExp := 0, xonGap := 64 }) }

/-- The local configuration received replaces the target's (17 R549). -/
def Dev.restoreLocal (d : Dev) (items : List (Nat × Nat)) : Dev :=
  (d.dropLocal.each items fun x d => d.restoreOne x.1 x.2).hifM fun h => { h with applied := items }

/-- Records of the copy are applied in stamp order; those of the period just ended are settled with its own settlement. -/
def Dev.applyBacklog (d : Dev) : Dev :=
  let wide := d.bdy.held.filter fun h => h.fate == 0 && (match specOf h.opcode with | some sp => sp.pairWide | none => false)
  let d := d.each wide fun h d =>
    let c := mirrorOf { opcode := h.opcode, entry := h.entry, index := h.index, seq := h.seq }
    match specOf h.opcode with
    | some sp =>
      let d := (d.hifM fun x => { x with inflight := x.inflight ++ [c] }).takeUp sp c
      if sp.kind c == .commit then d.cmdM c fun c => { c with stage := .accepted h.stamp } else d
    | none => d
  d.each (d.openPeriods (d.bel.seq - 2)) fun k d => (d.settlePeriod k).applyRange 0 100

/-- A held record whose command may still end on the source after the cut-over. -/
def Dev.stillOpen (d : Dev) (h : HeldRecord) : Bool :=
  h.fate == 0 &&
    match heldKind h with
    | some .commit => decide (d.bel.seq ≤ h.stamp + 1)
    | some .short => false
    | _ => true

/-- The rejoin of this module's command is held: its cut-over waits (13 R452). -/
def Dev.rejoinHeld (d : Dev) (r : Rejoin) : Bool := r.source && (match d.cmdAt r.ring r.tag with | some c => c.held | none => false)

end Sys2Proof.Machine
end

