-- ==== Sys2Proof/Machine/Shift.lean ====
section
/-! DEFINITION. A step of the time base (02 R66): timers of the module run on, so the instants they wait for move with it. Times that
have been reported, and times of frames under way, stand. -/

namespace Sys2Proof.Machine

/-- An instant moved by a step; 0 stands for none. -/
def shiftAt (step : Int) (t : Nat) : Nat := if t = 0 then 0 else ((t : Int) + step).toNat

def Port.shift (p : Port) (s : Int) : Port :=
  { p with lpiSince := shiftAt s p.lpiSince, lpiWakeAt := shiftAt s p.lpiWakeAt, pauseUntil := shiftAt s p.pauseUntil,
           pfcUntil := p.pfcUntil.map (shiftAt s), flowAt := shiftAt s p.flowAt, faultEnd := shiftAt s p.faultEnd, maxLenAt := shiftAt s p.maxLenAt, idleSince := shiftAt s p.idleSince }

def PBlock.shift (s : Int) (b : PBlock) : PBlock := { b with seen := shiftAt s b.seen }

def Prot.shift (p : Prot) (s : Int) : Prot :=
  { p with wtrUntil := shiftAt s p.wtrUntil, sfWUntil := shiftAt s p.sfWUntil, sdWUntil := shiftAt s p.sdWUntil, acqSince := shiftAt s p.acqSince,
           failWSince := shiftAt s p.failWSince, failPSince := shiftAt s p.failPSince, ringW := p.ringW.map (PBlock.shift s), ringP := p.ringP.map (PBlock.shift s)
           sig := p.sig.map fun x => (x.1, shiftAt s x.2.1, x.2.2), sigHits := p.sigHits.map fun x => (x.1, shiftAt s x.2) }

def OnLine.shift (s : Int) (l : OnLine) : OnLine := { l with start := shiftAt s l.start, finish := shiftAt s l.finish }

def SchPort.shift (p : SchPort) (s : Int) : SchPort := { p with lastRefill := shiftAt s p.lastRefill, lineEnd := shiftAt s p.lineEnd, line := p.line.map (OnLine.shift s) }

/-- The moments at which requests entered their queues move with device time. -/
def Chan.shift (c : Chan) (s : Int) : Chan :=
  let f := fun (r : DramReq) => { r with at_ := shiftAt s r.at_ }
  { c with
    reads := c.reads.map f, writes := c.writes.map f, refreshDue := AMap.mapV c.refreshDue fun _ t => shiftAt s t, scrubAt := shiftAt s c.scrubAt
    scrubDue := ((c.scrubDue : Int) + s * chanBursts).toNat }

def TtbLane.shift (t : TtbLane) (s : Int) : TtbLane := { t with switch := t.switch.map fun w => { w with deadline := shiftAt s w.deadline } }

def SubSlot.shift (x : SubSlot) (s : Int) : SubSlot := { x with deadline := shiftAt s x.deadline, agreedAt := shiftAt s x.agreedAt }

def TimPort.shift (p : TimPort) (s : Int) : TimPort :=
  { p with past := p.past.map fun x => (shiftAt s x.1, x.2), syncAt := shiftAt s p.syncAt, delayReqAt := shiftAt s p.delayReqAt,
           pdelayReqAt := shiftAt s p.pdelayReqAt }

def Servo.shift (v : Servo) (s : Int) : Servo := { v with since := shiftAt s v.since, holdSince := shiftAt s v.holdSince }

def Bdy.shift (b : Bdy) (s : Int) : Bdy :=
  { b with holdUntil := shiftAt s b.holdUntil, sentAt := shiftAt s b.sentAt, sentPrev := shiftAt s b.sentPrev
           pairing := b.pairing.map fun p => { p with deadline := shiftAt s p.deadline } }

def Prc.shift (p : Prc) (s : Int) : Prc := { p with activateAt := p.activateAt.map (shiftAt s), zeroizeSince := shiftAt s p.zeroizeSince }

/-- Every running timer of the module moves with its time base. -/
def Dev.shiftTimers (d : Dev) (s : Int) : Dev :=
  let d := d.belM fun b => { b with lastAt := shiftAt s b.lastAt, prevAt := shiftAt s b.prevAt }
  let d := d.servoM fun v => v.shift s
  let d := d.timM fun t => { t with ppsRiseAt := shiftAt s t.ppsRiseAt, ppsInAt := shiftAt s t.ppsInAt, ports := AMap.mapV t.ports fun _ p => p.shift s }
  let d := d.lneM fun x => { x with lanes := AMap.mapV x.lanes fun _ l => { l with since := shiftAt s l.since, eyeAt := shiftAt s l.eyeAt } }
  let d := d.macM fun m => { m with ports := AMap.mapV m.ports fun _ p => p.shift s }
  let d := d.ttbM fun t => { t with lanes := AMap.mapV t.lanes fun _ x => x.shift s, prots := AMap.mapV t.prots fun _ p => p.shift s, lines := AMap.mapV t.lines fun _ x => { x with blocks := x.blocks.map (PBlock.shift s) } }
  let d := d.prsM fun p => { p with meters := AMap.mapV p.meters fun _ m => { m with last := shiftAt s m.last } }
  let d := d.fwdM fun w => { w with allowAt := shiftAt s w.allowAt, sweepAt := shiftAt s w.sweepAt, sweepHeld := w.sweepHeld.map (shiftAt s), streams := AMap.mapV w.streams fun _ x => { x with passedAt := x.passedAt.map (shiftAt s) } }
  let d := d.bufM fun b => { b with holds := AMap.mapV b.holds fun _ h => { expires := shiftAt s h.expires } }
  let d := d.schM fun x => { x with ports := AMap.mapV x.ports fun _ p => p.shift s }
  let d := d.govM fun g => { g with avsAt := shiftAt s g.avsAt }
  let d := d.drcM fun r => { r with chans := AMap.mapV r.chans fun _ c => c.shift s }
  let d := d.zbnM fun z => { z with
    flexe := AMap.mapV z.flexe fun _ f => { f with crAt := f.crAt.map (shiftAt s) }
    ports := AMap.mapV z.ports fun _ p => { p with sentAt := p.sentAt.map (shiftAt s) }
    lanes := AMap.mapV z.lanes fun _ l => { l with plan := l.plan.map fun p => { p with start := shiftAt s p.start } } }
  let d := d.subM fun x => { x with slots := AMap.mapV x.slots fun _ y => y.shift s, linger := AMap.mapV x.linger (fun _ t => shiftAt s t), wear := AMap.mapV x.wear fun _ w => { w with lastAt := w.lastAt.map (shiftAt s) } }
  let d := d.hifM fun h => { h with
    rings := AMap.mapV h.rings fun _ r => { r with oldest := shiftAt s r.oldest }
    inflight := h.inflight.map fun c => { c with since := shiftAt s c.since } }
  (d.bdyM fun b => b.shift s).prcM fun p => p.shift s

/-- Bins of performance monitoring whose boundary the step crosses, and those that it turns back, are suspect (04 R151). -/
def Dev.pmStep (d : Dev) (old new : Nat) : Dev :=
  let moved := fun (day : Bool) => decide (new < old) || d.binStart (binLen day) (old / qPerS) != d.binStart (binLen day) (new / qPerS)
  let doubt := fun (b : PmBin) => { b with suspect := true }
  let f := fun (p : PmLane) =>
    let p := if moved false then { p with cur15 := doubt p.cur15, next15 := p.next15.map doubt, doubt15 := true } else p
    if moved true then { p with cur24 := doubt p.cur24, next24 := p.next24.map doubt, doubt24 := true } else p
  d.zbnM fun z => { z with lanes := AMap.mapV z.lanes fun _ l => { l with pm := f l.pm } }

/-- A step of the time base, in 0.25 ns: posted with its size (02 R66, R82). -/
def Dev.stepTime (d : Dev) (s : Int) : Dev :=
  let old := d.now
  let new := ((old : Int) + s).toNat
  let d := (d.pmStep old new).shiftTimers s
  { d with now := new }.post 0x0402 [.wide (twos 64 s)]

end Sys2Proof.Machine
end

