-- ==== Sys2Proof/Machine/Bell.lean ====
section
/-! DEFINITION. The bell (01 R16 to R37): the bell rings, everything due at it is applied in the order of R28, the commits of the
period just ended are settled, and the length of the new period is decided. -/

namespace Sys2Proof.Machine

/-! ### The bell rings (01 R16 to R18, 02 R66) -/

/-- Device time is at the bell instant; the bell is numbered. -/
def Dev.bellRings (d : Dev) : Dev :=
  (d.reach d.bel.nextAt).belM fun b => { b with
    seq := (b.seq + 1) % 2 ^ 64, lastLen := (b.nextAt - b.lastAt) / qPerNs, prevAt := b.lastAt, lastAt := b.nextAt, lastTai := b.nextAt / qPerNs }

/-- Steps of the time base due at this bell: the servo's and those ordered by TIM.SET_TIME, which end with it. -/
def Dev.timeSteps (d : Dev) : Dev :=
  let d := match d.tim.servo.pendingStep with
    | some s => (d.servoM fun v => { v with pendingStep := none }).stepTime s
    | none => d
  d.each (d.hif.inflight.filter fun c => c.op == 0x0405 && c.stage == .waiting && !c.mirrored) fun c d => (d.stepTime c.timeStep).finish c stOk 0

/-! ### Length of the new period (01 R19 to R22, R45) -/

/-- Phase of the last bell on the grid, in 0.25 ns, from 0 to the period. -/
def Bel.phase (b : Bel) : Nat :=
  let p : Int := ((b.period * qPerNs : Nat) : Int)
  (((b.lastAt : Int) - ((b.epoch * qPerNs : Nat) : Int)) % p).toNat

/-- Phase error: positive when the bell was late, at most half a period either way. -/
def Bel.err (b : Bel) : Int := if 2 * b.phase ≤ b.period * qPerNs then (b.phase : Int) else (b.phase : Int) - ((b.period * qPerNs : Nat) : Int)

/-- Commands that order a step and await it, and those whose step has been under way. -/
def Dev.realigns (d : Dev) (underWay : Bool) : List Cmd :=
  d.hif.inflight.filter fun c => c.op == 0x0304 && c.stage == .waiting && !c.mirrored && (c.pos != 0) == underWay

/-- The next bell instant: a step onto the grid, or a correction by slewing. -/
def Dev.nextBell (d : Dev) : Dev :=
  let err := d.bel.err
  let d := d.belM fun b => { b with phaseErr := err, realigning := false }
  let d := d.each (d.realigns true) fun c d => d.finish c stOk 0
  let ordered := d.realigns false
  let p := d.bel.period * qPerNs
  let auto := d.bel.stepEn && Nat.blt (d.bel.stepThresh * qPerNs) err.natAbs
  if err ≠ 0 ∧ (auto || !ordered.isEmpty) then
    let lengthen := p - d.bel.phase
    let d := d.each ordered fun c d => d.cmdM c fun c => { c with pos := 1 }
    (d.belM fun b => { b with nextAt := b.lastAt + p + lengthen, realigning := true }).post 0x0302 [.value (lengthen / qPerNs)]
  else
    let d := d.each ordered fun c d => d.finish c stOk 0
    let slew : Int := ((d.bel.slew * qPerNs : Nat) : Int)
    let adjust := clampI (-slew) slew err
    d.belM fun b => { b with nextAt := b.lastAt + ((p : Int) - adjust).toNat }

/-! ### Cyclic bins (01 R34, R37) -/

/-- Frames of a class that a port in UP leaves over at a bell. -/
def Queue.leftovers (x : Queue) : List Copy := x.tran ++ x.pass

/-- The roles of one class rotate: leftovers, and the hold list of a port that is back in UP, head the bin that becomes
transmitting. -/
def Queue.rotate (x : Queue) (up : Bool) : Queue :=
  { x with tran := (if up then x.hold else []) ++ x.leftovers ++ x.recv, pass := [], recv := [], hold := if up then [] else x.hold, binPrev := x.binNow, binNow := 0 }

/-- Item 8 of 01 R28. -/
def Dev.rotateBins (d : Dev) : Dev :=
  let late := d.portList.flatMap fun n => ([12, 13, 14].filter fun c => !(d.queue (qIx n c)).leftovers.isEmpty).map fun c => (n, c)
  let d := d.belM fun b => { b with overrun := !late.isEmpty }
  let d := d.each late fun x d => d.count (cQueue (qIx x.1 x.2) 1) 1
  let d := match late with
    | (n, c) :: _ => (d.post 0x0304 [.index n, .index c]).trigger 4
    | [] => d
  d.each d.portList fun n d =>
    let up := (d.port n).state == .up || (d.port n).state == .draining
    d.each [12, 13, 14] fun c d => d.queueM (qIx n c) fun x => x.rotate up

/-! ### What is counted by bells -/

/-- Conflicts of the period just ended: an ordered holdover with a valid source, and refusals of a pinned SerDes side (02 R68, 03 R94). -/
def Dev.bellConflicts (d : Dev) : Dev :=
  let d := d.when (d.tim.servo.hostHoldover && d.tim.servo.sourceValid) fun d => d.conflict 0
  let pinned := (d.lne.lanes.filter fun l => l.2.pinConflict).map (·.1)
  d.each pinned fun l d => (d.laneM l fun x => { x with pinConflict := false }).conflict 1

/-- Mismatches of a port, of its pages and of its received containers, as they stand at the bell (03 R110, 04 R141, 05 R172). -/
def Dev.countMismatch (d : Dev) : Dev :=
  let d := d.each d.portList fun n d =>
    let d := d.portM n fun p => { p with fcBadPrev := p.fcBadNow, fcBadNow := false }
    let on := d.mmCause n != 0
    (d.portMatch n).portM n fun p => { p with mmBells := if on then p.mmBells + 1 else 0 }
  let d := d.zbnM fun z => { z with lanes := AMap.mapV z.lanes fun _ l => { l with pageBells := if l.pageMismatch then l.pageBells + 1 else 0 } }
  d.ttbM fun t => { t with lanes := AMap.mapV t.lanes fun _ l => { l with mmBells := if l.rxMismatch != 0 then l.mmBells + 1 else 0 } }

/-- What the far store and its governor lever count by bells; the period's moves begin again, recalls first (10 R355, R356). -/
def Dev.bellDram (d : Dev) (limit drained : Nat) : Dev :=
  let ks := List.range d.glb.part.stacks
  let d := d.each ks fun k d => d.when (d.stack k).panic fun d => d.count (cStack k 0) 1
  let d := d.when (limit != 0 && Nat.ble limit drained) fun d => d.each ks fun k d => d.count (cStack k 4) 1
  let d := d.drcM fun r => { r with drained := 0, uePosted := false }
  let qs := d.buf.queues.map (·.1)
  let d := d.each qs fun q d => d.askRecall q
  d.each qs fun q d => d.spillStep q

/-- Leaked units of a finished roll call return to their free list (08 R311). -/
def Dev.bellReclaim (d : Dev) : Dev :=
  let due := !d.buf.cellsDue.isEmpty || !d.buf.pagesDue.isEmpty
  let back := d.buf.farLeaks.filter d.buf.pagesDue.contains
  let d := d.bufM fun b => { b with
    nearLeaks := b.nearLeaks.filter fun u => !b.cellsDue.contains u, farLeaks := b.farLeaks.filter fun u => !b.pagesDue.contains u
    farUsed := b.farUsed - back.length, cellsDue := [], pagesDue := [] }
  d.when due fun d => d.farFreed.xoffScan

/-- A new period begins for the events that are posted once in each. -/
def Dev.clearPosted (d : Dev) : Dev :=
  (d.fwdM fun w => { w with fullPosted := false, movedPosted := false }).bufM fun b => { b with hdrmPosted := false, noCellPosted := false }

/-- Marks that stand for one period only. -/
def Dev.clearPeriodMarks (d : Dev) : Dev :=
  let d := d.fwdM fun w => { w with flushedKeys := [] }
  let d := d.glbM fun g => { g with lockedWrites := [] }
  let d := d.prcM fun p => { p with folded := [] }
  d.bdyM fun b => { b with hwKeys := b.hwKeys.filter fun k => Nat.ble d.bel.seq (k.1 + 1) }

/-! ### Items of the bell (01 R28) -/

/-- Item 3, behind the cut-overs: automatic substitutions start, then spares are claimed in the order of commits (16 R509, R511). -/
def Dev.bellClaims (d : Dev) : Dev :=
  let d := d.each d.sub.autoDue fun x d => d.autoStart x.1 x.2
  let claims := sortBy d.orderKey (d.retrainClaims ++ d.subClaims)
  let d := d.each claims fun c d => if c.op = 0x0D01 then d.claimRetrain c else d.claimSub c
  -- a substitution mirrored from the buddy has no command of this module
  d.each (d.sub.slots.filter fun x => !x.2.claimed && !x.2.auto && x.2.command.isNone) fun x d =>
    (d.subClaim x.1).getD (d.subM fun s => { s with slots := AMap.erase s.slots x.1 })

/-- Item 3: a take-over, cut-overs, then claims of spares (16 R509, R511, 17 R546). -/
def Dev.bellSubstitutes (d : Dev) : Dev := d.bellPair.channelCuts.subCuts.bellClaims

/-- CR of the first calendar switch of a port goes out once its bell has rung (04 R155). -/
def Dev.bellFlexe (d : Dev) : Dev :=
  d.each (d.zbn.flexe.map (·.1)) fun n d =>
    let f := d.flexe n
    match f.pend with
    | (_, _, due) :: _ => if f.crAt.isNone ∧ due ≤ d.bel.seq then (d.flexeM n fun f => { f with crAt := some d.now }).sendFlexe n else d
    | [] => d

/-- The module as a winner's reservation of near-store cells would leave it (08 R286): an index that TTB.SET_PROTECTION sets or disables, or
the cells of BUF.SET_ADMIT. None where the commit reserves nothing. -/
def Dev.reserving (d : Dev) (c : Cmd) : Option Dev :=
  if c.op = 0x0805 then
    if c.e.b 16 16 then some (d.setProt c.e) else if d.protInUse (protField c.e) then none else some (d.dropProt c.e)
  else if c.op = 0x0B01 then some (d.admitSet c.e)
  else none

/-- Reservations that take effect at one bell are granted in the precedence of 01 R29: the first part is the module with those granted so far,
the second the commits whose reservations no longer fit (08 R286). -/
def reservesBeyond (d : Dev) : List Cmd → List Cmd
  | [] => []
  | c :: r =>
    match d.reserving c with
    | none => reservesBeyond d r
    | some d' => if d'.poolKeeps || decide (d'.nearReserved ≤ d.nearReserved) then reservesBeyond d' r else c :: reservesBeyond d r

/-- The commits whose reservations do not fit are marked. -/
def Dev.grantReserves (d : Dev) : Dev :=
  d.each (reservesBeyond d (sortBy d.orderKey (d.dueIn 0 100))) fun c d => d.cmdM c fun c => { c with noRoom := true }

/-- What follows the commits of item 7: armed pages, calendars, and the windows and guard of the new period. -/
def Dev.afterCommits (d : Dev) : Dev :=
  d.armPages.bellFlexe.belM fun b => { b with
    ports := AMap.mapV b.ports fun _ p => { p with passPrev := p.passOpen, passOpen := p.pass }, guarding := true }

/-- Item 9, and what a rejoin starts at its bell (17 R540, R542, R549). -/
def Dev.bellBuddy (d : Dev) : Dev :=
  let d := d.rejoinStart
  let follow := d.bdy.timeFollow && d.bdy.index == 1 && d.tim.servo.srcKind == 3 && d.bdy.linkUp
  (d.when follow fun d => d.servoSample (q16 (-d.bdy.offset))).sendHeartbeat

/-- Commits of periods past are settled: at once, or, while PAIRED, 1 us after the bell (13 R445, 17 R536). -/
def Dev.bellSettle (d : Dev) : Dev := d.settleUpTo (if d.bdy.state == .paired then d.bel.seq - 2 else d.bel.seq - 1)

/-- Item 1, up to the commits that take effect with it. -/
def Dev.bellToSnapshot (d : Dev) : Dev := d.clearPosted.flipAt d.bel.seq

/-- Item 1, and item 2 up to its commits. -/
def Dev.bellToEnergy (d : Dev) : Dev := d.bellToSnapshot.applyRange 0 20

/-- Up to item 3. -/
def Dev.bellToPairs (d : Dev) (i : BellInput) : Dev :=
  let d := d.bellToEnergy
  (((d.applyRange 20 30).bellConflicts.settleEnergy i d.gov.pEff).closeConflicts)

/-- Up to item 4. -/
def Dev.bellToPeriod (d : Dev) (i : BellInput) : Dev := (d.bellToPairs i).bellSubstitutes

/-- Up to item 5. -/
def Dev.bellToPages (d : Dev) (i : BellInput) : Dev := (d.bellToPeriod i).periodChange

/-- Up to the commits of item 6. -/
def Dev.bellToGeneration (d : Dev) (i : BellInput) : Dev := (d.bellToPages i).switchPages.genRetire

/-- Up to the first commits of item 7; a refill with the configuration in force comes before them (01 R27, 09 R337). -/
def Dev.bellToForm (d : Dev) (i : BellInput) : Dev := ((d.bellToGeneration i).applyRange 61 70).refillAll

/-- Up to the last commits of item 7, the reservations among them granted. -/
def Dev.bellToCommits (d : Dev) (i : BellInput) : Dev := ((d.bellToForm i).applyRange 70 73).grantReserves

/-- What a bell does after its commits: items 8 and 9, and what is settled and counted by bells. The far store's counts are those of the
period that has ended. -/
def Dev.bellRest (d : Dev) (limit drained : Nat) : Dev :=
  let d := d.afterCommits.computeSeals.rotateBins.bellBuddy
  ((d.bellSettle.countMismatch.bellDram limit drained).bellReclaim.rollStart).clearPeriodMarks

/-- What a module in service does at a bell. -/
def Dev.bellItems (d : Dev) (i : BellInput) : Dev :=
  ((d.bellToCommits i).applyRange 73 100).bellRest d.drc.drainLimit d.drc.drained

end Sys2Proof.Machine
end

