-- ==== Sys2Proof/Machine/Reset.lean ====
section
/-! DEFINITION. Resets, stops and halts (19 R586 to R597, 20 R606 to R609), and the end of zeroization (18 R578). -/

namespace Sys2Proof.Machine

/-! ### Halts -/

/-- The module halts with a code (19 R597). -/
def Dev.halt (d : Dev) (code : Nat) : Dev := d.glbM fun g => { g with phase := 15, haltCode := code, hifReady := false }

/-- A start-up row acts only in its phase of a start that nothing has stopped. -/
def Dev.inPhase (d : Dev) (k : Nat) : Bool := d.glb.phase == k && d.boot.stopped == .no && d.prc.zeroizing.isNone

/-! ### Cold reset (19 R591) -/

/-- Bits of GLB_RESET_CAUSE (14 R480). -/
def causePowerOn : Nat := 0
def causePin : Nat := 1
def causeHostWarm : Nat := 2
def causeWatchdog : Nat := 3
def causeFwUpdate : Nat := 4
def causeZeroize : Nat := 5

/-- What the Proctor keeps through a cold reset. -/
def Prc.cold (p : Prc) : Prc :=
  { key := p.key, keyLocks := p.keyLocks, keyState := p.keyState, identity := p.identity, activeBank := p.activeBank, bankA := p.bankA, bankB := p.bankB
    bank := p.bank, rollback := p.rollback, audit := p.audit, auditNext := p.auditNext, officerSeq := p.officerSeq
    zeroizeLow := p.zeroizeLow, zeroizeArmed := p.zeroizeArmed }

/-- What the far store keeps: rows repaired stay repaired, so that their spare rows stay used. -/
def Drc.cold (r : Drc) : Drc :=
  { chans := AMap.mapV (r.chans.filter fun c => !c.2.sparesUsed.isEmpty) fun _ c => { sparesUsed := c.sparesUsed } }

/-- A cold reset of a cause: every other field returns to its reset value; what the module has sent stays sent. -/
def Dev.coldReset (d : Dev) (cause : Nat) : Dev :=
  let d := d.updateCut
  { free := d.free, out := d.out
    glb := { part := d.glb.part, cause := 2 ^ cause + 64, afterTrip := cause != causePowerOn && (d.boot.stopped == .trip || d.glb.afterTrip) }
    prc := d.prc.cold, drc := d.drc.cold
    pins := { thermtripN := d.pins.thermtripN, flashSelHeld := d.pins.flashSelHeld }
    boot := { eraseFirst := d.boot.eraseFirst } }

/-! ### Warm reset (19 R591, R592) -/

/-- A warm reset is asked for: it begins within 1 us (14 R481, 19 R589). -/
def Dev.askWarm (d : Dev) (cause : Nat) : Dev := d.bootM fun b => { b with warmDue := some cause }

/-- A warm reset may be asked for: none is under way, and nothing has stopped the module (14 R481, 19 R590, R597). -/
def Dev.mayWarm (d : Dev) : Bool :=
  d.boot.warmDue.isNone && !d.boot.resetting && d.boot.stopped == .no && d.glb.phase != 15 && d.prc.zeroizing.isNone

/-- The module leaves the pair: nothing that waited for the buddy waits any more (19 R591, R592). -/
def Dev.pairOff (d : Dev) : Dev :=
  let d := (d.bdyM fun b => { b with own := b.own.map OwnRecord.toLedger }).releaseOwn.freeShadow
  d.bdyM fun b => { takeoverRing := b.takeoverRing, timeFollow := b.timeFollow, beatEn := b.beatEn, index := b.index, txq := b.txq, lanes := b.lanes }

/-- A command of this module ends by the reset: one that has begun as an abort ends it, any other without effect. -/
def Dev.resetAbort (d : Dev) (c : Cmd) : Dev :=
  match c.stage with
  | .long => d.flrAbort c
  | .waiting => d.flrAbort c
  | _ => d.finish { c with cring := 32 } stAborted 0

/-- Outcome of a dispatched descriptor whose place stands in the ledger: ST_OK if a copy of its frame had left. -/
def Dev.txOutcome (d : Dev) (c : Compl) : Compl :=
  if c.kind = 1 ∧ c.status = 1 then
    let left := d.buf.frames.any fun f => f.2.sent && match f.2.tx with | some (r, i, _) => r % 64 == c.ring && i == c.index | none => false
    { c with status := if left then stOk else stAborted }
  else c

/-- Commands and descriptors enter the ledger. -/
def Dev.warmLedger (d : Dev) : Dev :=
  let d := d.each (d.hif.inflight.filter fun c => !c.mirrored) fun c d => d.resetAbort c
  let d := (d.hifM fun h => { h with inflight := [], prog := [] }).restartHif
  d.hifM fun h => { h with ledger := h.ledger.map d.txOutcome, tx := [] }

/-- A port in a warm reset: settings and admin state stand. -/
def Port.warm (p : Port) : Port :=
  { p with
    state := if p.state == .absent then .absent else .disabled
    localFault := false, remoteFault := false, lpiTx := false, lpiWaking := false, lpiRx := false
    pfcUntil := [0, 0, 0, 0, 0, 0, 0, 0], pauseUntil := 0, pfcHeld := [0, 0, 0, 0, 0, 0, 0, 0]
    fcBadNow := false, fcBadPrev := false, mmBells := 0, mmPosted := false, requests := [], flushFromHold := false
    xoffSent := 0, prioSent := 0, flowDue := false }

/-- A lane in a warm reset. -/
def Lane.warm (l : Lane) : Lane :=
  { l with state := .off, signal := false, cdrLock := false, blockLock := false, lpiTx := false, lpiRx := false, adapting := false, pinConflict := false, lacksMode := false }

/-- A Zuben lane in a warm reset: configuration, traces to be sent or compared and performance counts stand. -/
def ZLane.warm (z : ZLane) : ZLane :=
  { sdExp := z.sdExp, timSecEn := z.timSecEn, timPathEn := z.timPathEn, txTrace := z.txTrace, expTrace := z.expTrace, pm := z.pm, sd := { exp := z.sdExp } }

/-- FlexE in a warm reset: the calendars and the one in use stand. -/
def FlexE.warm (x : FlexE) : FlexE := { calTx := x.calTx, calRx := x.calRx, group := x.group, phy := x.phy, calA := x.calA, calB := x.calB }

/-- A recorder region in a warm reset: one that was recording freezes with trigger code 0, and its page under way is written. -/
def Dev.warmRegion (d : Dev) (r : Nat) : Dev :=
  let x := d.region r
  if x.state == .recording || x.state == .post then
    let d := if x.cur.isEmpty then d else d.writeRecPage r
    (d.regionM r fun y => { y with trigger := 0, freezeWait := [], rearmWait := [], disableWait := [] }).toFrozen r
  else if x.state == .reading then (d.regionM r fun y => { y with reader := none }).toFrozen r
  else d

/-- Meter buckets are full (19 R591). -/
def Meter.full (m : Meter) (now : Nat) : Meter := { m with tc := ((m.cbs * 256 : Nat) : Int), te := ((m.ebs * 256 : Nat) : Int), fracC := 0, fracP := 0, last := now }

/-- What the Proctor keeps through a warm reset: the seal as well. -/
def Prc.warm (p : Prc) : Prc := { p.cold with sealed := p.sealed, sealDigest := p.sealDigest, zeroizeSince := p.zeroizeSince, running := p.running, staged := p.staged }

/-- The blocks of the data path in a warm reset. -/
def Dev.warmBlocks (d : Dev) : Dev :=
  let d := d.macM fun m => { m with ports := AMap.mapV m.ports fun _ p => p.warm }
  let d := d.lneM fun l => { l with lanes := AMap.mapV l.lanes fun _ x => x.warm }
  let d := d.zbnM fun z => { z with
    lanes := AMap.mapV z.lanes fun _ x => x.warm
    slots := AMap.mapV z.slots fun _ x => { txTrace := x.txTrace, expTrace := x.expTrace }
    flexe := AMap.mapV z.flexe fun _ x => x.warm }
  let d := d.ttbM fun t => { t with
    lanes := AMap.mapV t.lanes fun _ x => { pageA := x.pageA, pageB := x.pageB, active := x.active }
    prots := AMap.mapV t.prots fun _ p => { p.fresh with host := p.host } }
  let d := d.rewireAll.prsM fun p => { p with meters := AMap.mapV p.meters fun _ m => m.full d.now }
  let d := d.fwdM fun w => { w with streams := AMap.mapV w.streams fun _ s => { s with takeAny := true, hist := 0, passedAt := none } }
  (d.each (List.range 8) fun r d => d.warmRegion r).belM fun b => { b with pend := none }

/-- Substitutions and retrains that still run without a command end, and their spares return. -/
def Dev.warmSubs (d : Dev) : Dev :=
  let d := d.each d.sub.slots fun x d => (d.undoSub x.2).subM fun s => { s with slots := AMap.erase s.slots x.1 }
  let d := d.each d.drc.retrains fun x d => if x.2.phase = 0 then d else d.dropCopySlot (x.1 / 2) (x.1 % 2)
  d.subM fun s => { s with linger := [], autoDue := [] }

/-- The module stops and starts again from phase 0; before phase 5 there is nothing to stop, and a cold start stays one (19 R590). -/
def Dev.warmReset (d : Dev) (cause : Nat) : Dev :=
  let up := d.glb.phase == 5 || d.glb.phase == 6
  let d := d.when up fun d =>
    let d := d.pairOff.warmLedger.warmSubs.loseFrames.warmBlocks
    d.bootM fun b => { b with warm := true }
  let d := ((d.setPrc .boot).prcM Prc.warm).glbM fun g => { g with phase := 0, hifReady := false, cause := 2 ^ cause, warmCount := satTo 65535 (g.warmCount + 1) }
  d.bootM fun b => { b with resetting := true, warmDue := none }

/-! ### Phase 5 (19 R592, R594) -/

/-- The host interface is ready. After a warm reset, enabled ports train, and the ledger is announced. -/
def Dev.toPhase5 (d : Dev) : Dev :=
  let warm := d.boot.warm
  let d := (d.glbM fun g => { g with phase := 5, hifReady := true }).bootM fun b => { b with resetting := false, watchdogs := 0, warm := false }
  d.when warm fun d =>
    let d := (d.govM fun g => { g with balance := 0, step := 0, beHold := false, held := false }).sweepPause
    let d := d.each (d.portList.filter fun n => (d.port n).admin) fun n d => d.toTraining n
    (d.hifM fun h => { h with flr := false }).post 0x0204 [.value (ledgerOrder d.hif.ledger).length]

/-! ### Stops (19 R588, 20 R606) -/

/-- Processing stops, and frames inside the module are lost (08 R304 reason 6). -/
def Dev.stopAll (d : Dev) (why : Stopped) : Dev := if d.boot.stopped == .no then d.loseFrames.bootM fun b => { b with stopped := why } else d

/-- THERMTRIP_N goes high again where VAUX_3V3 was removed; rails that came back without it leave it low (20 R608). -/
def Dev.releaseTrip (d : Dev) : Dev :=
  if d.boot.railsOut.isEmpty || d.boot.railsOut.contains 0 then d.pinsM fun p => { p with thermtripN := true } else d

/-- Rails in the order of 19 R586: VCORE0 to VCORE3 are 4 to 7, of which a variant has those of its quadrants. -/
def Part.hasRail (p : Part) (rail : Nat) : Bool := decide (rail < 11) && (decide (rail < 4) || decide (8 ≤ rail) || decide (rail - 4 < p.quads))

/-! ### Power-on and RESET_N -/

/-- What an external programmer has written while RESET_N and FLASH_SEL_N were low stands: a bank, or the active-bank marker. Phase 0
waits where FLASH_SEL_N is still low when RESET_N rises (20 R609). -/
def Dev.flashPath (d : Dev) (flashSel : Bool) (flash : List FlashImage) : Dev :=
  let d := d.pinsM fun p => { p with flashSelHeld := flashSel }
  d.each flash fun f d => d.prcM fun p =>
    match f.bank with
    | 0 => { p with bankA := bankOf f.image }
    | 1 => { p with bankB := bankOf f.image }
    | _ => { p with activeBank := b2n (nth f.image 0 0 == 0x42) }

/-- After a zeroization that failed, the erasure runs again before phase 0 (18 R578, 19 R597). -/
def Dev.eraseAgain (d : Dev) (z : Zeroizing) : Dev :=
  d.prcM fun p => { p with state := .zeroizing, zeroizing := some { z with attempts := 0, commands := [] } }

/-! ### PCI Express (19 R589, 20 R606) -/

/-- The link goes down, which acts as an FLR. -/
def Dev.linkDown (d : Dev) : Dev :=
  let was := (d.hif.linkGen, d.hif.linkWidth)
  let d := d.when (d.inService && d.prc.zeroizing.isNone) fun d => d.flrStart
  (d.hifM fun h => { h with linkGen := 0, linkWidth := 0 }).when (d.inService && was != (0, 0)) fun d => d.post 0x0205 [.value 0, .value 0]

/-! ### The end of zeroization (18 R564, R578) -/

/-- Everything that R564 marks is erased. -/
def Prc.erased (p : Prc) : Prc :=
  { p with
    key := List.replicate 16 0, keyLocks := 0, keyState := 0, identity := false, officerSeq := 0, sealed := 0, sealDigest := [], generated := 0 }

/-- The commands that began it or were absorbed end; no record of the buddy is waited for. Result bit 31 is set where the service
ran as an approved one (18 R562, R574). -/
def Dev.zeroizeEnds (d : Dev) (z : Zeroizing) (status : Nat) : Dev :=
  let result := if z.began = 2 ∨ z.began = 5 then ranApproved else 0
  (d.bdyM fun b => { b with state := .off }).each z.commands fun c d => d.finishAt c.1 c.2 status result

/-! ### Start-up (19 R594 to R597) -/

/-- The first bell falls on the first grid instant at or after the core clock is stable; its number is 0 (01 R18, 19 R594). -/
def Dev.firstBell (d : Dev) : Dev :=
  let p := d.bel.period * qPerNs
  let t := (d.now + p - 1) / p * p
  (d.reach t).belM fun b => { b with seq := 0, prevAt := t, lastAt := t, lastTai := t / qPerNs, nextAt := t + p }

/-- Contents of bank k. -/
def Prc.bankAt (p : Prc) (k : Nat) : FwBank := if k = 0 then p.bankA else p.bankB

/-- A bank can boot: it holds a valid image whose security version the counter allows (18 R565). -/
def Prc.mayBoot (p : Prc) (k : Nat) : Bool := (p.bankAt k).valid && decide (p.rollback ≤ (p.bankAt k).secVersion)

/-- Bank that the boot ROM runs: the one marked active, or else the other (18 R565). -/
def Prc.bootBank (p : Prc) : Option Nat := [p.activeBank, 1 - p.activeBank].find? p.mayBoot

/-- Units of a kind that failed BIST, each once, in rising order. -/
def bistUnits (failed : List (Nat × Nat)) (kind hi : Nat) : List Nat := (List.range hi).filter fun u => failed.contains (kind, u)

/-- A unit that failed: a spare is retired, a unit in service is replaced by the lowest free spare of its kind (19 R595). -/
def Dev.bistFail (d : Dev) (kind u : Nat) (bad : List Nat) : Dev :=
  let x := d.unitAt kind u
  if x.state = 0 then d.setUnit kind u { x with state := 3 }
  else
    match (List.range (unitCount kind)).find? fun s => (d.unitAt kind s).state == 0 && !bad.contains s with
    | some s => (d.setUnit kind s { d.unitAt kind s with state := 1, logical := x.logical }).setUnit kind u { x with state := 3 }
    | none => d.setUnit kind u { x with state := 3 }

end Sys2Proof.Machine
end

