-- ==== Sys2Proof/Machine/Registers.lean ====
section
/-! DEFINITION. The form in which the set-up registers are listed (14 R463 to R484), and the registers of the blocks GLB to PRS. -/

namespace Sys2Proof.Machine

/-- How a register takes a write: by its field rules alone, as WO, as one of the two write-once registers, or as BEL_CTRL, which a
seal can lock (14 R465, R478, 18 R575). -/
inductive RegKind where
  | plain | resetCtrl | railLimit | officerKey | belCtrl
  deriving DecidableEq, Repr

/-- A register, or an array of registers at equal steps (14 R484). -/
structure Reg where
  /-- Offset of entry 0 in BAR0. -/
  base : Nat
  n : Nat := 1
  stride : Nat := 16
  /-- The variant has the entry's resource. -/
  has : Dev → Nat → Bool := fun _ _ => true
  /-- The entry's value. -/
  get : Dev → Nat → Nat
  /-- What a proposed new value does: RO fields take no part (14 R464). -/
  put : Nat → Nat → Dev → Dev := fun _ _ d => d
  /-- Distance to the _HI partner, for a _LO register; 0 otherwise. -/
  pair : Nat := 0
  kind : RegKind := .plain

/-- A register word from its fields: lowest bit, width, value. -/
def packW (fs : List (Nat × Nat × Nat)) : Nat := fs.foldl (fun acc f => acc + fld f.2.2 f.2.1 f.1) 0

/-- Flags at rising bits from one on. -/
def flagsW : Nat → List Bool → Nat
  | _, [] => 0
  | lo, b :: r => b2n b * 2 ^ lo + flagsW (lo + 1) r

/-- Low and high half of a 64-bit value. -/
def lo32 (x : Nat) : Nat := x % 2 ^ 32
def hi32 (x : Nat) : Nat := x / 2 ^ 32 % 2 ^ 32

/-- A register without an index whose fields are all RO. -/
def ro (base : Nat) (get : Dev → Nat) : Reg := { base, get := fun d _ => get d }

/-- A register without an index with RW fields. -/
def rw (base : Nat) (get : Dev → Nat) (put : Nat → Dev → Dev) : Reg := { base, get := fun d _ => get d, put := fun _ v d => put v d }

/-- A 64-bit RO value in a _LO and a _HI register 16 bytes apart. -/
def ro64 (base : Nat) (get : Dev → Nat) : List Reg :=
  [{ base, get := fun d _ => lo32 (get d), pair := 16 }, ro (base + 16) fun d => hi32 (get d)]

/-- One RO entry per port: 0 where the lane heads no port (14 R484). -/
def perPort (base : Nat) (get : Dev → Nat → Nat) : Reg :=
  { base, n := 1024, has := fun d n => decide (n < d.glb.part.lanes), get := fun d n => if d.portExists n then get d n else 0 }

/-- One RO entry per lane of the grid. -/
def perLane (base : Nat) (get : Dev → Nat → Nat) : Reg :=
  { base, n := 1024, has := fun d l => decide (l < d.glb.part.lanes), get }

/-- One RO entry per queue: 0 where its port is not formed. -/
def perQueue (base : Nat) (get : Dev → Nat → Nat) : Reg :=
  { base, n := 16384, has := fun d q => decide (q / 16 < d.glb.part.lanes), get := fun d q => if d.portExists (q / 16) then get d q else 0 }

/-- One RO entry per index. -/
def perIdx (base n : Nat) (get : Dev → Nat → Nat) : Reg := { base, n, get }

/-! ### GLB (14 R480) -/

def Dev.bootStatus (d : Dev) : Nat :=
  packW [(0, 4, d.glb.phase), (4, 1, b2n d.glb.hifReady), (5, 1, b2n d.drc.ready), (6, 1, b2n d.approved), (16, 8, d.glb.haltCode)]

def Dev.wlStatus (d : Dev) : Nat :=
  d.glb.railLocks.foldl (fun acc q => setBit acc q true) 0 + d.prc.keyLocks * 16

def glbRegs : List Reg :=
  [ro 0x00 fun d => packW [(0, 16, d.glb.part.code), (16, 8, Config.revision), (24, 8, 1)]] ++
  ro64 0x10 (fun _ => Config.serial) ++
  [ro 0x30 fun d => packW [(0, 11, d.glb.part.lanes), (11, 5, d.glb.part.pipelines), (16, 5, d.glb.part.stacks), (21, 1, b2n d.glb.part.rollcall), (22, 1, 1)],
   ro 0x40 fun d => lo32 d.glb.fwVersion,
   ro 0x50 fun d => d.bootStatus,
   { base := 0x60, get := fun _ _ => 0, kind := .resetCtrl },
   ro 0x70 fun d => d.glb.cause + b2n d.glb.afterTrip * 128,
   ro 0x80 fun d => satTo 65535 d.glb.warmCount,
   rw 0x90 (fun d => d.glb.scratch) fun v d => d.glbM fun g => { g with scratch := v },
   ro 0xA0 fun d => d.wlStatus]

/-! ### HIF (12 R436) -/

/-- HIF_RING_STATUS.held: fetch waits for room in the bound completion ring, or dispatch is halted (12 R411, R425). -/
def Dev.ringHeld (d : Dev) (g : Nat) : Bool :=
  let r := d.ring g
  r.state == .running &&
    (((isCommandRing g || isTxRing g) && r.waiting != 0 && !d.bindRoom g) ||
      (isTxRing g && match (d.txRead (g - 64)).head? with | some t => d.txHalted t | none => false))

/-- A write of a ring's base or configuration is ignored and counted while the ring is not OFF (12 R408). -/
def Dev.ringSet (d : Dev) (g : Nat) (f : Ring → Ring) : Dev :=
  if (d.ring g).state == .off then d.ringM g f else d.count (cDev 3) 1

/-- Entry e of the progress window: tag, ring, bp, position. -/
def Dev.progAt (d : Dev) (e : Nat) : Nat × Nat × Nat × Nat := AMap.getD d.hif.prog e (0, 0, 0, 0)

def perRing (base : Nat) (get : Ring → Nat) (put : Nat → Nat → Dev → Dev := fun _ _ d => d) (pair : Nat := 0) : Reg :=
  { base, n := 200, get := fun d g => get (d.ring g), put, pair }

/-- HIF_RING_CFG: the binding and the user bit belong to command and TX rings, the vector to the others. -/
def ringCfg (g v : Nat) (r : Ring) : Ring :=
  let host := isCommandRing g || isTxRing g
  { r with
    sizeLog := min 10 (bits v 3 0)
    cring := if host then bits v 12 8 else r.cring
    vector := if host then r.vector else bits v 23 16
    user := if host then bit v 24 else r.user }

def hifRegs : List Reg :=
  [rw 0x100000 (fun d => d.hif.ledgerRing) fun v d => d.hifM fun h => { h with ledgerRing := bits v 4 0 },
   ro 0x100010 fun d => packW [(0, 13, d.inflightCount), (13, 1, b2n (!d.hif.ledger.isEmpty)), (14, 7, d.hif.prog.length), (21, 3, d.hif.linkGen),
     (24, 5, d.hif.linkWidth)],
   perRing 0x110000 (fun r => fld r.base 20 12) (fun g v d => d.ringSet g fun r => { r with base := r.base / 2 ^ 20 * 2 ^ 20 + bits v 31 12 }) 0x1000,
   perRing 0x111000 (fun r => r.base / 2 ^ 20) fun g v d => d.ringSet g fun r => { r with base := r.base % 2 ^ 20 + v * 2 ^ 20 },
   perRing 0x112000 (fun r => packW [(0, 4, r.sizeLog), (8, 5, r.cring), (16, 8, r.vector), (24, 1, b2n r.user)]) fun g v d => d.ringSet g (ringCfg g v),
   perRing 0x113000 (fun r => b2n r.en) fun g v d => d.ringCtrl g (bit v 0),
   perIdx 0x114000 200 fun d g =>
     let r := d.ring g
     packW [(0, 2, r.state.code), (2, 1, b2n r.armed), (3, 1, b2n (d.ringHeld g)), (4, 1, b2n r.error), (15, 17, r.devIdx)],
   perRing 0x115000 (fun r => packW [(0, 8, r.modCount), (16, 12, r.modTime)]) fun g v d =>
     d.ringM g fun r => { r with modCount := max 1 (bits v 7 0), modTime := bits v 27 16 },
   { base := 0x120000, n := 8, get := fun d k => d.route k
     put := fun k v d => d.hifM fun h => { h with evtRoute := AMap.set h.evtRoute k (bits v 17 0) } },
   { base := 0x130000, n := 64, stride := 64
     get := fun d e => packW [(0, 12, (d.progAt e).1), (12, 5, (d.progAt e).2.1), (17, 1, b2n (AMap.find? d.hif.prog e).isSome)] },
   { base := 0x130010, n := 64, stride := 64, get := fun d e => (d.progAt e).2.2.1 },
   { base := 0x130020, n := 64, stride := 64, get := fun d e => lo32 (d.progAt e).2.2.2, pair := 16 },
   { base := 0x130030, n := 64, stride := 64, get := fun d e => hi32 (d.progAt e).2.2.2 }]

/-! ### BEL (01 R40) -/

/-- A port that a new slew and guard would overfill (01 R31). -/
def Dev.overfilledPort (d : Dev) (slew guard : Nat) : Option Nat :=
  d.portList.find? fun n => !d.portFits (d.belPort n) (d.rateNum n (d.assignedMost n)) slew guard

/-- A write of BEL_CTRL: checked where it changes slew or guard, and ignored whole if a port would be overfilled (01 R31). -/
def Dev.putBelCtrl (d : Dev) (v : Nat) : Dev :=
  let slew := bits v 7 0
  let guard := bits v 15 8
  let refused := if slew = d.bel.slew ∧ guard = d.bel.guard then none else d.overfilledPort slew guard
  match refused with
  | some n => d.post 0x0305 [.index n]
  | none => d.belM fun b => { b with slew, guard, stepEn := bit v 16 }

def Dev.pendPeriod (d : Dev) : Nat := (d.bel.pend.map fun p => p.period).getD 0
def Dev.pendTai (d : Dev) : Nat := (d.bel.pend.map fun p => p.tai).getD 0

def belRegs : List Reg :=
  [{ base := 0x200000, get := fun d _ => d.bel.ctrlWord, put := fun _ v d => d.putBelCtrl v, kind := .belCtrl },
   rw 0x200010 (fun d => d.bel.stepThresh) fun v d => d.belM fun b => { b with stepThresh := v },
   ro 0x200020 fun d => packW [(0, 2, d.bel.source), (2, 1, b2n d.bel.pend.isSome), (3, 1, b2n d.bel.overrun)],
   ro 0x200030 fun d => lo32 d.bel.period] ++
  ro64 0x200040 (fun d => d.bel.epoch) ++
  [ro 0x200060 fun d => lo32 d.pendPeriod] ++
  ro64 0x200070 (fun d => d.pendTai) ++ ro64 0x200090 (fun d => d.bel.seq) ++ ro64 0x2000B0 (fun d => d.bel.lastTai) ++
  [ro 0x2000D0 fun d => twos 32 d.bel.phaseErr,
   ro 0x2000E0 fun d => lo32 d.bel.lastLen,
   perPort 0x210000 fun d n => lo32 (d.belPort n).pass,
   perPort 0x220000 fun d n => lo32 (d.belPort n).commit,
   perPort 0x230000 fun d n => lo32 (d.cap n)]

/-! ### TIM (02 R75) -/

/-- Domain number as the profile allows it (02 R75). -/
def clampDomain (profile x : Nat) : Nat := if profile = 0 then min 127 x else if profile = 1 then clamp 24 43 x else 0

def putTimCtrl (v : Nat) (t : Tim) : Tim :=
  let profile := min 2 (bits v 4 3)
  { t with
    hwEn := bit v 0, tcEn := bit v 1, tcP2p := bit v 2, profile, nonfwd := bit v 5, hybrid := bit v 6
    domain := clampDomain profile (bits v 15 8), puntRing := bits v 21 16 }

def Tim.ctrlWord (t : Tim) : Nat :=
  packW [(0, 1, b2n t.hwEn), (1, 1, b2n t.tcEn), (2, 1, b2n t.tcP2p), (3, 2, t.profile), (5, 1, b2n t.nonfwd), (6, 1, b2n t.hybrid), (8, 8, t.domain),
    (16, 6, t.puntRing)]

def Dev.holdoverTime (d : Dev) : Nat := if d.tim.servo.state == .holdover then (d.now - d.tim.servo.holdSince) / qPerS else 0

def rwTim (base : Nat) (get : Tim → Nat) (put : Nat → Tim → Tim) : Reg := rw base (fun d => get d.tim) fun v d => d.timM (put v)

/-- TIM_PORT_PEER_DELAY: the mean in 2^-16 ns, shown in 0.25 ns. -/
def Dev.peerDelayReg (d : Dev) (n : Nat) : Nat := match d.meanD n with | some x => twos 32 (divFloor x 16384) | none => 0

def timRegs : List Reg :=
  [rwTim 0x300000 (fun t => t.ctrlWord) putTimCtrl,
   { base := 0x300010, get := fun d _ => d.tim.clockLo, put := fun _ v d => d.timM fun t => { t with clockLo := v }, pair := 16 },
   rwTim 0x300020 (fun t => t.clockHi) fun v t => { t with clockHi := v }] ++
  ro64 0x300030 (fun d => d.now) ++
  [rwTim 0x300050 (fun t => packW [(0, 16, t.utcOffset), (16, 1, b2n t.utcValid), (17, 1, b2n t.leap61), (18, 1, b2n t.leap59)])
     fun v t => { t with utcOffset := bits v 15 0, utcValid := bit v 16, leap61 := bit v 17, leap59 := bit v 18 },
   rwTim 0x300060 (fun t => packW [(0, 16, t.kp), (16, 16, t.ki)]) fun v t => { t with kp := bits v 15 0, ki := bits v 31 16 },
   rwTim 0x300070 (fun t => packW [(0, 16, t.lockNs), (16, 16, t.unlockNs)]) fun v t => { t with lockNs := bits v 15 0, unlockNs := bits v 31 16 },
   rwTim 0x300080 (fun t => packW [(0, 8, t.lockCount), (8, 8, t.unlockCount), (16, 8, t.regainCount), (24, 8, t.delayAvg)])
     fun v t => { t with lockCount := bits v 7 0, unlockCount := bits v 15 8, regainCount := bits v 23 16, delayAvg := clamp 1 64 (bits v 31 24) },
   rwTim 0x300090 (fun t => packW [(0, 31, t.stepNs), (31, 1, b2n t.servoStepEn)]) fun v t => { t with stepNs := bits v 30 0, servoStepEn := bit v 31 },
   rwTim 0x3000A0 (fun t => t.flim) fun v t => { t with flim := min 500000 v },
   rwTim 0x3000B0 (fun t => t.sampleTimeout) fun v t => { t with sampleTimeout := v },
   rwTim 0x3000C0 (fun t => t.holdoverLimit) fun v t => { t with holdoverLimit := v },
   ro 0x3000D0 fun d =>
     let s := d.tim.servo
     packW [(0, 2, s.state.code), (2, 1, b2n s.hostHoldover), (3, 1, b2n s.sourceValid), (4, 1, b2n s.everLocked), (5, 2, s.srcKind), (16, 10, s.srcPort)],
   ro 0x3000E0 fun d => twos 32 d.tim.servo.offset,
   ro 0x3000F0 fun d => lo32 d.tim.servo.meanDelay,
   ro 0x300100 fun d => twos 32 (divFloor d.tim.servo.f 65536),
   ro 0x300110 fun d => lo32 d.holdoverTime,
   rwTim 0x300120 (fun t => packW [(0, 1, b2n t.ppsOutEn), (1, 1, b2n t.ppsInEn), (8, 8, t.ppsWidth)])
     fun v t => { t with ppsOutEn := bit v 0, ppsInEn := bit v 1, ppsInSeen := t.ppsInSeen && bit v 1, ppsWidth := max 1 (bits v 15 8) },
   rwTim 0x300130 (fun t => twos 32 t.ppsOutOfs) fun v t => { t with ppsOutOfs := signed 32 v },
   rwTim 0x300140 (fun t => twos 32 t.ppsInOfs) fun v t => { t with ppsInOfs := signed 32 v }] ++
  ro64 0x300150 (fun d => d.tim.ppsInTs) ++
  [rwTim 0x300170 (fun t => b2n t.clk10m) fun v t => { t with clk10m := bit v 0 },
   rwTim 0x300180 (fun t => flagsW 0 [t.todTx, t.todRx, t.baud9600]) fun v t => { t with todTx := bit v 0, todRx := bit v 1, baud9600 := bit v 2 },
   ro 0x300190 fun d => packW [(0, 2, d.tim.syncState), (2, 10, d.tim.syncLane), (12, 1, b2n d.tim.syncEn), (13, 1, b2n d.tim.syncOption2)],
   rw 0x3001A0 (fun d => packW [(0, 10, d.tim.rclk0Lane), (12, 2, d.tim.rclk0Freq)])
     fun v d => d.timM fun t => { t with rclk0Lane := d.clampLane (bits v 9 0), rclk0Freq := bits v 13 12 },
   rw 0x3001B0 (fun d => packW [(0, 10, d.tim.rclk1Lane), (12, 2, d.tim.rclk1Freq)])
     fun v d => d.timM fun t => { t with rclk1Lane := d.clampLane (bits v 9 0), rclk1Freq := bits v 13 12 },
   rwTim 0x3001C0 (fun t => t.delayAlarm) fun v t => { t with delayAlarm := bits v 15 0 },
   perPort 0x310000 fun d n =>
     let p := d.timPort n
     packW [(0, 2, p.role), (2, 1, b2n p.p2p), (3, 2, p.transport), (5, 1, b2n p.twoStep), (6, 4, twos 4 p.logSync), (10, 4, twos 4 p.logDelayReq),
       (14, 4, twos 4 p.logPdelayReq)],
   perPort 0x320000 fun d n => twos 32 (d.timPort n).asym,
   perPort 0x330000 fun d n => lo32 (d.timPort n).ingLat,
   perPort 0x340000 fun d n => lo32 (d.timPort n).egrLat,
   perPort 0x350000 fun d n => lo32 (d.timPort n).partnerLat,
   perPort 0x360000 fun d n => d.peerDelayReg n,
   perPort 0x370000 fun d n => twos 32 (d.refDelayNs n)]

/-! ### LNE and MAC (03 R111, R112) -/

/-- One RO entry per lane index, spare lanes included. -/
def perIndex (base : Nat) (get : Lane → Nat) : Reg :=
  { base, n := 1152, has := fun d l => d.hasLane l, get := fun d l => get (d.lane l) }

def lneRegs : List Reg :=
  [rw 0x400000 (fun d => packW [(0, 8, d.lne.eyeMs), (8, 8, d.lne.readaptMv)])
     fun v d => d.lneM fun x => { x with eyeMs := clamp 1 100 (bits v 7 0), readaptMv := bits v 15 8 },
   ro 0x400010 fun d => d.portList.length,
   perIndex 0x410000 fun x =>
     packW [(0, 3, x.rate), (3, 1, b2n x.pam4), (4, 10, x.port), (14, 2, x.use), (16, 1, b2n x.pinTx), (17, 1, b2n x.pinRx), (18, 10, x.replaces)],
   perIndex 0x420000 fun x => x.state.code + flagsW 3 [x.signal, x.cdrLock, x.blockLock, x.lpiTx, x.lpiRx],
   perIndex 0x430000 fun x => packW [(0, 16, x.vert), (16, 16, x.horiz)],
   perIndex 0x440000 fun x => packW [(0, 8, twos 8 x.pre2), (8, 8, twos 8 x.pre1), (16, 8, x.main), (24, 8, twos 8 x.post1)]]

/-- Classes that the partner has paused. -/
def Dev.pausedClasses (d : Dev) (n : Nat) : Nat := (List.range 16).foldl (fun acc c => acc + b2n (d.pausedClass n c) * 2 ^ c) 0

def macRegs : List Reg :=
  [rw 0x500000 (fun d => b2n d.mac.ctrlPunt) fun v d => d.macM fun x => { x with ctrlPunt := bit v 0 },
   perPort 0x510000 fun d n => (d.port n).ctrlWord,
   perPort 0x520000 fun d n =>
     let p := d.port n
     let cause := d.mmCause n
     packW [(0, 3, p.state.code), (3, 1, b2n (cause != 0)), (4, 3, cause), (7, 1, b2n p.localFault), (8, 1, b2n p.remoteFault), (9, 1, b2n p.lpiTx),
       (10, 1, b2n p.lpiRx), (16, 16, d.pausedClasses n)],
   perPort 0x530000 fun d n => (d.port n).maxLen,
   { base := 0x540000, n := 8192, has := fun d i => decide (i / 8 < d.glb.part.lanes)
     get := fun d i => if d.portExists (i / 8) then nth (d.port (i / 8)).pfcMap (i % 8) 0 else 0 },
   perPort 0x560000 fun d n => (d.port n).pfcTx,
   perPort 0x570000 fun d n => packW [(0, 16, (d.port n).twUs), (16, 16, d.idleHold n)],
   { perPort 0x580000 (fun d n => lo32 (d.port n).sa) with pair := 0x10000 },
   perPort 0x590000 fun d n => (d.port n).sa / 2 ^ 32 % 2 ^ 16]

/-! ### ZBN (04 R156) -/

/-- ZBN_LANE_STATUS: defects of a lane that carries Zuben. -/
def Dev.zbnStatus (d : Dev) (l : Nat) : Nat :=
  let z := d.zlane l
  if d.isZuben l then
    packW [(0, 2, z.align.code), (2, 1, b2n z.mfIn), (3, 7, d.laneDefects l), (10, 1, b2n z.gridMismatch), (11, 1, b2n z.pageMismatch),
      (12, 1, b2n (d.ttbLane l).active), (13, 1, b2n z.activeRx), (14, 2, z.hs.code), (16, 3, z.candidates.length)]
  else 0

/-- ZBN_SLOT_STATUS. -/
def Dev.zslotStatus (d : Dev) (l s : Nat) : Nat :=
  let x := d.zslot l s
  if d.isZuben l then packW [(0, 10, x.ptr), (10, 1, b2n x.packet), (11, 3, d.slotDefects l s), (14, 1, b2n x.pending.isSome)] else 0

def zbnRegs : List Reg :=
  [rw 0x600000 (fun d => packW [(0, 6, d.zbn.mgmtRing), (16, 16, d.zbn.skewNs)]) fun v d => d.zbnM fun z => { z with mgmtRing := bits v 5 0, skewNs := bits v 31 16 },
   perLane 0x610000 fun d l => let z := d.zlane l; if !d.isZuben l then 0 else packW [(0, 4, z.sdExp), (4, 1, b2n z.timSecEn), (5, 1, b2n z.timPathEn)],
   perLane 0x620000 fun d l => d.zbnStatus l,
   perLane 0x630000 fun d l => if !d.isZuben l then 0 else twos 32 (divFloor (d.zlane l).skew 4),
   perLane 0x640000 fun d l => let z := d.zlane l; if d.isZuben l && (z.hs == .requesting && z.reqSent || z.hs == .agreed) then packW [(0, 16, z.hsTag), (16, 1, 1)] else 0,
   perPort 0x650000 fun d n =>
     let x := d.flexe n
     if (d.port n).framing = 2 then
       flagsW 0 [(d.port n).state == .up, x.ohLock, x.rpfRx, x.calTx, x.calRx, !x.pend.isEmpty] + popcount 20 (if x.calTx then x.calB else x.calA) * 64 +
         b2n x.idMismatch * 2048
     else 0,
   { base := 0x680000, n := 32768, has := fun d i => decide (i / 32 < d.glb.part.lanes) && decide (i % 32 < 20), get := fun d i => d.zslotStatus (i / 32) (i % 32) }]

/-! ### TTB (05 R188) -/

/-- One entry per protection index; 0 where the index is not enabled. -/
def perProt (base : Nat) (get : Dev → Prot → Nat → Nat) : Reg :=
  perIdx base 2048 fun d i => match AMap.find? d.ttb.prots i with | some p => get d p i | none => 0

def ttbRegs : List Reg :=
  [rw 0x700000 (fun d => packW [(0, 1, b2n d.ttb.prdiEn), (1, 1, b2n d.ttb.aisOnTim), (8, 4, d.ttb.alignConfirm)])
     fun v d => (d.ttbM fun t => { t with prdiEn := bit v 0, aisOnTim := bit v 1, alignConfirm := max 1 (bits v 11 8) }).protScan,
   ro 0x700010 fun d => sumBy d.ttb.prots fun p => protCells p.2.maxDiff,
   ro 0x700020 fun d => d.ttb.prots.length,
   perLane 0x710000 fun d l =>
     let t := d.ttbLane l
     let armed := match t.switch with | some s => s.armed | none => false
     let init := match t.switch with | some s => s.armed && s.initiate | none => false
     packW [(0, 1, b2n t.active), (1, 1, b2n armed), (2, 1, b2n init), (3, 5, t.activePage.assigned)],
   perLane 0x720000 fun d l => (d.ttbLane l).rxMismatch % 2 ^ 20,
   perLane 0x730000 fun d l => (d.ttbLane l).prdiTx % 2 ^ 20,
   perProt 0x780000 fun d p i => packW [(0, 4, p.request), (4, 1, b2n p.selected), (5, 2, p.align.code), (7, 1, b2n p.wtrRunning), (8, 1, b2n p.sfW),
     (9, 1, b2n p.sdW), (10, 1, b2n p.sfP), (11, 1, b2n p.sdP), (12, 1, b2n (d.protInUse i))],
   perProt 0x790000 fun _ p _ => twos 32 p.diff,
   perProt 0x7A0000 fun _ p _ => p.cfgWord]

/-! ### PRS (06 R222) -/

/-- PRS_PROFILE of the current generation. -/
def Profile.word (p : Profile) : Nat :=
  packW [(0, 1, b2n p.loaded), (1, 2, p.l3Kind), (3, 1, b2n p.l4Used)] +
    (List.range 8).foldl (fun acc w => acc + b2n (bits (nth p.windows w 3) 1 0 != 3) * 2 ^ (4 + w)) 0

/-- A PRS.COMMIT has been accepted and has not been applied. -/
def Dev.commitPending (d : Dev) : Bool :=
  d.hif.inflight.any fun c => c.op == 0x0907 && (match c.stage with | .accepted _ => true | .won _ => true | _ => false)

def prsRegs : List Reg :=
  [rw 0x800000 (fun d => packW [(0, 6, d.prs.slowRing), (6, 1, b2n d.prs.tpidEn), (16, 16, d.prs.tpid)])
     fun v d => d.prsM fun p => { p with slowRing := bits v 5 0, tpidEn := bit v 6, tpid := bits v 31 16 }] ++
  ro64 0x800010 (fun d => d.prs.gen) ++
  [ro 0x800030 fun d => flagsW 0 [d.prs.parity == 1, d.prs.retiring, d.commitPending],
   ro 0x800040 fun d => sumBy d.prs.rules fun r => b2n (r.2.valid && r.2.member d.prs.parity),
   ro 0x800050 fun d => 65536 - sumBy d.prs.rules fun r => b2n r.2.valid,
   perPort 0x810000 fun d n => b2n (d.prs.current.map n).deiColor,
   perIdx 0x820000 64 fun d p => (d.prs.current.profile p).word]

end Sys2Proof.Machine
end

