-- ==== Sys2Proof/Machine/RegistersB.lean ====
section
/-! DEFINITION. The set-up registers of the blocks FWD to PRC (14 R484). -/

namespace Sys2Proof.Machine

/-! ### FWD (07 R268) -/

def fwdRegs : List Reg :=
  [rw 0x900000 (fun d => packW [(0, 6, d.fwd.emptyRing), (8, 6, d.fwd.frerRing)])
     fun v d => d.fwdM fun w => { w with emptyRing := bits v 5 0, frerRing := bits v 13 8 },
   rw 0x900010 (fun d => d.fwd.age) fun v d => d.fwdM fun w => { w with age := clamp 1 1000000 (bits v 19 0) },
   ro 0x900020 fun d => d.fwd.fdb.length,
   ro 0x900030 fun d => d.fdbCount fun e => e.static,
   perPort 0x910000 fun d n =>
     let p := d.fwdPort n
     packW [(0, 12, p.pvid), (12, 1, b2n p.learn), (13, 2, p.trust), (15, 4, p.mapSet), (19, 4, p.defClass)],
   perPort 0x920000 fun d n =>
     let p := d.fwdPort n
     packW [(0, 6, p.ingSession), (6, 1, b2n p.ingEn), (8, 6, p.egrSession), (14, 1, b2n p.egrEn)],
   perIdx 0x930000 4096 fun d v => let x := d.vlan v; packW [(0, 12, x.fid), (12, 1, b2n x.learn), (16, 14, x.flood)],
   perIdx 0x940000 4096 fun d h =>
     let x := d.stream h
     packW [(0, 16, x.num), (16, 1, b2n x.takeAny), (17, 1, b2n x.rcvEn), (18, 1, b2n x.genEn), (19, 1, b2n x.strip), (20, 1, b2n x.takeNoSeq), (21, 6, x.histM1)],
   perIdx 0x950000 4096 fun d h => (d.stream h).gen,
   perIdx 0x960000 64 fun d s =>
     let x := d.mirror s
     packW [(0, 1, b2n x.en), (1, 1, b2n x.dir), (2, 2, x.kind), (4, 10, x.target), (14, 4, x.cls)],
   perIdx 0x961000 64 fun d s => satTo 65535 (d.mirror s).cells,
   perIdx 0x970000 8 fun d r => packW [(0, 3, (d.region r).state.code), (3, 3, (d.region r).trigger)],
   perIdx 0x971000 8 fun d r => (d.region r).pages % 2 ^ 27,
   { base := 0x972000, n := 8, get := fun d r => lo32 (d.region r).trigTime, pair := 0x1000 },
   perIdx 0x973000 8 fun d r => hi32 (d.region r).trigTime]

/-! ### BUF (08 R315) -/

/-- Phase of a roll call: the near store, the far store, then the confirmation (08 R310). -/
def Dev.rollPhase (d : Dev) : Nat :=
  match d.buf.roll with
  | none => 0
  | some r =>
    let pos := match d.cmdAt r.ring r.tag with | some c => c.pos | none => 0
    if d.bel.seq < r.startSeq then 0
    else if r.near && decide (pos < 4194304) then 1
    else if r.far && decide (pos < (if r.near then 4194304 else 0) + 536870912) then 2
    else 3

def Dev.useWord (d : Dev) (point cls : Nat) : Nat :=
  let a := d.acct point cls
  packW [(0, 23, a.use), (23, 1, b2n a.xoff)]

/-- A new BUF_FAR_STOP: the limit of R287 is looked at, and spilling goes on where it no longer holds. -/
def Dev.putFarStop (d : Dev) (v : Nat) : Dev :=
  (d.bufM fun b => { b with farStop := bits v 29 0 }).farFreed

def bufRegs : List Reg :=
  [rw 0xA00000 (fun d => d.buf.holddown) fun v d => d.bufM fun b => { b with holddown := min 1000 (bits v 9 0) },
   rw 0xA00010 (fun d => d.buf.farStop) fun v d => d.putFarStop v,
   ro 0xA00020 fun d => flagsW 0 [d.buf.voq, d.buf.spillStopped, d.buf.roll.isSome],
   ro 0xA00030 fun d => d.nearFree,
   ro 0xA00040 fun d => d.nearReserved,
   ro 0xA00050 fun d => d.farFree,
   ro 0xA00060 fun d => d.buf.farReserved,
   ro 0xA00070 fun d => d.rollPhase + (match d.buf.roll with | some r => b2n r.reclaim * 4 | none => 0),
   ro 0xA00080 fun d => d.buf.voqMax,
   perPort 0xA10000 fun d n =>
     match AMap.find? d.buf.holds n with
     | some h => min 1000 ((h.expires - d.now + qPerMs - 1) / qPerMs) + 1024
     | none => 0,
   { base := 0xA14000, n := 1024, get := fun d i => d.useWord (ptTx (i / 16)) (i % 16) },
   perIdx 0xA18000 16 fun d c => d.useWord ptBuddy c,
   perQueue 0xA40000 fun d q => d.useWord (q / 16) (q % 16) + b2n ((d.acct (q / 16) (q % 16)).useHead != 0) * 2 ^ 24,
   perQueue 0xA80000 fun d q =>
     let x := d.queue q
     packW [(0, 23, if d.buf.voq && decide (q % 16 < 8) then d.voqCells (q / 16) (q % 16) else x.nearCells), (23, 2, x.state.code), (25, 1, b2n (x.absorb && decide (q % 16 < 12)))],
   perQueue 0xAC0000 fun d q => (d.queue q).f.length]

/-! ### SCH (09 R341) -/

/-- The copy at the head of a queue: of the bins for a cyclic class. -/
def Dev.anyHead (d : Dev) (n cls : Nat) : Option Copy :=
  if 12 ≤ cls ∧ cls ≤ 14 then (let x := d.queue (qIx n cls); match x.tran with | c :: _ => some c | [] => x.pass.head?) else d.headOf n cls

/-- SCH_Q_STATUS. -/
def Dev.schStatus (d : Dev) (n cls : Nat) : Nat :=
  let x := d.queue (qIx n cls)
  let head := d.anyHead n cls
  let cyclic := decide (12 ≤ cls) && decide (cls ≤ 14)
  let held := head.isSome && !cyclic && d.shaperHolds n cls
  let ready := match head with | some c => d.mayStart n c | none => false
  let elig := ready && !d.pausedClass n cls && !held && (!cyclic || d.cyclicOpen)
  flagsW 0 [if cyclic then !(x.recv.isEmpty && x.tran.isEmpty && x.pass.isEmpty) else d.backlog (qIx n cls), d.pausedClass n cls, held, elig] +
    fld (twos 24 (clampI (-8388607) 8388607 (creditBytes x.credit))) 24 8

def schRegs : List Reg :=
  [rw 0xB00000 (fun d => b2n d.sch.ctEn) fun v d => d.schM fun s => { s with ctEn := bit v 0 },
   perPort 0xB10000 fun d n => let p := d.schPort n; packW [(0, 7, twos 7 p.overhead), (8, 10, p.refillNs), (18, 1, b2n p.shaperEn)],
   perPort 0xB20000 fun d n => lo32 (d.portRate n),
   perPort 0xB30000 fun d n => lo32 (d.idleEff n (d.schPort n).idleReq),
   perPort 0xB40000 fun d n => (d.schPort n).hi % 2 ^ 24,
   perPort 0xB50000 fun d n => twos 32 (d.schPort n).lo,
   perPort 0xB60000 fun d n => twos 32 (creditBytes (d.schPort n).credit),
   perQueue 0xB80000 fun d q => let x := d.queue q; packW [(0, 9, x.weight), (9, 1, b2n x.shaperEn)],
   perQueue 0xBC0000 fun d q => d.schStatus (q / 16) (q % 16)]

/-! ### DRC (10 R368) -/

def Dev.spareChans (d : Dev) (k : Nat) : Nat := ((stackChans k).filter fun i => (d.chan i).state == .spare).length

def drcRegs : List Reg :=
  [rw 0xC00000 (fun d => packW [(0, 8, d.drc.scrubH), (8, 8, d.drc.pprCe), (16, 1, b2n d.drc.pprEn)])
     fun v d => d.drcM fun r => { r with scrubH := clamp 1 168 (bits v 7 0), pprCe := max 1 (bits v 15 8), pprEn := bit v 16 },
   rw 0xC00010 (fun d => packW [(0, 7, d.drc.wqHi), (8, 7, d.drc.wqLo)])
     fun v d => let hi := clamp 2 64 (bits v 6 0); d.drcM fun r => { r with wqHi := hi, wqLo := min (hi - 1) (bits v 14 8) },
   rw 0xC00020 (fun d => packW [(0, 7, d.drc.panicLo), (8, 7, d.drc.panicHi)])
     fun v d =>
       let lo := clamp 1 63 (bits v 6 0)
       (d.drcM fun r => { r with panicLo := lo, panicHi := clamp (lo + 1) 64 (bits v 14 8) }).each (List.range d.glb.part.stacks) fun k d => d.panicLook k,
   ro 0xC00030 fun d => flagsW 0 [d.drc.ready, d.drc.training] + flagsW 16 ((List.range d.glb.part.stacks).map fun k => (d.stack k).out),
   ro 0xC00040 fun d => lo32 d.drc.drainLimit,
   ro 0xC00050 fun d => d.listPages,
   { base := 0xC10000, n := 16, has := fun d k => decide (k < d.glb.part.stacks)
     get := fun d k =>
       let x := d.stack k
       packW [(0, 8, x.temp), (8, 1, b2n x.hot), (9, 1, b2n x.panic), (10, 1, b2n x.out), (11, 2, min 3 (d.spareChans k)), (13, 7, x.prefetch)] },
   { base := 0xC11000, n := 16, has := fun d k => decide (k < d.glb.part.stacks), get := fun d k => packW [(0, 16, (d.stack k).repaired), (16, 16, (d.stack k).retired)] },
   { base := 0xC20000, n := 544, has := fun d i => decide (i / 34 < d.glb.part.stacks)
     get := fun d i => let x := d.chan i; packW [(0, 3, x.state.code), (3, 5, if x.holds then x.logical else 0)] },
   { base := 0xC30000, n := 544, has := fun d i => decide (i / 34 < d.glb.part.stacks), get := fun d i => lo32 (d.chan i).ceLast },
   { base := 0xC40000, n := 2720, has := fun d j => decide (j / 170 < d.glb.part.stacks), get := fun d j => (d.dramLane j).word },
   { base := 0xC50000, n := 32, has := fun d i => decide (i / 2 < d.glb.part.stacks)
     get := fun d i =>
       let x := d.retrain (i / 2) (i % 2)
       if x.phase = 0 then 0 else packW [(0, 3, x.phase), (3, 5, x.logical), (8, 6, x.source), (14, 6, x.target), (20, 1, b2n x.permanent)] }]

/-! ### GOV (11 R394) -/

def perQuad (base : Nat) (get : Dev → Nat → Nat) : Reg := { base, n := 4, has := fun d q => decide (q < d.glb.part.quads), get }

/-- GOV_RAIL_LIMIT takes its value, clamped; the lock is the caller's (11 R386, 14 R475). -/
def Dev.putRailLimit (d : Dev) (q v : Nat) : Dev := d.quadM q fun x => { x with limit := clamp 40 200 (bits v 9 0) }

def govRegs : List Reg :=
  [rw 0xD00000 (fun d => packW [(0, 8, d.gov.holdBells), (8, 8, d.gov.downPct), (16, 4, d.gov.debtPeriods)])
     fun v d => d.govM fun g => { g with holdBells := max 1 (bits v 7 0), downPct := clamp 1 50 (bits v 15 8), debtPeriods := max 1 (bits v 19 16) },
   ro 0xD00010 fun d => packW [(0, 16, d.gov.envelope), (16, 8, d.gov.thermal), (24, 3, d.gov.maxStep)],
   ro 0xD00020 fun d =>
     packW [(0, 3, d.gov.step), (3, 1, b2n d.gov.hwThermal), (8, 1, b2n d.gov.beHold), (9, 1, b2n (decide (d.gov.envelope < d.gov.floor)))] +
       flagsW 4 ((List.range 4).map fun q => (d.quad q).limited),
   ro 0xD00030 fun d => packW [(0, 16, d.gov.pEff / 10000), (16, 16, d.gov.floor)],
   ro 0xD00040 fun d => packW [(0, 8, d.gov.tj), (8, 8, d.gov.site), (16, 16, d.gov.pThermal / 10000)],
   ro 0xD00050 fun d => lo32 (d.gov.allow / 256),
   ro 0xD00060 fun d => twos 32 (divFloor d.gov.balance 256),
   ro 0xD00070 fun d => lo32 (d.gov.eCommitted / 256),
   ro 0xD00080 fun d => lo32 (d.gov.eElastic / 256),
   ro 0xD00090 fun d => lo32 (d.gov.eBackground / 256),
   ro 0xD000A0 fun d => lo32 (d.gov.grant / 256),
   ro 0xD000B0 fun d => lo32 d.gov.beBudget,
   ro 0xD000C0 fun _ => Config.coefPage,
   ro 0xD000D0 fun _ => Config.coefByte,
   rw 0xD000E0 (fun d => d.gov.drainMin) fun v d => d.govM fun g => { g with drainMin := max 1 (bits v 23 0) },
   ro 0xD000F0 fun d => d.gov.conflict % 64,
   rw 0xD00100 (fun d => d.gov.thermStep) fun v d => d.govM fun g => { g with thermStep := clamp 1 1000 (bits v 15 0) },
   rw 0xD00110 (fun d => packW [(0, 10, d.gov.avsUs), (16, 4, d.gov.stepMv)])
     fun v d => d.govM fun g => { g with avsUs := clamp 10 1000 (bits v 9 0), stepMv := clamp 1 10 (bits v 19 16) },
   { perQuad 0xD10000 (fun d q => (d.quad q).limit) with put := fun q v d => d.putRailLimit q v, kind := .railLimit },
   perQuad 0xD20000 fun d q =>
     let x := d.quad q
     packW [(0, 10, x.mv), (10, 10, x.amps), (20, 1, b2n x.limited), (21, 1, b2n x.avsFault), (22, 1, b2n (decide (x.vmax < x.want)))],
   perQuad 0xD30000 fun d q => packW [(0, 10, (d.quad q).vmin), (16, 10, (d.quad q).vmax)]]

/-! ### CNT (15 R498) -/

/-- A snapshot has been accepted and its bell has not rung. -/
def Dev.snapPending (d : Dev) : Bool :=
  d.hif.inflight.any fun c => c.op == 0x0102 && (match c.stage with | .accepted _ => true | .won _ => true | _ => false)

def cntRegs : List Reg :=
  [rw 0xE00000 (fun d => d.cnt.autoBells) fun v d => d.cntM fun c => { c with autoBells := bits v 23 0 },
   ro 0xE00010 fun d =>
     packW [(0, 1, b2n d.snapPending), (1, 1, b2n (d.hif.inflight.any fun c => c.op == 0x0F04 && c.stage == .long)),
       (7, 9, sumBy d.cnt.monitors fun m => b2n m.2.en), (16, 7, sumBy d.cnt.evcs fun c => b2n c.2.en)]] ++
  ro64 0xE00020 (fun d => d.cnt.snapSeq) ++
  [perIdx 0xE10000 16 fun d w => let x := AMap.getD d.cnt.windows w {}; packW [(0, 1, b2n x.en), (1, 5, x.family), (12, 20, x.first)],
   perIdx 0xE20000 256 fun d m => let x := AMap.getD d.cnt.monitors m {}; packW [(0, 1, b2n x.en), (1, 1, b2n x.below), (2, 4, x.kind), (16, 16, x.index)],
   perIdx 0xE30000 256 fun d m => lo32 (AMap.getD d.cnt.monitors m {}).thresh,
   perIdx 0xE40000 64 fun d k =>
     let x := AMap.getD d.cnt.evcs k {}
     packW [(0, 16, x.event), (16, 1, b2n x.en), (17, 1, b2n x.filterEn), (18, 14, x.filter)]]

/-! ### SUB (16 R522) -/

/-- A monitored unit is in service: what stands for a unit of its kind, but for a lane that no port uses. -/
def Dev.wornInService (d : Dev) (kind u : Nat) : Bool := kind != 1 || (d.lane u).use != 0

/-- SUB_STATUS.exhausted (16 R510). -/
def Dev.exhausted (d : Dev) : Bool :=
  d.sub.wear.any fun x => x.2.level == 2 &&
    match d.unitOf (x.1 / 4096) (x.1 % 4096) with
    | some (k, u) => d.wornInService k u && !d.substituting k u
    | none => false

/-- The higher wear level of a lane under the two kinds that watch lanes. -/
def Dev.laneLevel (d : Dev) (u : Nat) : Nat := max (d.wear 0 u).level (d.wear 1 u).level

def Dev.clusterWord (d : Dev) (c : Nat) : Nat :=
  let x := d.cluster c
  packW [(0, 2, x.spareState), (2, 3, x.replaces)] + flagsW 8 ((List.range 8).map fun n => d.laneLevel (c * 8 + n) == 2) +
    flagsW 16 ((List.range 8).map fun n => d.laneLevel (c * 8 + n) == 1) + d.laneLevel (1024 + c) * 2 ^ 24

/-- SUB_BANK, SUB_PIPE and SUB_TABLE: their counts of the last window are the wear values; a spare serves nothing. -/
def unitWord (width : Nat) (x : SpareUnit) (w : Wear) : Nat :=
  packW [(0, 2, x.state), (2, 2, w.level), (4, width, if x.state = 0 then 0 else x.logical), (16, 16, satTo 65535 w.value.toNat)]

def Dev.sparesWord (d : Dev) : Nat :=
  let free (kind lo hi : Nat) : Nat := ((List.range hi).filter fun u => decide (lo ≤ u) && (d.unitAt kind u).state == 0).length
  packW [(0, 8, ((List.range d.glb.part.clusters).filter fun c => (d.cluster c).spareState == 0).length), (8, 3, free 3 64 68), (11, 1, free 5 16 17),
    (12, 2, ((List.range 18).filter fun k => (d.buddyLane k).position == 31 && !(d.sub.slots.any fun x => x.2.kind == 2 && x.2.claimed && x.2.spare == k)).length),
    (14, 5, free 6 240 256), (19, 6, sumBy (List.range d.glb.part.stacks) d.spareChans)]

def subRegs : List Reg :=
  [rw 0xF00000 (fun d => packW [(0, 8, d.sub.persist), (8, 8, d.sub.lingerMs), (16, 16, d.sub.windowS)])
     fun v d => d.subM fun s => { s with persist := max 1 (bits v 7 0), lingerMs := max 10 (bits v 15 8), windowS := max 60 (bits v 31 16) },
   ro 0xF00010 fun d => packW [(0, 4, d.sub.slots.length), (4, 1, b2n d.exhausted)],
   ro 0xF00020 fun d => packW [(0, 12, d.sub.policy), (16, 8, d.sub.autoAgree)],
   ro 0xF00030 fun d => d.sparesWord,
   perIdx 0xF00100 8 fun d k => let t := nth d.sub.thresh k (0, 0); packW [(0, 16, t.1), (16, 16, t.2)],
   { base := 0xF10000, n := 128, has := fun d c => decide (c < d.glb.part.clusters), get := fun d c => d.clusterWord c },
   perIdx 0xF11000 68 fun d b => unitWord 6 (d.bank b) (d.wear 3 b),
   { base := 0xF12000, n := 17, has := fun d p => decide (p < d.glb.part.pipelines) || p == 16, get := fun d p => unitWord 4 (d.pipe p) (d.wear 4 p) },
   perQuad 0xF13000 fun d q => packW [(0, 2, (d.wear 5 q).level), (16, 16, twos 16 (d.wear 5 q).value)],
   perIdx 0xF14000 8 fun d k =>
     match AMap.find? d.sub.slots k with
     | some x => packW [(0, 1, 1), (1, 3, x.kind), (4, 1, b2n x.auto), (5, 3, x.step), (8, 10, x.unit)]
     | none => 0,
   perIdx 0xF20000 256 fun d t => unitWord 8 (d.tableBlock t) (d.wear 6 t)]

/-! ### BDY (17 R552) -/

/-- Journal records and other records of this module that the buddy has not stored (17 R535, R537). -/
def Dev.pendingRecords (d : Dev) : Nat := d.bdy.own.length + sumBy d.hif.inflight fun c => b2n (c.stage == .journalled)

/-- Credit of a class is 0 and a frame of it waits. -/
def Dev.creditHeld (d : Dev) (c : Nat) : Bool := AMap.getD d.bdy.credit c 0 == 0 && d.bdy.txq.any fun x => x.cls == c

def bdyRegs : List Reg :=
  [rw 0xF40000 (fun d => packW [(0, 5, d.bdy.takeoverRing), (5, 1, b2n d.bdy.timeFollow), (6, 1, b2n d.bdy.beatEn)])
     fun v d => d.bdyM fun b => { b with takeoverRing := bits v 4 0, timeFollow := bit v 5, beatEn := bit v 6 },
   ro 0xF40010 fun d =>
     let b := d.bdy
     b.state.code + flagsW 3 [b.index == 1, b.authority, b.linkUp, b.beatSeen, decide (3 ≤ b.skewBells), b.cfgMismatch, b.reportPending]] ++
  ro64 0xF40020 (fun d => d.bdy.peerSerial) ++
  [ro 0xF40040 fun d => packW [(0, 16, twos 16 (clampI (-32768) 32767 d.bdy.offset)), (16, 16, satTo 65535 (divFloor d.bdy.delay 4).toNat)],
   ro 0xF40050 fun d => packW [(0, 13, satTo 4096 d.pendingRecords), (16, 13, satTo 4096 d.bdy.held.length)],
   ro 0xF40060 fun d => packW [(0, 8, d.bdy.linkMissed), (8, 2, d.bdy.missed)],
   perIdx 0xF50000 18 fun d k =>
     let x := d.lane (buddyIx k)
     let z := d.zlane (buddyIx k)
     packW [(0, 3, x.state.code), (3, 2, z.align.code), (5, 5, (d.buddyLane k).position),
       (10, 1, b2n (x.state != .off && (x.state != .up || z.align != .sync || z.sf.raised))), (11, 10, satTo 1023 x.vert), (21, 11, satTo 2047 x.horiz)],
   perIdx 0xF60000 16 fun d c => packW [(0, 23, AMap.getD d.bdy.credit c 0), (23, 1, b2n (d.creditHeld c))]]

/-! ### PRC (18 R583) -/

/-- Word k of a digest: bytes 4k to 4k + 3, the first of them highest; 0 where there is none. -/
def digestWord (x : List Byte) (k : Nat) : Nat := natBE (Config.padTo 4 (subBytes x (4 * k) 4))

def prcRegs : List Reg :=
  [ro 0xF80000 fun d =>
     let p := d.prc
     packW [(0, 3, p.state.code), (3, 1, b2n d.approved), (4, 2, p.keyState), (6, 3, p.sealed), (9, 1, b2n p.update.isSome), (10, 1, b2n p.staged.isSome),
       (11, 1, p.bank), (12, 1, b2n p.identity), (13, 1, b2n p.zeroizeLow)],
   ro 0xF80010 fun d => packW [(0, 11, d.prc.passed), (16, 4, d.prc.failed), (20, 12, d.prc.powerUpMs)],
   ro 0xF80020 fun d => packW [(0, 7, d.prc.rollback), (8, 7, d.prc.running), (16, 7, (d.prc.staged.map (·.2)).getD 0)],
   ro 0xF80030 fun d => lo32 d.prc.auditNext,
   { base := 0xF90000, n := 16, get := fun d k => lo32 (nth d.prc.key k 0), kind := .officerKey },
   perIdx 0xFA0000 8 fun d k => if d.prc.identity then digestWord (Config.sm3 Config.identityKey) k else 0,
   perIdx 0xFB0000 8 fun d k => digestWord d.fwDigest k,
   perIdx 0xFC0000 8 fun d k => digestWord d.prc.sealDigest k]

/-- Every register of the device (14 R484). -/
def registers : List Reg :=
  glbRegs ++ hifRegs ++ belRegs ++ timRegs ++ lneRegs ++ macRegs ++ zbnRegs ++ ttbRegs ++ prsRegs ++ fwdRegs ++ bufRegs ++ schRegs ++ drcRegs ++ govRegs ++
    cntRegs ++ subRegs ++ bdyRegs ++ prcRegs

end Sys2Proof.Machine
end

