-- ==== Sys2Proof/Machine/RegAccess.lean ====
section
/-! DEFINITION. Accesses to BAR0: aliases, widths, locks, reads and their latches, and the MSI-X table (14 R463 to R481, 12 R402). -/

namespace Sys2Proof.Machine

/-- The register at a BAR0 offset and its index, whatever the alias. -/
def regAt (addr : Nat) : Option (Reg × Nat) :=
  (registers.find? fun r => decide (r.base ≤ addr) && decide (addr < r.base + r.n * r.stride) && decide ((addr - r.base) % r.stride < 16)).map fun r =>
    (r, (addr - r.base) / r.stride)

/-- The register of a resource that the variant has (14 R468, R484). -/
def Dev.regHere (d : Dev) (addr : Nat) : Option (Reg × Nat) :=
  match regAt addr with
  | some (r, i) => if r.has d i then some (r, i) else none
  | none => none

/-- New value that an alias proposes (14 R463): 0 direct, 1 set, 2 clear, 3 masked. -/
def aliasValue (al v x : Nat) : Nat :=
  match al with
  | 0 => x
  | 1 => v ||| x
  | 2 => v - (v &&& x)
  | _ => v / 2 ^ 16 * 2 ^ 16 + ((v % 2 ^ 16 - (v % 2 ^ 16 &&& x / 2 ^ 16)) ||| (x % 2 ^ 16 &&& x / 2 ^ 16))

/-- The GLB and PRC blocks answer in every phase (19 R596). -/
def alwaysRead (addr : Nat) : Bool := decide (addr < 0x100000) || (decide (0xF80000 ≤ addr) && decide (addr < 0x1000000))

/-- Registers of every block answer: phase 5 or 6 and no halt (19 R596, R597). -/
def Dev.regsUp (d : Dev) : Bool := (d.glb.phase == 5 || d.glb.phase == 6) && d.boot.stopped == .no

/-- The module answers on PCI Express at all: its supplies and clocks are there, and no reset of the function runs. -/
def Dev.busUp (d : Dev) : Bool := d.boot.stopped != .supply && d.boot.stopped != .clock && !(d.hif.flr && !d.boot.resetting)

/-! ### Locks (14 R475 to R479) -/

/-- A write to a locked register: audited once per register and period, and counted (14 R476). -/
def Dev.lockedWrite (d : Dev) (addr : Nat) : Dev := (d.auditFold (addr / 16 * 16) 4 (addr / 16 * 16) 0).count (cDev 1) 1

/-- The key and the warm bit of GLB_RESET_CTRL (14 R481). -/
def resetCtrlKey (x : Nat) : Bool := bits x 31 16 == 0xA5C3 && bit x 0

/-- One dword with all four bytes enabled reaches register entry i at an alias. -/
def Dev.applyWrite (d : Dev) (r : Reg) (i addr x : Nat) : Dev :=
  let new := aliasValue (addr % 16 / 4) (r.get d i) x % 2 ^ 32
  match r.kind with
  | .plain => (r.put i new d).cfgLook
  | .resetCtrl => if addr % 16 = 0 ∧ (resetCtrlKey x && d.mayWarm) = true then d.askWarm causeHostWarm else d
  | .belCtrl => if bit d.sealScopes 0 then d.lockedWrite addr else (r.put i new d).cfgLook
  | .railLimit =>
    if d.glb.railLocks.contains i then d.lockedWrite addr
    else (r.put i new d).glbM fun g => { g with railLocks := g.railLocks ++ [i] }
  | .officerKey => if bit d.prc.keyLocks i then d.lockedWrite addr else d.lockKeyWord i new

/-- A full dword written (14 R464, R468, 19 R596). -/
def Dev.writeDword (d : Dev) (addr x : Nat) : Dev :=
  match d.regHere addr with
  | none => d
  | some (r, i) => if d.regsUp || r.base == 0x60 || r.base == 0x90 then d.applyWrite r i addr x else d

/-- Part of a dword written: discarded, and counted where a register lies there (14 R467). -/
def Dev.writePart (d : Dev) (addr : Nat) : Dev := if d.regsUp && (d.regHere addr).isSome then d.count (cDev 0) 1 else d

/-! ### The MSI-X table (12 R402) -/

def msixBase : Nat := 0x180000
def inMsix (addr : Nat) : Bool := decide (msixBase ≤ addr) && decide (addr < msixBase + 4096)

/-- Entry v of the table, 16 bytes as a number; masked at reset. -/
def Dev.msixEntry (d : Dev) (v : Nat) : Nat := AMap.getD d.hif.msixTable v (2 ^ 96)

/-- A dword of the table is written; an entry that is no longer masked sends what is pending. -/
def Dev.writeMsix (d : Dev) (addr x : Nat) : Dev :=
  let v := (addr - msixBase) / 16
  let lo := addr % 16 / 4 * 32
  let old := d.msixEntry v
  let new := old % 2 ^ lo + x % 2 ^ 32 * 2 ^ lo + old / 2 ^ (lo + 32) * 2 ^ (lo + 32)
  let d := d.hifM fun h => { h with msixTable := AMap.set h.msixTable v new }
  if !bit new 96 && d.hif.msixPending.contains v then (d.hifM fun h => { h with msixPending := h.msixPending.filter (· != v) }).raiseVector v
  else d

/-! ### Writes of any span (14 R467) -/

/-- The dwords of a write from the lowest on: each fully covered one acts, the others are discarded. -/
def Dev.writeSpan : Nat → Nat → Nat → Nat → Dev → Dev
  | 0, _, _, _, d => d
  | fuel + 1, addr, len, data, d =>
    if len = 0 then d
    else
      let n := min len (4 - addr % 4)
      let d :=
        if inMsix addr then (if d.regsUp && n == 4 then d.writeMsix addr (data % 2 ^ 32) else d)
        else if n = 4 then d.writeDword addr (data % 2 ^ 32)
        else d.writePart addr
      Dev.writeSpan fuel (addr + n) (len - n) (data / 2 ^ (8 * n)) d

/-- A write TLP; one with poisoned data is discarded whole. -/
def Dev.busWrite (d : Dev) (addr len data : Nat) (poisoned : Bool) : Dev :=
  if poisoned || !d.busUp then d else Dev.writeSpan (len / 4 + 2) addr len data d

/-- A write that begins at a register. -/
def Dev.regWrite (d : Dev) (base : Nat) (w : RegWrite) : Dev := d.busWrite (base + w.off % 16) w.len w.data w.poisoned

/-! ### Reads (14 R463, R466) -/

/-- The dword at a BAR0 offset, with every alias of a register giving its value, and a _HI register what was latched. -/
def Dev.readDword (d : Dev) (addr : Nat) : Nat :=
  if !(d.regsUp || alwaysRead addr) then 0
  else if inMsix addr then bits (d.msixEntry ((addr - msixBase) / 16)) (addr % 16 / 4 * 32 + 31) (addr % 16 / 4 * 32)
  else if decide (0x190000 ≤ addr) && decide (addr < 0x190020) then
    (List.range 32).foldl (fun acc k => acc + b2n (d.hif.msixPending.contains ((addr - 0x190000) / 4 * 32 + k)) * 2 ^ k) 0
  else
    match d.regHere addr with
    | some (r, i) => AMap.getD d.glb.latches (addr / 16 * 16) (r.get d i)
    | none => 0

/-- A full-dword read at +0 of a _LO register latches its partner from the same instant (14 R466). -/
def Dev.latch (d : Dev) (addr : Nat) : Dev :=
  match d.regHere addr with
  | some (r, i) =>
    let hi := addr / 16 * 16 + r.pair
    match d.regHere hi with
    | some (h, _) => if r.pair ≠ 0 ∧ addr % 16 = 0 ∧ (d.regsUp || alwaysRead addr) = true then d.glbM fun g => { g with latches := AMap.set g.latches hi (h.get d i) } else d
    | none => d
  | none => d

end Sys2Proof.Machine
end

