-- ==== Sys2Proof/Machine/Arrivals.lean ====
section
/-! DEFINITION. How every row acts: what one core-clock cycle brings is decided in the order of the rules, device time passes, and the row has its
effect on the module while the queue of waiting commands stands. -/

namespace Sys2Proof.Machine

/-! ### The order of one core-clock cycle (06 R220, 07 R257, 08 R294) -/

/-- The oldest descriptor read of a ring is dispatched (12 R425). A frame that no cell can take waits under XOFF. -/
def Dev.txDispatch (d : Dev) (ring : Nat) : Dev :=
  match (d.txRead ring).head? with
  | none => d
  | some t =>
    if d.txHalted t then d
    else if (d.sourceFor (ptTx ring) t.cls (cellsOf (t.data.length + 4))).1.isNone then d.setXoff (ptTx ring) t.cls true
    else
      let d := d.hifM fun h => { h with tx := markDispatched ring h.tx }
      let d := (d.count (cRing (64 + ring) 3) 1).count (cRing (64 + ring) 4) t.data.length
      if t.mode = 1 then d.txLookup t
      else if t.module then d.txSend t t.data [] (some (t.port, false)) none
      else d.txSend t t.data [t.port] none none

/-- What one arrival brings about. -/
def Dev.decideOne (d : Dev) (a : Arrival) : Dev :=
  match a with
  | .buddy f => d.when d.bdy.linkUp fun d => d.transitRx f
  | .tx ring => d.txDispatch ring
  | .head h => d.rxHead h
  | .ending r => d.rxEnd r

/-- Place in the order of one cycle: the buddy link, TX rings by number, ports by pipeline and then port (08 R294). A pipeline has 64 lanes, and a
port's number is that of its lowest lane, so that the order of ports is the order of their pipelines. -/
def Arrival.rank (a : Arrival) : Nat :=
  match a with
  | .buddy _ => 0
  | .tx ring => 1 + ring % 64
  | .head h => 65 + h.port
  | .ending r => 65 + r.port

/-- Put an arrival behind those that go before it or stand equal with it. -/
def insertArrival (a : Arrival) : List Arrival → List Arrival
  | [] => [a]
  | b :: bs => if a.rank < b.rank then a :: b :: bs else b :: insertArrival a bs

/-- The cycle's decisions are made, and none is left to make. -/
def Dev.decideAll (d : Dev) : Dev :=
  if d.arrivals.isEmpty then d
  else
    let e := ({ d with arrivals := [] }.each d.arrivals fun a d => d.when d.inService fun d => d.decideOne a).settle
    { e with arrivals := [] }

/-- The core-clock cycle ends within a span of time from now. -/
def Dev.cycleEnds (d : Dev) (dt : Nat) : Bool := coreCycles d.now (d.now + dt) != 0

/-! ### Rows -/

/-- A row's effect: after the decisions of what came before it, and the time since. -/
def Dev.run (dt : Nat) (f : Dev → Dev) (d : Dev) : Dev := (f (d.decideAll.elapse dt)).settle

/-- The step of a row: the module changes, the waiting commands stand. -/
def State.act (dt : Nat) (f : Dev → Dev) (s : State) : Host.Outcome State Fault Refusal :=
  .next { s with dev := Dev.run dt f s.dev }

/-- As `act`, for what only a module in service does: stopped, halted or before phase 5, only time passes. -/
def State.actUp (dt : Nat) (f : Dev → Dev) (s : State) : Host.Outcome State Fault Refusal :=
  State.act dt (fun d => d.when d.inService f) s

/-- An arrival waits for the decisions of its cycle; those of a cycle that has ended are made. -/
def Dev.arrived (dt : Nat) (a : Arrival) (d : Dev) : Dev :=
  let d := ((if d.cycleEnds dt then d.decideAll else d).elapse dt).settle
  { d with arrivals := insertArrival a d.arrivals }

/-- The step of an arrival. -/
def State.arrive (dt : Nat) (a : Arrival) (s : State) : Host.Outcome State Fault Refusal :=
  .next { s with dev := Dev.arrived dt a s.dev }

end Sys2Proof.Machine
end

