-- ==== Sys2Proof/Machine/CommandRows.lean ====
section
/-! DEFINITION. One meaning for each command: the host posts it, and the module fetches and accepts it (12 R415, 13 R441). -/

namespace Sys2Proof.Machine

/-- BEL.SET_PERIOD. -/
def execBelSetPeriod (dt : Nat) (e : CmdEntry) (s : State) : Host.Outcome State Fault Refusal := s.actUp dt fun d => d.submit belSetPeriod e

/-- BEL.SET_PASSING. -/
def execBelSetPassing (dt : Nat) (e : CmdEntry) (s : State) : Host.Outcome State Fault Refusal := s.actUp dt fun d => d.submit belSetPassing e

/-- BEL.SET_BUDGET. -/
def execBelSetBudget (dt : Nat) (e : CmdEntry) (s : State) : Host.Outcome State Fault Refusal := s.actUp dt fun d => d.submit belSetBudget e

/-- BEL.REALIGN. -/
def execBelRealign (dt : Nat) (e : CmdEntry) (s : State) : Host.Outcome State Fault Refusal := s.actUp dt fun d => d.submit belRealign e

/-- TIM.SET_PORT. -/
def execTimSetPort (dt : Nat) (e : CmdEntry) (s : State) : Host.Outcome State Fault Refusal := s.actUp dt fun d => d.submit timSetPort e

/-- TIM.SELECT_SOURCE. -/
def execTimSelectSource (dt : Nat) (e : CmdEntry) (s : State) : Host.Outcome State Fault Refusal := s.actUp dt fun d => d.submit timSelectSource e

/-- TIM.SET_HOLDOVER. -/
def execTimSetHoldover (dt : Nat) (e : CmdEntry) (s : State) : Host.Outcome State Fault Refusal := s.actUp dt fun d => d.submit timSetHoldover e

/-- TIM.SET_SYNCE. -/
def execTimSetSynce (dt : Nat) (e : CmdEntry) (s : State) : Host.Outcome State Fault Refusal := s.actUp dt fun d => d.submit timSetSynce e

/-- TIM.SET_TIME. -/
def execTimSetTime (dt : Nat) (e : CmdEntry) (s : State) : Host.Outcome State Fault Refusal := s.actUp dt fun d => d.submit timSetTime e

/-- TIM.FEED_OFFSET. -/
def execTimFeedOffset (dt : Nat) (e : CmdEntry) (s : State) : Host.Outcome State Fault Refusal := s.actUp dt fun d => d.submit timFeedOffset e

/-- LNE.FORM_PORT. -/
def execLneFormPort (dt : Nat) (e : CmdEntry) (s : State) : Host.Outcome State Fault Refusal := s.actUp dt fun d => d.submit lneFormPort e

/-- LNE.DISSOLVE_PORT. -/
def execLneDissolvePort (dt : Nat) (e : CmdEntry) (s : State) : Host.Outcome State Fault Refusal := s.actUp dt fun d => d.submit lneDissolvePort e

/-- LNE.PIN_TAPS. -/
def execLnePinTaps (dt : Nat) (e : CmdEntry) (s : State) : Host.Outcome State Fault Refusal := s.actUp dt fun d => d.submit lnePinTaps e

/-- MAC.SET_PORT_STATE. -/
def execMacSetPortState (dt : Nat) (e : CmdEntry) (s : State) : Host.Outcome State Fault Refusal := s.actUp dt fun d => d.submit macSetPortState e

/-- MAC.SET_FLOW_CONTROL. -/
def execMacSetFlowControl (dt : Nat) (e : CmdEntry) (s : State) : Host.Outcome State Fault Refusal := s.actUp dt fun d => d.submit macSetFlowControl e

/-- MAC.SET_LPI. -/
def execMacSetLpi (dt : Nat) (e : CmdEntry) (s : State) : Host.Outcome State Fault Refusal := s.actUp dt fun d => d.submit macSetLpi e

/-- MAC.SET_FRAME. -/
def execMacSetFrame (dt : Nat) (e : CmdEntry) (s : State) : Host.Outcome State Fault Refusal := s.actUp dt fun d => d.submit macSetFrame e

/-- SCH.SET_QUEUE. -/
def execSchSetQueue (dt : Nat) (e : CmdEntry) (s : State) : Host.Outcome State Fault Refusal := s.actUp dt fun d => d.submit schSetQueue e

/-- SCH.SET_PORT. -/
def execSchSetPort (dt : Nat) (e : CmdEntry) (s : State) : Host.Outcome State Fault Refusal := s.actUp dt fun d => d.submit schSetPort e

/-- SCH.READ_PORT. -/
def execSchReadPort (dt : Nat) (e : CmdEntry) (s : State) : Host.Outcome State Fault Refusal := s.actUp dt fun d => d.submit schReadPort e

/-- ZBN.SET_LANE. -/
def execZbnSetLane (dt : Nat) (e : CmdEntry) (s : State) : Host.Outcome State Fault Refusal := s.actUp dt fun d => d.submit zbnSetLane e

/-- ZBN.SET_SLOT_TRACE. -/
def execZbnSetSlotTrace (dt : Nat) (e : CmdEntry) (s : State) : Host.Outcome State Fault Refusal := s.actUp dt fun d => d.submit zbnSetSlotTrace e

/-- ZBN.READ_PM. -/
def execZbnReadPm (dt : Nat) (e : CmdEntry) (s : State) : Host.Outcome State Fault Refusal := s.actUp dt fun d => d.submit zbnReadPm e

/-- ZBN.READ_TRACE. -/
def execZbnReadTrace (dt : Nat) (e : CmdEntry) (s : State) : Host.Outcome State Fault Refusal := s.actUp dt fun d => d.submit zbnReadTrace e

/-- ZBN.SEND_MGMT. -/
def execZbnSendMgmt (dt : Nat) (e : CmdEntry) (s : State) : Host.Outcome State Fault Refusal := s.actUp dt fun d => d.submit zbnSendMgmt e

/-- ZBN.SET_FLEXE. -/
def execZbnSetFlexe (dt : Nat) (e : CmdEntry) (s : State) : Host.Outcome State Fault Refusal := s.actUp dt fun d => d.submit zbnSetFlexe e

/-- TTB.WRITE_SLOT. -/
def execTtbWriteSlot (dt : Nat) (e : CmdEntry) (s : State) : Host.Outcome State Fault Refusal := s.actUp dt fun d => d.submit ttbWriteSlot e

/-- TTB.WRITE_SEATS. -/
def execTtbWriteSeats (dt : Nat) (e : CmdEntry) (s : State) : Host.Outcome State Fault Refusal := s.actUp dt fun d => d.submit ttbWriteSeats e

/-- TTB.SWITCH_PAGE. -/
def execTtbSwitchPage (dt : Nat) (e : CmdEntry) (s : State) : Host.Outcome State Fault Refusal := s.actUp dt fun d => d.submit ttbSwitchPage e

/-- TTB.COPY_PAGE. -/
def execTtbCopyPage (dt : Nat) (e : CmdEntry) (s : State) : Host.Outcome State Fault Refusal := s.actUp dt fun d => d.submit ttbCopyPage e

/-- TTB.SET_PROTECTION. -/
def execTtbSetProtection (dt : Nat) (e : CmdEntry) (s : State) : Host.Outcome State Fault Refusal := s.actUp dt fun d => d.submit ttbSetProtection e

/-- TTB.PROTECT_COMMAND. -/
def execTtbProtectCommand (dt : Nat) (e : CmdEntry) (s : State) : Host.Outcome State Fault Refusal := s.actUp dt fun d => d.submit ttbProtectCommand e

/-- TTB.READ_PAGE. -/
def execTtbReadPage (dt : Nat) (e : CmdEntry) (s : State) : Host.Outcome State Fault Refusal := s.actUp dt fun d => d.submit ttbReadPage e

/-- PRS.WRITE_PROFILE. -/
def execPrsWriteProfile (dt : Nat) (e : CmdEntry) (s : State) : Host.Outcome State Fault Refusal := s.actUp dt fun d => d.submit prsWriteProfile e

/-- PRS.WRITE_PORT_MAP. -/
def execPrsWritePortMap (dt : Nat) (e : CmdEntry) (s : State) : Host.Outcome State Fault Refusal := s.actUp dt fun d => d.submit prsWritePortMap e

/-- PRS.WRITE_ETYPES. -/
def execPrsWriteEtypes (dt : Nat) (e : CmdEntry) (s : State) : Host.Outcome State Fault Refusal := s.actUp dt fun d => d.submit prsWriteEtypes e

/-- PRS.WRITE_RULE. -/
def execPrsWriteRule (dt : Nat) (e : CmdEntry) (s : State) : Host.Outcome State Fault Refusal := s.actUp dt fun d => d.submit prsWriteRule e

/-- PRS.SET_MEMBER. -/
def execPrsSetMember (dt : Nat) (e : CmdEntry) (s : State) : Host.Outcome State Fault Refusal := s.actUp dt fun d => d.submit prsSetMember e

/-- PRS.DISCARD_STAGED. -/
def execPrsDiscardStaged (dt : Nat) (e : CmdEntry) (s : State) : Host.Outcome State Fault Refusal := s.actUp dt fun d => d.submit prsDiscardStaged e

/-- PRS.COMMIT. -/
def execPrsCommit (dt : Nat) (e : CmdEntry) (s : State) : Host.Outcome State Fault Refusal := s.actUp dt fun d => d.submit prsCommit e

/-- PRS.SET_METER. -/
def execPrsSetMeter (dt : Nat) (e : CmdEntry) (s : State) : Host.Outcome State Fault Refusal := s.actUp dt fun d => d.submit prsSetMeter e

/-- PRS.READ_RULE. -/
def execPrsReadRule (dt : Nat) (e : CmdEntry) (s : State) : Host.Outcome State Fault Refusal := s.actUp dt fun d => d.submit prsReadRule e

/-- PRS.READ_METER. -/
def execPrsReadMeter (dt : Nat) (e : CmdEntry) (s : State) : Host.Outcome State Fault Refusal := s.actUp dt fun d => d.submit prsReadMeter e

/-- FWD.WRITE_FDB. -/
def execFwdWriteFdb (dt : Nat) (e : CmdEntry) (s : State) : Host.Outcome State Fault Refusal := s.actUp dt fun d => d.submit fwdWriteFdb e

/-- FWD.DELETE_FDB. -/
def execFwdDeleteFdb (dt : Nat) (e : CmdEntry) (s : State) : Host.Outcome State Fault Refusal := s.actUp dt fun d => d.submit fwdDeleteFdb e

/-- FWD.FLUSH_FDB. -/
def execFwdFlushFdb (dt : Nat) (e : CmdEntry) (s : State) : Host.Outcome State Fault Refusal := s.actUp dt fun d => d.submit fwdFlushFdb e

/-- FWD.READ_FDB. -/
def execFwdReadFdb (dt : Nat) (e : CmdEntry) (s : State) : Host.Outcome State Fault Refusal := s.actUp dt fun d => d.submit fwdReadFdb e

/-- FWD.SET_VLAN. -/
def execFwdSetVlan (dt : Nat) (e : CmdEntry) (s : State) : Host.Outcome State Fault Refusal := s.actUp dt fun d => d.submit fwdSetVlan e

/-- FWD.SET_PORT. -/
def execFwdSetPort (dt : Nat) (e : CmdEntry) (s : State) : Host.Outcome State Fault Refusal := s.actUp dt fun d => d.submit fwdSetPort e

/-- FWD.SET_CLASS_MAP. -/
def execFwdSetClassMap (dt : Nat) (e : CmdEntry) (s : State) : Host.Outcome State Fault Refusal := s.actUp dt fun d => d.submit fwdSetClassMap e

/-- FWD.SET_GROUP. -/
def execFwdSetGroup (dt : Nat) (e : CmdEntry) (s : State) : Host.Outcome State Fault Refusal := s.actUp dt fun d => d.submit fwdSetGroup e

/-- FWD.SET_STREAM. -/
def execFwdSetStream (dt : Nat) (e : CmdEntry) (s : State) : Host.Outcome State Fault Refusal := s.actUp dt fun d => d.submit fwdSetStream e

/-- FWD.SET_MIRROR. -/
def execFwdSetMirror (dt : Nat) (e : CmdEntry) (s : State) : Host.Outcome State Fault Refusal := s.actUp dt fun d => d.submit fwdSetMirror e

/-- FWD.SET_RECORDER. -/
def execFwdSetRecorder (dt : Nat) (e : CmdEntry) (s : State) : Host.Outcome State Fault Refusal := s.actUp dt fun d => d.submit fwdSetRecorder e

/-- FWD.FREEZE_RECORDER. -/
def execFwdFreezeRecorder (dt : Nat) (e : CmdEntry) (s : State) : Host.Outcome State Fault Refusal := s.actUp dt fun d => d.submit fwdFreezeRecorder e

/-- FWD.REARM_RECORDER. -/
def execFwdRearmRecorder (dt : Nat) (e : CmdEntry) (s : State) : Host.Outcome State Fault Refusal := s.actUp dt fun d => d.submit fwdRearmRecorder e

/-- FWD.READ_RECORDER. -/
def execFwdReadRecorder (dt : Nat) (e : CmdEntry) (s : State) : Host.Outcome State Fault Refusal := s.actUp dt fun d => d.submit fwdReadRecorder e

/-- BUF.SET_ADMIT. -/
def execBufSetAdmit (dt : Nat) (e : CmdEntry) (s : State) : Host.Outcome State Fault Refusal := s.actUp dt fun d => d.submit bufSetAdmit e

/-- BUF.SET_SPILL. -/
def execBufSetSpill (dt : Nat) (e : CmdEntry) (s : State) : Host.Outcome State Fault Refusal := s.actUp dt fun d => d.submit bufSetSpill e

/-- BUF.ROLL_CALL. -/
def execBufRollCall (dt : Nat) (e : CmdEntry) (s : State) : Host.Outcome State Fault Refusal := s.actUp dt fun d => d.submit bufRollCall e

/-- BUF.SET_VOQ. -/
def execBufSetVoq (dt : Nat) (e : CmdEntry) (s : State) : Host.Outcome State Fault Refusal := s.actUp dt fun d => d.submit bufSetVoq e

/-- DRC.RETRAIN_CHANNEL. -/
def execDrcRetrainChannel (dt : Nat) (e : CmdEntry) (s : State) : Host.Outcome State Fault Refusal := s.actUp dt fun d => d.submit drcRetrain e

/-- DRC.QUARANTINE_PAGE. -/
def execDrcQuarantinePage (dt : Nat) (e : CmdEntry) (s : State) : Host.Outcome State Fault Refusal := s.actUp dt fun d => d.submit drcQuarantine e

/-- DRC.READ_EYES. -/
def execDrcReadEyes (dt : Nat) (e : CmdEntry) (s : State) : Host.Outcome State Fault Refusal := s.actUp dt fun d => d.submit drcReadEyes e

/-- GOV.SET_POLICY. -/
def execGovSetPolicy (dt : Nat) (e : CmdEntry) (s : State) : Host.Outcome State Fault Refusal := s.actUp dt fun d => d.submit govSetPolicy e

/-- GOV.SET_VBOUND. -/
def execGovSetVbound (dt : Nat) (e : CmdEntry) (s : State) : Host.Outcome State Fault Refusal := s.actUp dt fun d => d.submit govSetVbound e

/-- GLB.QUERY. -/
def execGlbQuery (dt : Nat) (e : CmdEntry) (s : State) : Host.Outcome State Fault Refusal := s.actUp dt fun d => d.submit glbQuery e

/-- GLB.SNAPSHOT. -/
def execGlbSnapshot (dt : Nat) (e : CmdEntry) (s : State) : Host.Outcome State Fault Refusal := s.actUp dt fun d => d.submit glbSnapshot e

/-- GLB.BARRIER. -/
def execGlbBarrier (dt : Nat) (e : CmdEntry) (s : State) : Host.Outcome State Fault Refusal := s.actUp dt fun d => d.submit glbBarrier e

/-- GLB.HOLD_OP. -/
def execGlbHoldOp (dt : Nat) (e : CmdEntry) (s : State) : Host.Outcome State Fault Refusal := s.actUp dt fun d => d.submit glbHoldOp e

/-- GLB.ABORT. -/
def execGlbAbort (dt : Nat) (e : CmdEntry) (s : State) : Host.Outcome State Fault Refusal := s.actUp dt fun d => d.submit (glbAbort specOf0) e

/-- CNT.SET_MONITOR. -/
def execCntSetMonitor (dt : Nat) (e : CmdEntry) (s : State) : Host.Outcome State Fault Refusal := s.actUp dt fun d => d.submit cntSetMonitor e

/-- CNT.SET_EVENT_COUNTER. -/
def execCntSetEventCounter (dt : Nat) (e : CmdEntry) (s : State) : Host.Outcome State Fault Refusal := s.actUp dt fun d => d.submit cntSetEvCounter e

/-- CNT.SET_WINDOW. -/
def execCntSetWindow (dt : Nat) (e : CmdEntry) (s : State) : Host.Outcome State Fault Refusal := s.actUp dt fun d => d.submit cntSetWindow e

/-- CNT.READ_COUNTERS. -/
def execCntReadCounters (dt : Nat) (e : CmdEntry) (s : State) : Host.Outcome State Fault Refusal := s.actUp dt fun d => d.submit cntReadCounters e

/-- SUB.SET_THRESHOLD. -/
def execSubSetThreshold (dt : Nat) (e : CmdEntry) (s : State) : Host.Outcome State Fault Refusal := s.actUp dt fun d => d.submit subSetThreshold e

/-- SUB.SET_POLICY. -/
def execSubSetPolicy (dt : Nat) (e : CmdEntry) (s : State) : Host.Outcome State Fault Refusal := s.actUp dt fun d => d.submit subSetPolicy e

/-- SUB.SUBSTITUTE. -/
def execSubSubstitute (dt : Nat) (e : CmdEntry) (s : State) : Host.Outcome State Fault Refusal := s.actUp dt fun d => d.submit subSubstitute e

/-- BDY.PAIR. -/
def execBdyPair (dt : Nat) (e : CmdEntry) (s : State) : Host.Outcome State Fault Refusal := s.actUp dt fun d => d.submit bdyPair e

/-- BDY.REJOIN. -/
def execBdyRejoin (dt : Nat) (e : CmdEntry) (s : State) : Host.Outcome State Fault Refusal := s.actUp dt fun d => d.submit bdyRejoin e

/-- BDY.UNPAIR. -/
def execBdyUnpair (dt : Nat) (e : CmdEntry) (s : State) : Host.Outcome State Fault Refusal := s.actUp dt fun d => d.submit bdyUnpair e

/-- PRC.GET_TRANSCRIPT. -/
def execPrcGetTranscript (dt : Nat) (e : CmdEntry) (s : State) : Host.Outcome State Fault Refusal := s.actUp dt fun d => d.submit prcGetTranscript e

/-- PRC.UPDATE_FIRMWARE. -/
def execPrcUpdateFirmware (dt : Nat) (e : CmdEntry) (s : State) : Host.Outcome State Fault Refusal := s.actUp dt fun d => d.submit prcUpdateFirmware e

/-- PRC.ZEROIZE. -/
def execPrcZeroize (dt : Nat) (e : CmdEntry) (s : State) : Host.Outcome State Fault Refusal := s.actUp dt fun d => d.submit prcZeroize e

/-- PRC.EXPORT_AUDIT. -/
def execPrcExportAudit (dt : Nat) (e : CmdEntry) (s : State) : Host.Outcome State Fault Refusal := s.actUp dt fun d => d.submit prcExportAudit e

/-- PRC.SEAL_CONFIG. -/
def execPrcSealConfig (dt : Nat) (e : CmdEntry) (s : State) : Host.Outcome State Fault Refusal := s.actUp dt fun d => d.submit prcSealConfig e

/-- PRC.GET_RANDOM. -/
def execPrcGetRandom (dt : Nat) (e : CmdEntry) (s : State) : Host.Outcome State Fault Refusal := s.actUp dt fun d => d.submit prcGetRandom e

end Sys2Proof.Machine
end

