-- ==== Sys2Proof/Machine/RowsFrames.lean ====
section
/-! DEFINITION. Rows of the recorder, forwarding, buffers, scheduling and transmission (07 to 09): one meaning for each. -/

namespace Sys2Proof.Machine

/-- RECORDER_POST_DONE: the pages after the trigger have been written (07 R265). -/
def execRecorderPostDone (dt region : Nat) (s : State) : Host.Outcome State Fault Refusal :=
  s.actUp dt fun d => if (d.region region).state = .post ∧ (d.region region).postLeft = 0 then d.freeze region else d

/-- AGER_VISIT (07 R244): the sweep comes to a location, having visited those before it; one that lies before its position belongs to the next
sweep. Nothing is visited while the background pool is paused. -/
def execAgerVisit (dt location : Nat) (s : State) : Host.Outcome State Fault Refusal :=
  s.actUp dt fun d =>
    if d.bgPaused then d
    else
      let loc := min location 1048575
      let d := d.when (decide (loc < d.fwd.sweepPos)) fun d => d.sweepEnd
      (d.reach (d.fwd.visitAt loc)).sweepTo (loc + 1)

/-! ### PTP (02 R49, R55 to R57) -/

def execFrameRxHead (dt : Nat) (h : FrameHead) (s : State) : Host.Outcome State Fault Refusal :=
  s.arrive dt (.head h)

/-! ### The end of a frame (03 R95, R96, 06 R208, R218) -/

def execFrameRxEnd (dt : Nat) (r : FrameEnd) (s : State) : Host.Outcome State Fault Refusal :=
  s.arrive dt (.ending r)

/-- FRER_RESET_TIMER (07 R255). -/
def execFrerResetTimer (dt stream : Nat) (s : State) : Host.Outcome State Fault Refusal :=
  s.actUp dt fun d =>
    let x := d.stream stream
    match x.passedAt with
    | some t =>
      if x.rcvEn then
        let d := (d.reach (t + x.resetMs * qPerMs)).streamM stream fun x => { x with takeAny := true, passedAt := none }
        (d.count (cStream stream 6) 1).post 0x0A03 [.index stream]
      else d
    | none => d

/-! ### The FDB (07 R269 to R272) -/

/-- FDB_FLUSH_DONE (07 R271). -/
def execFdbFlushDone (dt ring tag : Nat) (s : State) : Host.Outcome State Fault Refusal :=
  s.actUp dt fun d =>
    match d.cmdAt ring tag with
    | some c =>
      if c.op = 0x0A03 ∧ c.stage = .long ∧ c.held = false ∧ d.bgPaused = false then
        -- 262,144 cycles of 0.625 ns
        let d := (d.reach (c.since + 655360)).flushTo c 1048576
        match d.cmdAt ring tag with
        | some c => d.finish c stOk c.tally
        | none => d
      else d
    | none => d

/-! ### Mirrors and the recorder (07 R278 to R282) -/

/-- RECORDER_READ_DONE (07 R267). -/
def execRecorderReadDone (dt region : Nat) (s : State) : Host.Outcome State Fault Refusal :=
  s.actUp dt fun d =>
    match (d.region region).reader with
    | some (ring, tag) =>
      match d.cmdAt ring tag with
      | some c =>
        if c.held then d
        else
          let d := d.readPagesTo c c.total
          (d.finishAt ring tag stOk c.tally).readEnded region
      | none => d.readEnded region
    | none => d

/-! ### Rows -/

/-- SPILL_PAGE_ACK: the oldest page of the queue that awaits it has been written (08 R299). -/
def execSpillPageAck (dt queue : Nat) (s : State) : Host.Outcome State Fault Refusal :=
  s.actUp dt fun d => (d.pageAcked queue).spillStep queue

/-- RECALL_PAGE_RETURN: the page asked for at the head of F returns (08 R300). -/
def execRecallPageReturn (dt queue : Nat) (s : State) : Host.Outcome State Fault Refusal :=
  s.actUp dt fun d => d.pageRecalled queue

/-- ROLL_CALL_DONE: the confirmation pass ends; the operands are the units that faults of the free lists have leaked or crossed. -/
def execRollCallDone (dt : Nat) (fs : List RollFinding) (s : State) : Host.Outcome State Fault Refusal :=
  s.actUp dt fun d =>
    match d.buf.roll with
    | some r => if decide (r.startSeq ≤ d.bel.seq) && !d.rollHeld r then d.rollEnds r fs else d
    | none => d

/-! ### Rows -/

/-- SHAPER_REFILL: the port's refill interval has passed (09 R335). -/
def execShaperRefill (dt port : Nat) (s : State) : Host.Outcome State Fault Refusal :=
  s.actUp dt fun d =>
    if d.portExists port = true ∧ d.refillDue port < d.bel.nextAt then (d.reach (d.refillDue port)).refill port else d

/-- CYCLIC_GUARD_END: the guard after the last bell ends (01 R36, 09 R327). -/
def execCyclicGuardEnd (dt : Nat) (s : State) : Host.Outcome State Fault Refusal :=
  s.actUp dt fun d => (d.reach (d.bel.lastAt + d.bel.guard * qPerNs)).belM fun b => { b with guarding := false }

/-! ### Selection (09 R322 to R331) -/

/-- EGRESS_SELECT. -/
def execEgressSelect (dt port : Nat) (s : State) : Host.Outcome State Fault Refusal :=
  s.actUp dt fun d => d.selectNext port

/-- LPI_WAKE_COMPLETE (03 R99): the transmitter is active, and the eligible frame leaves. -/
def execLpiWakeComplete (dt port : Nat) (s : State) : Host.Outcome State Fault Refusal :=
  s.actUp dt fun d =>
    let p := d.port port
    if p.lpiTx && p.lpiWaking then
      let d := d.reach (p.lpiWakeAt + p.twUs * 4000)
      let d := (d.portM port fun p => { p with lpiTx := false, lpiWaking := false, idleSince := d.now }).count (cPort port 35) ((d.now - p.lpiSince) / 4000)
      let d := d.each (d.carriers port) fun l d => d.laneM l fun x => { x with lpiTx := false }
      d.selectNext port
    else d

/-! ### The end of a frame (07 R249) -/

/-- Stored frame f belongs to an oversize frame that is still being received: its copies end at the maximum length plus 1 (03 R97). -/
def Dev.cutShort (d : Dev) (f : Nat) : Bool :=
  d.fwd.rx.any fun x => (x.2.frame == some f || x.2.mframe == some f) && decide (x.2.limit < x.2.head.data.length + 4)

/-- FRAME_TX_END: the frame on the port's line has left; a copy cut short ends with an inverted FCS. -/
def execFrameTxEnd (dt port : Nat) (s : State) : Host.Outcome State Fault Refusal :=
  s.actUp dt fun d =>
    match (d.schPort port).line with
    | some l =>
      let f := l.copy.frame
      if (d.frameAt f).complete then (d.reach l.finish).txDone port l
      else if d.cutShort f then ((d.reach l.finish).frameM f fun x => { x with bad := true }).txDone port l
      else d
    | none => d

end Sys2Proof.Machine
end

