-- ==== Sys2Proof/Machine/RowsHost.lean ====
section
/-! DEFINITION. Rows of rings, resets of the function and registers (12 to 14): one meaning for each. -/

namespace Sys2Proof.Machine

/-! ### Ring states (12 R409, R410) -/

/-- RING_STOPPED. -/
def execRingStopped (dt ring : Nat) (s : State) : Host.Outcome State Fault Refusal :=
  s.actUp dt fun d => d.when ((d.ring ring).state == .stopping && d.mayOff ring) fun d => d.ringOff ring

/-! ### Doorbells (12 R404, R406) -/

/-- DOORBELL_WRITE: rings that are OFF or STOPPING only store it; pages 200 to 255 discard it (12 R401, R404). -/
def execDoorbellWrite (dt ring data : Nat) (posted : List (Nat × Nat)) (s : State) : Host.Outcome State Fault Refusal :=
  s.actUp dt fun d =>
    if 200 ≤ ring || d.hif.flr then d
    else
      let d := d.ringM ring fun r => { r with doorbell := data % 2 ^ 32 }
      if (d.ring ring).state == .running then d.ringDoorbell ring data posted else d

/-! ### Failed reads (12 R412) -/

/-- RING_READ_ERROR. Completion and event rings are not read. -/
def execRingReadError (dt ring : Nat) (item : ReadItem) (poisoned : Bool) (s : State) : Host.Outcome State Fault Refusal :=
  s.actUp dt fun d =>
    match item with
    | .entry index =>
      d.when ((isCommandRing ring || isTxRing ring || isRxRing ring) && (d.ring ring).state != .off) fun d => d.entryFailed ring index poisoned
    | .commandData tag => d.when (isCommandRing ring && (match d.cmdAt ring tag with | some c => c.reading | none => false)) fun d => d.finishAt ring tag stFailed 0
    | .frameData index => d.when (isTxRing ring) fun d => d.frameDataFailed (ring - 64) index

/-! ### Frames from the host (12 R422 to R426) -/

/-- TX_DESCRIPTOR_FETCH: the descriptor and the frame data read for it. No descriptor of a class in XOFF is fetched (08 R292). -/
def execTxDescriptorFetch (dt ring : Nat) (raw data : List Byte) (s : State) : Host.Outcome State Fault Refusal :=
  s.actUp dt fun d =>
    if d.mayFetchTx ring then
      let t := d.descOf ring raw data
      if d.xoffNow (ptTx ring) t.cls then d
      else
        let flushed := d.flushedEntry t
        let d := ((d.ringM (64 + ring) Ring.passEntry).count (cRing (64 + ring) 2) 1).fetchRecord ring
        if d.descBad t then d.endDesc t stRejected
        else if flushed then d.endDesc t stFlushed
        else d.hifM fun h => { h with tx := h.tx ++ [t] }
    else d

/-- TX_DISPATCH: the oldest descriptor read of a ring (12 R425). -/
def execTxDispatch (dt ring : Nat) (s : State) : Host.Outcome State Fault Refusal := s.arrive dt (.tx ring)

/-! ### Events lost, and interrupts (12 R431, R432) -/

/-- EVENTS_LOST_RECORD: an entry of an event ring has come free after losses. -/
def execEventsLostRecord (dt ring : Nat) (s : State) : Host.Outcome State Fault Refusal :=
  s.actUp dt fun d =>
    let r := d.ring (192 + ring)
    d.when (decide (ring < 8) && r.state == .running && r.lost != 0 && r.room) fun d => d.writeLost ring

/-- MSIX_RAISE: an armed ring has met its count or its time. -/
def execMsixRaise (dt ring : Nat) (s : State) : Host.Outcome State Fault Refusal :=
  s.actUp dt fun d =>
    let r := d.ring ring
    if r.armed && r.unsignalled != 0 && r.state != .off then
      let d := if r.modCount ≤ r.unsignalled then d else d.reach (r.oldest + r.modTime * 1000 * qPerNs)
      (d.ringM ring fun r => { r with armed := false, unsignalled := 0 }).raiseVector r.vector
    else d

/-! ### Progress of long operations (12 R420, 13 R455) -/

/-- LONG_OP_INTERIM: 1 ms has passed. A held operation, or one whose pool is paused, keeps its position (13 R452, 11 R383). -/
def execLongOpInterim (dt ring tag pos : Nat) (s : State) : Host.Outcome State Fault Refusal :=
  s.actUp dt fun d =>
    match d.cmdAt ring tag with
    | some c =>
      if c.stage == .long then
        let d := if c.held || (backgroundOp c.op && d.bgPaused) then d else d.advance c pos
        match d.cmdAt ring tag with
        | some c => d.interim c
        | none => d
      else d
    | none => d

/-! ### Function-level reset (12 R433 to R435) -/

/-- FLR_DONE: configuration is answered again, and the number of items in the ledger is posted (12 R435). -/
def execFlrDone (dt : Nat) (s : State) : Host.Outcome State Fault Refusal :=
  s.actUp dt fun d =>
    if d.hif.flr then (d.hifM fun h => { h with flr := false }).post 0x0204 [.value (ledgerOrder d.hif.ledger).length]
    else d

/-- LEDGER_WRITE (12 R435). -/
def execLedgerWrite (dt : Nat) (s : State) : Host.Outcome State Fault Refusal :=
  s.actUp dt fun d =>
    let k := d.hif.ledgerRing
    if (d.ring (32 + k)).state == .running && !d.hif.ledger.isEmpty then
      let later := d.hif.ledger.filter fun c => c.status == 1
      let (d, rest) := d.writeLedger k (ledgerOrder d.hif.ledger)
      d.hifM fun h => { h with ledger := rest ++ later }
    else d

/-- PCIE_LINK_CHANGED (12 R436, R437). -/
def execPcieLinkChanged (dt gen width : Nat) (s : State) : Host.Outcome State Fault Refusal :=
  s.act dt fun d =>
    if d.hif.linkGen = gen ∧ d.hif.linkWidth = width then d
    else (d.hifM fun h => { h with linkGen := gen % 8, linkWidth := width % 32 }).when d.inService fun d => d.post 0x0205 [.value gen, .value width]

/-! ### Fetch and acceptance (12 R414 to R416, 13 R441) -/

/-- COMMAND_FETCH: steps 1 and 2 of 13 R441 on the next entry of a ring. -/
def execCommandFetch (dt ring : Nat) (raw : List Byte) (e : CmdEntry) (s : State) : Host.Outcome State Fault Refusal :=
  s.actUp dt fun d =>
    let op := natLE (raw.take 2)
    if d.mayFetch ring && (d.ring ring).waiting != 0 then d.fetchCmd (specOf op).isSome op (entryOf ring raw e) else d

/-- COMMAND_ACCEPT: steps 3 to 9 on the command of a ring whose turn it is. -/
def execCommandAccept (dt ring : Nat) (s : State) : Host.Outcome State Fault Refusal :=
  s.actUp dt fun d =>
    match d.turn ring with
    | some c => (match specOf c.op with | some sp => d.acceptCmd sp c | none => d)
    | none => d

/-! ### Function-level reset (12 R433, R434) -/

def execFlr (dt : Nat) (s : State) : Host.Outcome State Fault Refusal := s.actUp dt fun d => d.when d.prc.zeroizing.isNone Dev.flrStart

/-- D3HOT_ENTRY acts as an FLR (12 R433). -/
def execD3hotEntry (dt : Nat) (s : State) : Host.Outcome State Fault Refusal := s.actUp dt fun d => d.when d.prc.zeroizing.isNone Dev.flrStart

/-! ### Rows -/

/-- REGISTER_WRITE. -/
def execRegisterWrite (dt addr len data : Nat) (poisoned : Bool) (s : State) : Host.Outcome State Fault Refusal :=
  s.act dt fun d => d.busWrite addr len data poisoned

/-- BEL_CTRL_WRITE (01 R31). -/
def execBelCtrlWrite (dt : Nat) (w : RegWrite) (s : State) : Host.Outcome State Fault Refusal := s.act dt fun d => d.regWrite 0x200000 w

/-- GLB_RESET_CTRL_WRITE (14 R481). -/
def execGlbResetCtrlWrite (dt : Nat) (w : RegWrite) (s : State) : Host.Outcome State Fault Refusal := s.act dt fun d => d.regWrite 0x60 w

/-- RING_CTRL_WRITE (12 R409). -/
def execRingCtrlWrite (dt ring : Nat) (w : RegWrite) (s : State) : Host.Outcome State Fault Refusal :=
  s.act dt fun d => d.when (decide (ring < 200)) fun d => d.regWrite (0x113000 + ring * 16) w

/-- GOV_RAIL_LIMIT_WRITE (11 R386, 14 R475). -/
def execGovRailLimitWrite (dt quadrant : Nat) (w : RegWrite) (s : State) : Host.Outcome State Fault Refusal :=
  s.act dt fun d => d.when (decide (quadrant < 4)) fun d => d.regWrite (0xD10000 + quadrant * 16) w

/-- OFFICER_KEY_WRITE (18 R570). -/
def execOfficerKeyWrite (dt word : Nat) (w : RegWrite) (s : State) : Host.Outcome State Fault Refusal :=
  s.act dt fun d => d.when (decide (word < 16)) fun d => d.regWrite (0xF90000 + word * 16) w

/-- LO_REGISTER_READ: the value read goes to the host. -/
def execLoRegisterRead (dt addr : Nat) (s : State) : Host.Outcome State Fault Refusal :=
  s.act dt fun d => if d.busUp then (d.emit (.readData addr (d.readDword addr))).latch (addr / 4 * 4) else d

end Sys2Proof.Machine
end

