-- ==== Sys2Proof/Machine/RowsLink.lean ====
section
/-! DEFINITION. Rows of lanes, ports and the MAC (03): one meaning for each. -/

namespace Sys2Proof.Machine

/-! ### Rows: lanes (03 R91) -/

/-- LANE_SIGNAL_DETECTED. -/
def execLaneSignalDetected (dt lane : Nat) (s : State) : Host.Outcome State Fault Refusal :=
  s.actUp dt fun d => d.laneStep lane .waitSignal (d.afterSignal lane) fun x => { x with signal := true }

/-- AN_RESOLVED: the partner's advertisement either yields the configured mode or lacks it (03 R91, R110). -/
def execAnResolved (dt lane : Nat) (lacksMode : Bool) (s : State) : Host.Outcome State Fault Refusal :=
  s.actUp dt fun d =>
    if lacksMode then d.laneStep lane .an .an fun x => { x with lacksMode := true }
    else d.laneStep lane .an .train fun x => { x with lacksMode := false }

/-- TRAINING_COMPLETE. -/
def execTrainingComplete (dt lane : Nat) (s : State) : Host.Outcome State Fault Refusal :=
  s.actUp dt fun d => d.laneStep lane .train .lock fun x => { x with cdrLock := true }

/-- TRAINING_TIMEOUT. -/
def execTrainingTimeout (dt lane : Nat) (s : State) : Host.Outcome State Fault Refusal :=
  s.actUp dt fun d => d.laneStep lane .train .waitSignal fun x => { x with signal := false, cdrLock := false }

/-- ADAPTATION_COMPLETE. -/
def execAdaptationComplete (dt lane : Nat) (s : State) : Host.Outcome State Fault Refusal :=
  s.actUp dt fun d => d.laneStep lane .adapt .lock fun x => { x with cdrLock := true }

/-- ADAPTATION_TIMEOUT. -/
def execAdaptationTimeout (dt lane : Nat) (s : State) : Host.Outcome State Fault Refusal :=
  s.actUp dt fun d => d.laneExpires lane .adapt (100 * qPerMs) fun x => { x with signal := false, cdrLock := false }

/-- LOCK_ACHIEVED. -/
def execLockAchieved (dt lane : Nat) (s : State) : Host.Outcome State Fault Refusal :=
  s.actUp dt fun d => d.laneStep lane .lock .up fun x => { x with blockLock := true }

/-- LOCK_TIMEOUT. -/
def execLockTimeout (dt lane : Nat) (s : State) : Host.Outcome State Fault Refusal :=
  s.actUp dt fun d => d.laneExpires lane .lock (10 * qPerMs) fun x => { x with signal := false, cdrLock := false, blockLock := false }

/-- EYE_MEASUREMENT. -/
def execEyeMeasurement (dt : Nat) (rs : List EyeReading) (s : State) : Host.Outcome State Fault Refusal :=
  s.actUp dt fun d => (d.each rs fun r d => d.eyeDue r).each rs fun r d => d.eyeReading r

/-! ### Rows: port states (03 R107) -/

/-- LANES_POWERED. -/
def execLanesPowered (dt port : Nat) (s : State) : Host.Outcome State Fault Refusal :=
  s.actUp dt fun d => if (d.port port).state = .disabled ∧ (d.port port).admin = true then (d.toTraining port).requestReached port true else d

/-- PORT_UP_QUALIFIED: the condition has held for 1 ms. -/
def execPortUpQualified (dt port : Nat) (s : State) : Host.Outcome State Fault Refusal :=
  s.actUp dt fun d =>
    if ((d.port port).state = .training ∨ (d.port port).state = .hold) ∧ d.upCondition port = true then
      (d.reach (d.qualifiedSince port + qPerMs)).toUp port
    else d

/-- FAULT_RX: the fault condition as it now is; a port in UP or DRAINING loses its link. -/
def execFaultRx (dt port : Nat) (localFault remoteFault : Bool) (s : State) : Host.Outcome State Fault Refusal :=
  s.actUp dt fun d =>
    if d.portExists port then
      let d := d.portM port fun p => { p with
        localFault, remoteFault, faultEnd := if (p.localFault || p.remoteFault) && !(localFault || remoteFault) then d.now else p.faultEnd }
      if localFault || remoteFault then d.linkLost port else d
    else d

/-- HOLD_DOWN_EXPIRY. -/
def execHoldDownExpiry (dt port : Nat) (s : State) : Host.Outcome State Fault Refusal :=
  s.actUp dt fun d =>
    match AMap.find? d.buf.holds port with
    | some h => (d.reach h.expires).toFlushing port ((d.port port).state == .hold)
    | none => d

/-- PORT_FLUSH_END. -/
def execPortFlushEnd (dt port : Nat) (s : State) : Host.Outcome State Fault Refusal :=
  s.actUp dt fun d =>
    let p := d.port port
    if p.state = .flushing then
      let d := d.post 0x0B05 [.index port, .value p.flushFrames, .value p.flushBytes, .value p.flushFdb]
      if p.flushFromHold && p.admin then d.toTraining port else d.setPortState port .poweringDown
    else d

/-- PORT_EMPTY: a flow-control frame still on the line leaves first. -/
def execPortEmpty (dt port : Nat) (s : State) : Host.Outcome State Fault Refusal :=
  s.actUp dt fun d => if (d.port port).state = .draining ∧ d.portIsEmpty port = true then (d.reach (d.schPort port).lineEnd).toFlushing port false else d

/-- POWER_DOWN_COMPLETE. -/
def execPowerDownComplete (dt port : Nat) (s : State) : Host.Outcome State Fault Refusal :=
  s.actUp dt fun d =>
    if (d.port port).state = .poweringDown then
      (((d.setPortState port .disabled).lanesTo port .off).portM port fun p => { p with localFault := false, remoteFault := false, lpiTx := false, lpiWaking := false, lpiRx := false }).requestReached port false
    else d

/-- PORT_MISMATCH_HELD: at three consecutive bells (03 R110). -/
def execPortMismatchHeld (dt port : Nat) (s : State) : Host.Outcome State Fault Refusal :=
  s.actUp dt fun d =>
    let p := d.port port
    if d.portExists port && decide (3 ≤ p.mmBells) && !p.mmPosted && d.atBell then
      (d.portM port fun p => { p with mmPosted := true }).post 0x0602 [.index port, .set (d.mmCause port)]
    else d

/-! ### Rows: flow control (03 R102 to R106) -/

/-- MAC_CONTROL_FRAME_RX (03 R102): an untagged control frame, whole and good. -/
def execMacControlFrameRx (dt port : Nat) (data : List Byte) (s : State) : Host.Outcome State Fault Refusal :=
  s.actUp dt fun d =>
    if d.portExists port then ((d.count (cPort port 5) 1).count (cPort port 6) (data.length + 4)).macControl port 12 d.now data else d

/-- PAUSE_TIMER_EXPIRY. -/
def execPauseTimerExpiry (dt port : Nat) (s : State) : Host.Outcome State Fault Refusal :=
  s.actUp dt fun d =>
    if d.portExists port then
      (match d.nextPauseEnd port with | some t => d.reach t | none => d).pauseUpdate port
    else d

/-- FLOW_CONTROL_FRAME_TX. -/
def execFlowControlFrameTx (dt port : Nat) (s : State) : Host.Outcome State Fault Refusal :=
  s.actUp dt fun d => if (d.port port).flowDue then d.flowAtBoundary port else d

/-- FLOW_CONTROL_REPEAT. -/
def execFlowControlRepeat (dt port : Nat) (s : State) : Host.Outcome State Fault Refusal :=
  s.actUp dt fun d =>
    if (d.port port).prioSent ≠ 0 then
      ((d.reach ((d.port port).flowAt + (d.port port).repeatTime)).portM port fun p => { p with flowDue := true }).flowAtBoundary port
    else d

/-! ### Rows: low-power idle (03 R99 to R101) -/

/-- LPI_IDLE_HOLD_EXPIRY. -/
def execLpiIdleHoldExpiry (dt port : Nat) (s : State) : Host.Outcome State Fault Refusal :=
  s.actUp dt fun d =>
    let p := d.port port
    if p.state = .up ∧ p.lpiEn = true ∧ p.lpiTx = false ∧ d.portIsEmpty port = true then
      let d := d.reach (p.idleSince + d.idleHold port * 4000)
      let d := (d.portM port fun p => { p with lpiTx := true, lpiWaking := false, lpiSince := d.now }).count (cPort port 34) 1
      d.each (d.carriers port) fun l d => d.laneM l fun x => { x with lpiTx := true }
    else d

/-- LPI_PRE_BELL_WAKE (03 R100). -/
def execLpiPreBellWake (dt port : Nat) (s : State) : Host.Outcome State Fault Refusal :=
  s.actUp dt fun d =>
    let b := d.belPort port
    if (d.port port).lpiTx && (b.commit + b.b15 != 0) then (d.reach (d.bel.nextAt - (d.port port).twUs * 4000)).startWake port else d

/-- RX_LPI_CHANGE (03 R99). -/
def execRxLpiChange (dt port : Nat) (enter : Bool) (s : State) : Host.Outcome State Fault Refusal :=
  s.actUp dt fun d =>
    if d.portExists port && (d.port port).hasLpi then
      let d := d.when (enter && !(d.port port).lpiRx) fun d => d.count (cPort port 36) 1
      let d := d.portM port fun p => { p with lpiRx := enter }
      d.each (d.carriers port) fun l d => d.laneM l fun x => { x with lpiRx := enter }
    else d

end Sys2Proof.Machine
end

