-- ==== Sys2Proof/Machine/RowsModule.lean ====
section
/-! DEFINITION. Rows of counters, long operations and substitutes (13, 15, 16): one meaning for each. -/

namespace Sys2Proof.Machine

/-- AUTO_SNAPSHOT: the bell instant of a multiple of auto_bells is reached (15 R488). -/
def execAutoSnapshot (dt : Nat) (s : State) : Host.Outcome State Fault Refusal :=
  s.actUp dt fun d => d.when (d.autoFlip (d.bel.seq + 1)) fun d => d.inNextBell id

/-- BARRIER_RELEASE: the last awaited command has completed (13 R451). -/
def execBarrierRelease (dt ring tag : Nat) (s : State) : Host.Outcome State Fault Refusal :=
  s.actUp dt fun d =>
    match d.cmdAt ring tag with
    | some c => if c.op == 0x0103 && c.stage == .waiting && c.waits.isEmpty then d.finish c stOk c.waited else d
    | none => d

/-! ### Wear (16 R506 to R510) -/

/-- WEAR_EVALUATION: an eye margin or the CEs of a scrub cycle are evaluated once for each reading, the others when their interval has
passed (16 R506). -/
def execWearEvaluation (dt kind unit measured : Nat) (s : State) : Host.Outcome State Fault Refusal :=
  s.actUp dt fun d =>
    if decide (7 ≤ kind) || !d.monitored kind unit then d
    else if readingKind kind then d.when (d.wear kind unit).fresh fun d => d.evaluateWear kind unit measured
    else
      let d := match (d.wear kind unit).lastAt with | some t => d.reach (t + d.wearInterval kind) | none => d
      d.evaluateWear kind unit measured

/-! ### Claims (16 R511) -/

/-- AUTO_SUBSTITUTION_START: the instant of the bell after a unit reached level 2 under automatic policy has come, ahead of the claims of the
commands at that bell, which does not start it twice (16 R509). -/
def execAutoSubstitutionStart (dt kind unit : Nat) (s : State) : Host.Outcome State Fault Refusal :=
  s.actUp dt fun d => d.inNextBell fun d => d.autoStart kind unit

/-! ### Steps, copies and cut-overs (16 R513 to R517) -/

/-- SUB_LANE_AGREED: three matching frames (16 R516 step 3). -/
def execSubLaneAgreed (dt slot : Nat) (s : State) : Host.Outcome State Fault Refusal :=
  s.actUp dt fun d =>
    let x := d.slotOf slot
    if x.compares = true ∧ 3 ≤ x.matched then
      d.slotM slot fun x => { x with step := 3, pos := 3, agreedAt := d.now }
    else d

/-- AGREE_TIMEOUT: reason 2 without SYNC, 1 with it (16 R517). -/
def execAgreeTimeout (dt slot : Nat) (s : State) : Host.Outcome State Fault Refusal :=
  s.actUp dt fun d =>
    let x := d.slotOf slot
    if (x.kind = 1 ∨ x.kind = 2) ∧ x.step < 3 ∧ (AMap.find? d.sub.slots slot).isSome = true then
      ((d.reach x.deadline).undoSub x).subEnd slot stFailed (if x.step = 2 then 1 else 2)
    else d

/-- SUB_COPY_DONE: the copy of a bank, table block or pipeline is whole; its cut-over falls due (16 R513, R514). -/
def execSubCopyDone (dt slot : Nat) (s : State) : Host.Outcome State Fault Refusal :=
  s.actUp dt fun d =>
    let x := d.slotOf slot
    if x.claimed = true ∧ x.step = 5 ∧ x.kind ≠ 4 ∧ d.bgPaused = false ∧ d.subHeld x = false then
      d.slotM slot fun x => { x with step := 6, pos := x.total }
    else d

/-- LINGER_EXPIRY: the bridge stops and the worn lane, named by its index, enters OFF (16 R516). -/
def execLingerExpiry (dt lane : Nat) (s : State) : Host.Outcome State Fault Refusal :=
  s.actUp dt fun d =>
    match AMap.find? d.sub.linger lane with
    | none => d
    | some t =>
      let d := (d.reach t).subM fun s => { s with linger := AMap.erase s.linger lane }
      d.laneTo lane .off fun x => { x with signal := false, cdrLock := false, blockLock := false }

end Sys2Proof.Machine
end

