-- ==== Sys2Proof/Machine/RowsPair.lean ====
section
/-! DEFINITION. Rows of the buddy pair and journals (17): one meaning for each. -/

namespace Sys2Proof.Machine

/-! ### Configuration that both modules must share (17 R539) -/

/-- CFG_MISMATCH_HELD (17 R539). -/
def execCfgMismatchHeld (dt : Nat) (s : State) : Host.Outcome State Fault Refusal :=
  s.actUp dt fun d =>
    if decide (3 ≤ d.bdy.cfgBells) && !d.bdy.cfgPosted && d.atBell then
      (d.bdyM fun b => { b with cfgPosted := true, cfgSet := d.cfgDiff }).post 0x1106 [.set d.cfgDiff]
    else d

/-! ### Heartbeats (17 R540 to R544) -/

/-- BUDDY_HEARTBEAT_RX. -/
def execBuddyHeartbeatRx (dt : Nat) (h : Heartbeat) (s : State) : Host.Outcome State Fault Refusal :=
  s.actUp dt fun d =>
    if d.bdy.state == .off then d
    else
      let d := d.bdyM fun b => { b with linkSeen := true, summary := some h }
      ((d.exchange h).trimStored h.writtenMark).cfgLook

/-- BUDDY_BEAT_EDGE (17 R541). -/
def execBuddyBeatEdge (dt : Nat) (s : State) : Host.Outcome State Fault Refusal :=
  s.actUp dt fun d => d.bdyM fun b => { b with beatSeen := true }

/-- BUDDY_SKEW_ALARM (17 R542): offset in ns. -/
def execBuddySkewAlarm (dt : Nat) (s : State) : Host.Outcome State Fault Refusal :=
  s.actUp dt fun d =>
    if decide (3 ≤ d.bdy.skewBells) && !d.bdy.skewPosted && d.atBell then
      (d.bdyM fun b => { b with skewPosted := true }).post 0x1105 [.value (twos 32 (divFloor d.bdy.offset 4))]
    else d

/-! ### The link (17 R528 to R531) -/

/-- BUDDY_LINK_UP (17 R529, R543, R548). -/
def execBuddyLinkUp (dt : Nat) (b : BuddyId) (s : State) : Host.Outcome State Fault Refusal :=
  s.actUp dt fun d =>
    if d.bdy.linkUp || d.bdy.state == .off || d.bdy.state == .solo || !d.linkWhole then d
    else
      let d := (d.bdyM fun x => { x with linkUp := true, credit := fullCredit, creditOwed := [] }).protScan
      let d := if d.bdy.state == .linking then
          match d.bdy.pairing with
          | some p =>
            match d.pairFails p b with
            | some r => (d.pairUndo p).finishAt p.ring p.tag stFailed r
            | none => (d.linked b).finishAt p.ring p.tag stOk 0
          | none => if b.serial = d.bdy.peerSerial then d.linked b else d
        else d
      d.buddyDrain

/-- BUDDY_LINK_DOWN (17 R529, R530, R543): a position is lost, or the link as a whole is not deskewed or does not hold the bound on its
messages. -/
def execBuddyLinkDown (dt position : Nat) (s : State) : Host.Outcome State Fault Refusal :=
  s.actUp dt fun d =>
    if d.bdy.linkUp = true ∧ ¬ (position < 16 ∧ d.positionHeld position = true) then
      let d := (d.bdyM fun b => { b with linkUp := false }).protScan
      if d.bdy.state == .linked || d.bdy.state == .syncing then (d.rejoinEnd stFailed).setPair .linking else d
    else d

/-- PAIR_LINK_TIMEOUT (17 R548). -/
def execPairLinkTimeout (dt : Nat) (s : State) : Host.Outcome State Fault Refusal :=
  s.actUp dt fun d =>
    match d.bdy.pairing with
    | some p => (((d.reach p.deadline).pairUndo p).finishAt p.ring p.tag stFailed 1)
    | none => d

/-! ### Transit frames (17 R531, R533) -/

/-- BUDDY_CREDIT_RX. -/
def execBuddyCreditRx (dt cls cells : Nat) (s : State) : Host.Outcome State Fault Refusal :=
  s.actUp dt fun d => d.when d.bdy.linkUp fun d => (d.bdyM fun b => { b with credit := AMap.upd b.credit cls 0 (· + cells) }).buddyDrain

def execBuddyFrameRx (dt : Nat) (f : TransitFrame) (s : State) : Host.Outcome State Fault Refusal :=
  s.arrive dt (.buddy f)

/-! ### FDB and shadow updates (07 R246, 17 R538) -/

/-- BUDDY_UPDATE_RX. -/
def execBuddyUpdateRx (dt : Nat) (u : BuddyUpdate) (s : State) : Host.Outcome State Fault Refusal :=
  s.actUp dt fun d =>
    if d.bdy.state != .paired && d.bdy.state != .syncing then d
    else
      match u with
      | .learn mac fid port sof => (d.mirrorLearn mac fid port sof).noteHw mac fid
      | .hit mac fid =>
        (match d.fdbFind mac fid with | some (loc, x) => d.fdbSet loc { x with hit := true } | none => d).noteHw mac fid
      | .remove mac fid =>
        (d.fwdM fun w => { w with fdb := w.fdb.filter fun x => !(x.2.mac == mac && x.2.fid == fid) }).noteHw mac fid
      | .shadow op body => d.shadowAdd op body
      | .fate f left flushed time => d.fateOf f left flushed time

/-! ### Rejoin (17 R549) -/

/-- REJOIN_DATA_RX: at the target its pair-wide state, at the source the target's local configuration for the shadow. -/
def execRejoinDataRx (dt : Nat) (item : RejoinItem) (s : State) : Host.Outcome State Fault Refusal :=
  s.actUp dt fun d =>
    match d.bdy.rejoin, item with
    | none, .start restoreLocal =>
      if d.bdy.state == .linked && !d.bdy.authority then d.bdyM fun b => { b with rejoin := some { source := false, restoreLocal } } else d
    | some r, _ =>
      if !r.source then (if r.started then d.takeItem r item else d)
      else
        match item with
        | .localCmd op body => if r.started && !r.restoreLocal then d.shadowAdd op body else d
        | _ => d
    | none, _ => d

/-! ### Journal records of the buddy (17 R535) -/

/-- JOURNAL_RECORD_RX. In SYNCING the target keeps records for the cut-over (17 R549). -/
def execJournalRecordRx (dt : Nat) (r : JournalRecord) (s : State) : Host.Outcome State Fault Refusal :=
  s.actUp dt fun d =>
    match specOf r.opcode with
    | none => d
    | some sp =>
      if d.bdy.state == .paired then
        match if sp.pairWide then d.checks sp r.entry else none with
        | some why => d.answer r.seq (some why)
        | none => ((d.storeRecord r).answer r.seq none).actOnRecord sp r
      else if d.bdy.state == .syncing then
        let d := (d.storeRecord r).answer r.seq none
        if sp.pairWide then d else d.shadowTake r.opcode r.entry
      else d

/-- JOURNAL_ACK_RX: the command is accepted with its stamp, or ends with the status of the step that refused it. -/
def execJournalAckRx (dt : Nat) (a : JournalAck) (s : State) : Host.Outcome State Fault Refusal :=
  s.actUp dt fun d =>
    match d.cmdAt a.ring a.tag with
    | none => d
    | some c =>
      if c.stage != .journalled then d
      else if a.refused then d.finish c a.status a.result
      else
        match specOf c.op with
        | none => d
        | some sp =>
          let d := d.takeUp sp c
          if sp.kind c == .commit then d.cmdM c fun c => { c with stage := .accepted (d.seqAt a.stampTai) } else d

/-! ### Completion and fetch records (17 R537) -/

/-- COMPLETION_RECORD_RX. -/
def execCompletionRecordRx (dt : Nat) (r : BuddyRecord) (s : State) : Host.Outcome State Fault Refusal :=
  s.actUp dt fun d =>
    if d.bdy.state != .paired then d
    else
      match r with
      | .completion kind op tag status ring result cookie value index seq =>
        let c : Compl := { op, tag, kind, status, ring, module := 1 - d.module, result, cookie, value, index }
        let mine := fun (h : HeldRecord) => kind == 0 && h.entry.ring == ring && h.entry.tag == tag
        let d := if status = stOk then d.each (d.bdy.held.filter mine) fun h d => d.shadowTake h.opcode h.entry else d
        let d := d.hifM fun h => { h with inflight := h.inflight.filter fun x => !(x.mirrored && x.op == 0x1003 && x.e.ring == ring && x.e.tag == tag) }
        let d := d.bdyM fun b => { b with
          lastStored := max b.lastStored seq
          stored := b.stored ++ [(seq, c)]
          held := b.held.filter fun h => !mine h
          txOpen := b.txOpen.filter fun x => !(kind == 1 && x.1 == ring && x.2 == index) && !(kind == 2 && x.1 == ring) }
        d.emit (.buddyMsg bmRecordAck [seq])
      | .fetch ring index entries seq =>
        let n := max 1 entries
        let old := AMap.getD d.bdy.fetchIdx ring (index + 2 * n - 1)
        let new := (indicesFrom n ((index + 2 * n - old % (2 * n)) % (2 * n)) old).map fun i => (ring, i)
        let d := d.bdyM fun b => { b with lastStored := max b.lastStored seq, fetchIdx := AMap.set b.fetchIdx ring index, txOpen := b.txOpen ++ new }
        d.emit (.buddyMsg bmRecordAck [seq])

/-- COMPLETION_RECORD_ACK: the completion is written; descriptors held for a fetch record may be dispatched. -/
def execCompletionRecordAck (dt seq : Nat) (s : State) : Host.Outcome State Fault Refusal :=
  s.actUp dt fun d =>
    let mine := d.bdy.own.filter fun o => o.seq == seq
    let d := d.bdyM fun b => { b with own := b.own.filter fun o => o.seq != seq }
    d.each mine fun o d =>
      match o with
      | .completion s k c => (d.deliver k c).bdyM fun b => { b with writtenMark := max b.writtenMark s }
      | .fetch _ _ _ => d

/-! ### Settlement of a pair (17 R536) -/

/-- PAIR_SETTLEMENT: 1 us after a bell, the period that the bell ended. -/
def execPairSettlement (dt : Nat) (s : State) : Host.Outcome State Fault Refusal :=
  s.actUp dt fun d =>
    if d.bdy.state == .paired then (d.reach (d.bel.lastAt + 4000)).settleUpTo (d.bel.seq - 1) else d

/-! ### Isolation (17 R543 to R545) -/

/-- LINK_HEARTBEATS_MISSED: at the bell at which the third one is missed. What was settled 1 us after a bell is settled at once. -/
def execLinkHeartbeatsMissed (dt : Nat) (s : State) : Host.Outcome State Fault Refusal :=
  s.actUp dt fun d =>
    if d.bdy.state == .paired && decide (3 ≤ d.bdy.linkMissed) && decide (d.bdy.missed < 3) && d.atBell then
      let d := (d.setPair .isolated).count (cDev 294) 1
      let d := d.bdyM fun b => { b with authority := b.index == 0, holdUntil := d.now + d.buf.holddown * qPerMs, backBells := 0 }
      (d.releaseOwn.freeJournalled (d.bdy.index == 0)).settleUpTo (d.bel.seq - 1)
    else d

/-- ISOLATED_HOLDDOWN_EXPIRY. -/
def execIsolatedHolddownExpiry (dt : Nat) (s : State) : Host.Outcome State Fault Refusal :=
  s.actUp dt fun d =>
    if d.bdy.holdUntil ≠ 0 ∧ d.bdy.state ≠ .paired then
      (((d.reach d.bdy.holdUntil).flushBuddyTx).dropOtherModule true).bdyM fun b => { b with holdUntil := 0 }
    else d

/-- ISOLATED_HEARTBEATS_BACK. -/
def execIsolatedHeartbeatsBack (dt : Nat) (s : State) : Host.Outcome State Fault Refusal :=
  s.actUp dt fun d => if d.bdy.state == .isolated && decide (3 ≤ d.bdy.backBells) && d.atBell then d.setPair .linked else d

/-! ### Take-over (17 R546, R547) -/

/-- TAKE_OVER: the instant of the bell has come at which the third heartbeat is missed. -/
def execTakeOver (dt : Nat) (s : State) : Host.Outcome State Fault Refusal := s.actUp dt fun d => d.inNextBell Dev.bellPair

/-- TAKEOVER_REPORT_WRITE. -/
def execTakeoverReportWrite (dt : Nat) (s : State) : Host.Outcome State Fault Refusal :=
  s.actUp dt fun d => if d.bdy.reportPending then Dev.writeReport (d.bdy.report.length + 1) d else d

/-! ### The cut-over of a rejoin (17 R549) -/

/-- REJOIN_CUTOVER: at the first bell after the copy and its backlog. -/
def execRejoinCutover (dt : Nat) (s : State) : Host.Outcome State Fault Refusal :=
  s.actUp dt fun d =>
    match d.bdy.rejoin with
    | none => d
    | some r =>
      if d.bdy.state != .syncing || !r.started || !d.atBell || d.rejoinHeld r then d
      else
        let d := if r.source then d else if r.restoreLocal then d.applyBacklog.restoreLocal r.restore else d.applyBacklog
        let d := d.bdyM fun b => { b with
          rejoin := none, authority := false, linkMissed := 0, missed := 0, holdUntil := 0, linkSeen := false, beatSeen := false
          held := b.held.filter d.stillOpen }
        let d := d.setPair .paired
        let d := if r.source then
            match d.cmdAt r.ring r.tag with
            | some c => (d.cmdM c fun c => { c with pos := c.total }).finishAt r.ring r.tag stOk 0
            | none => d
          else d
        d.protScan.buddyDrain

/-! ### The end of a pair (17 R550) -/

/-- UNPAIR_DRAINED. -/
def execUnpairDrained (dt : Nat) (s : State) : Host.Outcome State Fault Refusal :=
  s.actUp dt fun d =>
    if d.bdy.unpairDraining && d.bdy.txq.isEmpty && d.bdy.pairing.isNone && d.bdy.rejoin.isNone then
      let who := d.bdy.unpairing
      let d := (d.linkOff.loseAway.freeShadow.releaseOwn).freeJournalled true
      let d := d.bdyM fun b => { b with
        unpairDraining := false, unpairing := none, authority := false, held := [], stored := [], txOpen := [], fetchIdx := [], cmdMark := []
        summary := none, linkMissed := 0, missed := 0, holdUntil := 0 }
      let d := (d.setPair .off).protScan.cfgLook
      match who with
      | some (ring, tag) => d.finishAt ring tag stOk 0
      | none => d
    else d

end Sys2Proof.Machine
end

