-- ==== Sys2Proof/Machine/RowsStart.lean ====
section
/-! DEFINITION. Rows of the Proctor, resets and start-up (18 to 20): one meaning for each. -/

namespace Sys2Proof.Machine

/-! ### Firmware update (18 R565, R567) -/

/-- FIRMWARE_STAGED: every step has been taken; the update completes, with the first failure if there is one. -/
def execFirmwareStaged (dt : Nat) (s : State) : Host.Outcome State Fault Refusal :=
  s.actUp dt fun d =>
    match d.prc.update with
    | none => d
    | some u =>
      match d.cmdAt u.ring u.tag with
      | none => d
      | some c =>
        if c.held then d
        else
          let d := d.cmdM c fun c => { c with pos := c.total }
          let (k, d) := d.fresh
          let fault := imageFault u.image c.e.payload d.prc.rollback
          let d := d.loadTest fault.isNone
          match (match fault with | some r => some r | none => failsIf (!Config.flashGood k) 6) with
          | some r => d.bankSpoilt.updateEnds stFailed (r + ranApproved)
          | none =>
            let d := d.prcM fun p => { p.setInactive { valid := true, version := u.version, secVersion := u.secVersion, image := u.image } with
              activeBank := 1 - p.bank, staged := some (u.version, u.secVersion), activateAt := if u.activate then some (d.now + 10 * qPerMs) else p.activateAt }
            (d.audit 8 u.version u.secVersion).updateEnds stOk ranApproved

/-! ### Seals (18 R575 to R577) -/

/-- SEAL_DIGEST_CHECKED: the oldest seal whose image is computed. -/
def execSealDigestChecked (dt : Nat) (s : State) : Host.Outcome State Fault Refusal :=
  s.actUp dt fun d =>
    match d.prc.sealing.find? fun x => x.computed.isSome with
    | none => d
    | some x =>
      let y := x.computed.getD []
      let d := d.prcM fun p => { p with sealing := p.sealing.filter fun z => !(z.ring == x.ring && z.tag == x.tag) }
      if y = x.payload then
        (((d.prcM fun p => { p with sealed := x.scope, sealDigest := y }).audit 10 x.scope (digestHead y))).finishAt x.ring x.tag stOk ranApproved
      else (d.audit 12 x.scope (digestHead y)).finishAt x.ring x.tag stFailed ranApproved

/-! ### ERROR and zeroization (18 R562, R563, R578) -/

/-- NOISE_HEALTH_FAIL: test 8 or 9 of 18 R568. -/
def execNoiseHealthFail (dt test : Nat) (s : State) : Host.Outcome State Fault Refusal :=
  s.actUp dt fun d => d.when d.serves fun d => (d.count (cDev 317) 1).prcError test

/-- ZEROIZE_N_CHANGE: PRC_STATUS.zeroize_low follows; a high of at least 1 ms lets it qualify again (18 R578). -/
def execZeroizeNChange (dt : Nat) (low : Bool) (s : State) : Host.Outcome State Fault Refusal :=
  s.act dt fun d =>
    if d.prc.zeroizeLow == low then d
    else d.prcM fun p => { p with
      zeroizeLow := low
      zeroizeArmed := p.zeroizeArmed || (low && decide (p.zeroizeSince + qPerMs ≤ d.now))
      zeroizeSince := d.now }

/-- ZEROIZE_N_QUALIFIED: held low for 1 ms, in any Proctor state and during boot. -/
def execZeroizeNQualified (dt : Nat) (s : State) : Host.Outcome State Fault Refusal :=
  s.act dt fun d =>
    if d.prc.zeroizeLow && d.prc.zeroizeArmed then
      ((d.reach (d.prc.zeroizeSince + qPerMs)).prcM fun p => { p with zeroizeArmed := false }).zeroize true
    else d

/-! ### Stops (19 R588, 20 R606) -/

/-- RAIL_OUT_OF_TOLERANCE, by rail in the order of 19 R586. A module that a lost clock has stopped then waits for its supplies. -/
def execRailOutOfTolerance (dt rail : Nat) (s : State) : Host.Outcome State Fault Refusal :=
  s.act dt fun d => d.when (d.glb.part.hasRail rail) fun d =>
    (d.stopAll .supply).bootM fun b => { b with railsOut := rail :: b.railsOut.filter (· != rail), stopped := if b.stopped == .clock then .supply else b.stopped }

/-- REFCLK_LOSS, of REFCLK_SYS or REFCLK_AUX, while the module is processing. -/
def execRefclkLoss (dt : Nat) (_aux : Bool) (s : State) : Host.Outcome State Fault Refusal :=
  s.act dt fun d => d.when d.boot.clockOn fun d => d.stopAll .clock

/-- CLOCK_RESTORED: the module starts with cause power_on. -/
def execClockRestored (dt : Nat) (s : State) : Host.Outcome State Fault Refusal :=
  s.act dt fun d => d.when (d.boot.stopped == .clock && d.prc.zeroizing.isNone) fun d => d.coldReset causePowerOn

/-! ### Power-on and RESET_N -/

/-- POWER_ON: supplies rise, or return. A zeroization that runs absorbs it, one that has failed begins again. -/
def execPowerOn (dt : Nat) (flashSel : Bool) (flash : List FlashImage) (s : State) : Host.Outcome State Fault Refusal :=
  s.act dt fun d =>
    let start := fun (d : Dev) => (d.releaseTrip.flashPath flashSel flash).coldReset causePowerOn
    match d.prc.zeroizing with
    | none => start d
    | some z => if d.boot.eraseFirst then (start d).eraseAgain z else d

/-- RESET_PIN: a cold reset, where the supplies are good and no zeroization absorbs it. -/
def execResetPin (dt : Nat) (flashSel : Bool) (flash : List FlashImage) (s : State) : Host.Outcome State Fault Refusal :=
  s.act dt fun d =>
    if d.boot.stopped == .supply || d.prc.zeroizing.isSome then d
    else ((d.flashPath flashSel flash).coldReset causePin).pinsM fun p => { p with thermtripN := true }

/-! ### Warm resets -/

/-- WARM_RESET: the warm reset of a cause that a row before has asked for (19 R589, R592). -/
def execWarmReset (dt cause : Nat) (s : State) : Host.Outcome State Fault Refusal :=
  s.act dt fun d => d.when (d.boot.warmDue == some cause && d.boot.stopped == .no && d.glb.phase != 15 && d.prc.zeroizing.isNone) fun d => d.warmReset cause

/-- WATCHDOG_EXPIRY: a warm reset; at the third start in a row that does not reach phase 5, the module halts (19 R589, R597). -/
def execWatchdogExpiry (dt : Nat) (s : State) : Host.Outcome State Fault Refusal :=
  s.act dt fun d =>
    if d.boot.stopped != .no || d.glb.phase == 15 || d.prc.zeroizing.isSome then d
    else if d.inService then d.askWarm causeWatchdog
    else
      let d := d.bootM fun b => { b with watchdogs := b.watchdogs + 1 }
      if 3 ≤ d.boot.watchdogs then d.halt 6 else d.askWarm causeWatchdog

/-- FIRMWARE_ACTIVATION: 10 ms after the completion of an activating update; cold when the major version differs (18 R567, 19 R589). -/
def execFirmwareActivation (dt : Nat) (s : State) : Host.Outcome State Fault Refusal :=
  s.act dt fun d =>
    match d.prc.activateAt with
    | some t =>
      let v := match d.prc.staged with | some x => x.1 | none => d.glb.fwVersion
      if d.boot.stopped != .no || d.glb.phase == 15 || d.prc.zeroizing.isSome then d
      else
        let d := (d.reach t).prcM fun p => { p with activateAt := none }
        if v / 2 ^ 24 = d.glb.fwVersion / 2 ^ 24 then d.askWarm causeFwUpdate else d.coldReset causeFwUpdate
    | none => d

/-! ### PCI Express (19 R589, 20 R606) -/

/-- PERST_ASSERT: PERST_N low, a hot reset or link-down. -/
def execPerstAssert (dt : Nat) (s : State) : Host.Outcome State Fault Refusal := s.act dt fun d => d.linkDown

/-- REFCLK_PCIE_LOSS. -/
def execRefclkPcieLoss (dt : Nat) (s : State) : Host.Outcome State Fault Refusal := s.act dt fun d => d.linkDown

/-! ### The end of zeroization (18 R564, R578) -/

/-- ZEROIZE_ATTEMPT_DONE. -/
def execZeroizeAttemptDone (dt : Nat) (verified : Bool) (s : State) : Host.Outcome State Fault Refusal :=
  s.act dt fun d =>
    match d.prc.zeroizing with
    | none => d
    | some z =>
      if 3 ≤ z.attempts then d
      else if verified then
        let d := ((d.prcM Prc.erased).audit 14 (b2n z.contact) z.began).zeroizeEnds z stOk
        (d.bootM fun b => { b with eraseFirst := false }).coldReset causeZeroize
      else
        let z : Zeroizing := { z with attempts := z.attempts + 1 }
        let d := d.prcM fun p => { p with zeroizing := some z }
        if 3 ≤ z.attempts then
          (((d.zeroizeEnds z stFailed).halt 8).loseFrames).bootM fun b => { b with eraseFirst := true, stopped := .erase }
        else d

/-! ### Start-up (19 R594 to R597) -/

/-- CORE_CLOCK_STABLE: phase 0 ends; in a warm start the bells have run on. -/
def execCoreClockStable (dt : Nat) (ok : Bool) (s : State) : Host.Outcome State Fault Refusal :=
  s.act dt fun d =>
    if !d.inPhase 0 then d
    else if !ok then d.halt 2
    else
      let d := if d.boot.clockOn then d else d.firstBell.bootM fun b => { b with clockOn := true }
      if d.pins.flashSelHeld then d else d.glbM fun g => { g with phase := 1 }

/-- FLASH_SEL_RELEASE: FLASH_SEL_N has been high for 1 ms, and start-up leaves phase 0 (20 R609). -/
def execFlashSelRelease (dt : Nat) (s : State) : Host.Outcome State Fault Refusal :=
  s.act dt fun d =>
    let held := d.pins.flashSelHeld
    let d := d.pinsM fun p => { p with flashSelHeld := false }
    d.when (held && d.inPhase 0 && d.boot.clockOn) fun d => d.glbM fun g => { g with phase := 1 }

/-- FIRMWARE_VERIFIED: the boot ROM has found a valid bank, or none (18 R562, R565), where that is what the row says. -/
def execFirmwareVerified (dt bank : Nat) (good : Bool) (s : State) : Host.Outcome State Fault Refusal :=
  s.act dt fun d =>
    if d.inPhase 1 = false ∨ d.prc.bootBank ≠ (if good then some bank else none) then d
    else if good then
      let b := d.prc.bankAt bank
      let d := d.glbM fun g => { g with phase := 2, fwVersion := b.version }
      let d := d.prcM fun p => { p with bank, running := b.secVersion, staged := none, passed := setBit p.passed 0 true }
      (d.audit 1 b.version (bank + b.secVersion * 256)).setPrc .selftest
    else d.halt 1

/-- SELFTESTS_DONE: tests 2 to 7 pass, or one fails and the Proctor enters ERROR; start-up goes on (18 R566, R568, 19 R594). -/
def execSelftestsDone (dt failed ms : Nat) (s : State) : Host.Outcome State Fault Refusal :=
  s.act dt fun d =>
    if !d.inPhase 2 then d
    else
      let d := (d.prcM fun p => { p with powerUpMs := satTo 4095 ms }).glbM fun g => { g with phase := 3 }
      if failed = 0 then
        let d := d.prcM fun p => { p with failed := 0, passed := if p.identity then 127 else 63 }
        let d := (d.audit 2 (ms * 1000) 0).setPrc (if d.prc.identity then .operational else .zeroized)
        if d.prc.rollback < d.prc.running then (d.prcM fun p => { p with rollback := p.running }).audit 9 d.prc.running 0 else d
      else
        let t := clamp 2 7 failed
        let d := d.prcM fun p => { p with failed := t, passed := 2 ^ (t - 1) - 1 }
        (d.audit 3 t 0).setPrc .error

/-- MEMORY_INIT_DONE: units that failed BIST by unit kind and number; a warm start runs none and has no training to do. -/
def execMemoryInitDone (dt : Nat) (failed : List (Nat × Nat)) (s : State) : Host.Outcome State Fault Refusal :=
  s.act dt fun d =>
    let banks := bistUnits failed 3 68
    let tables := bistUnits failed 6 256
    let pipes := (bistUnits failed 5 17).filter fun p => decide (p < d.glb.part.pipelines) || p == 16
    if !d.inPhase 3 then d
    else if d.boot.warm then d.toPhase5
    else if 4 < banks.length then d.halt 3
    else if 16 < tables.length then d.halt 4
    else if 1 < pipes.length then d.halt 5
    else
      let d := d.each banks fun u d => d.bistFail 3 u banks
      let d := d.each tables fun u d => d.bistFail 6 u tables
      let d := d.each pipes fun u d => d.bistFail 5 u pipes
      (d.glbM fun g => { g with phase := 4 }).drcM fun r => { r with training := true }

/-- DRC_TRAINING_DONE: channels are mapped, and the host interface is ready (10 R359, R360, 19 R594). -/
def execDrcTrainingDone (dt : Nat) (ts : List LaneTrain) (s : State) : Host.Outcome State Fault Refusal :=
  s.act dt fun d => d.when (d.inPhase 4) fun d => (d.drcTrained ts).toPhase5

end Sys2Proof.Machine
end

