-- ==== Sys2Proof/Machine/RowsStores.lean ====
section
/-! DEFINITION. Rows of the far store and the governor (10, 11): one meaning for each. -/

namespace Sys2Proof.Machine

/-! ### Quarantine and repair (10 R367) -/

/-- PPR_DONE: a quarantined row whose page nobody holds has been mapped onto a spare row (10 R367). -/
def execPprDone (dt chan bank row : Nat) (s : State) : Host.Outcome State Fault Refusal :=
  s.actUp dt fun d =>
    let page := d.pageAt chan bank row
    if !(d.chan chan).quarantined.contains (rowKey bank row) || (match page with | some p => d.pageHeld p || d.drc.keptBad.contains p | none => false) then d
    else
      let d := d.chanM chan fun c => { c with
        quarantined := c.quarantined.filter fun k => k != rowKey bank row
        poison := c.poison.filter fun k => k / 64 != rowKey bank row
        sparesUsed := AMap.upd c.sparesUsed bank 0 (· + 1) }
      (d.stackM (chan / 34) fun s => { s with repaired := s.repaired + 1 }).post 0x0D08 [.index chan, .index bank, .index row]

/-! ### Rows -/

/-- DRAM_READ_RETURN. -/
def execDramReadReturn (dt : Nat) (at_ : BurstAt) (client : DrcClient) (r : EccOutcome) (s : State) : Host.Outcome State Fault Refusal :=
  s.actUp dt fun d => d.when (d.chanLive at_.chan && !((d.stack (at_.chan / 34)).panic && suspended client)) fun d => d.readReturn at_ client r false

/-- SCRUB_READ: paused with the background pool, and in panic (10 R355, R366). -/
def execScrubRead (dt : Nat) (at_ : BurstAt) (r : EccOutcome) (s : State) : Host.Outcome State Fault Refusal :=
  s.actUp dt fun d =>
    d.when (d.chanLive at_.chan && (d.chan at_.chan).state != .retraining && !(d.stack (at_.chan / 34)).panic && !d.bgPaused && burstKey at_ == (d.chan at_.chan).scrubbed) fun d =>
      ((d.scrubTurn at_.chan).serveNow at_.chan (burstReq at_ 7 false)).scrub at_ r

/-- REFRESH_DUE: an interval of a bank has passed (10 R357). -/
def execRefreshDue (dt chan bank : Nat) (pending : Bool) (s : State) : Host.Outcome State Fault Refusal :=
  s.actUp dt fun d =>
    d.when (d.chanLive chan && decide (bank < 32)) fun d =>
      let d := d.reach (AMap.getD (d.chan chan).refreshDue bank 0)
      let owed := AMap.getD (d.chan chan).owed bank 8
      let (k, d) := d.fresh
      let n := refreshes owed pending (Config.openValue k)
      let d := d.when (decide (16 ≤ owed)) fun d => d.count (cStack (chan / 34) 1) 1
      (d.refreshN chan bank n).chanM chan fun c => { c with
        owed := AMap.set c.owed bank (owed + 1 - n), refreshDue := AMap.set c.refreshDue bank (d.now + d.refreshSpan chan) }

/-- STACK_TEMPERATURE_CHANGE: hot from 85 °C, no longer below 83 °C (10 R358). -/
def execStackTemperatureChange (dt stack temp : Nat) (s : State) : Host.Outcome State Fault Refusal :=
  s.actUp dt fun d =>
    d.when (decide (stack < d.glb.part.stacks)) fun d =>
      let was := (d.stack stack).hot
      let hot := if was then decide (83 ≤ temp) else decide (85 ≤ temp)
      let d := d.stackM stack fun x => { x with temp := satTo 255 temp, hot }
      d.when (hot != was) fun d => d.post 0x0D04 [.index stack, .value temp]

/-- CHANNEL_RETRAIN_DONE. -/
def execChannelRetrainDone (dt stack slot : Nat) (ts : List LaneTrain) (s : State) : Host.Outcome State Fault Refusal :=
  s.actUp dt fun d => if (d.retrain stack slot).phase = 4 ∧ slot < 2 then d.retrainEnds stack slot ts else d

/-! ### Rows -/

/-- GOV_STEP_DESCEND: at a bell, after which `hold_bells` low-energy bells have passed (11 R382). -/
def execGovStepDescend (dt : Nat) (s : State) : Host.Outcome State Fault Refusal :=
  s.actUp dt fun d =>
    if d.gov.descends ∧ d.atBell then
      let d := d.setStep (d.gov.step - 1) 0
      let d := d.when (decide (d.gov.step < 5)) fun d => (d.govM fun g => { g with beBudget := 0 }).setBeHold false
      d.when (decide (d.gov.step < 3)) fun d =>
        (d.drcM fun r => { r with drainLimit := 0 }).each (d.buf.queues.map (·.1)) fun q d => d.spillStep q
    else d

/-- FLOOR_MISMATCH_HELD: at the third bell of a mismatch (11 R376). -/
def execFloorMismatchHeld (dt : Nat) (s : State) : Host.Outcome State Fault Refusal :=
  s.actUp dt fun d =>
    if 3 ≤ d.gov.mmBells ∧ d.gov.mmPosted = false ∧ d.atBell then
      (d.govM fun g => { g with mmPosted := true }).post 0x0E05 [.value d.gov.envelope, .value d.gov.floor]
    else d

/-- THERMAL_TRIP: a junction reaches 120 °C, and all processing stops, in phase 15 with halt code 0x07 (11 R386, 19 R597). -/
def execThermalTrip (dt site : Nat) (s : State) : Host.Outcome State Fault Refusal :=
  s.act dt fun d =>
    if d.boot.stopped == .no then
      let d := ((d.govM fun g => { g with site, tj := max 120 g.tj }).pinsM fun p => { p with thermtripN := false }).loseFrames
      (d.glbM fun g => { g with phase := 15, haltCode := 7, hifReady := false }).bootM fun b => { b with stopped := .trip }
    else d

/-- RAIL_CURRENT_LIMIT: the core current of a quadrant reaches its limit (11 R386). -/
def execRailCurrentLimit (dt quadrant amps : Nat) (s : State) : Host.Outcome State Fault Refusal :=
  s.actUp dt fun d =>
    if quadrant < d.glb.part.quads ∧ (d.quad quadrant).limit ≤ amps then
      let was := (d.quad quadrant).limited
      let d := d.quadM quadrant fun x => { x with amps, limited := true }
      d.when (!was) fun d => ((d.count (cQuad quadrant 0) 1).post 0x0E04 [.index quadrant, .value amps]).flowAgain fun n => portQuad n == quadrant
    else d

/-- AVS_EVALUATION: the target voltages that the oscillators ask for, in mV by quadrant (11 R391). -/
def execAvsEvaluation (dt : Nat) (targets : List Nat) (s : State) : Host.Outcome State Fault Refusal :=
  s.actUp dt fun d =>
    let d := d.reach (d.gov.avsAt + d.gov.avsUs * 4000)
    (d.govM fun g => { g with avsAt := d.now }).each (List.range (min d.glb.part.quads targets.length)) fun q d => d.avsQuad q (nth targets q 0)

/-- AVS_TRANSACTION_FAIL: three attempts have failed; the rail is taken to stand where it last acknowledged (11 R393). -/
def execAvsTransactionFail (dt quadrant : Nat) (s : State) : Host.Outcome State Fault Refusal :=
  s.actUp dt fun d =>
    d.when (decide (quadrant < d.glb.part.quads)) fun d =>
      ((d.quadM quadrant fun x => { x with avsFault := true, mv := x.acked }).count (cQuad quadrant 2) 1).post 0x0E07 [.index quadrant]

end Sys2Proof.Machine
end

