-- ==== Sys2Proof/Machine/RowsTime.lean ====
section
/-! DEFINITION. Rows of the bells, network time and PTP (01, 02): one meaning for each. -/

namespace Sys2Proof.Machine

/-! ### Items of the bell (01 R28) -/

/-- BELL. Bells run once the core clock is stable, and until processing stops (01 R18). -/
def execBell (dt : Nat) (b : BellInput) (s : State) : Host.Outcome State Fault Refusal :=
  s.act dt fun d =>
    if d.boot.clockOn && d.boot.stopped == .no then
      let d := d.bellRings.timeSteps
      (d.when d.inService fun d => d.bellItems b).nextBell
    else d

/-! ### Rows: servo -/

/-- SAMPLE_TIMEOUT (02 R65). -/
def execSampleTimeout (dt : Nat) (s : State) : Host.Outcome State Fault Refusal :=
  s.actUp dt fun d =>
    if d.tim.servo.srcKind = 0 then d
    else
      let d := d.reach (d.tim.servo.since + d.tim.sampleTimeout * qPerMs)
      let d := d.servoM fun s => { s with sourceValid := false, since := d.now, lockRun := 0, unlockRun := 0, regainRun := if s.regainRun < 1000 then 0 else s.regainRun }
      match d.tim.servo.state with
      | .acquiring => d.servoTo (if d.tim.servo.everLocked then .holdover else .freerun) 0
      | .locked => d.servoTo .holdover 0
      | _ => d

/-- HOLDOVER_LIMIT (02 R65, R68). -/
def execHoldoverLimit (dt : Nat) (s : State) : Host.Outcome State Fault Refusal :=
  s.actUp dt fun d =>
    if d.tim.servo.state = .holdover ∧ d.tim.holdoverLimit ≠ 0 then
      (d.reach (d.tim.servo.holdSince + d.tim.holdoverLimit * qPerS)).servoTo .freerun 0
    else d

/-! ### Rows: pins (02 R72 to R74) -/

/-- PPS_OUT_RISE (02 R72). -/
def execPpsOutRise (dt : Nat) (s : State) : Host.Outcome State Fault Refusal :=
  s.actUp dt fun d =>
    if d.tim.ppsOutEn then
      let k := d.nextSecond
      let d := d.reach (((k * 4000000000 : Nat) : Int) - d.tim.ppsOutOfs * 4).toNat
      (d.pinsM fun p => { p with ppsOut := true }).timM fun t => { t with ppsSecond := k, ppsRiseAt := d.now }
    else d

/-- PPS_OUT_FALL (02 R72). -/
def execPpsOutFall (dt : Nat) (s : State) : Host.Outcome State Fault Refusal :=
  s.actUp dt fun d =>
    if d.pins.ppsOut then (d.reach (d.tim.ppsRiseAt + d.tim.ppsWidth * qPerMs)).pinsM fun p => { p with ppsOut := false } else d

/-- PPS_IN_EDGE (02 R63, R73): the time-of-day seconds, where accepted, else the nearest whole second. -/
def execPpsInEdge (dt : Nat) (s : State) : Host.Outcome State Fault Refusal :=
  s.actUp dt fun d =>
    if d.tim.ppsInEn then
      let d := d.timM fun t => { t with ppsInTs := d.now, ppsInAt := d.now, ppsInSeen := true, todSeconds := t.todSeconds.map (· + 1) }
      if d.tim.servo.srcKind = 2 then
        let x : Int := ((d.now : Nat) : Int) - d.tim.ppsInOfs * 4
        let whole : Int := match (if d.tim.todRx then d.tim.todSeconds else none) with
          | some k => ((k : Nat) : Int)
          | none => divFloor (x + 2000000000) 4000000000
        d.servoSample (q16 (x - whole * 4000000000))
      else d
    else d

/-- PPS_IN_MISSING (02 R73). -/
def execPpsInMissing (dt : Nat) (s : State) : Host.Outcome State Fault Refusal :=
  s.actUp dt fun d =>
    if d.tim.ppsInEn && d.tim.ppsInSeen then
      ((d.reach (d.tim.ppsInAt + 1500 * qPerMs)).timM fun t => { t with ppsInSeen := false }).post 0x0404 [.wide d.tim.ppsInTs]
    else d

/-- TOD_LINE_TX (02 R74). -/
def execTodLineTx (dt : Nat) (s : State) : Host.Outcome State Fault Refusal :=
  s.actUp dt fun d =>
    if d.tim.todTx && d.tim.ppsOutEn then
      let d := d.reach (d.tim.ppsRiseAt + qPerMs)
      d.emit (.todLine d.todLine)
    else d

/-- TOD_LINE_RX (02 R74): the line has ended now. -/
def execTodLineRx (dt : Nat) (line : List Byte) (s : State) : Host.Outcome State Fault Refusal :=
  s.actUp dt fun d =>
    if d.tim.todRx && d.tim.ppsInSeen && decide (d.now ≤ d.tim.ppsInAt + 900 * qPerMs) then
      match todSecondsOf line with
      | some k => d.timM fun t => { t with todSeconds := some k }
      | none => d
    else d

/-! ### Rows: SyncE (02 R69, R70) -/

/-- SYNCE_LANE_LOSS (02 R69). -/
def execSynceLaneLoss (dt : Nat) (s : State) : Host.Outcome State Fault Refusal :=
  s.actUp dt fun d => if d.tim.syncEn then d.eecTo 2 else d

/-- EEC_LOCKED (02 R69): not out of holdover, which only a new selection ends. -/
def execEecLocked (dt : Nat) (s : State) : Host.Outcome State Fault Refusal :=
  s.actUp dt fun d => if d.tim.syncEn && d.tim.syncState == 0 then d.eecTo 1 else d

/-! ### Messages received -/

/-- SYNC_RX (02 R63). -/
def execSyncRx (dt : Nat) (m : SyncMsg) (s : State) : Host.Outcome State Fault Refusal :=
  s.actUp dt fun d =>
    let p := (d.timPort m.port).asOf m.rxRef
    if !d.portExists m.port || p.role == 0 then d
    else
      let d := d.count (cPort m.port 0) 1
      if p.role ≠ 2 || !d.engineWith m.port p || d.otherDomain 0 m.domain then d.puntPtp m.port m.rxRef m.data
      else
        let sv := d.tim.servo
        if sv.srcKind = 1 ∧ sv.srcPort = m.port ∧ sv.parentClock = m.clockId ∧ sv.parentPort = m.portNum then
          let diff := q16 ((d.rxTime m.port m.rxRef : Nat) : Int) - q16 ((m.t1 : Nat) : Int) - m.corr
          let d := d.timPortM m.port fun p => { p with syncDiff := some diff }
          d.servoSample (diff - (d.meanD m.port).getD 0 - q16 p.asym)
        else d.count (cPort m.port 3) 1

/-- DELAY_REQ_RX (02 R56): answered on a role-1 port. -/
def execDelayReqRx (dt : Nat) (m : DelayReq) (s : State) : Host.Outcome State Fault Refusal :=
  s.actUp dt fun d =>
    let p := (d.timPort m.port).asOf m.rxRef
    if !d.portExists m.port || p.role == 0 then d
    else
      let d := d.count (cPort m.port 0) 1
      if d.engineWith m.port p && p.role == 1 && !d.otherDomain 1 m.domain then
        d.queuePtp m.port { kind := .delayResp, seq := m.seq, ts := d.rxTime m.port m.rxRef, corr := m.corr, reqClock := m.clockId, reqPort := m.portNum }
      else d.puntPtp m.port m.rxRef m.data

/-- DELAY_RESP_RX (02 R63): completes the exchange of the Delay_Req it answers. -/
def execDelayRespRx (dt : Nat) (m : DelayResp) (s : State) : Host.Outcome State Fault Refusal :=
  s.actUp dt fun d =>
    let p := (d.timPort m.port).asOf m.rxRef
    if !d.portExists m.port || p.role == 0 then d
    else if !d.engineWith m.port p || p.role ≠ 2 || p.p2p || d.otherDomain 9 m.domain then d.puntPtp m.port m.rxRef m.data
    else
      match p.delayReq, p.syncDiff with
      | some (sq, t3), some diff =>
        if sq = m.seq then
          (d.timPortM m.port fun p => { p with delayReq := none }).delaySample m.port
            (diff + (q16 ((m.t4 : Nat) : Int) - q16 ((t3 : Nat) : Int) - m.corr))
        else d
      | _, _ => d

/-- PDELAY_REQ_RX (02 R56): answered on a port with peer delay. -/
def execPdelayReqRx (dt : Nat) (m : DelayReq) (s : State) : Host.Outcome State Fault Refusal :=
  s.actUp dt fun d =>
    let p := (d.timPort m.port).asOf m.rxRef
    if !d.portExists m.port || p.role == 0 then d
    else
      let d := d.count (cPort m.port 0) 1
      if d.engineWith m.port p && (p.role == 1 || p.role == 2) && p.p2p && !d.otherDomain 2 m.domain then
        d.queuePtp m.port { kind := .pdelayResp, seq := m.seq, ts := d.rxTime m.port m.rxRef, corr := m.corr, reqClock := m.clockId, reqPort := m.portNum }
      else d.puntPtp m.port m.rxRef m.data

/-- PDELAY_RESP_RX (02 R54): twice the delay is the time between request and answer less the partner's turnaround. -/
def execPdelayRespRx (dt : Nat) (m : DelayResp) (s : State) : Host.Outcome State Fault Refusal :=
  s.actUp dt fun d =>
    let p := (d.timPort m.port).asOf m.rxRef
    if !d.portExists m.port || p.role == 0 then d
    else
      let d := d.count (cPort m.port 0) 1
      if !d.engineWith m.port p || p.role == 3 || !p.p2p || d.otherDomain 3 m.domain then d.puntPtp m.port m.rxRef m.data
      else
        match p.pdelayReq with
        | some (sq, t1) =>
          if sq = m.seq then
            (d.timPortM m.port fun p => { p with pdelayReq := none }).delaySample m.port
              (q16 ((d.rxTime m.port m.rxRef : Nat) : Int) - q16 ((t1 : Nat) : Int) - m.corr)
          else d
        | none => d

/-! ### Intervals (02 R56) -/

/-- SYNC_TX_TIMER (02 R56). -/
def execSyncTxTimer (dt port : Nat) (s : State) : Host.Outcome State Fault Refusal :=
  s.actUp dt fun d =>
    let p := d.timPort port
    if d.engine port && p.role == 1 then
      let d := d.intervalEnds p.syncAt p.logSync
      (d.timPortM port fun p => { p with seqSync := (p.seqSync + 1) % 65536, syncAt := d.now }).queuePtp port { kind := .sync, seq := p.seqSync }
    else d

/-- DELAY_REQ_TX_TIMER (02 R56). -/
def execDelayReqTxTimer (dt port : Nat) (s : State) : Host.Outcome State Fault Refusal :=
  s.actUp dt fun d =>
    let p := d.timPort port
    if d.engine port && p.role == 2 && !p.p2p then
      let d := d.intervalEnds p.delayReqAt p.logDelayReq
      (d.timPortM port fun p => { p with seqDelayReq := (p.seqDelayReq + 1) % 65536, delayReqAt := d.now }).queuePtp port { kind := .delayReq, seq := p.seqDelayReq }
    else d

/-- PDELAY_REQ_TX_TIMER (02 R56). -/
def execPdelayReqTxTimer (dt port : Nat) (s : State) : Host.Outcome State Fault Refusal :=
  s.actUp dt fun d =>
    let p := d.timPort port
    if d.engine port && (p.role == 1 || p.role == 2) && p.p2p then
      let d := d.intervalEnds p.pdelayReqAt p.logPdelayReq
      (d.timPortM port fun p => { p with seqPdelayReq := (p.seqPdelayReq + 1) % 65536, pdelayReqAt := d.now }).queuePtp port
        { kind := .pdelayReq, seq := p.seqPdelayReq }
    else d

end Sys2Proof.Machine
end

