-- ==== Sys2Proof/Machine/RowsZuben.lean ====
section
/-! DEFINITION. Rows of Zuben lanes, FlexE and the timetable (04, 05): one meaning for each. -/

namespace Sys2Proof.Machine

/-! ### One received frame -/

/-- ZUBEN_FRAME_RX: a frame has arrived whole on a lane index. -/
def execZubenFrameRx (dt lane : Nat) (z : ZFrame) (s : State) : Host.Outcome State Fault Refusal :=
  s.actUp dt fun d =>
    if isBuddyIx lane then d.when ((d.lane lane).state == .up && (d.zlane lane).align == .sync) fun d => d.buddyLaneFrame lane z
    else
      match d.carried lane with
      | some l => if d.isZuben l && d.laneUp l && (d.zlane l).align == .sync then (d.zubenFrame l z).wornFrame l z else d
      | none => if 1024 ≤ lane then (d.bridgeSeen (lane - 1024) z).spareFrame lane z else d

/-! ### Alignment rows (04 R142, R143, R146) -/

/-- CANDIDATE_CREATED (04 R142): block b of the hunt and the three after it, z, may begin a frame. The MFC of the frame there counts
for R144 where that frame is good. -/
def execCandidateCreated (dt lane block : Nat) (z : ZFrame) (s : State) : Host.Outcome State Fault Refusal :=
  s.actUp dt fun d =>
    match d.huntKey lane with
    | some l =>
      if (d.lane lane).state ≠ .up ∨ (d.zlane l).align = .sync ∨ z.wordOk = false then d
      else if (d.zlane l).candidates.length < 4 then
        (d.zlaneM l fun x => { x with align := .presync, candidates := x.candidates ++ [{ block, mfc := z.mfc, inSeq := z.good }] }).countLane lane 6
      else d.countLane lane 7
    | none => d

/-- CANDIDATE_CHECK: a block of the hunt at which the candidate created at block born is checked, with the frame z that starts there
(04 R142). -/
def execCandidateCheck (dt lane born block : Nat) (z : ZFrame) (s : State) : Host.Outcome State Fault Refusal :=
  s.actUp dt fun d =>
    match d.huntKey lane with
    | some l =>
      match (d.zlane l).candidates.find? fun c => c.block == born && c.next == block with
      | some c =>
        if z.good then
          let inSeq := c.inSeq && z.mfc == (c.mfc + 1) % 32
          if 2 ≤ c.count then d.enterSync l z inSeq
          else d.zlaneM l fun x => { x with
            candidates := x.candidates.map fun y => if y.block = c.block then { y with count := y.count + 1, mfc := z.mfc, inSeq } else y }
        else
          d.zlaneM l fun x =>
            let rest := x.candidates.filter fun y => y.block != c.block
            { x with candidates := rest, align := if rest.isEmpty then .hunt else x.align }
      | none => d
    | none => d

/-- SYNC_LOSS: five bad frames in a row (04 R143). -/
def execSyncLoss (dt lane : Nat) (s : State) : Host.Outcome State Fault Refusal :=
  s.actUp dt fun d =>
    match d.carried lane with
    | some l => if d.isZuben l && (d.zlane l).align == .sync && decide (5 ≤ (d.zlane l).badRun) then d.leaveSync l else d
    | none => d.when (isBuddyIx lane && (d.zlane lane).align == .sync && decide (5 ≤ (d.zlane lane).badRun)) fun d => d.buddyLosesSync lane

/-- BIP_WINDOW_END: a complete window clears its defect if it held at most one error, and the next begins (04 R146). -/
def execBipWindowEnd (dt lane : Nat) (sf : Bool) (s : State) : Host.Outcome State Fault Refusal :=
  s.actUp dt fun d =>
    match if isBuddyIx lane then some lane else d.carried lane with
    | some l =>
      let w := if sf then (d.zlane l).sf else (d.zlane l).sd
      if !(d.isZuben l || isBuddyIx l) || decide (w.frames < windowFrames w.exp) then d
      else
        let next : BipWindow := { exp := if sf then 3 else (d.zlane l).sdExp, raised := w.raised && decide (1 < w.errors) }
        (d.zlaneM l fun z => if sf then { z with sf := next } else { z with sd := next }).superviseLane l
    | none => d

/-- LANE_LINK_LOSS: a lane in UP loses signal, block lock or alignment, and its port leaves UP (03 R91, R107). -/
def execLaneLinkLoss (dt lane : Nat) (s : State) : Host.Outcome State Fault Refusal :=
  s.actUp dt fun d =>
    if (d.lane lane).state = .up then
      let port := (d.carried lane).map fun l => (d.lane l).port
      let d := d.laneTo lane .waitSignal fun x => { x with signal := false, cdrLock := false, blockLock := false, adapting := false }
      match port with
      | some n => d.linkLost n
      | none => d
    else d

/-- HANDSHAKE_ACK_DEADLINE: one frame time before T no ACK has come (04 R137). -/
def execHandshakeAckDeadline (dt lane : Nat) (s : State) : Host.Outcome State Fault Refusal :=
  s.actUp dt fun d =>
    if (d.zlane lane).hs = .requesting ∧ (d.zlane lane).reqSent = true then
      (d.reach (d.tagInstant (d.zlane lane).hsTag - (frameTime : Int)).toNat).hsFail lane 2
    else d

/-- NAK_SENT_THREE (04 R137). -/
def execNakSentThree (dt lane : Nat) (s : State) : Host.Outcome State Fault Refusal :=
  s.actUp dt fun d =>
    if (d.zlane lane).hs = .naking ∧ (d.zlane lane).naksLeft = 0 then (d.zlaneM lane ZLane.hsIdle).startRequest lane else d

/-- PAGE_MISMATCH_HELD: at three consecutive bells (04 R141). -/
def execPageMismatchHeld (dt lane : Nat) (s : State) : Host.Outcome State Fault Refusal :=
  s.actUp dt fun d =>
    let z := d.zlane lane
    if d.isZuben lane && decide (3 ≤ z.pageBells) && !z.pagePosted && d.atBell then
      (d.zlaneM lane fun z => { z with pagePosted := true }).post 0x0704 [.index lane, .code (b2n (d.ttbLane lane).active), .code (b2n z.activeRx)]
    else d

/-- RX_MISMATCH_HELD: at three consecutive bells (05 R172). -/
def execRxMismatchHeld (dt lane : Nat) (s : State) : Host.Outcome State Fault Refusal :=
  s.actUp dt fun d =>
    let t := d.ttbLane lane
    if d.isZuben lane && decide (3 ≤ t.mmBells) && !t.mmPosted && d.atBell then
      (d.ttbLaneM lane fun t => { t with mmPosted := true }).post 0x0806 [.index lane, .set t.rxMismatch]
    else d

/-- MGMT_FRAME_RX: the oldest frame that the management channel has brought between two flags is looked at, where it is the one that the
row names (04 R153). -/
def execMgmtFrameRx (dt lane : Nat) (content : List Byte) (good : Bool) (s : State) : Host.Outcome State Fault Refusal :=
  s.actUp dt fun d =>
    match (d.zlane lane).mgmtIn with
    | raw :: r =>
      if d.isZuben lane = true ∧ mgmtContent raw = (if good then some content else none) then
        let d := d.zlaneM lane fun z => { z with mgmtIn := r }
        if good then
          (d.count (cLane lane 10) 1).deliverRx d.zbn.mgmtRing { frameLen := content.length, port := lane, module := d.module, reason := 12 } content
        else d.count (cLane lane 11) 1
      else d
    | [] => d

/-- BUDDY_CONTAINER_RX: blocks of a protection copy that the buddy forwards (17 R534, 05 R181), and the conditions of their slot there
(05 R177). The blocks arrive one slot position after another. -/
def execBuddyContainerRx (dt : Nat) (k : BuddyContainer) (s : State) : Host.Outcome State Fault Refusal :=
  s.actUp dt fun d =>
    let p := d.prot k.index
    if p.wired && p.buddy && d.bdy.linkUp then
      let bs : List PBlock := k.blocks.zipIdx.map fun b => { block := b.1, seen := d.now + blockTime (20 * b.2), valid := !k.bad && b.1 != aisBlock }
      ((d.protM k.index fun p => { p.pushP bs with buddyCond := k.cond }).protRefresh k.index).protAlign k.index
    else d

/-! ### The overhead (04 R125) -/

/-- ZUBEN_FRAME_TX: the lanes of a Zuben port begin a frame. -/
def execZubenFrameTx (dt port : Nat) (s : State) : Host.Outcome State Fault Refusal :=
  s.actUp dt fun d => if (d.port port).state != .absent && (d.port port).framing == 1 then d.zubenSend port else d

/-- MGMT_FRAME_SENT: the closing flag of the first queued frame has been sent (04 R161). -/
def execMgmtFrameSent (dt lane : Nat) (s : State) : Host.Outcome State Fault Refusal :=
  s.actUp dt fun d =>
    match (d.zlane lane).mgmt with
    | m :: r =>
      if (d.zlane lane).mgmtPos < (hdlcBytes m.2.2.1).length then d
      else
        let d := (d.zlaneM lane fun z => { z with mgmt := r, mgmtPos := 0 }).emit (.mgmt lane m.2.2.1)
        d.finishAt m.1 m.2.1 stOk 0
    | [] => d

/-! ### Performance monitoring (04 R150, R151) -/

/-- PM_SECOND: the second before the instant has ended. -/
def execPmSecond (dt : Nat) (s : State) : Host.Outcome State Fault Refusal :=
  s.actUp dt fun d =>
    let sec := d.now / qPerS - 1
    d.each d.zubenLanes fun l d =>
      let d := (d.pmNote l).zlaneM l fun z => { z with pm := d.pmSecondOf sec (d.pmNote l |>.zlane l).pm }
      -- the second that begins sees the defects as they are
      d.pmNote l

/-- PM_BIN_CLOSE: the last bell rang at the boundary plus 10 s or later (04 R151). -/
def execPmBinClose (dt : Nat) (day : Bool) (s : State) : Host.Outcome State Fault Refusal :=
  s.actUp dt fun d =>
    d.each d.zubenLanes fun l d =>
      let p := (d.zlane l).pm
      let cur := if day then p.cur24 else p.cur15
      d.when (cur.valid && decide ((cur.start + binLen day + 10) * qPerS ≤ d.bel.lastAt)) fun d =>
        (d.zlaneM l fun z => { z with pm := z.pm.close day }).post 0x0707 [.index l, .code (b2n day), .code (b2n cur.suspect)]

/-! ### FlexE (04 R154, R155, R162) -/

/-- FLEXE_CALENDAR_SWITCH: the acknowledged calendar takes effect where the protocol places it (04 R155). -/
def execFlexeCalendarSwitch (dt port : Nat) (s : State) : Host.Outcome State Fault Refusal :=
  s.actUp dt fun d =>
    let f := d.flexe port
    match f.pend with
    | (ring, tag, _) :: _ =>
      if f.acked then
        let was := d.portRate port
        let d := d.flexeM port fun f => { f.noSwitch with calTx := !f.calTx }
        let d := ((d.rateChanged port was).postFlexe port (d.flexe port).calTx 0).sendFlexe port
        d.finishAt ring tag stOk 0
      else d
    | [] => d

/-- FLEXE_ACK_TIMEOUT: no acknowledgement within 10 ms (04 R155). -/
def execFlexeAckTimeout (dt port : Nat) (s : State) : Host.Outcome State Fault Refusal :=
  s.actUp dt fun d =>
    let f := d.flexe port
    match f.pend, f.crAt with
    | (ring, tag, _) :: _, some t =>
      if f.acked then d
      else
        let d := d.reach (t + 10 * qPerMs)
        (((d.flexeM port FlexE.noSwitch).postFlexe port (!f.calTx) 1).sendFlexe port).finishAt ring tag stFailed 0
    | _, _ => d

/-- FLEXE_OVERHEAD_RX (04 R154). -/
def execFlexeOverheadRx (dt port : Nat) (f : FlexeOh) (s : State) : Host.Outcome State Fault Refusal :=
  s.actUp dt fun d =>
    if (d.port port).state = .absent ∨ (d.port port).framing ≠ 2 then d
    else if !f.lock then
      let held := (d.flexe port).ohLock
      (d.flexeM port fun x => { x with ohLock := false }).when held fun d => d.sendFlexe port
    else
      let was := d.flexe port
      let d := d.flexeM port fun x => { x with
        ohLock := true, rpfRx := f.rpf, calRx := f.ccc, idMismatch := f.group != x.group || f.phy != x.phy
        acked := x.acked || (x.crAt.isSome && f.ca), ackTx := f.cr }
      d.when (f.cr != was.ackTx || !was.ohLock) fun d => d.sendFlexe port

/-! ### The page switch (05 R174 to R176, R191) -/

/-- ARM_TIMEOUT (05 R176). -/
def execArmTimeout (dt lane : Nat) (s : State) : Host.Outcome State Fault Refusal :=
  s.actUp dt fun d =>
    match (d.ttbLane lane).switch with
    | some w =>
      if w.armed && (!w.initiate || w.partnerTag) && (d.zlane lane).hs != .agreed then (d.reach w.deadline).switchFail lane 3 else d
    | none => d

/-! ### Timers of protection (05 R182, R184, R185) -/

/-- HOLD_OFF_EXPIRY: SF-W, or SD-W where degraded, has held for the hold-off time. -/
def execHoldOffExpiry (dt index : Nat) (degraded : Bool) (s : State) : Host.Outcome State Fault Refusal :=
  s.actUp dt fun d =>
    let p := d.prot index
    if degraded then
      if p.sdW && !p.sdWReq then (((d.reach p.sdWUntil).protM index fun p => { p with sdWReq := true }).protDecide index) else d
    else if p.sfW && !p.sfWReq then (((d.reach p.sfWUntil).protM index fun p => { p with sfWReq := true }).protDecide index)
    else d

/-- WTR_EXPIRY. -/
def execWtrExpiry (dt index : Nat) (s : State) : Host.Outcome State Fault Refusal :=
  s.actUp dt fun d =>
    let p := d.prot index
    if p.wtrRunning then (((d.reach p.wtrUntil).protM index fun p => { p with wtrRunning := false }).protDecide index) else d

/-- PROT_UNALIGNED_TIMER: one second in ACQUIRING, told once. -/
def execProtUnalignedTimer (dt index : Nat) (s : State) : Host.Outcome State Fault Refusal :=
  s.actUp dt fun d =>
    let p := d.prot index
    if p.align = .acquiring ∧ p.unalignedPosted = false then
      ((d.reach (p.acqSince + qPerS)).protM index fun p => { p with unalignedPosted := true }).post 0x0805 [.index index]
    else d

/-- PROT_COPY_FAILED_TIMER: a copy of an aligned index has failed for one second. -/
def execProtCopyFailedTimer (dt index : Nat) (protection : Bool) (s : State) : Host.Outcome State Fault Refusal :=
  s.actUp dt fun d =>
    let p := d.prot index
    if p.align = .aligned ∧ (if protection then p.sfP else p.sfW) = true then
      (d.reach ((if protection then p.failPSince else p.failWSince) + qPerS)).protM index fun p => { p with
        align := .unaligned, confirms := 0, differRun := 0, candidate := none
        playNext := if p.selected then ((p.playNext : Int) + p.offset).toNat else p.playNext }
    else d

end Sys2Proof.Machine
end

