-- ==== Sys2Proof/Machine/Dispatch.lean ====
section
/-! DEFINITION. The one step of every command: one arm per row of the table. -/

namespace Sys2Proof.Machine

/-- The effect of a command on everything but the queue of waiting commands. -/
def exec (i : Instr) (s : State) : Host.Outcome State Fault Refusal :=
  match i with
  | .bell dt b => Sys2Proof.Machine.execBell dt b s
  | .cyclicGuardEnd dt => Sys2Proof.Machine.execCyclicGuardEnd dt s
  | .belSetPeriod dt e => Sys2Proof.Machine.execBelSetPeriod dt e s
  | .belSetPassing dt e => Sys2Proof.Machine.execBelSetPassing dt e s
  | .belSetBudget dt e => Sys2Proof.Machine.execBelSetBudget dt e s
  | .belRealign dt e => Sys2Proof.Machine.execBelRealign dt e s
  | .belCtrlWrite dt w => Sys2Proof.Machine.execBelCtrlWrite dt w s
  | .timSetPort dt e => Sys2Proof.Machine.execTimSetPort dt e s
  | .timSelectSource dt e => Sys2Proof.Machine.execTimSelectSource dt e s
  | .timSetHoldover dt e => Sys2Proof.Machine.execTimSetHoldover dt e s
  | .timSetSynce dt e => Sys2Proof.Machine.execTimSetSynce dt e s
  | .timSetTime dt e => Sys2Proof.Machine.execTimSetTime dt e s
  | .timFeedOffset dt e => Sys2Proof.Machine.execTimFeedOffset dt e s
  | .syncRx dt m => Sys2Proof.Machine.execSyncRx dt m s
  | .delayReqRx dt m => Sys2Proof.Machine.execDelayReqRx dt m s
  | .delayRespRx dt m => Sys2Proof.Machine.execDelayRespRx dt m s
  | .pdelayReqRx dt m => Sys2Proof.Machine.execPdelayReqRx dt m s
  | .pdelayRespRx dt m => Sys2Proof.Machine.execPdelayRespRx dt m s
  | .syncTxTimer dt port => Sys2Proof.Machine.execSyncTxTimer dt port s
  | .delayReqTxTimer dt port => Sys2Proof.Machine.execDelayReqTxTimer dt port s
  | .pdelayReqTxTimer dt port => Sys2Proof.Machine.execPdelayReqTxTimer dt port s
  | .sampleTimeout dt => Sys2Proof.Machine.execSampleTimeout dt s
  | .holdoverLimit dt => Sys2Proof.Machine.execHoldoverLimit dt s
  | .ppsOutRise dt => Sys2Proof.Machine.execPpsOutRise dt s
  | .ppsOutFall dt => Sys2Proof.Machine.execPpsOutFall dt s
  | .ppsInEdge dt => Sys2Proof.Machine.execPpsInEdge dt s
  | .ppsInMissing dt => Sys2Proof.Machine.execPpsInMissing dt s
  | .todLineTx dt => Sys2Proof.Machine.execTodLineTx dt s
  | .todLineRx dt line => Sys2Proof.Machine.execTodLineRx dt line s
  | .synceLaneLoss dt => Sys2Proof.Machine.execSynceLaneLoss dt s
  | .eecLocked dt => Sys2Proof.Machine.execEecLocked dt s
  | .lneFormPort dt e => Sys2Proof.Machine.execLneFormPort dt e s
  | .lneDissolvePort dt e => Sys2Proof.Machine.execLneDissolvePort dt e s
  | .lnePinTaps dt e => Sys2Proof.Machine.execLnePinTaps dt e s
  | .laneSignalDetected dt lane => Sys2Proof.Machine.execLaneSignalDetected dt lane s
  | .anResolved dt lane lacksMode => Sys2Proof.Machine.execAnResolved dt lane lacksMode s
  | .trainingComplete dt lane => Sys2Proof.Machine.execTrainingComplete dt lane s
  | .trainingTimeout dt lane => Sys2Proof.Machine.execTrainingTimeout dt lane s
  | .adaptationComplete dt lane => Sys2Proof.Machine.execAdaptationComplete dt lane s
  | .adaptationTimeout dt lane => Sys2Proof.Machine.execAdaptationTimeout dt lane s
  | .lockAchieved dt lane => Sys2Proof.Machine.execLockAchieved dt lane s
  | .lockTimeout dt lane => Sys2Proof.Machine.execLockTimeout dt lane s
  | .laneLinkLoss dt lane => Sys2Proof.Machine.execLaneLinkLoss dt lane s
  | .eyeMeasurement dt rs => Sys2Proof.Machine.execEyeMeasurement dt rs s
  | .macSetPortState dt e => Sys2Proof.Machine.execMacSetPortState dt e s
  | .macSetFlowControl dt e => Sys2Proof.Machine.execMacSetFlowControl dt e s
  | .macSetLpi dt e => Sys2Proof.Machine.execMacSetLpi dt e s
  | .macSetFrame dt e => Sys2Proof.Machine.execMacSetFrame dt e s
  | .lanesPowered dt port => Sys2Proof.Machine.execLanesPowered dt port s
  | .portUpQualified dt port => Sys2Proof.Machine.execPortUpQualified dt port s
  | .faultRx dt port localFault remoteFault => Sys2Proof.Machine.execFaultRx dt port localFault remoteFault s
  | .holdDownExpiry dt port => Sys2Proof.Machine.execHoldDownExpiry dt port s
  | .portFlushEnd dt port => Sys2Proof.Machine.execPortFlushEnd dt port s
  | .portEmpty dt port => Sys2Proof.Machine.execPortEmpty dt port s
  | .powerDownComplete dt port => Sys2Proof.Machine.execPowerDownComplete dt port s
  | .portMismatchHeld dt port => Sys2Proof.Machine.execPortMismatchHeld dt port s
  | .macControlFrameRx dt port data => Sys2Proof.Machine.execMacControlFrameRx dt port data s
  | .pauseTimerExpiry dt port => Sys2Proof.Machine.execPauseTimerExpiry dt port s
  | .flowControlFrameTx dt port => Sys2Proof.Machine.execFlowControlFrameTx dt port s
  | .flowControlRepeat dt port => Sys2Proof.Machine.execFlowControlRepeat dt port s
  | .lpiIdleHoldExpiry dt port => Sys2Proof.Machine.execLpiIdleHoldExpiry dt port s
  | .lpiPreBellWake dt port => Sys2Proof.Machine.execLpiPreBellWake dt port s
  | .frameRxHead dt h => Sys2Proof.Machine.execFrameRxHead dt h s
  | .frameRxEnd dt r => Sys2Proof.Machine.execFrameRxEnd dt r s
  | .egressSelect dt port => Sys2Proof.Machine.execEgressSelect dt port s
  | .frameTxEnd dt port => Sys2Proof.Machine.execFrameTxEnd dt port s
  | .shaperRefill dt port => Sys2Proof.Machine.execShaperRefill dt port s
  | .schSetQueue dt e => Sys2Proof.Machine.execSchSetQueue dt e s
  | .schSetPort dt e => Sys2Proof.Machine.execSchSetPort dt e s
  | .schReadPort dt e => Sys2Proof.Machine.execSchReadPort dt e s
  | .zubenFrameRx dt lane z => Sys2Proof.Machine.execZubenFrameRx dt lane z s
  | .zubenFrameTx dt port => Sys2Proof.Machine.execZubenFrameTx dt port s
  | .candidateCreated dt lane block z => Sys2Proof.Machine.execCandidateCreated dt lane block z s
  | .candidateCheck dt lane born block z => Sys2Proof.Machine.execCandidateCheck dt lane born block z s
  | .syncLoss dt lane => Sys2Proof.Machine.execSyncLoss dt lane s
  | .bipWindowEnd dt lane sf => Sys2Proof.Machine.execBipWindowEnd dt lane sf s
  | .pmSecond dt => Sys2Proof.Machine.execPmSecond dt s
  | .pmBinClose dt day => Sys2Proof.Machine.execPmBinClose dt day s
  | .handshakeAckDeadline dt lane => Sys2Proof.Machine.execHandshakeAckDeadline dt lane s
  | .nakSentThree dt lane => Sys2Proof.Machine.execNakSentThree dt lane s
  | .pageMismatchHeld dt lane => Sys2Proof.Machine.execPageMismatchHeld dt lane s
  | .mgmtFrameRx dt lane content good => Sys2Proof.Machine.execMgmtFrameRx dt lane content good s
  | .mgmtFrameSent dt lane => Sys2Proof.Machine.execMgmtFrameSent dt lane s
  | .flexeCalendarSwitch dt port => Sys2Proof.Machine.execFlexeCalendarSwitch dt port s
  | .flexeAckTimeout dt port => Sys2Proof.Machine.execFlexeAckTimeout dt port s
  | .zbnSetLane dt e => Sys2Proof.Machine.execZbnSetLane dt e s
  | .zbnSetSlotTrace dt e => Sys2Proof.Machine.execZbnSetSlotTrace dt e s
  | .zbnReadPm dt e => Sys2Proof.Machine.execZbnReadPm dt e s
  | .zbnReadTrace dt e => Sys2Proof.Machine.execZbnReadTrace dt e s
  | .zbnSendMgmt dt e => Sys2Proof.Machine.execZbnSendMgmt dt e s
  | .zbnSetFlexe dt e => Sys2Proof.Machine.execZbnSetFlexe dt e s
  | .ttbWriteSlot dt e => Sys2Proof.Machine.execTtbWriteSlot dt e s
  | .ttbWriteSeats dt e => Sys2Proof.Machine.execTtbWriteSeats dt e s
  | .ttbSwitchPage dt e => Sys2Proof.Machine.execTtbSwitchPage dt e s
  | .ttbCopyPage dt e => Sys2Proof.Machine.execTtbCopyPage dt e s
  | .ttbSetProtection dt e => Sys2Proof.Machine.execTtbSetProtection dt e s
  | .ttbProtectCommand dt e => Sys2Proof.Machine.execTtbProtectCommand dt e s
  | .ttbReadPage dt e => Sys2Proof.Machine.execTtbReadPage dt e s
  | .armTimeout dt lane => Sys2Proof.Machine.execArmTimeout dt lane s
  | .holdOffExpiry dt index degraded => Sys2Proof.Machine.execHoldOffExpiry dt index degraded s
  | .wtrExpiry dt index => Sys2Proof.Machine.execWtrExpiry dt index s
  | .protUnalignedTimer dt index => Sys2Proof.Machine.execProtUnalignedTimer dt index s
  | .protCopyFailedTimer dt index protection => Sys2Proof.Machine.execProtCopyFailedTimer dt index protection s
  | .rxMismatchHeld dt lane => Sys2Proof.Machine.execRxMismatchHeld dt lane s
  | .prsWriteProfile dt e => Sys2Proof.Machine.execPrsWriteProfile dt e s
  | .prsWritePortMap dt e => Sys2Proof.Machine.execPrsWritePortMap dt e s
  | .prsWriteEtypes dt e => Sys2Proof.Machine.execPrsWriteEtypes dt e s
  | .prsWriteRule dt e => Sys2Proof.Machine.execPrsWriteRule dt e s
  | .prsSetMember dt e => Sys2Proof.Machine.execPrsSetMember dt e s
  | .prsDiscardStaged dt e => Sys2Proof.Machine.execPrsDiscardStaged dt e s
  | .prsCommit dt e => Sys2Proof.Machine.execPrsCommit dt e s
  | .prsSetMeter dt e => Sys2Proof.Machine.execPrsSetMeter dt e s
  | .prsReadRule dt e => Sys2Proof.Machine.execPrsReadRule dt e s
  | .prsReadMeter dt e => Sys2Proof.Machine.execPrsReadMeter dt e s
  | .fwdWriteFdb dt e => Sys2Proof.Machine.execFwdWriteFdb dt e s
  | .fwdDeleteFdb dt e => Sys2Proof.Machine.execFwdDeleteFdb dt e s
  | .fwdFlushFdb dt e => Sys2Proof.Machine.execFwdFlushFdb dt e s
  | .fdbFlushDone dt ring tag => Sys2Proof.Machine.execFdbFlushDone dt ring tag s
  | .fwdReadFdb dt e => Sys2Proof.Machine.execFwdReadFdb dt e s
  | .fwdSetVlan dt e => Sys2Proof.Machine.execFwdSetVlan dt e s
  | .fwdSetPort dt e => Sys2Proof.Machine.execFwdSetPort dt e s
  | .fwdSetClassMap dt e => Sys2Proof.Machine.execFwdSetClassMap dt e s
  | .fwdSetGroup dt e => Sys2Proof.Machine.execFwdSetGroup dt e s
  | .fwdSetStream dt e => Sys2Proof.Machine.execFwdSetStream dt e s
  | .fwdSetMirror dt e => Sys2Proof.Machine.execFwdSetMirror dt e s
  | .fwdSetRecorder dt e => Sys2Proof.Machine.execFwdSetRecorder dt e s
  | .fwdFreezeRecorder dt e => Sys2Proof.Machine.execFwdFreezeRecorder dt e s
  | .fwdRearmRecorder dt e => Sys2Proof.Machine.execFwdRearmRecorder dt e s
  | .fwdReadRecorder dt e => Sys2Proof.Machine.execFwdReadRecorder dt e s
  | .recorderReadDone dt region => Sys2Proof.Machine.execRecorderReadDone dt region s
  | .recorderPostDone dt region => Sys2Proof.Machine.execRecorderPostDone dt region s
  | .agerVisit dt location => Sys2Proof.Machine.execAgerVisit dt location s
  | .frerResetTimer dt stream => Sys2Proof.Machine.execFrerResetTimer dt stream s
  | .bufSetAdmit dt e => Sys2Proof.Machine.execBufSetAdmit dt e s
  | .bufSetSpill dt e => Sys2Proof.Machine.execBufSetSpill dt e s
  | .bufRollCall dt e => Sys2Proof.Machine.execBufRollCall dt e s
  | .rollCallDone dt fs => Sys2Proof.Machine.execRollCallDone dt fs s
  | .bufSetVoq dt e => Sys2Proof.Machine.execBufSetVoq dt e s
  | .spillPageAck dt queue => Sys2Proof.Machine.execSpillPageAck dt queue s
  | .recallPageReturn dt queue => Sys2Proof.Machine.execRecallPageReturn dt queue s
  | .dramReadReturn dt at_ client r => Sys2Proof.Machine.execDramReadReturn dt at_ client r s
  | .refreshDue dt chan bank pending => Sys2Proof.Machine.execRefreshDue dt chan bank pending s
  | .scrubRead dt at_ r => Sys2Proof.Machine.execScrubRead dt at_ r s
  | .stackTemperatureChange dt stack temp => Sys2Proof.Machine.execStackTemperatureChange dt stack temp s
  | .drcTrainingDone dt ts => Sys2Proof.Machine.execDrcTrainingDone dt ts s
  | .channelRetrainDone dt stack slot ts => Sys2Proof.Machine.execChannelRetrainDone dt stack slot ts s
  | .pprDone dt chan bank row => Sys2Proof.Machine.execPprDone dt chan bank row s
  | .drcRetrainChannel dt e => Sys2Proof.Machine.execDrcRetrainChannel dt e s
  | .drcQuarantinePage dt e => Sys2Proof.Machine.execDrcQuarantinePage dt e s
  | .drcReadEyes dt e => Sys2Proof.Machine.execDrcReadEyes dt e s
  | .govSetPolicy dt e => Sys2Proof.Machine.execGovSetPolicy dt e s
  | .govSetVbound dt e => Sys2Proof.Machine.execGovSetVbound dt e s
  | .govStepDescend dt => Sys2Proof.Machine.execGovStepDescend dt s
  | .floorMismatchHeld dt => Sys2Proof.Machine.execFloorMismatchHeld dt s
  | .thermalTrip dt site => Sys2Proof.Machine.execThermalTrip dt site s
  | .railCurrentLimit dt quadrant amps => Sys2Proof.Machine.execRailCurrentLimit dt quadrant amps s
  | .avsEvaluation dt targets => Sys2Proof.Machine.execAvsEvaluation dt targets s
  | .avsTransactionFail dt quadrant => Sys2Proof.Machine.execAvsTransactionFail dt quadrant s
  | .govRailLimitWrite dt quadrant w => Sys2Proof.Machine.execGovRailLimitWrite dt quadrant w s
  | .doorbellWrite dt ring data posted => Sys2Proof.Machine.execDoorbellWrite dt ring data posted s
  | .ringCtrlWrite dt ring w => Sys2Proof.Machine.execRingCtrlWrite dt ring w s
  | .ringStopped dt ring => Sys2Proof.Machine.execRingStopped dt ring s
  | .ringReadError dt ring item poisoned => Sys2Proof.Machine.execRingReadError dt ring item poisoned s
  | .commandFetch dt ring raw e => Sys2Proof.Machine.execCommandFetch dt ring raw e s
  | .commandAccept dt ring => Sys2Proof.Machine.execCommandAccept dt ring s
  | .txDescriptorFetch dt ring raw data => Sys2Proof.Machine.execTxDescriptorFetch dt ring raw data s
  | .txDispatch dt ring => Sys2Proof.Machine.execTxDispatch dt ring s
  | .eventsLostRecord dt ring => Sys2Proof.Machine.execEventsLostRecord dt ring s
  | .msixRaise dt ring => Sys2Proof.Machine.execMsixRaise dt ring s
  | .longOpInterim dt ring tag pos => Sys2Proof.Machine.execLongOpInterim dt ring tag pos s
  | .flr dt => Sys2Proof.Machine.execFlr dt s
  | .d3hotEntry dt => Sys2Proof.Machine.execD3hotEntry dt s
  | .flrDone dt => Sys2Proof.Machine.execFlrDone dt s
  | .ledgerWrite dt => Sys2Proof.Machine.execLedgerWrite dt s
  | .pcieLinkChanged dt gen width => Sys2Proof.Machine.execPcieLinkChanged dt gen width s
  | .glbQuery dt e => Sys2Proof.Machine.execGlbQuery dt e s
  | .glbSnapshot dt e => Sys2Proof.Machine.execGlbSnapshot dt e s
  | .glbBarrier dt e => Sys2Proof.Machine.execGlbBarrier dt e s
  | .barrierRelease dt ring tag => Sys2Proof.Machine.execBarrierRelease dt ring tag s
  | .glbHoldOp dt e => Sys2Proof.Machine.execGlbHoldOp dt e s
  | .glbAbort dt e => Sys2Proof.Machine.execGlbAbort dt e s
  | .registerWrite dt addr len data poisoned => Sys2Proof.Machine.execRegisterWrite dt addr len data poisoned s
  | .loRegisterRead dt addr => Sys2Proof.Machine.execLoRegisterRead dt addr s
  | .glbResetCtrlWrite dt w => Sys2Proof.Machine.execGlbResetCtrlWrite dt w s
  | .warmReset dt cause => Sys2Proof.Machine.execWarmReset dt cause s
  | .cntSetMonitor dt e => Sys2Proof.Machine.execCntSetMonitor dt e s
  | .cntSetEventCounter dt e => Sys2Proof.Machine.execCntSetEventCounter dt e s
  | .cntSetWindow dt e => Sys2Proof.Machine.execCntSetWindow dt e s
  | .cntReadCounters dt e => Sys2Proof.Machine.execCntReadCounters dt e s
  | .autoSnapshot dt => Sys2Proof.Machine.execAutoSnapshot dt s
  | .wearEvaluation dt kind unit value => Sys2Proof.Machine.execWearEvaluation dt kind unit value s
  | .autoSubstitutionStart dt kind unit => Sys2Proof.Machine.execAutoSubstitutionStart dt kind unit s
  | .subSetThreshold dt e => Sys2Proof.Machine.execSubSetThreshold dt e s
  | .subSetPolicy dt e => Sys2Proof.Machine.execSubSetPolicy dt e s
  | .subSubstitute dt e => Sys2Proof.Machine.execSubSubstitute dt e s
  | .subCopyDone dt slot => Sys2Proof.Machine.execSubCopyDone dt slot s
  | .subLaneAgreed dt slot => Sys2Proof.Machine.execSubLaneAgreed dt slot s
  | .agreeTimeout dt slot => Sys2Proof.Machine.execAgreeTimeout dt slot s
  | .lingerExpiry dt lane => Sys2Proof.Machine.execLingerExpiry dt lane s
  | .bdyPair dt e => Sys2Proof.Machine.execBdyPair dt e s
  | .bdyRejoin dt e => Sys2Proof.Machine.execBdyRejoin dt e s
  | .bdyUnpair dt e => Sys2Proof.Machine.execBdyUnpair dt e s
  | .pairLinkTimeout dt => Sys2Proof.Machine.execPairLinkTimeout dt s
  | .buddyLinkUp dt b => Sys2Proof.Machine.execBuddyLinkUp dt b s
  | .buddyLinkDown dt position => Sys2Proof.Machine.execBuddyLinkDown dt position s
  | .buddyHeartbeatRx dt h => Sys2Proof.Machine.execBuddyHeartbeatRx dt h s
  | .buddyBeatEdge dt => Sys2Proof.Machine.execBuddyBeatEdge dt s
  | .journalRecordRx dt r => Sys2Proof.Machine.execJournalRecordRx dt r s
  | .journalAckRx dt a => Sys2Proof.Machine.execJournalAckRx dt a s
  | .completionRecordRx dt r => Sys2Proof.Machine.execCompletionRecordRx dt r s
  | .completionRecordAck dt seq => Sys2Proof.Machine.execCompletionRecordAck dt seq s
  | .buddyFrameRx dt f => Sys2Proof.Machine.execBuddyFrameRx dt f s
  | .buddyCreditRx dt cls cells => Sys2Proof.Machine.execBuddyCreditRx dt cls cells s
  | .pairSettlement dt => Sys2Proof.Machine.execPairSettlement dt s
  | .linkHeartbeatsMissed dt => Sys2Proof.Machine.execLinkHeartbeatsMissed dt s
  | .takeOver dt => Sys2Proof.Machine.execTakeOver dt s
  | .takeoverReportWrite dt => Sys2Proof.Machine.execTakeoverReportWrite dt s
  | .isolatedHeartbeatsBack dt => Sys2Proof.Machine.execIsolatedHeartbeatsBack dt s
  | .buddySkewAlarm dt => Sys2Proof.Machine.execBuddySkewAlarm dt s
  | .cfgMismatchHeld dt => Sys2Proof.Machine.execCfgMismatchHeld dt s
  | .rejoinCutover dt => Sys2Proof.Machine.execRejoinCutover dt s
  | .unpairDrained dt => Sys2Proof.Machine.execUnpairDrained dt s
  | .prcGetTranscript dt e => Sys2Proof.Machine.execPrcGetTranscript dt e s
  | .prcUpdateFirmware dt e => Sys2Proof.Machine.execPrcUpdateFirmware dt e s
  | .firmwareStaged dt => Sys2Proof.Machine.execFirmwareStaged dt s
  | .firmwareActivation dt => Sys2Proof.Machine.execFirmwareActivation dt s
  | .prcZeroize dt e => Sys2Proof.Machine.execPrcZeroize dt e s
  | .prcExportAudit dt e => Sys2Proof.Machine.execPrcExportAudit dt e s
  | .prcSealConfig dt e => Sys2Proof.Machine.execPrcSealConfig dt e s
  | .sealDigestChecked dt => Sys2Proof.Machine.execSealDigestChecked dt s
  | .prcGetRandom dt e => Sys2Proof.Machine.execPrcGetRandom dt e s
  | .officerKeyWrite dt word w => Sys2Proof.Machine.execOfficerKeyWrite dt word w s
  | .noiseHealthFail dt test => Sys2Proof.Machine.execNoiseHealthFail dt test s
  | .zeroizeNQualified dt => Sys2Proof.Machine.execZeroizeNQualified dt s
  | .zeroizeAttemptDone dt verified => Sys2Proof.Machine.execZeroizeAttemptDone dt verified s
  | .powerOn dt flashSel flash => Sys2Proof.Machine.execPowerOn dt flashSel flash s
  | .resetPin dt flashSel flash => Sys2Proof.Machine.execResetPin dt flashSel flash s
  | .railOutOfTolerance dt rail => Sys2Proof.Machine.execRailOutOfTolerance dt rail s
  | .refclkLoss dt aux => Sys2Proof.Machine.execRefclkLoss dt aux s
  | .refclkPcieLoss dt => Sys2Proof.Machine.execRefclkPcieLoss dt s
  | .clockRestored dt => Sys2Proof.Machine.execClockRestored dt s
  | .perstAssert dt => Sys2Proof.Machine.execPerstAssert dt s
  | .watchdogExpiry dt => Sys2Proof.Machine.execWatchdogExpiry dt s
  | .firmwareVerified dt bank good => Sys2Proof.Machine.execFirmwareVerified dt bank good s
  | .selftestsDone dt failed ms => Sys2Proof.Machine.execSelftestsDone dt failed ms s
  | .memoryInitDone dt failed => Sys2Proof.Machine.execMemoryInitDone dt failed s
  | .flashSelRelease dt => Sys2Proof.Machine.execFlashSelRelease dt s
  | .coreClockStable dt ok => Sys2Proof.Machine.execCoreClockStable dt ok s
  | .isolatedHolddownExpiry dt => Sys2Proof.Machine.execIsolatedHolddownExpiry dt s
  | .lpiWakeComplete dt port => Sys2Proof.Machine.execLpiWakeComplete dt port s
  | .rxLpiChange dt port enter => Sys2Proof.Machine.execRxLpiChange dt port enter s
  | .flexeOverheadRx dt port f => Sys2Proof.Machine.execFlexeOverheadRx dt port f s
  | .zeroizeNChange dt low => Sys2Proof.Machine.execZeroizeNChange dt low s
  | .buddyUpdateRx dt u => Sys2Proof.Machine.execBuddyUpdateRx dt u s
  | .rejoinDataRx dt item => Sys2Proof.Machine.execRejoinDataRx dt item s
  | .buddyContainerRx dt k => Sys2Proof.Machine.execBuddyContainerRx dt k s

end Sys2Proof.Machine
end

