-- ==== Sys2Proof/Safety.lean ====
section
/-! DEFINITION. The terms that statements use: safe outcomes and runs of steps, what a step leaves unchanged, and when the module
takes a command on. -/

namespace Sys2Proof

open Sys2Proof.Machine

/-- A step goes on: it neither faults nor is refused. -/
def Safe (o : Host.Outcome State Fault Refusal) : Prop := ∃ s, o = .next s

/-- One step leads from a state to another. -/
def Leads (s t : State) : Prop := Machine.step s = .next t

/-- Some number of steps leads from a state to another. -/
inductive Reaches : State → State → Prop where
  | refl (s : State) : Reaches s s
  | tail (s t u : State) : Reaches s t → Leads t u → Reaches s u

/-- The command answers a next state: the queue stands, and the module satisfies what is said of it. -/
def Gives (i : Instr) (s : State) (P : Dev → Prop) : Prop := ∃ t, exec i s = .next t ∧ t.pending = s.pending ∧ P t.dev

/-- Rows that act on a module that is not in service: resets, start-up steps, supplies and clocks, the bells, the
contacts, and register accesses (19 R594). -/
def ActsAlways : Instr → Bool
  | .bell .. | .belCtrlWrite .. | .thermalTrip .. | .govRailLimitWrite .. | .ringCtrlWrite .. | .pcieLinkChanged .. | .registerWrite ..
  | .loRegisterRead .. | .glbResetCtrlWrite .. | .warmReset .. | .firmwareActivation .. | .officerKeyWrite .. | .zeroizeNQualified ..
  | .zeroizeAttemptDone .. | .powerOn .. | .resetPin .. | .railOutOfTolerance .. | .refclkLoss .. | .refclkPcieLoss .. | .clockRestored ..
  | .perstAssert .. | .watchdogExpiry .. | .firmwareVerified .. | .selftestsDone .. | .memoryInitDone .. | .drcTrainingDone ..
  | .flashSelRelease .. | .coreClockStable .. | .zeroizeNChange .. => true
  | _ => false

/-! ### Monitors (15 R491, R492) -/

/-- Every enabled monitor's peak takes in the occupancy as it now is: no less, or no more for one that watches from below. -/
def PeaksHold (d : Dev) : Prop :=
  AMap.rising d.cnt.monitors = true → ∀ p ∈ d.cnt.monitors, p.2.live = true →
    if p.2.below then AMap.getD d.cnt.live (cMon p.1 1) 0 ≤ d.occupancy p.2.kind p.2.index
    else d.occupancy p.2.kind p.2.index ≤ AMap.getD d.cnt.live (cMon p.1 1) 0

/-! ### What stays as it was -/

/-- The areas of the module's state: its clock, the count of free values, what waits for the decisions of a core-clock cycle, what it has
sent, and each block. -/
inductive Area where
  | time | free | arr | out | glb | cnt | hif | bel | tim | lne | mac | zbn | ttb | prs | fwd | buf | sch | drc | gov | sub | bdy | prc | pins | boot
  deriving DecidableEq, Repr

/-- An area is the same in two states of the module. -/
def Area.Same (a : Area) (d e : Dev) : Prop :=
  match a with
  | .time => e.now = d.now
  | .free => e.free = d.free
  | .arr => e.arrivals = d.arrivals
  | .out => e.out = d.out
  | .glb => e.glb = d.glb
  | .cnt => e.cnt = d.cnt
  | .hif => e.hif = d.hif
  | .bel => e.bel = d.bel
  | .tim => e.tim = d.tim
  | .lne => e.lne = d.lne
  | .mac => e.mac = d.mac
  | .zbn => e.zbn = d.zbn
  | .ttb => e.ttb = d.ttb
  | .prs => e.prs = d.prs
  | .fwd => e.fwd = d.fwd
  | .buf => e.buf = d.buf
  | .sch => e.sch = d.sch
  | .drc => e.drc = d.drc
  | .gov => e.gov = d.gov
  | .sub => e.sub = d.sub
  | .bdy => e.bdy = d.bdy
  | .prc => e.prc = d.prc
  | .pins => e.pins = d.pins
  | .boot => e.boot = d.boot

/-- Of a module's state, only the areas named may have changed. -/
def Only (as : List Area) (d e : Dev) : Prop := ∀ a : Area, a ∉ as → a.Same d e

/-- The areas through which the module tells the host: counters, rings and what it has sent. -/
def tells : List Area := [.cnt, .hif, .out]

/-- The core-clock cycle under way has left nothing to decide. Every other state first decides what it has, `Obligations.ArrivalsAreDecidedFirst`. -/
abbrev Quiet (s : State) : Prop := s.dev.arrivals = []

/-- The module is in service (19 R594). -/
abbrev Serving (s : State) : Prop := s.dev.inService = true ∧ Quiet s

/-- The row answers a next state with the queue as it was; besides time, counters, rings and what the module has sent, only the areas
named may have changed; and the module satisfies what is said of it. -/
def Does (i : Instr) (s : State) (areas : List Area) (P : Dev → Prop) : Prop :=
  Gives i s fun d => Only (.time :: tells ++ areas) s.dev d ∧ P d

/-- The row brings what is decided with its core-clock cycle (06 R220, 07 R257, 08 R294): it answers a next state that holds an arrival, and
once that is decided only the areas named may have changed, and the module satisfies what is said of it. -/
def Decides (i : Instr) (s : State) (areas : List Area) (P : Dev → Prop) : Prop :=
  Gives i s fun d => d.arrivals ≠ [] ∧ Only (.time :: tells ++ areas) s.dev d.decideAll ∧ P d.decideAll

/-- What waits for the decisions of a cycle stands in their order (08 R294). -/
def InOrder : List Arrival → Prop
  | [] => True
  | a :: as => (∀ b ∈ as, a.rank ≤ b.rank) ∧ InOrder as

/-- A PTP message of the module waits for egress in class 15 of a port (09 R326). -/
def AwaitsEgress (d : Dev) (n : Nat) (m : PtpMsg) : Prop := ∃ r ∈ (d.queue (qIx n 15)).h, (d.frameAt r.copy.frame).ptp = some m

/-- A port's class queues take copies (03 R107). -/
abbrev TakesCopies (d : Dev) (n : Nat) : Prop := (d.port n).state.takes = true ∧ d.buf.voq = false

/-- A port forms PTP messages by itself and its queues take copies (02 R56, 03 R107). -/
abbrev SpeaksPtp (d : Dev) (n : Nat) : Prop := d.engine n = true ∧ TakesCopies d n

/-- The settings of a port that were in force when a message's reference point passed (02 R76). -/
abbrev Machine.Dev.timPortAt (d : Dev) (n ref : Nat) : TimPort := (d.timPort n).asOf ref

/-- The areas that a copy and its mirror copy reach: the store and the queues, XOFF with the credit it withholds, recorders and the far
store (07 R260 to R264, 08 R291). -/
def wayOfCopies : List Area := [.mac, .sch, .drc, .free, .fwd, .buf, .bdy]

/-- The areas that a trigger of the recorders reaches: the page under way is written to the far store, and a region that is given up returns its
pages to it (07 R265, R266, 08 R287). -/
def triggered : List Area := [.fwd, .buf, .bdy, .drc, .free]

/-- The areas that the supervision of a Zuben lane reaches: its overhead, protection, and through a trigger the recorders with what
completes there (04 R145, 05 R185, 07 R266). -/
def watched : List Area := [.zbn, .ttb] ++ triggered

/-- The areas that a port's life and its frames reach: lanes, MAC, stores, schedule, spills to the far store, and supervision. -/
def wayOfFrames : List Area := [.mac, .lne, .sub, .sch] ++ watched

/-! ### Commands -/

/-- The command as the module holds it once fetched (12 R415). -/
def fetchedCmd (d : Dev) (sp : CmdSpec) (e : CmdEntry) : Cmd :=
  { e, op := sp.op, cring := (d.ring e.ring).lCring, entry := (d.ring e.ring).devIdx % (d.ring e.ring).n }

/-- The module once the host has posted a command and it has been fetched. -/
def Dev.fetched (d : Dev) (sp : CmdSpec) (e : CmdEntry) : Dev := (Dev.hostPosts d e.ring).fetchCmd true sp.op e

/-- The command reaches its checks when its row runs: the module is in service, the command's ring is RUNNING and empty and has
nothing in flight, no completion of its ring waits to be written, its completion ring has room (12 R411, R415), a user ring issues only what it may, a long command finds a progress
entry, its host memory can be read, and the module decides alone. -/
structure Fetchable (s : State) (sp : CmdSpec) (e : CmdEntry) : Prop where
  up : s.dev.inService = true
  quiet : Quiet s
  ring : e.ring < 32
  running : (s.dev.ring e.ring).state = .running
  still : (s.dev.ring e.ring).fetchEnded = false
  empty : (s.dev.ring e.ring).waiting = 0
  room : s.dev.bindRoom e.ring = true
  few : s.dev.inflightCount < 4096
  fresh : s.dev.unwritten (fun x => x.kind == 0 && x.ring == e.ring) = 0
  alone : ∀ c ∈ s.dev.hif.inflight, c.mirrored = true ∨ c.e.ring ≠ e.ring
  user : (s.dev.ring e.ring).user = false ∨ sp.user = true
  window : sp.kind (fetchedCmd s.dev sp e) = .long → s.dev.freeProg ≠ none
  mem : e.readFail = false
  /-- Outside PAIRED and SYNCING the module decides alone, pair-wide commands only as the authority (17 R545). -/
  pair : s.dev.bdy.state ≠ .paired ∧ s.dev.bdy.state ≠ .syncing ∧ s.dev.pairRefuses sp = false

/-- The module takes a command on after `dt`: no officer need sign it, and every check of 13 R441 passes. -/
structure Ready (s : State) (dt : Nat) (sp : CmdSpec) (e : CmdEntry) : Prop extends Fetchable s sp e where
  officer : sp.officer = false
  pass : (Dev.fetched (s.dev.elapse dt) sp e).checks sp e = none

/-- The module takes on a command that the crypto officer must sign: the signature holds (18 R571, R572), and every check passes. -/
structure Signed (s : State) (dt : Nat) (sp : CmdSpec) (e : CmdEntry) : Prop extends Fetchable s sp e where
  officer : sp.officer = true
  valid : (Dev.fetched (s.dev.elapse dt) sp e).officerDenied sp.op e = none
  pass : ((Dev.fetched (s.dev.elapse dt) sp e).officerStep sp.op e).1.checks sp e = none

/-- The command waits in flight, accepted in the bell period of that number (12 R416, 13 R445). -/
def WaitsSince (d : Dev) (e : CmdEntry) (op seq : Nat) : Prop :=
  ∃ c ∈ d.hif.inflight, c.e = e ∧ c.op = op ∧ c.mirrored = false ∧ c.stage = .accepted seq

/-- The command is in flight at a stage. -/
def InFlight (d : Dev) (e : CmdEntry) (op : Nat) (st : CmdStage) : Prop :=
  ∃ c ∈ d.hif.inflight, c.e = e ∧ c.op = op ∧ c.mirrored = false ∧ c.stage = st

/-- The completion ring of a command's ring can take a completion now. -/
abbrev CanTell (s : State) (g : Nat) : Prop :=
  (s.dev.ring g).lCring < 32 ∧ (s.dev.ring (32 + (s.dev.ring g).lCring)).state = .running ∧
    (s.dev.ring (32 + (s.dev.ring g).lCring)).room = true ∧ ∀ p ∈ s.dev.hif.owed, p.1 ≠ (s.dev.ring g).lCring

/-- A command stands in flight, and its ring can be told of its end at once. -/
abbrev Stands (s : State) (c : Cmd) : Prop :=
  s.dev.cmdAt c.e.ring c.e.tag = some c ∧ c.cring = (s.dev.ring c.e.ring).lCring ∧ CanTell s c.e.ring

/-- The completion entry of a command has been written to its completion ring: opcode, tag, status and result
(12 R417), and the command is no longer in flight. -/
def Completed (s : State) (d : Dev) (e : CmdEntry) (op status result : Nat) : Prop :=
  (∃ i w, Out.entry (32 + (s.dev.ring e.ring).lCring) i w ∈ d.out ∧ bits w 15 0 = op % 2 ^ 16 ∧ bits w 27 16 = e.tag % 2 ^ 12 ∧
    bits w 39 32 = status % 2 ^ 8 ∧ bits w 95 64 = result % 2 ^ 32) ∧ d.cmdAt e.ring e.tag = none

/-- A row that carries a command, and the command. -/
abbrev CommandRow := (Nat → CmdEntry → Instr) × CmdSpec

/-- The row of a commit: the command waits, accepted in the present bell period; the module is operational; and nothing else
has changed (12 R416, 19 R594). -/
def AcceptsForItsBell (r : CommandRow) : Prop :=
  ∀ (dt : Nat) (e : CmdEntry) (s : State), Ready s dt r.2 e → Gives (r.1 dt e) s fun d =>
    WaitsSince d e r.2.op s.dev.bel.seq ∧ d.now = s.dev.now + dt ∧ d.glb = { s.dev.glb with phase := 6 } ∧
      Only [.time, .hif, .cnt, .glb] s.dev d

/-! ### Commands that take effect at a bell (01 R28, R29) -/

/-- The places in the order of a bell at which commands take effect. -/
inductive BellPlace where
  | snapshot | energy | pairs | period | pages | generation | form | commits
  deriving DecidableEq, Repr

/-- The place of a commit by its rank. -/
def BellPlace.ofRank (rank : Nat) : BellPlace :=
  if rank < 20 then .snapshot else if rank < 30 then .energy else if rank < 70 then .generation else if rank < 73 then .form else .commits

/-- The module when a bell has rung and its steps of time are made. -/
def bellStart (s : State) (dt : Nat) : Dev := (s.dev.elapse dt).bellRings.timeSteps

/-- From there, the module as the items before a place leave it. -/
def bellUpTo (d : Dev) (i : BellInput) (p : BellPlace) : Dev :=
  match p with
  | .snapshot => d.bellToSnapshot
  | .energy => d.bellToEnergy
  | .pairs => d.bellToPairs i
  | .period => d.bellToPeriod i
  | .pages => d.bellToPages i
  | .generation => d.bellToGeneration i
  | .form => d.bellToForm i
  | .commits => d.bellToCommits i

/-- What the items behind a place make of the module once what stands at that place has been done; d is the module as the bell found it. -/
def bellFrom (d : Dev) (i : BellInput) (p : BellPlace) (x : Dev) : Dev :=
  let commits := fun (x : Dev) => x.bellRest d.drc.drainLimit d.drc.drained
  let form := fun (x : Dev) => commits (x.grantReserves.applyRange 73 100)
  let generation := fun (x : Dev) => form (x.refillAll.applyRange 70 73)
  let pages := fun (x : Dev) => generation (x.genRetire.applyRange 61 70)
  let period := fun (x : Dev) => pages x.switchPages
  let pairs := fun (x : Dev) => period x.periodChange
  let energy := fun (w : Nat) (x : Dev) => pairs ((x.bellConflicts.settleEnergy i w).closeConflicts.bellSubstitutes)
  match p with
  | .snapshot => energy x.gov.pEff (x.applyRange 20 30)
  | .energy => energy d.bellToEnergy.gov.pEff x
  | .pairs => pairs x
  | .period => period x
  | .pages => pages x
  | .generation => generation x
  | .form => form x
  | .commits => commits x

/-- A bell rings for a module in service. -/
abbrev Rings (s : State) (dt : Nat) : Prop :=
  s.dev.boot.clockOn = true ∧ s.dev.boot.stopped = .no ∧ Quiet s ∧ (bellStart s dt).inService = true

/-- The row of the bell answers a next state that goes by what has been made of the module at a place of the bell's order. -/
def BellMakes (s : State) (dt : Nat) (i : BellInput) (p : BellPlace) (x : Dev) : Prop :=
  exec (.bell dt i) s = .next { s with dev := (bellFrom (bellStart s dt) i p x).nextBell.settle }

/-- The module when the items of a bell are done and the next bell instant is still to be set (01 R20, R39). -/
def bellDone (s : State) (dt : Nat) (i : BellInput) : Dev := bellFrom (bellStart s dt) i .energy (bellUpTo (bellStart s dt) i .energy)

/-- A bell comes to a commit, the only one due, and finds the module so when its place is reached. -/
def DueAt (s : State) (dt : Nat) (i : BellInput) (sp : CmdSpec) (c : Cmd) (d : Dev) : Prop :=
  Rings s dt ∧ bellUpTo (bellStart s dt) i (.ofRank sp.rank) = d ∧ d.hif.inflight.filter d.isDue = [c]

/-- The row of a commit: it is taken up for its bell; and where the row of that bell comes to it, that row answers a next state with the
commit's effect, confined to some areas, and its completion with ST_OK and a result. -/
def Commits (r : CommandRow) (H : Cmd → Dev → Prop) (areas : List Area) (result : Cmd → Dev → Nat) (P : Cmd → Dev → Dev → Prop) : Prop :=
  AcceptsForItsBell r ∧ ∀ (c : Cmd) (d : Dev), c.op = r.2.op → H c d →
    ∃ x, Only areas d x ∧ P c d x ∧ r.2.apply c d = x.finish c stOk (result c d) ∧
      ∀ (s : State) (dt : Nat) (i : BellInput), DueAt s dt i r.2 c d → BellMakes s dt i (.ofRank r.2.rank) (x.finish c stOk (result c d))

/-- The row of a command that ends at once: its completion with ST_OK and a result is written, and its effect is confined to some
areas. -/
def CompletesAtOnce (i : Instr) (sp : CmdSpec) (e : CmdEntry) (s : State) (areas : List Area) (result : Nat) (P : Dev → Prop) : Prop :=
  Gives i s fun d => Completed s d e sp.op stOk result ∧ Only (.time :: .glb :: tells ++ areas) s.dev d ∧ P d

/-- The row of a command that waits or lasts: it is in flight, not yet complete, and its effect so far is confined to some areas. -/
def TakesUp (i : Instr) (sp : CmdSpec) (e : CmdEntry) (s : State) (stage : CmdStage) (areas : List Area) (P : Dev → Prop) : Prop :=
  Gives i s fun d => InFlight d e sp.op stage ∧ Only (.time :: .glb :: tells ++ areas) s.dev d ∧ P d

end Sys2Proof
end

