-- ==== Sys2Proof/Certificates/Slice0/Obligations.lean ====
section
/-! DEFINITION. The statements for the provers. -/

section

open Sys2Proof Sys2Proof.Machine

/-- A step runs the command at the front of the queue on the queue's rest; on an empty queue the module idles. -/
def Obligations.StepRunsTheFrontCommand : Prop :=
  (∀ (c : Instr) (s : State), step { s with pending := c :: s.pending } = exec c s) ∧
    ∀ s : State, s.pending = [] → step s = .next s

/-- Every command, in every state, answers a next state, and the queue stands. -/
def Obligations.EveryCommandAnswersANextState : Prop :=
  ∀ (i : Instr) (s : State), ∃ t, exec i s = .next t ∧ t.pending = s.pending

/-- No run stops: after any number of steps the machine is in a next state, and has taken that many commands in order. -/
def Obligations.RunsTakeTheQueueInOrder : Prop :=
  ∀ (s : State) (k : Nat), ∃ t, Host.Core.run Sys2Proof.core k s = .next t ∧ State.pending t = s.pending.drop k

/-- A module that is stopped, halted or not yet started lets only time pass, and what arrives goes undecided, at every row but those of
`ActsAlways` (19 R594: before phase 5 it carries no traffic and takes no commands). -/
def Obligations.OutOfServiceOnlyTimePasses : Prop :=
  ∀ (i : Instr) (s : State), ActsAlways i = false → s.dev.inService = false → Gives i s fun d => Only [.time, .cnt, .arr] s.dev d

/-- Every step keeps the monitors' peaks at or beyond what they watch (15 R492). -/
def Obligations.EveryStepKeepsThePeaks : Prop :=
  ∀ s t : State, PeaksHold s.dev → step s = .next t → PeaksHold t.dev

/-- The peaks hold at reset, where no monitor is enabled. -/
def Obligations.PeaksHoldAtReset : Prop :=
  PeaksHold State.reset.dev

/-- Every row but a frame's head and end, a transit frame and a dispatch acts as it does on the module in which what arrived in the
core-clock cycle has been decided, and in which nothing is left to decide. Together with the statements about a module that has nothing to
decide, this says what a row does in every other state. The grouping by cycles is the model's (log 186). -/
def Obligations.ArrivalsAreDecidedFirst : Prop :=
  (∀ d : Dev, d.decideAll.arrivals = []) ∧
    ∀ (i : Instr) (s : State), (∀ dt h, i ≠ .frameRxHead dt h) → (∀ dt r, i ≠ .frameRxEnd dt r) → (∀ dt f, i ≠ .buddyFrameRx dt f) →
      (∀ dt r, i ≠ .txDispatch dt r) → exec i s = exec i { s with dev := s.dev.decideAll }

/-- A frame's head or end, a transit frame and a dispatch each answer a next state in which the arrival waits: with those of its cycle,
whose order is kept (the buddy link, then TX rings, then ports), behind those of its own source; or alone, once the decisions of a cycle
that has ended are made. At reset nothing waits. -/
def Obligations.ArrivalsStandInTheirOrder : Prop :=
  InOrder State.reset.dev.arrivals ∧
  ∀ (i : Instr) (dt : Nat) (a : Arrival) (s : State),
    ((∃ h, i = .frameRxHead dt h ∧ a = .head h) ∨ (∃ r, i = .frameRxEnd dt r ∧ a = .ending r) ∨ (∃ f, i = .buddyFrameRx dt f ∧ a = .buddy f) ∨
      ∃ r, i = .txDispatch dt r ∧ a = .tx r) →
    InOrder s.dev.arrivals → Gives i s fun x =>
      InOrder x.arrivals ∧
      (s.dev.cycleEnds dt = true → x = { (s.dev.decideAll.elapse dt).settle with arrivals := [a] }) ∧
      (s.dev.cycleEnds dt = false → ∃ as bs, s.dev.arrivals = as ++ bs ∧ (∀ b ∈ as, b.rank ≤ a.rank) ∧ (∀ b ∈ bs, a.rank < b.rank) ∧
        x = { (s.dev.elapse dt).settle with arrivals := as ++ a :: bs })

/-! ### Commits: taken up by their row, in effect by the row of their bell -/

/-- BEL.SET_PASSING, BEL.SET_BUDGET, SCH.SET_QUEUE and SCH.SET_PORT are taken up for their bell; where the row of that bell comes to one,
the only commit due, a passing window, a class's budget, a queue's weight and shaper, or a port's overhead, refill interval and shaper
take their values, every other port and queue keeps its own, and the command completes with ST_OK. -/
def Obligations.BellAndSchedulerCommits : Prop :=
  (Commits (.belSetPassing, belSetPassing) (fun _ _ => True) [.bel] (fun _ _ => 0) fun c d x =>
    (x.belPort (d.portField c.e)).pass = min c.pos (d.bel.period / 2) ∧ ∀ n, n ≠ d.portField c.e → x.belPort n = d.belPort n) ∧
  (Commits (.belSetBudget, belSetBudget) (fun c _ => 12 ≤ classField c.e) [.bel] (fun _ _ => 0) fun c d x =>
    let b := x.belPort (d.portField c.e)
    (classField c.e = 12 → b = { d.belPort (d.portField c.e) with b12 := c.e.f 20 31 0 }) ∧
      (classField c.e = 13 → b = { d.belPort (d.portField c.e) with b13 := c.e.f 20 31 0 }) ∧
      (classField c.e = 14 → b = { d.belPort (d.portField c.e) with b14 := c.e.f 20 31 0 }) ∧
      (classField c.e = 15 → b = { d.belPort (d.portField c.e) with b15 := c.e.f 20 31 0 }) ∧
      ∀ n, n ≠ d.portField c.e → x.belPort n = d.belPort n) ∧
  (Commits (.schSetQueue, schSetQueue) (fun _ _ => True) [.buf, .cnt] (fun _ _ => 0) fun c d x =>
    let q := x.queue (qIx (d.portField c.e) (c.e.f 16 19 16))
    q.shaperEn = c.e.b 16 24 ∧ q.idleReq = c.e.f 24 31 0 ∧ q.hi = c.e.f 28 23 0 ∧ q.lo = c.e.loField ∧
      (c.e.f 16 19 16 ≠ 15 → q.weight = clamp 1 256 (c.e.f 20 8 0)) ∧ (c.e.b 16 24 = false ∨ c.e.b 16 25 = true → q.credit = 0) ∧
      ∀ k, k ≠ qIx (d.portField c.e) (c.e.f 16 19 16) → x.queue k = d.queue k) ∧
  Commits (.schSetPort, schSetPort) (fun _ _ => True) [.sch, .buf, .cnt] (fun _ _ => 0) fun c d x =>
    let p := x.schPort (d.portField c.e)
    p.overhead = clampI (-32) 63 (c.e.i 20 8) ∧ p.refillNs = clamp 16 1000 (c.e.f 20 25 16) ∧ p.shaperEn = c.e.b 16 24 ∧
      p.idleReq = c.e.f 24 31 0 ∧ p.hi = c.e.f 28 23 0 ∧ p.lo = c.e.loField ∧ (c.e.b 16 24 = false ∨ c.e.b 16 25 = true → p.credit = 0) ∧
      ∀ n, n ≠ d.portField c.e → x.schPort n = d.schPort n

/-- LNE.FORM_PORT and LNE.DISSOLVE_PORT are taken up for their bell. There the port formed is DISABLED with the speed, framing, coding and
lane count given and its settings at their defaults, its lanes are off and belong to it, and no other port changes; a port that may be
dissolved no longer exists, and of every other port at most a flow-control frame has fallen due; and the command completes with ST_OK. -/
def Obligations.PortCommits : Prop :=
  (Commits (.lneFormPort, lneFormPort) (fun _ _ => True) (.bel :: .tim :: .prs :: .mac :: .lne :: .sch :: tells ++ watched) (fun _ _ => 0)
    fun c d x =>
    let p := x.port (d.portField c.e)
    p.state = .disabled ∧ p.admin = false ∧ p.speed = c.e.f 16 23 20 ∧ p.framing = c.e.f 16 25 24 ∧ p.fec = c.e.f 16 27 26 ∧
      p.lanes = lanesCode (formLanes c.e) ∧ p.phy = c.e.f 20 1 0 ∧ p.requests = [] ∧
      (∀ n, n ≠ d.portField c.e → x.port n = d.port n) ∧
      ∀ l, d.portField c.e ≤ l → l < d.portField c.e + formLanes c.e →
        (x.lane l).use = 1 ∧ (x.lane l).port = d.portField c.e ∧ (x.lane l).state = .off) ∧
  Commits (.lneDissolvePort, lneDissolvePort) (fun c d => d.mayDissolve (d.portField c.e) = true) (.bel :: .tim :: .prs :: tells ++
    wayOfFrames) (fun _ _ => 0) fun c d x =>
    x.portExists (d.portField c.e) = false ∧
      ∀ n, n ≠ d.portField c.e → { x.port n with flowDue := false } = { d.port n with flowDue := false }

/-- The TTB commits are taken up for their bell. There an entry, seats or a whole page are written in the standby page of a Zuben lane
that is not armed, and the active page and every other lane stand; an index takes its times and modes or, when no entry names it, is
disabled; and a host command is held and decides the index's request and selection anew; and the command completes with ST_OK. -/
def Obligations.TimetableCommits : Prop :=
  (Commits (.ttbWriteSlot, ttbWriteSlot) (fun c d => d.isZuben (d.laneField c.e) = true ∧ d.armed (d.laneField c.e) = false ∧ d.badIndex
    c.e = false) [.ttb] (fun _ _ => 0) fun c d x =>
    (x.ttbLane (d.laneField c.e)).standbyPage.slot (slotField c.e) = d.slotEntry c.e ∧
      (∀ k, k ≠ slotField c.e → (x.ttbLane (d.laneField c.e)).standbyPage.slot k = (d.ttbLane (d.laneField c.e)).standbyPage.slot k) ∧
      (x.ttbLane (d.laneField c.e)).activePage = (d.ttbLane (d.laneField c.e)).activePage ∧
      ∀ l, l ≠ d.laneField c.e → x.ttbLane l = d.ttbLane l) ∧
  (Commits (.ttbWriteSeats, ttbWriteSeats) (fun c d => d.isZuben (d.laneField c.e) = true ∧ d.armed (d.laneField c.e) = false) [.ttb] (fun
    _ _ => 0) fun c d x =>
    (∀ k, k < seatCount c.e → (x.ttbLane (d.laneField c.e)).standbyPage.seat (slotField c.e) (seatFirst c.e + k) =
        d.seatEntry (c.e.f (32 + 4 * k) 31 0)) ∧
      (x.ttbLane (d.laneField c.e)).activePage = (d.ttbLane (d.laneField c.e)).activePage ∧
      ∀ l, l ≠ d.laneField c.e → x.ttbLane l = d.ttbLane l) ∧
  (Commits (.ttbCopyPage, ttbCopyPage) (fun c d => d.isZuben (d.laneField c.e) = true ∧ d.armed (d.laneField c.e) = false) [.ttb] (fun _ _
    => 0) fun c d x =>
    (x.ttbLane (d.laneField c.e)).standbyPage = (d.ttbLane (d.laneField c.e)).activePage ∧
      (x.ttbLane (d.laneField c.e)).activePage = (d.ttbLane (d.laneField c.e)).activePage ∧
      ∀ l, l ≠ d.laneField c.e → x.ttbLane l = d.ttbLane l) ∧
  (Commits (.ttbSetProtection, ttbSetProtection) (fun c d => c.e.b 16 16 = false ∧ d.protInUse (protField c.e) = false) (.ttb :: .buf ::
    .mac :: .bdy :: tells) (fun _ _ => 0) fun c d x =>
    AMap.find? x.ttb.prots (protField c.e) = none ∧ ∀ i, i ≠ protField c.e → x.prot i = d.prot i) ∧
  (Commits (.ttbSetProtection, ttbSetProtection) (fun c d => c.e.b 16 16 = true ∧ c.noRoom = false ∧ d.protEntry (protField c.e) = none ∧
    (d.prot (protField c.e)).wired = false) (.ttb :: .buf :: .mac :: .bdy :: tells) (fun _ _ => 0) fun c d x =>
    let p := x.prot (protField c.e)
    p.holdOff = min 100 (c.e.f 20 7 0) ∧ p.wtrS = clamp 10 720 (c.e.f 20 17 8) ∧ p.revertive = c.e.b 20 18 ∧ p.maxDiff = clamp 1 250 (c.e.f 20 26 19) ∧
      p.request = (d.prot (protField c.e)).request ∧ ∀ i, i ≠ protField c.e → x.prot i = d.prot i) ∧
  Commits (.ttbProtectCommand, ttbProtectCommand) (fun c d => d.protRefuses c.e = false) (.ttb :: tells ++ triggered) (fun _ _ => 0) fun c
    d x =>
    let y := ({ d.prot (protField c.e) with host := hostAfter (d.prot (protField c.e)).host (c.e.f 20 2 0) } : Prot).next d.now
    let p := x.prot (protField c.e)
    p = { y with selected := reqSelects y.request, playNext := p.playNext } ∧ ∀ i, i ≠ protField c.e → x.prot i = d.prot i

/-- The PRS commits are taken up for their bell. There the standby half takes profiles, maps, EtherTypes and rules and the current half
stands; a discard makes the standby half the current one; membership of the standby half is set for the valid rules of a range; a commit
raises the generation by one and answers with it; and a meter takes its rates and sizes. The command completes with ST_OK, PRS.SET_MEMBER
with the number of rules changed. -/
def Obligations.ClassifierCommits : Prop :=
  (Commits (.prsWriteProfile, prsWriteProfile) (fun _ _ => True) [.prs] (fun _ _ => 0) fun c d x =>
    x.prs.standby.profile (c.e.f 16 5 0) =
        { loaded := bit (prfHeader c.e) 0, l3Kind := bits (prfHeader c.e) 2 1, windows := (List.range 8).map (prfWindow c.e) } ∧
      x.prs.current = d.prs.current) ∧
  (Commits (.prsWritePortMap, prsWritePortMap) (fun _ _ => True) [.prs] (fun _ _ => 0) fun c d x =>
    x.prs.standby.map (d.portField c.e) = { profiles := (List.range 16).map fun k => c.e.f (20 + k) 5 0, deiColor := c.e.b 16 16 } ∧
      x.prs.current = d.prs.current) ∧
  (Commits (.prsWriteEtypes, prsWriteEtypes) (fun _ _ => True) [.prs] (fun _ _ => 0) fun c d x =>
    x.prs.standby.etypes = ((List.range 13).map fun k => d.prs.etypeStored (c.e.f (16 + 2 * k) 15 0)) ∧ x.prs.current = d.prs.current) ∧
  (Commits (.prsWriteRule, prsWriteRule) (fun c d => ((d.rule (c.e.f 16 15 0)).valid && (d.rule (c.e.f 16 15 0)).member d.prs.parity) =
    false) [.prs] (fun _ _ => 0) fun c d x =>
    x.rule (c.e.f 16 15 0) = { (ruleOf c.e.mem).setMember (1 - d.prs.parity) true with valid := true } ∧ ∀ i, i ≠ c.e.f 16 15 0 → x.rule i = d.rule i) ∧
  (Commits (.prsSetMember, prsSetMember) (fun _ _ => True) [.prs] (fun c d => d.memberChanges c.e) fun c d x =>
    ∀ i r, AMap.find? d.prs.rules i = some r → r.valid = true → memberFirst c.e ≤ i → i < memberFirst c.e + memberCount c.e →
      (x.rule i).member (1 - d.prs.parity) = c.e.b 20 24 ∧ (x.rule i).member d.prs.parity = r.member d.prs.parity) ∧
  (Commits (.prsDiscardStaged, prsDiscardStaged) (fun _ _ => True) [.prs] (fun _ _ => 0) fun _ d x =>
    x.prs.standby = d.prs.current ∧ x.prs.current = d.prs.current ∧ x.prs.gen = d.prs.gen) ∧
  (Commits (.prsCommit, prsCommit) (fun _ _ => True) (.prs :: tells) (fun _ d => (d.prs.gen + 1) % 2 ^ 64 % 65536) fun _ d x =>
    x.prs = { d.prs with gen := (d.prs.gen + 1) % 2 ^ 64, retiring := true }) ∧
  Commits (.prsSetMeter, prsSetMeter) (fun _ _ => True) [.prs] (fun _ _ => 0) fun c d x =>
    let m := x.meter (meterIx c.e)
    m.mode = c.e.f 20 0 0 ∧ m.cir = min 800000000 (c.e.f 24 31 0) ∧ m.cbs = clamp 64 16777215 (c.e.f 32 23 0) ∧
      m.lenAdj = clampI (-32) 63 (c.e.i 21 8) ∧ (c.e.b 16 24 = true → m.tc = ((m.cbs * 256 : Nat) : Int) ∧ m.te = ((m.ebs * 256 : Nat) : Int)) ∧
      ∀ k, k ≠ meterIx c.e → x.meter k = d.meter k

/-- The FWD commits are taken up for their bell. There an entry is written at its place in the forwarding table unless an earlier change
has taken the key or no place is free; ports, groups, streams and mirror sessions take their settings; an OFF region with pages free
starts to record; nothing but the entry named changes; and the command completes with ST_OK. -/
def Obligations.ForwardingCommits : Prop :=
  (Commits (.fwdWriteFdb, fwdWriteFdb) (fun c d => d.keyTaken c.e = false ∧ (d.fdbWrite (fdbOf d c.e)).isSome = true) [.fwd] (fun _ _ => 0)
    fun c d x =>
    ∃ loc, x.fwd = { d.fwd with fdb := AMap.set d.fwd.fdb loc (fdbOf d c.e) }) ∧
  (Commits (.fwdSetPort, fwdSetPort) (fun c d => d.wrongSession c.e = false) [.fwd] (fun _ _ => 0) fun c d x =>
    AMap.find? x.fwd.ports (d.portField c.e) =
        some { pvid := clamp 1 4094 (c.e.f 20 11 0), learn := c.e.b 20 12, trust := c.e.f 20 14 13, mapSet := c.e.f 20 18 15, defClass := c.e.f 20 22 19
               ingSession := c.e.f 24 5 0, ingEn := c.e.b 24 6, egrSession := c.e.f 24 13 8, egrEn := c.e.b 24 14 } ∧
      ∀ n, n ≠ d.portField c.e → AMap.find? x.fwd.ports n = AMap.find? d.fwd.ports n) ∧
  (Commits (.fwdSetGroup, fwdSetGroup) (fun _ _ => True) [.fwd] (fun _ _ => 0) fun c d x =>
    AMap.find? x.fwd.groups (c.e.f 16 13 0) = some { mask := natLE (c.e.mem.take 128), buddy := c.e.b 16 16 } ∧
      ∀ g, g ≠ c.e.f 16 13 0 → AMap.find? x.fwd.groups g = AMap.find? d.fwd.groups g) ∧
  (Commits (.fwdSetStream, fwdSetStream) (fun _ _ => True) [.fwd] (fun _ _ => 0) fun c d x =>
    let y := x.stream (c.e.f 16 11 0)
    let o := d.stream (c.e.f 16 11 0)
    y.rcvEn = c.e.b 20 0 ∧ y.genEn = c.e.b 20 1 ∧ y.strip = c.e.b 20 2 ∧ y.takeNoSeq = c.e.b 20 3 ∧ y.takeAny = (o.takeAny || c.e.b 20 4) ∧
      y.histM1 = clamp 2 64 (c.e.f 20 14 8) - 1 ∧ y.hist = (if y.histM1 = o.histM1 then o.hist else 0) ∧ y.resetMs = max 1 (c.e.f 24 15 0) ∧
      ∀ h, h ≠ c.e.f 16 11 0 → x.stream h = d.stream h) ∧
  (Commits (.fwdSetMirror, fwdSetMirror) (fun c d => d.turnsSession c.e = false) [.fwd] (fun _ _ => 0) fun c d x =>
    let m := x.mirror (c.e.f 16 5 0)
    m.en = c.e.b 16 8 ∧ m.dir = c.e.b 16 9 ∧ m.kind = c.e.f 16 11 10 ∧ m.cls = min 11 (c.e.f 20 19 16) ∧ m.sample = max 1 (c.e.f 24 31 16) ∧
      m.quota = max 1 (c.e.f 28 15 0) ∧ m.seen = 0 ∧ m.cells = (d.mirror (c.e.f 16 5 0)).cells ∧ ∀ k, k ≠ c.e.f 16 5 0 → x.mirror k = d.mirror k) ∧
  Commits (.fwdSetRecorder, fwdSetRecorder) (fun c d => c.e.b 16 8 = true ∧ d.buf.voq = false ∧ d.drc.ready = true ∧ (d.region (regionOf
    c.e)).state = .off ∧ d.farAvailable (pagesOf c.e) = true) [.buf, .fwd] (fun _ _ => 0) fun c d x =>
    x.region (regionOf c.e) = { state := .recording, pages := pagesOf c.e, postPages := min (pagesOf c.e - 1) (c.e.f 24 26 0), trigMask := c.e.f 28 5 0 &&& 0x3E } ∧
      x.buf = { d.buf with farReserved := d.buf.farReserved + pagesOf c.e } ∧ ∀ r, r ≠ regionOf c.e → x.region r = d.region r

/-- The BUF, GOV, GLB and CNT commits are taken up for their bell. There a point and class takes the cells, headroom and limits given, a
queue its spill settings, the governor its policy, a monitor and an event counter what they watch, and a snapshot's completion carries
BEL_SEQ; and the command completes with ST_OK. -/
def Obligations.StorePowerAndCounterCommits : Prop :=
  (Commits (.bufSetAdmit, bufSetAdmit) (fun c _ => c.noRoom = false) (.buf :: .mac :: .bdy :: tells) (fun _ _ => 0) fun c d x =>
    let a := x.acct (d.admitPoint c.e) (c.e.f 16 27 24)
    let o := d.acct (d.admitPoint c.e) (c.e.f 16 27 24)
    a.minCells = c.e.f 20 22 0 ∧ a.headroom = c.e.f 24 22 0 ∧ a.alphaExp = clampI (-7) 3 (c.e.i 28 4) ∧ a.xonGap = max 1 (c.e.f 28 31 16) ∧
      a.useMin = o.useMin ∧ a.useShared = o.useShared ∧ a.useHead = o.useHead) ∧
  (Commits (.bufSetSpill, bufSetSpill) (fun _ _ => True) (.buf :: .drc :: .free :: tells) (fun _ _ => 0) fun c d x =>
    let q := x.queue (qIx (d.portField c.e) (c.e.f 16 19 16))
    let on := clamp 32 4194304 (c.e.f 20 22 0)
    q.absorb = c.e.b 16 20 ∧ q.spillOn = on ∧ q.spillOff = min (c.e.f 24 22 0) (on - 16) ∧ q.recallLo = clamp 64 65535 (c.e.f 28 15 0) ∧
      q.farMax = c.e.f 32 29 0 ∧ ∀ k, k ≠ qIx (d.portField c.e) (c.e.f 16 19 16) → x.queue k = d.queue k) ∧
  (Commits (.govSetPolicy, govSetPolicy) (fun c d => d.gov.step ≤ min 5 (c.e.f 16 26 24)) [.gov] (fun _ _ => 0) fun c d x =>
    x.gov = { d.gov with envelope := clamp 100 1500 (c.e.f 16 15 0), thermal := clamp 60 105 (c.e.f 16 23 16), maxStep := min 5 (c.e.f 16 26 24) }) ∧
  (Commits (.glbSnapshot, glbSnapshot) (fun _ _ => True) [] (fun _ d => d.bel.seq % 2 ^ 32) fun _ d x =>
    x = d) ∧
  (Commits (.cntSetMonitor, cntSetMonitor) (fun _ _ => True) [.cnt] (fun _ _ => 0) fun c d x =>
    AMap.find? x.cnt.monitors (c.e.f 16 7 0) = some { en := c.e.b 20 0, below := c.e.b 20 1, kind := c.e.f 20 5 2
                                                      index := d.monIndex (c.e.f 20 5 2) (c.e.f 20 31 16), thresh := c.e.f 24 31 0 } ∧
      (∀ m, m ≠ c.e.f 16 7 0 → AMap.find? x.cnt.monitors m = AMap.find? d.cnt.monitors m) ∧
      (AMap.rising d.cnt.monitors = true → AMap.rising x.cnt.monitors = true)) ∧
  Commits (.cntSetEventCounter, cntSetEvCounter) (fun _ _ => True) [.cnt] (fun _ _ => 0) fun c d x =>
    AMap.find? x.cnt.evcs (c.e.f 16 5 0) = some { event := c.e.f 20 15 0, en := c.e.b 20 16
                                                  filterEn := c.e.b 20 17 && !noFilter.contains (c.e.f 20 15 0), filter := c.e.f 24 13 0 } ∧
      ∀ k, k ≠ c.e.f 16 5 0 → AMap.find? x.cnt.evcs k = AMap.find? d.cnt.evcs k

/-! ### Network time -/

/-- On a port that runs the hardware message engines, a request is answered in class 15 with its receive time and correction; the transmit
timers queue messages numbered in order; the selected parent's Sync gives the servo its offset; and an answer to the outstanding request
gives a delay sample (02 R52, R54, R56, R63). Of everything else only time, counters and rings may change. -/
def Obligations.TimeMessages : Prop :=
  (∀ (dt : Nat) (m : SyncMsg) (s : State), Serving s → s.dev.engineWith m.port (s.dev.timPortAt m.port m.rxRef) = true → (s.dev.timPortAt
    m.port m.rxRef).role = 2 → m.domain = s.dev.tim.domain → s.dev.tim.servo.srcKind = 1 → s.dev.tim.servo.srcPort = m.port →
    s.dev.tim.servo.parentClock = m.clockId → s.dev.tim.servo.parentPort = m.portNum → Does (.syncRx dt m) s [.tim, .bel] fun x =>
    let diff := q16 ((s.dev.rxTime m.port m.rxRef : Nat) : Int) - q16 ((m.t1 : Nat) : Int) - m.corr
    (x.timPort m.port).syncDiff = some diff ∧ x.tim.servo.sourceValid = true ∧ x.tim.servo.since = s.dev.now + dt ∧
      x.tim.servo.offset = offsetQ (diff - (s.dev.meanD m.port).getD 0 - q16 (s.dev.timPortAt m.port m.rxRef).asym)) ∧
  (∀ (dt : Nat) (m : DelayReq) (s : State), Serving s → s.dev.engineWith m.port (s.dev.timPortAt m.port m.rxRef) = true → TakesCopies s.dev
    m.port → (s.dev.timPortAt m.port m.rxRef).role = 1 → s.dev.otherDomain 1 m.domain = false → Does (.delayReqRx dt m) s wayOfCopies fun x
    =>
    AwaitsEgress x m.port { kind := .delayResp, seq := m.seq, ts := s.dev.rxTime m.port m.rxRef, corr := m.corr, reqClock := m.clockId, reqPort := m.portNum }) ∧
  (∀ (dt : Nat) (m : DelayReq) (s : State), Serving s → s.dev.engineWith m.port (s.dev.timPortAt m.port m.rxRef) = true → TakesCopies s.dev
    m.port → (s.dev.timPortAt m.port m.rxRef).role = 1 ∨ (s.dev.timPortAt m.port m.rxRef).role = 2 → (s.dev.timPortAt m.port m.rxRef).p2p =
    true → s.dev.otherDomain 2 m.domain = false → Does (.pdelayReqRx dt m) s wayOfCopies fun x =>
    AwaitsEgress x m.port { kind := .pdelayResp, seq := m.seq, ts := s.dev.rxTime m.port m.rxRef, corr := m.corr, reqClock := m.clockId, reqPort := m.portNum }) ∧
  (∀ (dt n : Nat) (s : State), Serving s → SpeaksPtp s.dev n → (s.dev.timPort n).role = 1 → Does (.syncTxTimer dt n) s (.tim ::
    wayOfCopies) fun x =>
    AwaitsEgress x n { kind := .sync, seq := (s.dev.timPort n).seqSync } ∧
      x.timPort n = { s.dev.timPort n with seqSync := ((s.dev.timPort n).seqSync + 1) % 65536, syncAt := x.now } ∧
      x.now = (if (s.dev.timPort n).syncAt = 0 then s.dev.now + dt else max (s.dev.now + dt) ((s.dev.timPort n).syncAt + logInterval (s.dev.timPort n).logSync))) ∧
  (∀ (dt n : Nat) (s : State), Serving s → SpeaksPtp s.dev n → (s.dev.timPort n).role = 2 → (s.dev.timPort n).p2p = false → Does
    (.delayReqTxTimer dt n) s (.tim :: wayOfCopies) fun x =>
    AwaitsEgress x n { kind := .delayReq, seq := (s.dev.timPort n).seqDelayReq } ∧
      x.timPort n = { s.dev.timPort n with seqDelayReq := ((s.dev.timPort n).seqDelayReq + 1) % 65536, delayReqAt := x.now } ∧
      x.now = (if (s.dev.timPort n).delayReqAt = 0 then s.dev.now + dt else max (s.dev.now + dt) ((s.dev.timPort n).delayReqAt + logInterval (s.dev.timPort n).logDelayReq))) ∧
  (∀ (dt n : Nat) (s : State), Serving s → SpeaksPtp s.dev n → (s.dev.timPort n).role = 1 ∨ (s.dev.timPort n).role = 2 → (s.dev.timPort
    n).p2p = true → Does (.pdelayReqTxTimer dt n) s (.tim :: wayOfCopies) fun x =>
    AwaitsEgress x n { kind := .pdelayReq, seq := (s.dev.timPort n).seqPdelayReq } ∧
      x.timPort n = { s.dev.timPort n with seqPdelayReq := ((s.dev.timPort n).seqPdelayReq + 1) % 65536, pdelayReqAt := x.now } ∧
      x.now = (if (s.dev.timPort n).pdelayReqAt = 0 then s.dev.now + dt else max (s.dev.now + dt) ((s.dev.timPort n).pdelayReqAt + logInterval (s.dev.timPort n).logPdelayReq))) ∧
  (∀ (dt : Nat) (m : DelayResp) (t3 : Nat) (diff : Int) (s : State), Serving s → s.dev.engineWith m.port (s.dev.timPortAt m.port m.rxRef) =
    true → (s.dev.timPortAt m.port m.rxRef).role = 2 → (s.dev.timPortAt m.port m.rxRef).p2p = false → s.dev.otherDomain 9 m.domain = false →
    (s.dev.timPort m.port).delayReq = some (m.seq, t3) → (s.dev.timPort m.port).syncDiff = some diff → Does (.delayRespRx dt m) s [.tim] fun
    x =>
    (x.timPort m.port).delayReq = none ∧ (x.timPort m.port).delays =
      ((diff + (q16 ((m.t4 : Nat) : Int) - q16 ((t3 : Nat) : Int) - m.corr)) :: (s.dev.timPort m.port).delays).take 64) ∧
  ∀ (dt : Nat) (m : DelayResp) (t1 : Nat) (s : State), Serving s → s.dev.engineWith m.port (s.dev.timPortAt m.port m.rxRef) = true →
    (s.dev.timPortAt m.port m.rxRef).role ≠ 0 ∧ (s.dev.timPortAt m.port m.rxRef).role ≠ 3 → (s.dev.timPortAt m.port m.rxRef).p2p = true →
    s.dev.otherDomain 3 m.domain = false → (s.dev.timPort m.port).pdelayReq = some (m.seq, t1) → Does (.pdelayRespRx dt m) s [.tim] fun x =>
    (x.timPort m.port).pdelayReq = none ∧ (x.timPort m.port).delays =
      ((q16 ((s.dev.rxTime m.port m.rxRef : Nat) : Int) - q16 ((t1 : Nat) : Int) - m.corr) :: (s.dev.timPort m.port).delays).take 64

/-- A missing source leads a locked servo into holdover and holdover to its limit into free run; the pulse output rises at its second and
falls after its width; an input edge is stamped, and a missing one noted; the time-of-day line is sent, and one received with a good check
sum gives its second; and the EEC leaves lock on a lane's loss and takes lock (02 R65, R68, R69, R72 to R74). -/
def Obligations.TimeTimersAndPins : Prop :=
  (∀ (dt : Nat) (s : State), Serving s → s.dev.tim.servo.srcKind ≠ 0 → s.dev.tim.servo.state = .locked → Does (.sampleTimeout dt) s [.tim,
    .bel] fun x =>
    x.tim.servo.state = .holdover ∧ x.tim.servo.sourceValid = false ∧
      x.now = max (s.dev.now + dt) (s.dev.tim.servo.since + s.dev.tim.sampleTimeout * qPerMs)) ∧
  (∀ (dt : Nat) (s : State), Serving s → s.dev.tim.servo.state = .holdover → s.dev.tim.holdoverLimit ≠ 0 → Does (.holdoverLimit dt) s
    [.tim, .bel] fun x =>
    x.tim.servo.state = .freerun ∧ x.now = max (s.dev.now + dt) (s.dev.tim.servo.holdSince + s.dev.tim.holdoverLimit * qPerS)) ∧
  (∀ (dt : Nat) (s : State), Serving s → s.dev.tim.ppsOutEn = true → Does (.ppsOutRise dt) s [.tim, .pins] fun x =>
    x.pins.ppsOut = true ∧ x.tim.ppsSecond = (s.dev.elapse dt).nextSecond ∧ x.tim.ppsRiseAt = x.now) ∧
  (∀ (dt : Nat) (s : State), Serving s → s.dev.pins.ppsOut = true → Does (.ppsOutFall dt) s [.pins] fun x =>
    x.pins.ppsOut = false ∧ x.now = max (s.dev.now + dt) (s.dev.tim.ppsRiseAt + s.dev.tim.ppsWidth * qPerMs)) ∧
  (∀ (dt : Nat) (s : State), Serving s → s.dev.tim.ppsInEn = true → Does (.ppsInEdge dt) s [.tim, .bel] fun x =>
    x.tim.ppsInTs = s.dev.now + dt ∧ x.tim.ppsInAt = s.dev.now + dt ∧ x.tim.ppsInSeen = true ∧ (s.dev.tim.servo.srcKind ≠ 2 → x.tim.servo = s.dev.tim.servo)) ∧
  (∀ (dt : Nat) (s : State), Serving s → s.dev.tim.ppsInEn = true → s.dev.tim.ppsInSeen = true → Does (.ppsInMissing dt) s [.tim] fun x =>
    x.tim = { s.dev.tim with ppsInSeen := false } ∧ x.now = max (s.dev.now + dt) (s.dev.tim.ppsInAt + 1500 * qPerMs)) ∧
  (∀ (dt : Nat) (s : State), Serving s → s.dev.tim.todTx = true → s.dev.tim.ppsOutEn = true → Does (.todLineTx dt) s [] fun x =>
    x.out = .todLine s.dev.todLine :: s.dev.out ∧ x.now = max (s.dev.now + dt) (s.dev.tim.ppsRiseAt + qPerMs)) ∧
  (∀ (dt k : Nat) (line : List Byte) (s : State), Serving s → s.dev.tim.todRx = true → s.dev.tim.ppsInSeen = true → s.dev.now + dt ≤
    s.dev.tim.ppsInAt + 900 * qPerMs → todSecondsOf line = some k → Does (.todLineRx dt line) s [.tim] fun x =>
    x.tim = { s.dev.tim with todSeconds := some k }) ∧
  (∀ (dt : Nat) (s : State), Serving s → s.dev.tim.syncEn = true → Does (.synceLaneLoss dt) s [.tim] fun x =>
    x.tim.syncState = 2) ∧
  ∀ (dt : Nat) (s : State), Serving s → s.dev.tim.syncEn = true → s.dev.tim.syncState = 0 → Does (.eecLocked dt) s [.tim] fun x =>
    x.tim.syncState = 1

/-! ### Commands that end at once -/

/-- Each TIM setting, once accepted, completes with ST_OK and takes effect at once: a port takes its role, mechanism, transport and
asymmetry and no other port changes; the source is selected and not yet valid; an offset fed by the host is the servo's sample (02 R76,
R77, R81). -/
def Obligations.TimeSettings : Prop :=
  (∀ (dt : Nat) (e : CmdEntry) (s : State), Ready s dt timSetPort e → CanTell s e.ring → CompletesAtOnce (.timSetPort dt e) timSetPort e s
    [.tim] 0 fun x =>
    let p := x.timPort (s.dev.portField e)
    p.role = e.f 16 17 16 ∧ p.p2p = e.b 16 18 ∧ p.transport = e.f 16 20 19 ∧ p.twoStep = e.b 16 21 ∧
      p.asym = clampI (-40000) 40000 (e.i 24 32) ∧ p.partner = e.f 28 15 0) ∧
  (∀ (dt : Nat) (e : CmdEntry) (s : State) (n : Nat), Ready s dt timSetPort e → CanTell s e.ring → n ≠ s.dev.portField e → CompletesAtOnce
    (.timSetPort dt e) timSetPort e s [.tim] 0 fun x =>
    x.timPort n = s.dev.timPort n) ∧
  (∀ (dt : Nat) (e : CmdEntry) (s : State), Ready s dt timSelectSource e → CanTell s e.ring → CompletesAtOnce (.timSelectSource dt e)
    timSelectSource e s [.tim, .bel] 0 fun x =>
    let v := x.tim.servo
    v.srcKind = e.f 16 1 0 ∧ v.parentClock = e.f 20 63 0 ∧ v.parentPort = e.f 28 15 0 ∧ v.sourceValid = false ∧ v.since = s.dev.now + dt) ∧
  ∀ (dt : Nat) (e : CmdEntry) (s : State), Ready s dt timFeedOffset e → CanTell s e.ring → CompletesAtOnce (.timFeedOffset dt e)
    timFeedOffset e s [.tim, .bel] 0 fun x =>
    let v := x.tim.servo
    v.offset = offsetQ (q16 (e.i 16 32)) ∧ v.sourceValid = true ∧ v.since = s.dev.now + dt ∧ v.meanDelay = e.f 20 31 0

/-- Each of these settings, once accepted, completes with ST_OK and takes effect at once: a lane's equalizer sides are pinned with the
taps given; a port takes its flow-control mode, threshold, priority map, LPI times and greatest frame length, and no other port changes; a
Zuben lane takes its degrade exponent, its checks and its traces, and a slot its traces (03 R115, R117 to R119, 04 R157, R158). -/
def Obligations.PortAndLaneSettings : Prop :=
  (∀ (dt : Nat) (e : CmdEntry) (s : State), Ready s dt lnePinTaps e → CanTell s e.ring → s.dev.hasLane (satTo s.dev.topLane (e.f 16 10 0))
    = true → CompletesAtOnce (.lnePinTaps dt e) lnePinTaps e s [.lne] 0 fun x =>
    let y := x.lane (satTo s.dev.topLane (e.f 16 10 0))
    y.pinTx = e.b 16 16 ∧ y.pinRx = e.b 16 17 ∧ (e.b 16 16 = true → y.pre2 = clampI (-16) 16 (e.i 20 8) ∧
      y.pre1 = clampI (-32) 32 (e.i 21 8) ∧ y.post1 = clampI (-32) 32 (e.i 23 8) ∧
      y.main = fitMain y.pre2 y.pre1 y.post1 (satTo 64 (e.f 22 7 0)))) ∧
  (∀ (dt : Nat) (e : CmdEntry) (s : State), Ready s dt macSetFlowControl e → CanTell s e.ring → CompletesAtOnce (.macSetFlowControl dt e)
    macSetFlowControl e s [.mac] 0 fun x =>
    let p := x.port (s.dev.portField e)
    p.fcMode = e.f 16 17 16 ∧ p.pfcTx = max 1 (e.f 20 15 0) ∧ p.pfcMap = ((List.range 8).map fun k => e.f (24 + 2 * k) 15 0)) ∧
  (∀ (dt : Nat) (e : CmdEntry) (s : State), Ready s dt macSetLpi e → CanTell s e.ring → CompletesAtOnce (.macSetLpi dt e) macSetLpi e s
    [.mac] 0 fun x =>
    let o := s.dev.port (s.dev.portField e)
    let p := x.port (s.dev.portField e)
    p.lpiEn = e.b 16 16 ∧ p.holdUs = max 1 (e.f 24 15 0) ∧ p.twUs = max (Config.minWake o.speed o.phy o.fec % 65536) (e.f 20 15 0)) ∧
  (∀ (dt : Nat) (e : CmdEntry) (s : State) (n : Nat), Ready s dt macSetFrame e → CanTell s e.ring → CompletesAtOnce (.macSetFrame dt e)
    macSetFrame e s [.mac] 0 fun x =>
    (x.port (s.dev.portField e)).maxLen = clamp 1518 9216 (e.f 20 15 0) ∧ (n ≠ s.dev.portField e → x.port n = s.dev.port n)) ∧
  (∀ (dt : Nat) (e : CmdEntry) (s : State), Ready s dt zbnSetLane e → CanTell s e.ring → CompletesAtOnce (.zbnSetLane dt e) zbnSetLane e s
    watched 0 fun x =>
    let z := x.zlane (s.dev.laneField e)
    z.sdExp = clamp 5 9 (e.f 16 19 16) ∧ z.timSecEn = e.b 16 20 ∧ z.timPathEn = e.b 16 21 ∧
      (e.b 16 22 = true → z.txNext = some (traceField e 24)) ∧ (e.b 16 23 = true → z.expTrace = traceField e 40)) ∧
  ∀ (dt : Nat) (e : CmdEntry) (s : State), Ready s dt zbnSetSlotTrace e → CanTell s e.ring → CompletesAtOnce (.zbnSetSlotTrace dt e)
    zbnSetSlotTrace e s watched 0 fun x =>
    let z := x.zslot (s.dev.laneField e) (satTo 19 (e.f 16 20 16))
    (e.b 16 24 = true → z.txNext = some (traceField e 24)) ∧ (e.b 16 25 = true → z.expTrace = traceField e 40)

/-- Each of these, once accepted, completes with ST_OK at once: a page's row that had no spare use leaves service with the row's key kept;
a long operation is held or let go; a window of the counters is set; a unit kind takes its two thresholds, the second no milder than the
first; and the policy and the agreement time are set. -/
def Obligations.StoreCounterAndSubstituteSettings : Prop :=
  (∀ (dt : Nat) (e : CmdEntry) (s : State), Ready s dt drcQuarantine e → CanTell s e.ring → s.dev.serving (s.dev.pageField e %
    s.dev.glb.part.stacks) (s.dev.pageField e / s.dev.glb.part.stacks % 32) = none → CompletesAtOnce (.drcQuarantinePage dt e) drcQuarantine
    e s [] 0 fun x =>
    x.drc = s.dev.drc) ∧
  (∀ (dt i : Nat) (e : CmdEntry) (s : State), Ready s dt drcQuarantine e → s.dev.serving (s.dev.pageField e % s.dev.glb.part.stacks)
    (s.dev.pageField e / s.dev.glb.part.stacks % 32) = some i → Gives (.drcQuarantinePage dt e) s fun x =>
    let key := rowKey (s.dev.pageField e / (s.dev.glb.part.stacks * 32) % 32) (s.dev.pageField e / (s.dev.glb.part.stacks * 1024))
    key ∈ (x.chan i).quarantined ∨ key ∈ (x.chan i).retired) ∧
  (∀ (dt : Nat) (e : CmdEntry) (t : Cmd) (s : State), Ready s dt glbHoldOp e → CanTell s e.ring → s.dev.cmdAt (e.f 16 4 0) (e.f 16 27 16) =
    some t → CompletesAtOnce (.glbHoldOp dt e) glbHoldOp e s [] 0 fun x =>
    (x.cmdAt (e.f 16 4 0) (e.f 16 27 16)).map (fun c => c.held) = some (e.b 20 0)) ∧
  (∀ (dt : Nat) (e : CmdEntry) (s : State), Ready s dt cntSetWindow e → CanTell s e.ring → CompletesAtOnce (.cntSetWindow dt e)
    cntSetWindow e s [] 0 fun x =>
    AMap.find? x.cnt.windows (e.f 16 3 0) =
      some { en := e.b 16 8, family := e.f 20 4 0, first := famFirst (e.f 20 4 0) (e.f 24 19 0) }) ∧
  (∀ (dt : Nat) (e : CmdEntry) (s : State), Ready s dt subSetThreshold e → CanTell s e.ring → CompletesAtOnce (.subSetThreshold dt e)
    subSetThreshold e s [.sub] 0 fun x =>
    x.sub = { s.dev.sub with thresh := s.dev.sub.thresh.set (e.f 16 2 0) (e.f 20 15 0,
      if lowerWorse (e.f 16 2 0) then min (e.f 20 31 16) (e.f 20 15 0) else max (e.f 20 31 16) (e.f 20 15 0)) }) ∧
  ∀ (dt : Nat) (e : CmdEntry) (s : State), Ready s dt subSetPolicy e → CanTell s e.ring → CompletesAtOnce (.subSetPolicy dt e)
    subSetPolicy e s [.sub] 0 fun x =>
    x.sub.policy = e.f 16 11 0 ∧ x.sub.autoAgree = max 1 (e.f 20 7 0)

/-- Each read command, once accepted, completes with ST_OK at once, having written its record to the host address it names: performance
bins and traces, a timetable page, a rule, a meter, an entry of the forwarding table, a port's schedule, the DRAM eyes, counters, and the
module's identity. It changes nothing but what is sent, counters and rings. -/
def Obligations.ReadsAnswerTheHost : Prop :=
  (∀ (dt : Nat) (e : CmdEntry) (s : State), Ready s dt zbnReadPm e → CanTell s e.ring → CompletesAtOnce (.zbnReadPm dt e) zbnReadPm e s []
    0 fun x =>
    .data e.addr (pmRecord (s.dev.laneField e) (pmSel e) ((s.dev.zlane (s.dev.laneField e)).pm.bin (pmSel e))) ∈ x.out) ∧
  (∀ (dt : Nat) (e : CmdEntry) (s : State), Ready s dt zbnReadTrace e → CanTell s e.ring → CompletesAtOnce (.zbnReadTrace dt e)
    zbnReadTrace e s [] 0 fun x =>
    .data e.addr (Config.padTo 16 (s.dev.zlane (s.dev.laneField e)).rxTrace.accepted ++
      (List.range 20).flatMap fun k => Config.padTo 16 (s.dev.zslot (s.dev.laneField e) k).rxTrace.accepted) ∈ x.out) ∧
  (∀ (dt : Nat) (e : CmdEntry) (s : State), Ready s dt ttbReadPage e → CanTell s e.ring → CompletesAtOnce (.ttbReadPage dt e) ttbReadPage e
    s [] 0 fun x =>
    let t := s.dev.ttbLane (s.dev.laneField e)
    .data e.addr (if e.b 16 16 then t.pageB else t.pageA).readout ∈ x.out) ∧
  (∀ (dt : Nat) (e : CmdEntry) (s : State), Ready s dt prsReadRule e → CanTell s e.ring → CompletesAtOnce (.prsReadRule dt e) prsReadRule e
    s [] 0 fun x =>
    let r := s.dev.rule (e.f 16 15 0)
    .data e.addr (r.image ++ bytesLE 32 (b2n r.valid + 2 * b2n r.m0 + 4 * b2n r.m1)) ∈ x.out) ∧
  (∀ (dt : Nat) (e : CmdEntry) (s : State), Ready s dt prsReadMeter e → CanTell s e.ring → CompletesAtOnce (.prsReadMeter dt e)
    prsReadMeter e s [] 0 fun x =>
    .data e.addr ((s.dev.meter (meterIx e)).credit (s.dev.now + dt)).record ∈ x.out) ∧
  (∀ (dt loc : Nat) (e : CmdEntry) (y : FdbEntry) (s : State), Ready s dt fwdReadFdb e → CanTell s e.ring → s.dev.fdbFind (e.f 16 47 0)
    (e.f 16 59 48) = some (loc, y) → CompletesAtOnce (.fwdReadFdb dt e) fwdReadFdb e s [] 0 fun x =>
    .data e.addr (y.bytes true) ∈ x.out) ∧
  (∀ (dt : Nat) (e : CmdEntry) (s : State), Ready s dt fwdReadFdb e → CanTell s e.ring → s.dev.fdbFind (e.f 16 47 0) (e.f 16 59 48) = none
    → CompletesAtOnce (.fwdReadFdb dt e) fwdReadFdb e s [] 0 fun x =>
    .data e.addr (({ mac := e.f 16 47 0, fid := e.f 16 59 48 } : FdbEntry).bytes false) ∈ x.out) ∧
  (∀ (dt : Nat) (e : CmdEntry) (s : State), Ready s dt schReadPort e → CanTell s e.ring → CompletesAtOnce (.schReadPort dt e) schReadPort e
    s [] 0 fun x =>
    .data e.addr ((s.dev.elapse dt).readPortRec (s.dev.portField e)) ∈ x.out) ∧
  (∀ (dt : Nat) (e : CmdEntry) (s : State), Ready s dt drcReadEyes e → CanTell s e.ring → CompletesAtOnce (.drcReadEyes dt e) drcReadEyes e
    s [] 0 fun x =>
    .data e.addr ((List.range 170).flatMap fun b => bytesLE 4 (s.dev.dramLane (170 * s.dev.stackField e + b)).word) ∈ x.out) ∧
  (∀ (dt : Nat) (e : CmdEntry) (s : State), Ready s dt cntReadCounters e → CanTell s e.ring → e.b 16 8 = false → CompletesAtOnce
    (.cntReadCounters dt e) cntReadCounters e s [] 0 fun x =>
    let idx := (List.range (readRange e).2).map ((readRange e).1 + ·)
    .data e.addr (packRec 64 [(0, 0, 64, s.dev.cnt.snapSeq), (8, 0, 13, (readRange e).2), (10, 0, 1, 0)] ++
      (idx.flatMap fun v => bytesLE 8 (s.dev.cnt.value false (e.f 16 4 0) v)) ++
      bitBytes (idx.map fun v => s.dev.cnt.mark false (e.f 16 4 0) v)) ∈ x.out) ∧
  ∀ (dt : Nat) (e : CmdEntry) (s : State), Ready s dt glbQuery e → CanTell s e.ring → e.f 16 1 0 = 0 → CompletesAtOnce (.glbQuery dt e)
    glbQuery e s [] 0 fun x =>
    ∃ y : Dev, Only [.time, .hif, .cnt, .glb] s.dev y ∧ y.now = s.dev.now + dt ∧ .data e.addr y.queryRecord ∈ x.out

/-- PRC.GET_TRANSCRIPT with the chain selected writes its length and the chain; PRC.GET_RANDOM writes as many bytes as asked, counts those
of the approved generator and says so in bit 31 of the result; PRC.EXPORT_AUDIT of a module without an identity writes its records
unsigned. Each completes at once (18 R573, R574, R582). -/
def Obligations.ProctorReadsAnswerTheHost : Prop :=
  (∀ (dt : Nat) (e : CmdEntry) (s : State), Ready s dt prcGetTranscript e → CanTell s e.ring → e.f 16 0 0 = 1 → CompletesAtOnce
    (.prcGetTranscript dt e) prcGetTranscript e s [] (4 + Config.certChain.length) fun x =>
    .data e.addr (bytesLE 4 Config.certChain.length ++ Config.certChain) ∈ x.out ∧ x.prc = s.dev.prc) ∧
  (∀ (dt : Nat) (e : CmdEntry) (s : State), Ready s dt prcGetTranscript e → CanTell s e.ring → e.f 16 0 0 = 0 → CompletesAtOnce
    (.prcGetTranscript dt e) prcGetTranscript e s [.free] (384 + ranApproved) fun x =>
    x.free = s.dev.free + 1 ∧ x.prc = s.dev.prc) ∧
  (∀ (dt : Nat) (e : CmdEntry) (s : State), Ready s dt prcGetRandom e → CanTell s e.ring → e.b 16 16 = false → CompletesAtOnce
    (.prcGetRandom dt e) prcGetRandom e s [.free, .prc] ranApproved fun x =>
    .data e.addr ((List.range (clamp 1 4096 (e.f 16 12 0))).map fun i => Config.randomFree s.dev.free i % 256) ∈ x.out) ∧
  (∀ (dt : Nat) (e : CmdEntry) (s : State), Ready s dt prcGetRandom e → CanTell s e.ring → e.b 16 16 = true → CompletesAtOnce
    (.prcGetRandom dt e) prcGetRandom e s [.free] 0 fun x =>
    .data e.addr ((List.range (clamp 1 4096 (e.f 16 12 0))).map fun i => Config.noiseFree s.dev.free i % 256) ∈ x.out) ∧
  ∀ (dt : Nat) (e : CmdEntry) (s : State), Ready s dt prcExportAudit e → CanTell s e.ring → s.dev.prc.identity = false → CompletesAtOnce
    (.prcExportAudit dt e) prcExportAudit e s [] 0 fun x =>
    let rs := s.dev.prc.auditFrom (e.f 16 31 0)
    let first := match rs with | r :: _ => r.seq | [] => s.dev.prc.auditNext
    .data e.addr (packRec 64 [(0, 0, 16, 1), (4, 0, 32, rs.length), (8, 0, 64, Config.serial), (16, 0, 32, first),
      (20, 0, 32, s.dev.prc.auditNext), (24, 0, 64, s.dev.now + dt)] ++ rs.flatMap AuditRec.bytes ++ List.replicate 64 0) ∈ x.out

/-! ### Commands that wait or last, and the rows that complete them -/

/-- BEL.SET_PERIOD notes the change and its common bell; the row of that bell sets the period and epoch, cuts every passing window to half
the period, and completes it. BEL.REALIGN waits for a bell; off the grid it lengthens the period that this bell starts, and completes at
the next bell, or at once where the bell is on the grid. TIM.SET_TIME keeps the device time of its acceptance; the row of the next bell
steps device time and completes it. TTB.SWITCH_PAGE notes the switch; the row of the agreed bell makes the standby page active and
completes it with the tags of both sides. -/
def Obligations.BellCommandsWaitAndComplete : Prop :=
  (∀ (dt tai : Nat) (e : CmdEntry) (s : State), Ready s dt belSetPeriod e → s.dev.effectiveTai e = some tai → TakesUp (.belSetPeriod dt e)
    belSetPeriod e s .waiting [.bel] fun x =>
    x.bel = { s.dev.bel with pend := some { period := perField e, epoch := epochField e, tai, ring := e.ring, tag := e.tag } }) ∧
  (∀ (dt : Nat) (i : BellInput) (p : PendPeriod) (c : Cmd) (s : State), Rings s dt → (bellUpTo (bellStart s dt) i .period).bel.pend = some
    p → 2 * p.tai ≤ 2 * (bellUpTo (bellStart s dt) i .period).bel.lastTai + (bellUpTo (bellStart s dt) i .period).bel.period → (bellUpTo
    (bellStart s dt) i .period).hif.inflight.find? (fun y => y.op == belSetPeriod.op && y.stage == .waiting) = some c →
    let d := bellUpTo (bellStart s dt) i .period
    ∃ x, Only (.bel :: tells) d x ∧ BellMakes s dt i .period (x.finish c stOk 0) ∧
      x.bel = { d.bel with period := p.period, epoch := p.epoch, pend := none
                           ports := AMap.mapV d.bel.ports fun _ y => { y with pass := min y.pass (p.period / 2) } }) ∧
  (∀ (dt : Nat) (e : CmdEntry) (s : State), Ready s dt belRealign e → TakesUp (.belRealign dt e) belRealign e s .waiting [] fun x =>
    x.bel = s.dev.bel) ∧
  (∀ (dt : Nat) (i : BellInput) (c : Cmd) (s : State), Rings s dt → (bellDone s dt i).bel.err ≠ 0 → (bellDone s dt i).realigns true = [] →
    (bellDone s dt i).realigns false = [c] →
    let y := bellDone s dt i
    let p := y.bel.period * qPerNs
    ∃ x, exec (.bell dt i) s = .next { s with dev := x.settle } ∧ Only (.bel :: tells) y x ∧
      x.bel = { y.bel with phaseErr := y.bel.err, realigning := true, nextAt := y.bel.lastAt + p + (p - y.bel.phase) } ∧
      (x.cmdAt c.e.ring c.e.tag).map (fun c => c.pos) = some 1) ∧
  (∀ (dt : Nat) (i : BellInput) (c : Cmd) (s : State), Rings s dt → (bellDone s dt i).bel.err = 0 → (bellDone s dt i).realigns true ++
    (bellDone s dt i).realigns false = [c] →
    let y := bellDone s dt i
    ∃ x, exec (.bell dt i) s = .next { s with dev := x.settle } ∧ Only [.bel] (y.finish c stOk 0) x ∧
      x.bel = { y.bel with phaseErr := 0, realigning := false, nextAt := y.bel.lastAt + y.bel.period * qPerNs }) ∧
  (∀ (dt : Nat) (e : CmdEntry) (s : State), Ready s dt timSetTime e → TakesUp (.timSetTime dt e) timSetTime e s .waiting [] fun x =>
    (x.cmdAt e.ring e.tag).map (fun c => c.pos) = some (s.dev.now + dt)) ∧
  (∀ (dt : Nat) (i : BellInput) (c : Cmd) (s : State), Rings s dt → (s.dev.elapse dt).bellRings.tim.servo.pendingStep = none →
    (s.dev.elapse dt).bellRings.hif.inflight.filter (fun y => y.op == timSetTime.op && y.stage == .waiting && !y.mirrored) = [c] →
    let b := (s.dev.elapse dt).bellRings
    exec (.bell dt i) s = .next { s with dev := (bellDone s dt i).nextBell.settle } ∧
      bellStart s dt = (b.stepTime c.timeStep).finish c stOk 0 ∧ (b.stepTime c.timeStep).now = ((b.now : Int) + c.timeStep).toNat) ∧
  (∀ (dt : Nat) (e : CmdEntry) (s : State), Ready s dt ttbSwitchPage e → TakesUp (.ttbSwitchPage dt e) ttbSwitchPage e s .waiting [.ttb]
    fun x =>
    (x.ttbLane (s.dev.laneField e)).switch = some { ring := e.ring, tag := e.tag, initiate := e.b 16 16,
                                                    armMs := clamp 1 60000 (e.f 20 15 0), target := e.f 24 63 0, due := s.dev.bel.seq + 2 }) ∧
  ∀ (dt l : Nat) (a b : List Nat) (i : BellInput) (w : SwitchCmd) (c : Cmd) (s : State), Rings s dt → (bellUpTo (bellStart s dt) i
    .pages).zubenLanes = a ++ l :: b → (((bellUpTo (bellStart s dt) i .pages).each a Dev.pageTurn).zlane l).hs = .agreed → 2 * (((bellUpTo
    (bellStart s dt) i .pages).each a Dev.pageTurn).zlane l).hsTai ≤ 2 * ((bellUpTo (bellStart s dt) i .pages).each a
    Dev.pageTurn).bel.lastTai + ((bellUpTo (bellStart s dt) i .pages).each a Dev.pageTurn).bel.period → (((bellUpTo (bellStart s dt) i
    .pages).each a Dev.pageTurn).ttbLane l).switch = some w → ((bellUpTo (bellStart s dt) i .pages).each a Dev.pageTurn).cmdAt w.ring w.tag
    = some c →
    let was := bellUpTo (bellStart s dt) i .pages
    let d := was.each a Dev.pageTurn
    ∃ (x : Dev) (c' : Cmd), (x.ttbLane l).active = !(d.ttbLane l).active ∧ (x.ttbLane l).switch = none ∧ (x.zlane l).hs = .idle ∧ x.cmdAt w.ring w.tag = some c' ∧ c'.e = c.e ∧
      BellMakes s dt i .pages (((x.finish c' stOk ((d.zlane l).hsTag + b2n w.partnerTag * 2 ^ 16)).each b Dev.pageTurn).ratesSince was)

/-- MAC.SET_PORT_STATE completes at once where the port's administrative state is the one demanded; else it sets it, and starts to drain a
port that is up, and completes with the row that starts the port's training or ends its power-down. ZBN.SEND_MGMT joins its lane's queue
of frames and completes when its closing flag has been sent. ZBN.SET_FLEXE loads the calendar and completes at once, or with the switch
bit follows the switches under way and completes when the acknowledged calendar takes effect. -/
def Obligations.PortAndLaneCommandsWaitAndComplete : Prop :=
  (∀ (dt : Nat) (e : CmdEntry) (s : State), Ready s dt macSetPortState e → CanTell s e.ring → (s.dev.port (s.dev.portField e)).admin = e.b
    16 16 → (s.dev.port (s.dev.portField e)).requests = [] → CompletesAtOnce (.macSetPortState dt e) macSetPortState e s [.mac] 0 fun x =>
    x.port (s.dev.portField e) = s.dev.port (s.dev.portField e)) ∧
  (∀ (dt : Nat) (e : CmdEntry) (s : State), Ready s dt macSetPortState e → e.b 16 16 = true → (s.dev.port (s.dev.portField e)).admin =
    false → (s.dev.port (s.dev.portField e)).requests = [] → TakesUp (.macSetPortState dt e) macSetPortState e s .waiting [.mac] fun x =>
    x.port (s.dev.portField e) = { s.dev.port (s.dev.portField e) with admin := true
                                                                       requests := [{ ring := e.ring, tag := e.tag, enable := true, applied := true }] }) ∧
  (∀ (dt n : Nat) (c : Cmd) (s : State), Serving s → Stands s c → s.dev.bdy.state ≠ .paired → (s.dev.port n).state = .disabled →
    (s.dev.port n).admin = true → (s.dev.port n).requests = [{ ring := c.e.ring, tag := c.e.tag, enable := true, applied := true }] →
    (s.dev.flexe n).pend = [] → ∀ l ∈ s.dev.portLanes n, (s.dev.zlane l).mgmt = [] ∧ (s.dev.ttbLane l).switch = none → Does (.lanesPowered
    dt n) s wayOfFrames fun x =>
    (x.port n).state = .training ∧ (x.port n).requests = [] ∧ Completed s x c.e c.op stOk 0) ∧
  (∀ (dt : Nat) (e : CmdEntry) (s : State), Ready s dt macSetPortState e → e.b 16 16 = false → (s.dev.port (s.dev.portField e)).admin =
    true → (s.dev.port (s.dev.portField e)).requests = [] → (s.dev.port (s.dev.portField e)).state = .up → s.dev.buf.holddown ≠ 0 → Gives
    (.macSetPortState dt e) s fun x =>
    let p := x.port (s.dev.portField e)
    p.state = .draining ∧ p.admin = false ∧ p.requests = [{ ring := e.ring, tag := e.tag, enable := false, applied := true }]) ∧
  (∀ (dt n : Nat) (c : Cmd) (s : State), Serving s → Stands s c → s.dev.bdy.state ≠ .paired → (s.dev.port n).state = .poweringDown →
    (s.dev.port n).requests = [{ ring := c.e.ring, tag := c.e.tag, enable := false, applied := true }] → (s.dev.flexe n).pend = [] → ∀ l ∈
    s.dev.portLanes n, (s.dev.zlane l).mgmt = [] ∧ (s.dev.ttbLane l).switch = none → Does (.powerDownComplete dt n) s wayOfFrames fun x =>
    (x.port n).state = .disabled ∧ (x.port n).requests = [] ∧ Completed s x c.e c.op stOk 0) ∧
  (∀ (dt : Nat) (e : CmdEntry) (s : State), Ready s dt zbnSendMgmt e → s.dev.laneUp (s.dev.laneField e) = true → TakesUp (.zbnSendMgmt dt
    e) zbnSendMgmt e s .waiting [.zbn] fun x =>
    (x.zlane (s.dev.laneField e)).mgmt =
      (s.dev.zlane (s.dev.laneField e)).mgmt ++ [(e.ring, e.tag, e.bytes 24 (clamp 1 40 (e.f 16 23 16)), false)]) ∧
  (∀ (dt l : Nat) (m : List Byte) (sent : Bool) (r : List (Nat × Nat × List Byte × Bool)) (c : Cmd) (s : State), Serving s → Stands s c →
    s.dev.bdy.state ≠ .paired → (s.dev.zlane l).mgmt = (c.e.ring, c.e.tag, m, sent) :: r → (hdlcBytes m).length ≤ (s.dev.zlane l).mgmtPos →
    Does (.mgmtFrameSent dt l) s [.zbn] fun x =>
    x.zlane l = { s.dev.zlane l with mgmt := r, mgmtPos := 0 } ∧ Out.mgmt l m ∈ x.out ∧ Completed s x c.e c.op stOk 0) ∧
  (∀ (dt : Nat) (e : CmdEntry) (s : State), Ready s dt zbnSetFlexe e → e.b 16 16 = true → TakesUp (.zbnSetFlexe dt e) zbnSetFlexe e s
    .waiting [.zbn] fun x =>
    let f := x.flexe (s.dev.portField e)
    f.pend = (s.dev.flexe (s.dev.portField e)).pend ++ [(e.ring, e.tag, s.dev.bel.seq + 2)] ∧ f.group = clamp 1 0xFFFFE (e.f 20 19 0) ∧
      f.phy = clamp 1 254 (e.f 24 7 0)) ∧
  ∀ (dt : Nat) (e : CmdEntry) (s : State), Ready s dt zbnSetFlexe e → CanTell s e.ring → e.b 16 16 = false → CompletesAtOnce (.zbnSetFlexe
    dt e) zbnSetFlexe e s [.zbn] 0 fun x =>
    let f := x.flexe (s.dev.portField e)
    f.group = clamp 1 0xFFFFE (e.f 20 19 0) ∧ f.phy = clamp 1 254 (e.f 24 7 0)

/-- Flushes, readouts, roll calls, retrains and substitutions are in flight as long commands with their work noted; a recorder freezes
through its trigger and rearms at once when frozen; a barrier ends at once when nothing accepted before it is in flight, and else waits
for exactly that; and an abort of a command that has only been fetched ends both. A flush, a readout, a roll call and a cut-over of a
retrained channel or of a substitute complete their command with the row that ends them, the last two with the row of the bell. -/
def Obligations.StoreAndHostCommandsWaitOrLast : Prop :=
  (∀ (dt : Nat) (e : CmdEntry) (s : State), Ready s dt fwdFlushFdb e → TakesUp (.fwdFlushFdb dt e) fwdFlushFdb e s .long [] fun x =>
    (x.cmdAt e.ring e.tag).map (fun c => c.total) = some 1048576) ∧
  (∀ (dt : Nat) (c : Cmd) (s : State), Serving s → Stands s c → s.dev.bdy.state = .off → c.op = fwdFlushFdb.op → c.stage = .long → c.held =
    false → s.dev.bgPaused = false → Does (.fdbFlushDone dt c.e.ring c.e.tag) s [.fwd] fun x =>
    let hit := fun (y : Nat × FdbEntry) => decide (c.pos ≤ y.1) && decide (y.1 < 1048576) && s.dev.flushTakes c.e y.2
    x.fwd.fdb = s.dev.fwd.fdb.filter (fun y => !hit y) ∧ Completed s x c.e c.op stOk (c.tally + (s.dev.fwd.fdb.filter hit).length)) ∧
  (∀ (dt : Nat) (e : CmdEntry) (s : State), Ready s dt fwdFreezeRecorder e → (s.dev.region (regionOf e)).state = .recording → (s.dev.region
    (regionOf e)).postPages ≠ 0 → TakesUp (.fwdFreezeRecorder dt e) fwdFreezeRecorder e s .waiting [.fwd] fun x =>
    let r := x.region (regionOf e)
    r.state = .post ∧ r.trigger = 0 ∧ r.trigTime = s.dev.now + dt ∧
      r.freezeWait = (s.dev.region (regionOf e)).freezeWait ++ [(e.ring, e.tag)]) ∧
  (∀ (dt : Nat) (e : CmdEntry) (s : State), Ready s dt fwdFreezeRecorder e → CanTell s e.ring → (s.dev.region (regionOf e)).state = .frozen
    → CompletesAtOnce (.fwdFreezeRecorder dt e) fwdFreezeRecorder e s [] 0 fun x =>
    x.region (regionOf e) = s.dev.region (regionOf e)) ∧
  (∀ (dt : Nat) (e : CmdEntry) (s : State), Ready s dt fwdRearmRecorder e → CanTell s e.ring → (s.dev.region (regionOf e)).state = .frozen
    → (s.dev.region (regionOf e)).rearmWait = [] → CompletesAtOnce (.fwdRearmRecorder dt e) fwdRearmRecorder e s [.fwd] 0 fun x =>
    let r := x.region (regionOf e)
    r.state = .recording ∧ r.pageSeq = 0 ∧ r.recSeq = 0 ∧ r.missed = 0 ∧ r.store = []) ∧
  (∀ (dt : Nat) (e : CmdEntry) (s : State), Ready s dt fwdReadRecorder e → TakesUp (.fwdReadRecorder dt e) fwdReadRecorder e s .long [.fwd,
    .drc] fun x =>
    let r := x.region (regionOf e)
    r.state = .reading ∧ r.reader = some (e.ring, e.tag) ∧
      (x.cmdAt e.ring e.tag).map (fun c => c.total) = some (readCount (s.dev.region (regionOf e)) e)) ∧
  (∀ (dt r : Nat) (c : Cmd) (s : State), Serving s → Stands s c → s.dev.bdy.state ≠ .paired → (s.dev.region r).reader = some (c.e.ring,
    c.e.tag) → c.held = false → (s.dev.region r).rearmWait = [] ∧ (s.dev.region r).disableWait = [] → Does (.recorderReadDone dt r) s [.fwd,
    .drc, .free] fun x =>
    (x.region r).state = .frozen ∧ (x.region r).reader = none ∧ Completed s x c.e c.op stOk c.tally ∧
      ∀ k, c.pos ≤ k → k < c.total → ∃ w, Out.data (readAddr c.e + k * 4096) w ∈ x.out) ∧
  (∀ (dt : Nat) (e : CmdEntry) (s : State), Ready s dt bufRollCall e → TakesUp (.bufRollCall dt e) bufRollCall e s .long [.buf] fun x =>
    x.buf = { s.dev.buf with roll := some { ring := e.ring, tag := e.tag, near := rollNear e, far := rollFar e, reclaim := e.b 16 8
                                            addr := e.addr, startSeq := s.dev.bel.seq + 1 } } ∧
      (x.cmdAt e.ring e.tag).map (fun c => c.total) = some (rollTotal (rollNear e) (rollFar e))) ∧
  (∀ (dt : Nat) (g : RollCall) (fs : List RollFinding) (c : Cmd) (s : State), Serving s → Stands s c → s.dev.bdy.state ≠ .paired →
    s.dev.buf.roll = some g → g.ring = c.e.ring ∧ g.tag = c.e.tag → g.startSeq ≤ s.dev.bel.seq → s.dev.rollHeld g = false → Does
    (.rollCallDone dt fs) s [.buf] fun x =>
    x.buf.roll = none ∧ Completed s x c.e c.op stOk 0 ∧ ∃ w, Out.data g.addr w ∈ x.out) ∧
  (∀ (dt slot : Nat) (e : CmdEntry) (s : State), Ready s dt drcRetrain e → s.dev.slotWhere (s.dev.stackField e) (fun r => r.phase == 0) =
    some slot → TakesUp (.drcRetrainChannel dt e) drcRetrain e s .long [.drc] fun x =>
    x.retrain (s.dev.stackField e) slot = { phase := 1, logical := e.f 16 12 8, command := some (e.ring, e.tag) }) ∧
  (∀ (dt j : Nat) (a b : AMap Retrain) (i : BellInput) (r : Retrain) (c : Cmd) (s : State), Rings s dt → (bellUpTo (bellStart s dt) i
    .pairs).bellPair.channelsDue = a ++ (j, r) :: b → ((bellUpTo (bellStart s dt) i .pairs).bellPair.each a Dev.channelTurn).retrain (j / 2)
    (j % 2) = r → r.phase = 5 → r.permanent = false → r.command = some (c.e.ring, c.e.tag) → ((bellUpTo (bellStart s dt) i
    .pairs).bellPair.each a Dev.channelTurn).cmdAt c.e.ring c.e.tag = some c →
    let d := (bellUpTo (bellStart s dt) i .pairs).bellPair.each a Dev.channelTurn
    ∃ x, Only (.drc :: .free :: tells) d x ∧ (x.chan (34 * (j / 2) + r.source)).state = .service ∧ (x.retrain (j / 2) (j % 2)).phase = 0 ∧
      BellMakes s dt i .pairs (((x.finish c stOk 0).each b Dev.channelTurn).subCuts.bellClaims)) ∧
  (∀ (dt : Nat) (e : CmdEntry) (s : State), Ready s dt glbBarrier e → CanTell s e.ring → ∀ c ∈ s.dev.hif.inflight, c.mirrored = true →
    CompletesAtOnce (.glbBarrier dt e) glbBarrier e s [] 0 fun x =>
    x.bel = s.dev.bel) ∧
  (∀ (dt : Nat) (e : CmdEntry) (c : Cmd) (s : State), Ready s dt glbBarrier e → e.b 16 0 = true → e.b 16 1 = false → c ∈ s.dev.hif.inflight
    → c.mirrored = false → c.stage ≠ .fetched → c.stage ≠ .journalled → TakesUp (.glbBarrier dt e) glbBarrier e s .waiting [] fun x =>
    ((x.cmdAt e.ring e.tag).map fun y => decide ((c.e.ring, c.e.tag) ∈ y.waits)) = some true) ∧
  (∀ (dt : Nat) (e : CmdEntry) (t : Cmd) (s : State), Ready s dt (glbAbort specOf0) e → CanTell s e.ring → s.dev.cmdAt (e.f 16 4 0) (e.f 16
    27 16) = some t → t.stage = .fetched → t.cring ≠ (s.dev.ring e.ring).lCring → CompletesAtOnce (.glbAbort dt e) (glbAbort specOf0) e s []
    1 fun x =>
    x.cmdAt (e.f 16 4 0) (e.f 16 27 16) = none) ∧
  (∀ (dt k : Nat) (e : CmdEntry) (s : State), Ready s dt subSubstitute e → s.dev.freeSlot = some k → TakesUp (.subSubstitute dt e)
    subSubstitute e s .long [.sub] fun x =>
    let y := AMap.getD x.sub.slots k {}
    y.kind = e.f 16 2 0 ∧ y.unit = s.dev.unitField e ∧ y.target = e.f 24 63 0 ∧ y.command = some (e.ring, e.tag) ∧
      y.deadline = s.dev.now + dt + clamp 10 60000 (e.f 20 15 0) * qPerMs) ∧
  (∀ (dt k : Nat) (a b : AMap SubSlot) (i : BellInput) (r : SubSlot) (c : Cmd) (s : State), Rings s dt → (bellUpTo (bellStart s dt) i
    .pairs).bellPair.channelCuts.subsAtBell = a ++ (k, r) :: b → AMap.find? ((bellUpTo (bellStart s dt) i .pairs).bellPair.channelCuts.each
    a Dev.subTurn).sub.slots k = some r → r.kind = 3 ∨ r.kind = 5 ∨ r.kind = 6 → r.step = 6 → r.command = some (c.e.ring, c.e.tag) →
    ((bellUpTo (bellStart s dt) i .pairs).bellPair.channelCuts.each a Dev.subTurn).cmdAt c.e.ring c.e.tag = some c →
    let d := (bellUpTo (bellStart s dt) i .pairs).bellPair.channelCuts.each a Dev.subTurn
    ∃ x, Only (.sub :: tells) d x ∧ (x.unitAt r.kind r.spare).state = 1 ∧ (r.spare ≠ r.unit → (x.unitAt r.kind r.unit).state = 3) ∧ AMap.find? x.sub.slots k = none ∧
      BellMakes s dt i .pairs (((x.finish (c.at r.total r.total) stOk 0).each b Dev.subTurn).bellClaims)) ∧
  ∀ (dt k : Nat) (a b : AMap SubSlot) (i : BellInput) (r : SubSlot) (c : Cmd) (s : State), Rings s dt → (bellUpTo (bellStart s dt) i
    .pairs).bellPair.channelCuts.subsAtBell = a ++ (k, r) :: b → AMap.find? ((bellUpTo (bellStart s dt) i .pairs).bellPair.channelCuts.each
    a Dev.subTurn).sub.slots k = some r → r.kind = 1 → r.laneDue ((bellUpTo (bellStart s dt) i .pairs).bellPair.channelCuts.each a
    Dev.subTurn).now = true → (((bellUpTo (bellStart s dt) i .pairs).bellPair.channelCuts.each a Dev.subTurn).zlane (1024 + r.spare)).align
    = .sync → r.command = some (c.e.ring, c.e.tag) → ((bellUpTo (bellStart s dt) i .pairs).bellPair.channelCuts.each a Dev.subTurn).cmdAt
    c.e.ring c.e.tag = some c →
    let d := (bellUpTo (bellStart s dt) i .pairs).bellPair.channelCuts.each a Dev.subTurn
    ∃ (x : Dev) (c' : Cmd), Only (.lne :: .sub :: tells ++ watched) d x ∧ (x.lane (1024 + r.spare)).use = 2 ∧ (x.lane (1024 + r.spare)).replaces = r.unit ∧
      AMap.find? x.sub.slots k = none ∧ c'.e = c.e ∧
      BellMakes s dt i .pairs (((x.finish (c'.at 4 r.total) stOk 0).each b Dev.subTurn).bellClaims)

/-- BDY.PAIR sets the module's index and enters LINKING with its deadline noted, and completes when the link to the buddy it accepts is
up, in LINKED. BDY.REJOIN notes the rejoin and its total; its cut-over enters PAIRED and hands its completion to the buddy's store (R537).
BDY.UNPAIR waits for its bell, and from there on it drains and stays in flight; drained, the module is OFF and the command completes. -/
def Obligations.PairCommandsWaitOrLast : Prop :=
  (∀ (dt : Nat) (e : CmdEntry) (s : State), Ready s dt bdyPair e → TakesUp (.bdyPair dt e) bdyPair e s .waiting [.bdy, .lne, .zbn] fun x =>
    x.bdy.state = .linking ∧ x.bdy.index = e.f 16 0 0 ∧ x.bdy.linkUp = false ∧
      (x.bdy.pairing.map fun p => (p.ring, p.tag, p.deadline, p.peerSerial)) =
        some (e.ring, e.tag, s.dev.now + dt + clamp 10 60000 (e.f 20 15 0) * qPerMs, e.f 24 63 0)) ∧
  (∀ (dt : Nat) (b : BuddyId) (p : Pairing) (c : Cmd) (s : State), Serving s → Stands s c → s.dev.bdy.linkUp = false → s.dev.bdy.state =
    .linking → s.dev.linkWhole = true → s.dev.bdy.pairing = some p → p.ring = c.e.ring ∧ p.tag = c.e.tag → s.dev.pairFails p b = none →
    s.dev.bdy.txq = [] → Does (.buddyLinkUp dt b) s (.bdy :: .ttb :: triggered) fun x =>
    x.bdy.state = .linked ∧ x.bdy.pairing = none ∧ x.bdy.peerSerial = b.serial ∧ Completed s x c.e c.op stOk 0) ∧
  (∀ (dt : Nat) (e : CmdEntry) (s : State), Ready s dt bdyRejoin e → TakesUp (.bdyRejoin dt e) bdyRejoin e s .long [.bdy] fun x =>
    x.bdy.rejoin = some { source := true, ring := e.ring, tag := e.tag, restoreLocal := e.b 16 0 } ∧
      (x.cmdAt e.ring e.tag).map (fun c => c.total) = some (Config.rejoinTotal s.dev.bel.seq)) ∧
  (∀ (dt : Nat) (r : Rejoin) (c : Cmd) (s : State), Serving s → s.dev.bdy.state = .syncing → s.dev.bdy.rejoin = some r → r.started = true →
    r.source = true → (s.dev.elapse dt).atBell = true → s.dev.rejoinHeld r = false → s.dev.cmdAt r.ring r.tag = some c → s.dev.bdy.txq = []
    → Does (.rejoinCutover dt) s (.bdy :: .ttb :: triggered) fun x =>
    x.bdy.state = .paired ∧ x.bdy.rejoin = none ∧ x.bdy.authority = false ∧ x.cmdAt r.ring r.tag = none ∧
      x.bdy.own = s.dev.bdy.own ++ [.completion s.dev.bdy.nextSeq c.cring { (({ c with pos := c.total } : Cmd).completion stOk 0) with module := s.dev.module }]) ∧
    (AcceptsForItsBell (.bdyUnpair, bdyUnpair)) ∧
  (∀ (c : Cmd) (d : Dev), c.mirrored = false →
    (bdyUnpair.apply c d).bdy.unpairDraining = true ∧ (bdyUnpair.apply c d).bdy.unpairing = some (c.e.ring, c.e.tag)) ∧
  ∀ (dt : Nat) (c : Cmd) (s : State), Serving s → Stands s c → s.dev.bdy.unpairDraining = true → s.dev.bdy.unpairing = some (c.e.ring,
    c.e.tag) → s.dev.bdy.txq = [] → s.dev.bdy.pairing = none ∧ s.dev.bdy.rejoin = none → s.dev.hif.inflight = [c] → c.stage = .waiting →
    s.dev.bdy.own = [] → ∀ f ∈ s.dev.buf.frames, f.2.away = 0 → Does (.unpairDrained dt) s (.bdy :: .ttb :: .buf :: .lne :: .zbn ::
    triggered) fun x =>
    x.bdy.state = .off ∧ x.bdy.linkUp = false ∧ x.bdy.unpairDraining = false ∧ x.bdy.authority = false ∧ Completed s x c.e c.op stOk 0

/-- With a valid officer signature PRC.UPDATE_FIRMWARE holds the image and its versions with its total in KiB, PRC.SEAL_CONFIG with a
scope awaits its bell, and PRC.ZEROIZE enters ZEROIZING and waits for the end of the erasure; and the number of the signature is the last
one used. A staged image without a fault, where the flash keeps it, makes the other bank active; a digest that equals the payload seals; a
verified erasure leaves no key; and each completes its command, with bit 31 of the result set for an approved service. -/
def Obligations.OfficerCommandsTakeUpAndComplete : Prop :=
  (∀ (dt : Nat) (e : CmdEntry) (s : State), Signed s dt prcUpdateFirmware e → Gives (.prcUpdateFirmware dt e) s fun x =>
    InFlight x e 0x1202 .long ∧ x.prc.officerSeq = natLE ((e.extBytes.drop 16).take 8) ∧
      (x.prc.update.map fun u => (u.ring, u.tag, u.activate, u.image)) =
        some (e.ring, e.tag, e.b 20 0, Config.padTo (fwLength e) e.mem)) ∧
  (∀ (dt : Nat) (e : CmdEntry) (s : State), Signed s dt prcSealConfig e → sealScope e ≠ 0 → Gives (.prcSealConfig dt e) s fun x =>
    InFlight x e 0x1205 .waiting ∧ x.prc.officerSeq = natLE ((e.extBytes.drop 16).take 8) ∧ x.prc.sealing = s.dev.prc.sealing ++
      [{ ring := e.ring, tag := e.tag, scope := sealScope e, payload := e.payload, due := s.dev.bel.seq + 2 }]) ∧
  (∀ (dt : Nat) (e : CmdEntry) (s : State), Signed s dt prcZeroize e → s.dev.prc.zeroizing = none → s.dev.prc.sealing = [] →
    s.dev.prc.update = none → Gives (.prcZeroize dt e) s fun x =>
    InFlight x e 0x1203 .waiting ∧ x.prc.officerSeq = natLE ((e.extBytes.drop 16).take 8) ∧ x.prc.state = .zeroizing ∧ (x.prc.zeroizing.map fun z => z.commands) = some [(e.ring, e.tag)]) ∧
  (∀ (dt : Nat) (u : FwUpdate) (c : Cmd) (s : State), Serving s → Stands s c → s.dev.bdy.state ≠ .paired → s.dev.prc.update = some u →
    u.ring = c.e.ring ∧ u.tag = c.e.tag → c.op = prcUpdateFirmware.op → c.stage = .long → c.held = false → imageFault u.image c.e.payload
    s.dev.prc.rollback = none → Config.flashGood s.dev.free = true → Does (.firmwareStaged dt) s [.prc, .free] fun x =>
    x.prc.update = none ∧ x.prc.staged = some (u.version, u.secVersion) ∧ x.prc.activeBank = 1 - s.dev.prc.bank ∧ Completed s x c.e c.op stOk (c.total ||| ranApproved)) ∧
  (∀ (dt : Nat) (y : SealPending) (c : Cmd) (s : State), Serving s → Stands s c → s.dev.bdy.state ≠ .paired → c.op = prcSealConfig.op →
    c.stage = .waiting → y.ring = c.e.ring ∧ y.tag = c.e.tag → s.dev.prc.sealing = [y] → y.computed = some y.payload → Does
    (.sealDigestChecked dt) s [.prc] fun x =>
    x.prc.sealed = y.scope ∧ x.prc.sealDigest = y.payload ∧ x.prc.sealing = [] ∧ Completed s x c.e c.op stOk ranApproved) ∧
  ∀ (dt : Nat) (z : Zeroizing) (c : Cmd) (s : State), Quiet s → Stands s c → s.dev.prc.zeroizing = some z → z.attempts < 3 → z.commands =
    [(c.e.ring, c.e.tag)] → z.began = 2 ∨ z.began = 5 → c.op = prcZeroize.op → c.stage = .waiting → Gives (.zeroizeAttemptDone dt true) s
    fun x =>
    x.prc.key = List.replicate 16 0 ∧ x.prc.keyLocks = 0 ∧ x.prc.identity = false ∧ x.prc.sealed = 0 ∧ x.prc.state = .boot ∧ x.glb.phase = 0 ∧
      Completed s x c.e c.op stOk ranApproved

/-! ### Lanes and ports -/

/-- A lane in a state of bring-up goes on to the state that 03 R91 names at each of its rows, and back to WAIT_SIGNAL at a timeout or a
loss of its link, with its signal and lock marks as the state says; an eye reading of a lane in UP is kept. Ports, stores and queues do
not change but by supervision and triggers. -/
def Obligations.LaneBringUp : Prop :=
  (∀ (dt l : Nat) (s : State), Serving s → (s.dev.lane l).state = .waitSignal → Does (.laneSignalDetected dt l) s (.lne :: .sub :: watched)
    fun x =>
    (x.lane l).state = s.dev.afterSignal l ∧ (x.lane l).signal = true) ∧
  (∀ (dt l : Nat) (s : State), Serving s → (s.dev.lane l).state = .an → Does (.anResolved dt l false) s (.lne :: .sub :: watched) fun x =>
    (x.lane l).state = .train ∧ (x.lane l).lacksMode = false) ∧
  (∀ (dt l : Nat) (s : State), Serving s → (s.dev.lane l).state = .train → Does (.trainingComplete dt l) s (.lne :: .sub :: watched) fun x
    =>
    (x.lane l).state = .lock ∧ (x.lane l).cdrLock = true) ∧
  (∀ (dt l : Nat) (s : State), Serving s → (s.dev.lane l).state = .train → Does (.trainingTimeout dt l) s (.lne :: .sub :: watched) fun x
    =>
    (x.lane l).state = .waitSignal ∧ (x.lane l).signal = false ∧ (x.lane l).cdrLock = false) ∧
  (∀ (dt l : Nat) (s : State), Serving s → (s.dev.lane l).state = .adapt → Does (.adaptationComplete dt l) s (.lne :: .sub :: watched) fun
    x =>
    (x.lane l).state = .lock ∧ (x.lane l).cdrLock = true) ∧
  (∀ (dt l : Nat) (s : State), Serving s → (s.dev.lane l).state = .adapt → Does (.adaptationTimeout dt l) s (.lne :: .sub :: watched) fun x
    =>
    (x.lane l).state = .waitSignal ∧ (x.lane l).signal = false ∧ (x.lane l).cdrLock = false ∧
      x.now = max (s.dev.now + dt) ((s.dev.lane l).since + 100 * qPerMs)) ∧
  (∀ (dt l : Nat) (s : State), Serving s → (s.dev.lane l).state = .lock → Does (.lockAchieved dt l) s (.lne :: .sub :: watched) fun x =>
    (x.lane l).state = .up ∧ (x.lane l).blockLock = true) ∧
  (∀ (dt l : Nat) (s : State), Serving s → (s.dev.lane l).state = .lock → Does (.lockTimeout dt l) s (.lne :: .sub :: watched) fun x =>
    (x.lane l).state = .waitSignal ∧ (x.lane l).signal = false ∧ (x.lane l).cdrLock = false ∧ (x.lane l).blockLock = false ∧
      x.now = max (s.dev.now + dt) ((s.dev.lane l).since + 10 * qPerMs)) ∧
  (∀ (dt l : Nat) (s : State), Serving s → (s.dev.lane l).state = .an → Does (.anResolved dt l true) s (.lne :: .sub :: watched) fun x =>
    (x.lane l).state = .an ∧ (x.lane l).lacksMode = true) ∧
  (∀ (dt l m : Nat) (s : State), Serving s → (s.dev.lane l).state = .up → s.dev.carried l = some m → l < 1024 → (s.dev.port (s.dev.lane
    m).port).state = .up → s.dev.buf.holddown ≠ 0 → Does (.laneLinkLoss dt l) s wayOfFrames fun x =>
    (x.lane l).state = .waitSignal ∧ (x.port (s.dev.lane m).port).state = .hold) ∧
  ∀ (dt : Nat) (r : EyeReading) (s : State), Serving s → (s.dev.lane r.lane).state = .up → Does (.eyeMeasurement dt [r]) s [.lne, .sub]
    fun x =>
    (x.lane r.lane).vert = r.vert % 65536 ∧ (x.lane r.lane).horiz = r.horiz % 65536 ∧ (x.lane r.lane).state = .up

/-- An enabled port in DISABLED trains with its lanes waiting for signal; a qualified one enters UP; a fault puts a port in UP into HOLD;
the hold-down's end, or an emptied drain, begins FLUSHING, whose end leads back to training or to powering down; and powering down ends in
DISABLED with the lanes off. A mismatch held over three bells is posted once. -/
def Obligations.PortLifeCycle : Prop :=
  (∀ (dt n : Nat) (s : State), Serving s → (s.dev.port n).state = .disabled → (s.dev.port n).admin = true → (s.dev.port n).requests.length
    ≤ 1 → Does (.lanesPowered dt n) s wayOfFrames fun x =>
    (x.port n).state = .training ∧ ∀ l ∈ s.dev.carriers n, (x.lane l).state = .waitSignal) ∧
  (∀ (dt n : Nat) (s : State), Serving s → (s.dev.port n).state = .training ∨ (s.dev.port n).state = .hold → s.dev.upCondition n = true →
    Does (.portUpQualified dt n) s [.mac, .buf] fun x =>
    (x.port n).state = .up ∧ (x.port n).idleSince = x.now ∧ x.now = max (s.dev.now + dt) (s.dev.qualifiedSince n + qPerMs) ∧
      AMap.find? x.buf.holds n = none) ∧
  (∀ (dt n : Nat) (lf rf : Bool) (s : State), Serving s → s.dev.portExists n = true → Does (.faultRx dt n lf rf) s wayOfFrames fun x =>
    (x.port n).localFault = lf ∧ (x.port n).remoteFault = rf) ∧
  (∀ (dt n : Nat) (lf rf : Bool) (s : State), Serving s → (s.dev.port n).state = .up → lf = true ∨ rf = true → s.dev.buf.holddown ≠ 0 →
    Does (.faultRx dt n lf rf) s wayOfFrames fun x =>
    (x.port n).state = .hold ∧ AMap.find? x.buf.holds n = some { expires := s.dev.now + dt + s.dev.buf.holddown * qPerMs }) ∧
  (∀ (dt n : Nat) (h : HoldDown) (s : State), Serving s → AMap.find? s.dev.buf.holds n = some h → Does (.holdDownExpiry dt n) s wayOfFrames
    fun x =>
    (x.port n).state = .flushing ∧ x.now = max (s.dev.now + dt) h.expires) ∧
  (∀ (dt n : Nat) (s : State), Serving s → (s.dev.port n).state = .flushing → Does (.portFlushEnd dt n) s wayOfFrames fun x =>
    (x.port n).state = if (s.dev.port n).flushFromHold && (s.dev.port n).admin then .training else .poweringDown) ∧
  (∀ (dt n : Nat) (s : State), Serving s → (s.dev.port n).state = .draining → s.dev.portIsEmpty n = true → Does (.portEmpty dt n) s
    wayOfFrames fun x =>
    (x.port n).state = .flushing) ∧
  (∀ (dt n : Nat) (s : State), Serving s → (s.dev.port n).state = .poweringDown → (s.dev.port n).requests.length ≤ 1 → Does
    (.powerDownComplete dt n) s wayOfFrames fun x =>
    (x.port n).state = .disabled ∧ ∀ l ∈ s.dev.carriers n, (x.lane l).state = .off) ∧
  ∀ (dt n : Nat) (s : State), Serving s → s.dev.portExists n = true → 3 ≤ (s.dev.port n).mmBells → (s.dev.port n).mmPosted = false →
    (s.dev.elapse dt).atBell = true → Does (.portMismatchHeld dt n) s [.mac] fun x =>
    x.port n = { s.dev.port n with mmPosted := true }

/-- A good control frame of the port's mode sets its pause times and one of the other mode is noted; when a pause ends, every queue of the
port is paused exactly as the timers say; a flow-control frame that is due, or repeated, names what is in XOFF; and a port enters
low-power idle after its idle hold, starts to wake before a bell with cyclic budget, and notes the partner's idle. -/
def Obligations.FlowControlAndLpi : Prop :=
  (∀ (dt n : Nat) (data : List Byte) (s : State), Serving s → s.dev.portExists n = true → (s.dev.port n).fcMode = 1 → natBE (subBytes data
    14 2) = 1 → Does (.macControlFrameRx dt n data) s wayOfFrames fun x =>
    let q := natBE (subBytes data 16 2)
    (x.port n).pauseUntil = if q = 0 then 0 else s.dev.now + dt + quantaTime (s.dev.port n).bps q) ∧
  (∀ (dt n : Nat) (data : List Byte) (s : State), Serving s → s.dev.portExists n = true → (s.dev.port n).fcMode ≠ 2 → natBE (subBytes data
    14 2) = 0x0101 → Does (.macControlFrameRx dt n data) s [.mac] fun x =>
    x.port n = { s.dev.port n with fcBadNow := true }) ∧
  (∀ (dt n t : Nat) (s : State), Serving s → s.dev.portExists n = true → (s.dev.elapse dt).nextPauseEnd n = some t → Does
    (.pauseTimerExpiry dt n) s wayOfFrames fun x =>
    x.now = max (s.dev.now + dt) t ∧ ∀ c ∈ List.range 16, (x.queue (qIx n c)).paused = x.pausedClass n c) ∧
  (∀ (dt n : Nat) (s : State), Serving s → (s.dev.port n).flowDue = true → (s.dev.port n).state = .up ∨ (s.dev.port n).state = .draining →
    (s.dev.port n).fcMode = 1 → s.dev.xoffAny n = true ∨ (s.dev.port n).prioSent ≠ 0 → (s.dev.schPort n).line = none → (s.dev.port n).lpiTx
    = false → Does (.flowControlFrameTx dt n) s [.mac, .zbn, .buf, .sch] fun x =>
    .flow n (s.dev.port n).sa false 0 [if s.dev.xoffAny n then (s.dev.port n).pfcTx else 0] ∈ x.out ∧ (x.port n).flowDue = false ∧
      (x.port n).prioSent = b2n (s.dev.xoffAny n) ∧ (x.port n).flowAt = max (s.dev.now + dt) (s.dev.schPort n).lineEnd) ∧
  (∀ (dt n : Nat) (s : State), Serving s → (s.dev.port n).flowDue = true → (s.dev.port n).state = .up ∨ (s.dev.port n).state = .draining →
    (s.dev.port n).fcMode = 2 → s.dev.xoffPrios n ||| (s.dev.port n).prioSent ≠ 0 → (s.dev.schPort n).line = none → (s.dev.port n).lpiTx =
    false → Does (.flowControlFrameTx dt n) s [.mac, .zbn, .buf, .sch] fun x =>
    let on := s.dev.xoffPrios n
    .flow n (s.dev.port n).sa true (on ||| (s.dev.port n).prioSent) ((List.range 8).map fun k => if bit on k then (s.dev.port n).pfcTx else 0) ∈ x.out ∧
      (x.port n).flowDue = false ∧ (x.port n).prioSent = on) ∧
  (∀ (dt n : Nat) (s : State), Serving s → (s.dev.port n).prioSent ≠ 0 → (s.dev.port n).state = .up ∨ (s.dev.port n).state = .draining →
    (s.dev.port n).fcMode = 1 → (s.dev.schPort n).line = none → (s.dev.port n).lpiTx = false → Does (.flowControlRepeat dt n) s [.mac, .zbn,
    .buf, .sch] fun x =>
    .flow n (s.dev.port n).sa false 0 [if s.dev.xoffAny n then (s.dev.port n).pfcTx else 0] ∈ x.out ∧ (x.port n).flowAt = x.now ∧
      x.now = max (max (s.dev.now + dt) ((s.dev.port n).flowAt + (s.dev.port n).repeatTime)) (s.dev.schPort n).lineEnd) ∧
  (∀ (dt n : Nat) (s : State), Serving s → (s.dev.port n).prioSent ≠ 0 → (s.dev.schPort n).line.isSome = true → Does (.flowControlRepeat dt
    n) s [.mac] fun x =>
    x.out = s.dev.out ∧ x.port n = { s.dev.port n with flowDue := true }) ∧
  (∀ (dt n : Nat) (s : State), Serving s → (s.dev.port n).state = .up → (s.dev.port n).lpiEn = true → (s.dev.port n).lpiTx = false →
    s.dev.portIsEmpty n = true → Does (.lpiIdleHoldExpiry dt n) s [.mac, .lne] fun x =>
    (x.port n).lpiTx = true ∧ (x.port n).lpiSince = x.now ∧ (∀ l ∈ s.dev.carriers n, (x.lane l).lpiTx = true) ∧
      x.now = max (s.dev.now + dt) ((s.dev.port n).idleSince + s.dev.idleHold n * 4000)) ∧
  (∀ (dt n : Nat) (s : State), Serving s → (s.dev.port n).lpiTx = true → (s.dev.port n).lpiWaking = false → (s.dev.belPort n).commit +
    (s.dev.belPort n).b15 ≠ 0 → Does (.lpiPreBellWake dt n) s [.mac] fun x =>
    (x.port n).lpiWaking = true ∧ (x.port n).lpiWakeAt = x.now) ∧
  ∀ (dt n : Nat) (enter : Bool) (s : State), Serving s → s.dev.portExists n = true → (s.dev.port n).hasLpi = true → Does (.rxLpiChange dt
    n enter) s [.mac, .lne] fun x =>
    (x.port n).lpiRx = enter ∧ ∀ l ∈ s.dev.carriers n, (x.lane l).lpiRx = enter

/-! ### Frames -/

/-- A frame whose head arrives at a port in UP or DRAINING is under way there until its end, which takes it away, once the decisions of
its cycle are made; a MAC control frame only waits for its end, and a PTP frame that the port terminates and no engine takes waits to be
punted; no copy goes back to the port a frame came from or to a port that does not exist; and a stream that passed nothing for its reset
time takes any sequence number next. -/
def Obligations.FramesArrive : Prop :=
  (∀ (dt : Nat) (h : FrameHead) (s : State), Serving s → (s.dev.port h.port).state = .up ∨ (s.dev.port h.port).state = .draining → Decides
    (.frameRxHead dt h) s (.prs :: .gov :: wayOfFrames) fun x =>
    (AMap.find? x.fwd.rx h.port).map (fun y => (y.head.port, y.head.sof)) = some (h.port, h.sof)) ∧
  (∀ (dt : Nat) (h : FrameHead) (s : State), Serving s → (s.dev.port h.port).state = .up ∨ (s.dev.port h.port).state = .draining →
    s.dev.prs.etherType h.data = 0x8808 → Decides (.frameRxHead dt h) s [.fwd] fun x =>
    AMap.find? x.fwd.rx h.port = some { head := h, period := s.dev.periodOf h.port h.sof, limit := (s.dev.port h.port).limitFor h.sof }) ∧
  (∀ (dt o : Nat) (h : FrameHead) (s : State), Serving s → (s.dev.port h.port).state = .up ∨ (s.dev.port h.port).state = .draining →
    s.dev.prs.etherType h.data ≠ 0x8808 → s.dev.ptpTerminated h.port h.data = some o → s.dev.engineTakes h.port (byteAt h.data o % 16)
    (byteAt h.data (o + 4)) = false → Decides (.frameRxHead dt h) s [.fwd] fun x =>
    AMap.find? x.fwd.rx h.port = some { head := h, period := s.dev.periodOf h.port h.sof, limit := (s.dev.port h.port).limitFor h.sof
                                        punts := [{ ring := s.dev.tim.puntRing, reason := 7, aux := 0, data := h.data }] }) ∧
  (∀ (dt : Nat) (r : FrameEnd) (y : RxFrame) (s : State), Serving s → AMap.find? s.dev.fwd.rx r.port = some y → Decides (.frameRxEnd dt r)
    s (.prs :: .gov :: wayOfFrames) fun x =>
    AMap.find? x.fwd.rx r.port = none) ∧
  (∀ (d : Dev) (n mac vid p : Nat), p ∈ (d.copySet n mac vid).ports →
    p ≠ n ∧ d.portExists p = true) ∧
  ∀ (dt k t : Nat) (s : State), Serving s → (s.dev.stream k).passedAt = some t → (s.dev.stream k).rcvEn = true → Does (.frerResetTimer dt
    k) s [.fwd] fun x =>
    x.stream k = { s.dev.stream k with takeAny := true, passedAt := none } ∧
      x.now = max (s.dev.now + dt) (t + (s.dev.stream k).resetMs * qPerMs)

/-- A free port in UP puts the frame that the ranks choose on its line with its class, length, start and end; when it has left, the line
is free and the frame is sent, one cut short as oversize with an inverted FCS, and a delay request's transmit time is kept for its answer;
a refill is made at its interval, a guard ends after its length, and a woken transmitter leaves low-power idle. -/
def Obligations.FramesLeave : Prop :=
  (∀ (dt n : Nat) (p : Pick) (s : State), Serving s → (s.dev.port n).state = .up ∨ (s.dev.port n).state = .draining → (s.dev.port
    n).flowDue = false → (s.dev.port n).lpiTx = false → (s.dev.schPort n).line = none → (s.dev.schPort n).lineEnd ≤ s.dev.now + dt →
    (s.dev.elapse dt).choose n = some p → Does (.egressSelect dt n) s wayOfFrames fun x =>
    (x.schPort n).line.map (fun l => (l.cls, l.copy.frame, l.copy.len, l.start, l.finish)) =
      some (p.cls, p.copy.frame, p.copy.len, s.dev.now + dt, (s.dev.elapse dt).lineEndAt n p.copy.len)) ∧
  (∀ (dt n : Nat) (l : OnLine) (s : State), Serving s → (s.dev.schPort n).line = some l → (s.dev.frameAt l.copy.frame).complete = true →
    Does (.frameTxEnd dt n) s (.tim :: wayOfFrames) fun x =>
    (x.schPort n).line = none ∧ (x.port n).idleSince = x.now ∧ x.now = max (s.dev.now + dt) l.finish) ∧
  (∀ (dt n : Nat) (l : OnLine) (s : State), Serving s → (s.dev.schPort n).line = some l → (s.dev.frameAt l.copy.frame).complete = true →
    (s.dev.frameAt l.copy.frame).ptp = none → Does (.frameTxEnd dt n) s wayOfFrames fun x =>
    .frame n (s.dev.copyData l.copy) (s.dev.frameAt l.copy.frame).bad ∈ x.out) ∧
  (∀ (dt n : Nat) (l : OnLine) (f : Frame) (s : State), Serving s → (s.dev.schPort n).line = some l → AMap.find? s.dev.buf.frames
    l.copy.frame = some f → f.complete = false → f.ptp = none → s.dev.cutShort l.copy.frame = true → Does (.frameTxEnd dt n) s wayOfFrames
    fun x =>
    .frame n (s.dev.copyData l.copy) true ∈ x.out) ∧
  (∀ (dt n : Nat) (l : OnLine) (m : PtpMsg) (s : State), Serving s → (s.dev.schPort n).line = some l → (s.dev.frameAt
    l.copy.frame).complete = true → (s.dev.frameAt l.copy.frame).ptp = some m → l.copy.mirror = none → m.kind = .delayReq → Does
    (.frameTxEnd dt n) s (.tim :: wayOfFrames) fun x =>
    (x.timPort n).delayReq = some (m.seq, (s.dev.frameAt l.copy.frame).txTime)) ∧
  (∀ (dt n : Nat) (s : State), Serving s → s.dev.portExists n = true → s.dev.refillDue n < s.dev.bel.nextAt → Does (.shaperRefill dt n) s
    [.buf, .sch] fun x =>
    (x.schPort n).lastRefill = x.now ∧ x.now = max (s.dev.now + dt) ((s.dev.schPort n).lastRefill + (s.dev.schPort n).refillNs * qPerNs) ∧
      ((s.dev.schPort n).shaperEn = false → (x.schPort n).credit = (s.dev.schPort n).credit)) ∧
  (∀ (dt : Nat) (s : State), Serving s → Does (.cyclicGuardEnd dt) s [.bel] fun x =>
    x.bel = { s.dev.bel with guarding := false } ∧ x.now = max (s.dev.now + dt) (s.dev.bel.lastAt + s.dev.bel.guard * qPerNs)) ∧
  ∀ (dt n : Nat) (s : State), Serving s → (s.dev.port n).lpiTx = true → (s.dev.port n).lpiWaking = true → (s.dev.schPort n).lineEnd ≤
    s.dev.now + dt → Does (.lpiWakeComplete dt n) s wayOfFrames fun x =>
    (x.port n).lpiTx = false ∧ (x.port n).lpiWaking = false ∧ (∀ l ∈ s.dev.carriers n, (x.lane l).lpiTx = false) ∧
      x.now = max (s.dev.now + dt) ((s.dev.port n).lpiWakeAt + (s.dev.port n).twUs * 4000)

/-! ### Zuben lanes -/

/-- A Zuben frame received on a lane in SYNC leaves the parity of its payload for the next frame's BIP8, and a run of bad frames that
grows only with a bad one; only a good frame gives the BIP8 field, and in multiframe alignment a bad one counts the multiframe on. The
oldest management frame received reaches the punt ring with a good FCS and at most 256 octets; else it is counted and dropped. Besides the
lane's own state only the slot plane, supervision and what its triggers reach change. -/
def Obligations.ZubenFramesReceived : Prop :=
  (∀ (dt i l : Nat) (z : ZFrame) (s : State), Serving s → s.dev.carried i = some l → s.dev.isZuben l = true → s.dev.laneUp l = true →
    (s.dev.zlane l).align = .sync → Does (.zubenFrameRx dt i z) s (.sub :: watched) fun x =>
    (x.zlane l).bip = some z.parity ∧ (x.zlane l).badRun = (if z.good then 0 else (s.dev.zlane l).badRun + 1) ∧
      (x.zlane l).rxBip = (if z.good then z.b 2 else (s.dev.zlane l).rxBip) ∧
      ((s.dev.zlane l).mfIn = true → z.good = false → (x.zlane l).mfc = ((s.dev.zlane l).mfc + 1) % 32) ∧
      (z.good = true → (s.dev.zlane l).mfIn = false → (x.zlane l).mfc = z.mfc)) ∧
  (∀ (dt l : Nat) (raw m : List Byte) (r : List (List Byte)) (s : State), Serving s → s.dev.isZuben l = true → (s.dev.zlane l).mgmtIn = raw
    :: r → mgmtContent raw = none → Does (.mgmtFrameRx dt l m false) s [.zbn] fun x =>
    x.zlane l = { s.dev.zlane l with mgmtIn := r } ∧ x.hif = s.dev.hif ∧ x.out = s.dev.out) ∧
  ∀ (dt l : Nat) (raw m : List Byte) (r : List (List Byte)) (s : State), Serving s → s.dev.isZuben l = true → (s.dev.zlane l).mgmtIn = raw
    :: r → mgmtContent raw = some m → s.dev.rxTakes s.dev.zbn.mgmtRing (s.dev.rxPlan s.dev.zbn.mgmtRing m) = true → Does (.mgmtFrameRx dt l
    m true) s [.zbn] fun x =>
    (x.zlane l).mgmtIn = r ∧ ∃ i w, Out.entry (128 + s.dev.zbn.mgmtRing) i w ∈ x.out ∧ bits w 93 80 = m.length ∧ bits w 119 112 = 12

/-- The row of a Zuben port starts a frame on every lane of it whose transmitter is on: the four blocks hold the alignment word and 24
overhead octets, the first is the port's multiframe count, the same on every lane, and the last two are the CRC-16 of the 22 before them;
and the next frame carries the next count of 32. -/
def Obligations.ZubenFramesSent : Prop :=
  ∀ (dt n : Nat) (s : State), Serving s → (s.dev.port n).state ≠ .absent → (s.dev.port n).framing = 1 → Does (.zubenFrameTx dt n) s [.zbn,
    .ttb, .free] fun x =>
    (∀ l ∈ (s.dev.portLanes n).filter s.dev.laneSends, ∀ i ∈ s.dev.txIndices l, ∃ oh : List Byte, Out.zubenHead i (overheadBlocks oh) ∈ x.out ∧ oh.length = 24 ∧
        nth oh 0 0 = (s.dev.zport n).mfc ∧ nth oh 22 0 * 256 + nth oh 23 0 = crc16 (oh.take 22) % 65536) ∧
      (x.zport n).mfc = ((s.dev.zport n).mfc + 1) % 32 ∧ (x.zport n).sentAt = some x.now

/-- Outside SYNC a match of the alignment word and its headers makes one of at most four candidates; a bad frame one spacing on removes
it; a good one confirms it, and where two have confirmed it already the lane is in SYNC with no candidates left; five bad frames in a row
return a lane in SYNC to HUNT. A complete BIP window begins again, and its defect stays raised only if the window held more than one
error. -/
def Obligations.ZubenAlignment : Prop :=
  (∀ (dt i l b : Nat) (z : ZFrame) (s : State), Serving s → s.dev.huntKey i = some l → (s.dev.lane i).state = .up → (s.dev.zlane l).align ≠
    .sync → z.wordOk = true → (s.dev.zlane l).candidates.length < 4 → Does (.candidateCreated dt i b z) s [.zbn] fun x =>
    x.zlane l = { s.dev.zlane l with align := .presync, candidates := (s.dev.zlane l).candidates ++ [{ block := b, mfc := z.mfc, inSeq := z.good }] }) ∧
  (∀ (dt i l b : Nat) (z : ZFrame) (s : State), Serving s → s.dev.huntKey i = some l → 4 ≤ (s.dev.zlane l).candidates.length → Does
    (.candidateCreated dt i b z) s [] fun x =>
    x.zbn = s.dev.zbn) ∧
  (∀ (dt i l h b : Nat) (z : ZFrame) (c : Candidate) (s : State), Serving s → s.dev.huntKey i = some l → (s.dev.zlane l).candidates.find?
    (fun y => y.block == h && y.next == b) = some c → z.good = false → Does (.candidateCheck dt i h b z) s [.zbn] fun x =>
    (x.zlane l).candidates = (s.dev.zlane l).candidates.filter (fun y => y.block != c.block) ∧
      ((x.zlane l).candidates = [] → (x.zlane l).align = .hunt)) ∧
  (∀ (dt i l h b : Nat) (z : ZFrame) (c : Candidate) (s : State), Serving s → s.dev.huntKey i = some l → l < 1024 → (s.dev.zlane
    l).candidates.find? (fun y => y.block == h && y.next == b) = some c → z.good = true → 2 ≤ c.count → Does (.candidateCheck dt i h b z) s
    watched fun x =>
    (x.zlane l).align = .sync ∧ (x.zlane l).candidates = [] ∧ (x.zlane l).mfc = z.mfc ∧
      (x.zlane l).mfIn = (c.inSeq && z.mfc == (c.mfc + 1) % 32) ∧ (x.zlane l).bip = some z.parity) ∧
  (∀ (dt i l : Nat) (s : State), Serving s → s.dev.carried i = some l → s.dev.isZuben l = true → (s.dev.zlane l).align = .sync → 5 ≤
    (s.dev.zlane l).badRun → Does (.syncLoss dt i) s watched fun x =>
    (x.zlane l).align = .hunt ∧ (x.zlane l).hs = .idle ∧ (x.ttbLane l).switch = none) ∧
  (∀ (dt i l : Nat) (s : State), Serving s → s.dev.carried i = some l → s.dev.isZuben l = true → windowFrames (s.dev.zlane l).sf.exp ≤
    (s.dev.zlane l).sf.frames → Does (.bipWindowEnd dt i true) s watched fun x =>
    (x.zlane l).sf = { exp := 3, raised := (s.dev.zlane l).sf.raised && decide (1 < (s.dev.zlane l).sf.errors) } ∧ (x.zlane l).sd = (s.dev.zlane l).sd) ∧
  ∀ (dt i l : Nat) (s : State), Serving s → s.dev.carried i = some l → s.dev.isZuben l = true → windowFrames (s.dev.zlane l).sd.exp ≤
    (s.dev.zlane l).sd.frames → Does (.bipWindowEnd dt i false) s watched fun x =>
    (x.zlane l).sd = { exp := (s.dev.zlane l).sdExp, raised := (s.dev.zlane l).sd.raised && decide (1 < (s.dev.zlane l).sd.errors) } ∧
      (x.zlane l).sf = (s.dev.zlane l).sf

/-- A handshake whose request no ACK answers one frame time before its bell returns to IDLE and fails the switch that waits for it; three
sent NAKs return it to IDLE; a page mismatch is marked posted once it has held for three bells; a second moves its errored frames on; a
closed bin moves into its history; an acknowledged FlexE calendar comes into force and completes its command, and an unacknowledged one is
withdrawn. -/
def Obligations.ZubenHandshakeAndTimes : Prop :=
  (∀ (dt l : Nat) (w : SwitchCmd) (s : State), Serving s → (s.dev.zlane l).hs = .requesting → (s.dev.zlane l).reqSent = true →
    (s.dev.ttbLane l).switch = some w → Does (.handshakeAckDeadline dt l) s [.zbn, .ttb, .bdy] fun x =>
    x.zlane l = (s.dev.zlane l).hsIdle ∧ (x.ttbLane l).switch = none ∧ (x.ttbLane l).active = (s.dev.ttbLane l).active ∧ x.cmdAt w.ring w.tag = none) ∧
  (∀ (dt l : Nat) (s : State), Serving s → (s.dev.zlane l).hs = .naking → (s.dev.zlane l).naksLeft = 0 → (s.dev.ttbLane l).switch = none →
    Does (.nakSentThree dt l) s [.zbn] fun x =>
    x.zlane l = (s.dev.zlane l).hsIdle) ∧
  (∀ (dt l : Nat) (s : State), Serving s → s.dev.isZuben l = true → 3 ≤ (s.dev.zlane l).pageBells → (s.dev.zlane l).pagePosted = false →
    (s.dev.elapse dt).atBell = true → Does (.pageMismatchHeld dt l) s [.zbn] fun x =>
    x.zlane l = { s.dev.zlane l with pagePosted := true }) ∧
  (∀ (dt : Nat) (s : State), Serving s → Does (.pmSecond dt) s [.zbn] fun x =>
    let ended := (s.dev.now + dt) / qPerS - 1
    ∀ l ∈ s.dev.zubenLanes, (∀ y ∈ (x.zlane l).pm.errored, ended < y.1) ∧ (∀ y ∈ (x.zlane l).pm.feErrored, ended < y.1) ∧
      (x.zlane l).pm.slotPos = [] ∧ (x.zlane l).pm.slotNeg = []) ∧
  (∀ (dt : Nat) (s : State), Serving s → s.dev.zubenLanes.Nodup → Does (.pmBinClose dt false) s [.zbn] fun x =>
    ∀ l ∈ s.dev.zubenLanes, (s.dev.zlane l).pm.cur15.valid = true → ((s.dev.zlane l).pm.cur15.start + 910) * qPerS ≤ s.dev.bel.lastAt →
      (x.zlane l).pm.prev15 = (s.dev.zlane l).pm.cur15 ∧ (x.zlane l).pm.cur15 = (s.dev.zlane l).pm.next15.getD {} ∧
      (x.zlane l).pm.history = ((s.dev.zlane l).pm.prev15 :: (s.dev.zlane l).pm.history).take 16) ∧
  (∀ (dt : Nat) (s : State), Serving s → s.dev.zubenLanes.Nodup → Does (.pmBinClose dt true) s [.zbn] fun x =>
    ∀ l ∈ s.dev.zubenLanes, (s.dev.zlane l).pm.cur24.valid = true → ((s.dev.zlane l).pm.cur24.start + 86410) * qPerS ≤ s.dev.bel.lastAt →
      (x.zlane l).pm.prev24 = (s.dev.zlane l).pm.cur24 ∧ (x.zlane l).pm.cur24 = (s.dev.zlane l).pm.next24.getD {}) ∧
  (∀ (dt n ring tag b : Nat) (r : List (Nat × Nat × Nat)) (s : State), Serving s → (s.dev.flexe n).pend = (ring, tag, b) :: r →
    (s.dev.flexe n).acked = true → Does (.flexeCalendarSwitch dt n) s [.zbn, .bdy] fun x =>
    (x.flexe n).calTx = (!(s.dev.flexe n).calTx) ∧ (x.flexe n).pend = r ∧ (x.flexe n).crAt = none ∧ x.cmdAt ring tag = none) ∧
  (∀ (dt n ring tag b t : Nat) (r : List (Nat × Nat × Nat)) (s : State), Serving s → (s.dev.flexe n).pend = (ring, tag, b) :: r →
    (s.dev.flexe n).crAt = some t → (s.dev.flexe n).acked = false → Does (.flexeAckTimeout dt n) s [.zbn, .bdy] fun x =>
    (x.flexe n).calTx = (s.dev.flexe n).calTx ∧ (x.flexe n).pend = r ∧ (x.flexe n).crAt = none ∧ x.now = max (s.dev.now + dt) (t + 10 * qPerMs) ∧
      x.cmdAt ring tag = none) ∧
  (∀ (dt n : Nat) (f : FlexeOh) (s : State), Serving s → (s.dev.port n).state ≠ .absent → (s.dev.port n).framing = 2 → f.lock = true → Does
    (.flexeOverheadRx dt n f) s [.zbn] fun x =>
    let y := s.dev.flexe n
    x.flexe n = { y with ohLock := true, rpfRx := f.rpf, calRx := f.ccc, idMismatch := f.group != y.group || f.phy != y.phy
                         acked := y.acked || (y.crAt.isSome && f.ca), ackTx := f.cr } ∧
      (f.cr ≠ y.ackTx → .flexe n { rpf := (s.dev.port n).state != .up, group := y.group, phy := y.phy, map := [y.phy], calA := y.calA, calB := y.calB
                                   ccc := y.calTx, cr := y.crAt.isSome, ca := f.cr } ∈ x.out)) ∧
  ∀ (dt n : Nat) (f : FlexeOh) (s : State), Serving s → (s.dev.port n).state ≠ .absent → (s.dev.port n).framing = 2 → f.lock = false →
    Does (.flexeOverheadRx dt n f) s [.zbn] fun x =>
    x.flexe n = { s.dev.flexe n with ohLock := false }

/-! ### The slot plane and its protection -/

/-- At the end of the hold-off the failed or degraded working copy counts as a request, and SF-W selects the protection copy where no
lockout, failed protection or forced switch stands above it; the wait to restore that ends without a condition leaves NR and the working
copy; an armed switch that reaches its deadline fails and the page stands; an index acquiring for a second is only reported, once, and an
aligned one whose copy has failed for a second is unaligned; a receive mismatch is marked posted once; blocks that the buddy forwards are
counted on in their ring. -/
def Obligations.ProtectionRows : Prop :=
  (∀ (dt l : Nat) (w : SwitchCmd) (s : State), Serving s → (s.dev.ttbLane l).switch = some w → w.armed = true → w.initiate = false →
    (s.dev.zlane l).hs ≠ .agreed → Does (.armTimeout dt l) s [.ttb, .bdy] fun x =>
    x.ttbLane l = { s.dev.ttbLane l with switch := none } ∧ x.now = max (s.dev.now + dt) w.deadline ∧ x.cmdAt w.ring w.tag = none) ∧
  (∀ (dt i : Nat) (p : Prot) (s : State), Serving s → AMap.find? s.dev.ttb.prots i = some p → p.sfW = true → p.sfWReq = false → Does
    (.holdOffExpiry dt i false) s (.ttb :: triggered) fun x =>
    (x.prot i).sfWReq = true ∧ (p.sfP = false → bit p.host 0 = false → bit p.host 1 = false → (x.prot i).request = 7 ∧ (x.prot i).selected = true) ∧
      x.now = max (s.dev.now + dt) p.sfWUntil) ∧
  (∀ (dt i : Nat) (p : Prot) (s : State), Serving s → AMap.find? s.dev.ttb.prots i = some p → p.sdW = true → p.sdWReq = false → Does
    (.holdOffExpiry dt i true) s (.ttb :: triggered) fun x =>
    (x.prot i).sdWReq = true ∧ (x.prot i).sfWReq = p.sfWReq) ∧
  (∀ (dt i : Nat) (p : Prot) (s : State), Serving s → AMap.find? s.dev.ttb.prots i = some p → p.wtrRunning = true → p.request = 2 →
    p.highest = 0 → p.revertive = true → Does (.wtrExpiry dt i) s (.ttb :: triggered) fun x =>
    (x.prot i).request = 0 ∧ (x.prot i).selected = false ∧ (x.prot i).wtrRunning = false ∧ x.now = max (s.dev.now + dt) p.wtrUntil) ∧
  (∀ (dt i : Nat) (s : State), Serving s → (s.dev.prot i).align = .acquiring → (s.dev.prot i).unalignedPosted = false → Does
    (.protUnalignedTimer dt i) s [.ttb] fun x =>
    (x.prot i).align = .acquiring ∧ (x.prot i).selected = (s.dev.prot i).selected ∧
      x.now = max (s.dev.now + dt) ((s.dev.prot i).acqSince + qPerS)) ∧
  (∀ (dt i : Nat) (side : Bool) (s : State), Serving s → (s.dev.prot i).align = .aligned → (if side then (s.dev.prot i).sfP else
    (s.dev.prot i).sfW) = true → Does (.protCopyFailedTimer dt i side) s [.ttb] fun x =>
    (x.prot i).align = .unaligned ∧ (x.prot i).candidate = none ∧ (x.prot i).selected = (s.dev.prot i).selected) ∧
  (∀ (dt l : Nat) (s : State), Serving s → s.dev.isZuben l = true → 3 ≤ (s.dev.ttbLane l).mmBells → (s.dev.ttbLane l).mmPosted = false →
    (s.dev.elapse dt).atBell = true → Does (.rxMismatchHeld dt l) s [.ttb] fun x =>
    x.ttbLane l = { s.dev.ttbLane l with mmPosted := true }) ∧
  ∀ (dt : Nat) (k : BuddyContainer) (p : Prot) (s : State), Serving s → AMap.find? s.dev.ttb.prots k.index = some p → p.wired = true →
    p.buddy = true → s.dev.bdy.linkUp = true → Does (.buddyContainerRx dt k) s (.ttb :: triggered) fun x =>
    p.countP + k.blocks.length ≤ (x.prot k.index).countP ∧ (p.ringP = [] → (x.prot k.index).countP = p.countP + k.blocks.length) ∧
      (x.prot k.index).ringW = p.ringW

/-! ### Forwarding tables, recorders and stores -/

/-- The ager's visit clears the hit mark of a learned entry, or counts its age up while that stays below the limit; static entries stand.
A flush that ends completes with the number it removed, and leaves no entry from its position on that it takes. A region whose post pages
are written is FROZEN; a readout that ends returns its region to FROZEN and completes. -/
def Obligations.TablesAndRecorders : Prop :=
  (∀ (dt k : Nat) (e : FdbEntry) (s : State), Serving s → s.dev.bgPaused = false → k < 1048576 → AMap.rising s.dev.fwd.fdb = true →
    AMap.find? s.dev.fwd.fdb k = some e → e.static = false → e.hit = true → Does (.agerVisit dt k) s [.fwd, .bdy] fun x =>
    AMap.find? x.fwd.fdb k = some { e with hit := false, age := 0 } ∧ x.fwd.sweepPos = k + 1) ∧
  (∀ (dt k : Nat) (e : FdbEntry) (s : State), Serving s → s.dev.bgPaused = false → k < 1048576 → AMap.rising s.dev.fwd.fdb = true →
    AMap.find? s.dev.fwd.fdb k = some e → e.static = false → e.hit = false → e.age + 1 < 8 → Does (.agerVisit dt k) s [.fwd, .bdy] fun x =>
    AMap.find? x.fwd.fdb k = some { e with age := e.age + 1 }) ∧
  (∀ (dt k : Nat) (e : FdbEntry) (s : State), Serving s → k < 1048576 → AMap.rising s.dev.fwd.fdb = true → AMap.find? s.dev.fwd.fdb k =
    some e → e.static = true → Does (.agerVisit dt k) s [.fwd, .bdy] fun x =>
    AMap.find? x.fwd.fdb k = some e) ∧
  (∀ (dt ring tag : Nat) (c : Cmd) (s : State), Serving s → s.dev.bgPaused = false → s.dev.cmdAt ring tag = some c → c.op = 0x0A03 →
    c.stage = .long → c.held = false → c.mirrored = false → Does (.fdbFlushDone dt ring tag) s [.fwd, .bdy] fun x =>
    x.cmdAt ring tag = none ∧ (∀ y ∈ x.fwd.fdb, y ∈ s.dev.fwd.fdb ∧ ¬ (c.pos ≤ y.1 ∧ y.1 < 1048576 ∧ s.dev.flushTakes c.e y.2 = true)) ∧
      (∀ y ∈ s.dev.fwd.fdb, s.dev.flushTakes c.e y.2 = false → y ∈ x.fwd.fdb)) ∧
  (∀ (dt r : Nat) (s : State), Serving s → (s.dev.region r).state = .post → (s.dev.region r).postLeft = 0 → (s.dev.region r).freezeWait =
    [] ∧ (s.dev.region r).rearmWait = [] ∧ (s.dev.region r).disableWait = [] → Does (.recorderPostDone dt r) s [.fwd, .drc, .free] fun x =>
    (x.region r).state = .frozen ∧ (x.region r).cur = []) ∧
  ∀ (dt r ring tag : Nat) (c : Cmd) (s : State), Serving s → (s.dev.region r).reader = some (ring, tag) → s.dev.cmdAt ring tag = some c →
    c.held = false → (s.dev.region r).rearmWait = [] ∧ (s.dev.region r).disableWait = [] → Does (.recorderReadDone dt r) s [.fwd, .drc,
    .free, .bdy] fun x =>
    (x.region r).state = .frozen ∧ (x.region r).reader = none ∧ x.cmdAt ring tag = none

/-- The acknowledgement of a spill marks the oldest page of the queue that awaits it, and those before it stay marked. The return of the
page asked for takes it off the head of F, with nothing in T the pages behind it stand, and one far page is no longer used. A roll call
that has its start bell behind it writes its record to the host, ends, and its command is complete. -/
def Obligations.PagesMove : Prop :=
  (∀ (dt q : Nat) (a r : List FarPage) (p : FarPage) (s : State), Serving s → (s.dev.queue q).f = a ++ p :: r → ∀ y ∈ a, y.acked = true →
    p.acked = false → Does (.spillPageAck dt q) s wayOfFrames fun x =>
    a.length < (x.queue q).f.length ∧ ((x.queue q).f.take (a.length + 1)).all (fun y => y.acked) = true ∧
      ((x.queue q).f.take (a.length + 1 + r.length)).map (fun y => y.page) = (s.dev.queue q).f.map (fun y => y.page)) ∧
  (∀ (dt q : Nat) (p : FarPage) (r : List FarPage) (s : State), Serving s → (s.dev.queue q).f = p :: r → p.asked = true → p.acked = true →
    s.dev.buf.spillStopped = false → (s.dev.queue q).t = [] → Does (.recallPageReturn dt q) s wayOfFrames fun x =>
    (x.queue q).f.map (fun y => y.page) = r.map (fun y => y.page) ∧ x.buf.farUsed = s.dev.buf.farUsed - 1) ∧
  ∀ (dt : Nat) (g : RollCall) (fs : List RollFinding) (s : State), Serving s → s.dev.buf.roll = some g → g.startSeq ≤ s.dev.bel.seq →
    s.dev.rollHeld g = false → Does (.rollCallDone dt fs) s [.buf, .bdy] fun x =>
    let mine := fun (f : RollFinding) => if f.store = 0 then g.near else g.far
    let d := s.dev.learnLeaks (fs.filter mine)
    x.buf.roll = none ∧ x.cmdAt g.ring g.tag = none ∧
      Out.data g.addr (d.rollRecord g ((d.rollFinds g (fs.filter mine)).filter mine)) ∈ x.out

/-- A corrected error counts in its channel; an uncorrectable one is marked posted in its bell and its row is quarantined or retired; a
scrub of a sound burst advances the scrubber or ends its cycle; the refreshes a bank owes stay within one of what it owed; a stack is hot
from 85 degrees on and again below 83 it is not; a repaired row leaves quarantine and one spare row of its bank is used; a channel whose
retraining passed is TARGET of the copy back, and one that failed is FAILED. -/
def Obligations.FarStoreController : Prop :=
  (∀ (dt n : Nat) (b : BurstAt) (s : State), Serving s → s.dev.chanLive b.chan = true → s.dev.drc.pprEn = false → (s.dev.stack (b.chan /
    34)).panic = false → (s.dev.chan b.chan).poison.contains (burstKey b) = false → Does (.dramReadReturn dt b .tableExtension (.corrected
    n)) s [.drc] fun x =>
    (x.chan b.chan).ceNow = (s.dev.chan b.chan).ceNow + 1 ∧ (x.chan b.chan).quarantined = (s.dev.chan b.chan).quarantined) ∧
  (∀ (dt : Nat) (b : BurstAt) (s : State), Serving s → s.dev.chanLive b.chan = true → Does (.dramReadReturn dt b .spillWriter
    .uncorrectable) s [.drc, .free] fun x =>
    x.drc.uePosted = true ∧ ((x.chan b.chan).quarantined.contains (rowKey b.bank b.row) || (x.chan b.chan).retired.contains (rowKey b.bank b.row)) = true) ∧
  (∀ (dt : Nat) (b : BurstAt) (s : State), Serving s → s.dev.chanLive b.chan = true → (s.dev.chan b.chan).state ≠ .retraining →
    (s.dev.stack (b.chan / 34)).panic = false → s.dev.bgPaused = false → burstKey b = (s.dev.chan b.chan).scrubbed → (s.dev.chan
    b.chan).poison.contains (burstKey b) = false → Does (.scrubRead dt b .clean) s [.drc, .sub] fun x =>
    (x.chan b.chan).scrubbed = (if (s.dev.chan b.chan).scrubbed + 1 = chanBursts then 0 else (s.dev.chan b.chan).scrubbed + 1) ∧
      ((s.dev.chan b.chan).scrubbed + 1 = chanBursts → (x.chan b.chan).ceLast = (s.dev.chan b.chan).ceNow ∧ (x.chan b.chan).ceNow = 0)) ∧
  (∀ (dt i b : Nat) (pend : Bool) (s : State), Serving s → s.dev.chanLive i = true → b < 32 → AMap.getD (s.dev.chan i).owed b 8 ≤ 16 → Does
    (.refreshDue dt i b pend) s [.drc, .free] fun x =>
    AMap.getD (x.chan i).owed b 8 ≤ 16 ∧ x.free = s.dev.free + 1) ∧
  (∀ (dt k c : Nat) (s : State), Serving s → k < s.dev.glb.part.stacks → Does (.stackTemperatureChange dt k c) s [.drc] fun x =>
    (x.stack k).temp = min c 255 ∧ (85 ≤ c → (x.stack k).hot = true) ∧ (c < 83 → (x.stack k).hot = false) ∧
      (83 ≤ c → c < 85 → (x.stack k).hot = (s.dev.stack k).hot)) ∧
  (∀ (dt i b r : Nat) (s : State), Serving s → (s.dev.chan i).quarantined.contains (rowKey b r) = true → (s.dev.chan i).state = .spare →
    Does (.pprDone dt i b r) s [.drc] fun x =>
    (x.chan i).quarantined.contains (rowKey b r) = false ∧ AMap.getD (x.chan i).sparesUsed b 0 = AMap.getD (s.dev.chan i).sparesUsed b 0 + 1 ∧
      (x.stack (i / 34)).repaired = (s.dev.stack (i / 34)).repaired + 1) ∧
  (∀ (dt k slot : Nat) (s : State), Serving s → (s.dev.retrain k slot).phase = 4 → slot < 2 → (s.dev.retrain k slot).aborted = false →
    s.dev.chanFailed (34 * k + (s.dev.retrain k slot).source) = false → (s.dev.retrain k slot).source ≠ (s.dev.retrain k slot).target → Does
    (.channelRetrainDone dt k slot []) s [.drc] fun x =>
    (x.chan (34 * k + (s.dev.retrain k slot).source)).state = .target ∧ (x.chan (34 * k + (s.dev.retrain k slot).target)).state = .source ∧
      (x.retrain k slot).phase = 5) ∧
  ∀ (dt k slot : Nat) (s : State), Serving s → (s.dev.retrain k slot).phase = 4 → slot < 2 → s.dev.chanFailed (34 * k + (s.dev.retrain k
    slot).source) = true → Does (.channelRetrainDone dt k slot []) s [.drc, .bdy] fun x =>
    (x.chan (34 * k + (s.dev.retrain k slot).source)).state = .failed ∧ (x.retrain k slot).phase = 0

/-! ### The governor -/

/-- After hold_bells low-energy bells the ladder goes down one step, below step 5 without a hold of best effort and below step 3 without a
drain limit. A floor mismatch is marked posted once. At 120 degrees the module stops in phase 15 with halt code 7, THERMTRIP_N low and no
stored frame left. A quadrant at its current limit is limited until a bell says otherwise. An evaluation moves each rail by at most one
step and keeps it between the bounds of the host, and a transaction that failed three times leaves the rail where it last acknowledged. -/
def Obligations.GovernorRows : Prop :=
  (∀ (dt : Nat) (s : State), Serving s → s.dev.gov.step ≠ 0 → s.dev.gov.holdBells ≤ s.dev.gov.lowBells → s.dev.gov.hwThermal = false →
    (s.dev.elapse dt).atBell = true → Does (.govStepDescend dt) s [.gov, .drc, .mac, .buf, .fwd, .free, .bdy] fun x =>
    x.gov.step = s.dev.gov.step - 1 ∧ x.gov.lowBells = 0 ∧ (x.gov.step < 5 → x.gov.beHold = false ∧ x.gov.beBudget = 0) ∧
      (x.gov.step < 3 → x.drc.drainLimit = 0) ∧ (3 ≤ x.gov.step → x.drc = s.dev.drc)) ∧
  (∀ (dt : Nat) (s : State), Serving s → 3 ≤ s.dev.gov.mmBells → s.dev.gov.mmPosted = false → (s.dev.elapse dt).atBell = true → Does
    (.floorMismatchHeld dt) s [.gov] fun x =>
    x.gov = { s.dev.gov with mmPosted := true }) ∧
  (∀ (dt k : Nat) (s : State), s.dev.boot.stopped = .no → Quiet s → Does (.thermalTrip dt k) s [.gov, .pins, .glb, .boot, .buf, .sch, .fwd,
    .ttb, .drc, .bdy] fun x =>
    x.boot.stopped = .trip ∧ x.glb.phase = 15 ∧ x.glb.haltCode = 7 ∧ x.pins.thermtripN = false ∧ x.gov.site = k ∧ 120 ≤ x.gov.tj ∧
      x.buf.frames = [] ∧ x.inService = false) ∧
  (∀ (dt q a : Nat) (s : State), Serving s → q < s.dev.glb.part.quads → (s.dev.quad q).limit ≤ a → Does (.railCurrentLimit dt q a) s [.gov,
    .mac] fun x =>
    x.quad q = { s.dev.quad q with amps := a, limited := true }) ∧
  (∀ (dt : Nat) (ts : List Nat) (s : State), Serving s → Does (.avsEvaluation dt ts) s [.gov] fun x =>
    ∀ q < min s.dev.glb.part.quads ts.length, (s.dev.quad q).vmin ≤ (s.dev.quad q).mv → (s.dev.quad q).mv ≤ (s.dev.quad q).vmax →
      (x.quad q).mv ≤ (s.dev.quad q).mv + s.dev.gov.stepMv ∧ (s.dev.quad q).mv ≤ (x.quad q).mv + s.dev.gov.stepMv ∧
      (s.dev.quad q).vmin ≤ (x.quad q).mv ∧ (x.quad q).mv ≤ (s.dev.quad q).vmax ∧ (x.quad q).avsFault = false) ∧
  ∀ (dt q : Nat) (s : State), Serving s → q < s.dev.glb.part.quads → Does (.avsTransactionFail dt q) s [.gov] fun x =>
    x.quad q = { s.dev.quad q with avsFault := true, mv := (s.dev.quad q).acked }

/-! ### The host interface -/

/-- A doorbell of a RUNNING command ring that stays within the ring is its host index; one that posts an entry of an RX ring gives that
entry its buffer; of a ring that does not run it is only stored. A write of en to a ring that is OFF starts it with both indices at 0; a
STOPPING ring whose work is gone is OFF; an entry that cannot be read ends fetching and stops its ring. A ring armed for an interrupt that
has entries to signal raises its vector and is armed no more; an event ring with room tells what it lost. -/
def Obligations.RingRows : Prop :=
  (∀ (dt g v : Nat) (w : List (Nat × Nat)) (s : State), Serving s → g < 32 → s.dev.hif.flr = false → (s.dev.ring g).state = .running → (v %
    2 ^ 17 % (2 * (s.dev.ring g).n) + 2 * (s.dev.ring g).n - (s.dev.ring g).devIdx) % (2 * (s.dev.ring g).n) ≤ (s.dev.ring g).n → Does
    (.doorbellWrite dt g v w) s [] fun x =>
    x.ring g = { s.dev.ring g with doorbell := v % 2 ^ 32, hostIdx := v % 2 ^ 17 % (2 * (s.dev.ring g).n) }) ∧
  (∀ (dt g v : Nat) (w : List (Nat × Nat)) (s : State), Serving s → g < 200 → s.dev.hif.flr = false → (s.dev.ring g).state ≠ .running →
    Does (.doorbellWrite dt g v w) s [] fun x =>
    x.ring g = { s.dev.ring g with doorbell := v % 2 ^ 32 }) ∧
  (∀ (dt g v : Nat) (p : Nat × Nat) (s : State), Serving s → 128 ≤ g ∧ g < 192 → s.dev.hif.flr = false → (s.dev.ring g).state = .running →
    (v % 2 ^ 17 % (2 * (s.dev.ring g).n) + 2 * (s.dev.ring g).n - (s.dev.ring g).devIdx) % (2 * (s.dev.ring g).n) ≤ (s.dev.ring g).n → (v %
    2 ^ 17 % (2 * (s.dev.ring g).n) + 2 * (s.dev.ring g).n - (s.dev.ring g).hostIdx) % (2 * (s.dev.ring g).n) = 1 → Does (.doorbellWrite dt
    g v [p]) s [] fun x =>
    (x.ring g).hostIdx = v % 2 ^ 17 % (2 * (s.dev.ring g).n) ∧
      (x.ring g).bufAddr (s.dev.ring g).hostIdx = p.1 / 64 * 64 ∧ (x.ring g).bufLen (s.dev.ring g).hostIdx = max 256 (min 16384 p.2) / 64 * 64) ∧
  (∀ (dt g : Nat) (w : RegWrite) (s : State), s.dev.busUp = true → s.dev.regsUp = true → g < 32 → (s.dev.ring g).state = .off → w.off = 0 ∧
    w.len = 4 ∧ w.poisoned = false ∧ w.data % 2 = 1 → Quiet s → Does (.ringCtrlWrite dt g w) s [.bdy] fun x =>
    (x.ring g).state = .running ∧ (x.ring g).hostIdx = 0 ∧ (x.ring g).devIdx = 0 ∧ (x.ring g).lBase = (s.dev.ring g).base ∧
      (x.ring g).lCring = (s.dev.ring g).cring) ∧
  (∀ (dt g : Nat) (s : State), Serving s → (s.dev.ring g).state = .stopping → s.dev.mayOff g = true → (s.dev.ring g).en = false → Does
    (.ringStopped dt g) s [] fun x =>
    (x.ring g).state = .off) ∧
  (∀ (dt g k : Nat) (p : Bool) (s : State), Serving s → g < 32 → (s.dev.ring g).state = .running → Does (.ringReadError dt g (.entry k) p)
    s [] fun x =>
    (x.ring g).state = .stopping ∧ (x.ring g).error = true ∧ (x.ring g).fetchEnded = true) ∧
  (∀ (dt k : Nat) (s : State), Serving s → k < 8 → (s.dev.ring (192 + k)).state = .running → (s.dev.ring (192 + k)).lost ≠ 0 → (s.dev.ring
    (192 + k)).room = true → Does (.eventsLostRecord dt k) s [] fun x =>
    (x.ring (192 + k)).lost = 0 ∧ (x.ring (192 + k)).devIdx = ((s.dev.ring (192 + k)).devIdx + 1) % (2 * (s.dev.ring (192 + k)).n)) ∧
  ∀ (dt g : Nat) (s : State), Serving s → (s.dev.ring g).armed = true → (s.dev.ring g).unsignalled ≠ 0 → (s.dev.ring g).state ≠ .off →
    (s.dev.ring g).modCount ≤ (s.dev.ring g).unsignalled → bit (s.dev.msixEntry (s.dev.ring g).vector) 96 = false → Does (.msixRaise dt g) s
    [] fun x =>
    x.out = .msix (s.dev.ring g).vector :: s.dev.out ∧ (x.ring g).armed = false ∧ (x.ring g).unsignalled = 0

/-- A known command fetched from a running ring is in flight, and the device index counts on. The snapshot command whose turn it is waits
for its bell once accepted. A barrier with nothing left to await completes with the number it awaited. A long operation that is not held
moves to its position, never back. At a bell of the automatic interval the counters flip once. -/
def Obligations.CommandRows : Prop :=
  (∀ (dt g : Nat) (raw : List Byte) (e : CmdEntry) (s : State), Serving s → s.dev.mayFetch g = true → (s.dev.ring g).waiting ≠ 0 →
    (s.dev.ring g).state = .running → (specOf (natLE (raw.take 2))).isSome = true → s.dev.cmdAt g (entryOf g raw e).tag = none →
    s.dev.unwritten (fun x => x.kind == 0 && x.ring == g && x.tag == (entryOf g raw e).tag) = 0 → Does (.commandFetch dt g raw e) s [] fun x
    =>
    InFlight x (entryOf g raw e) (natLE (raw.take 2)) .fetched ∧ (x.ring g).devIdx = ((s.dev.ring g).devIdx + 1) % (2 * (s.dev.ring g).n)) ∧
  (∀ (dt g : Nat) (c : Cmd) (s : State), Serving s → s.dev.turn g = some c → c.op = 0x0102 → (s.dev.ring c.e.ring).user = false →
    s.dev.bdy.state = .off → Does (.commandAccept dt g) s [.glb] fun x =>
    WaitsSince x c.e 0x0102 s.dev.bel.seq ∧ x.glb = { s.dev.glb with phase := 6 }) ∧
  (∀ (dt g tag : Nat) (c : Cmd) (s : State), Serving s → s.dev.cmdAt g tag = some c → c.op = 0x0103 → c.stage = .waiting → c.waits = [] → g
    < 32 → c.cring = (s.dev.ring g).lCring → s.dev.bdy.state ≠ .paired → CanTell s g → Does (.barrierRelease dt g tag) s [] fun x =>
    Completed s x c.e 0x0103 stOk c.waited) ∧
  (∀ (dt g tag pos : Nat) (c : Cmd) (s : State), Serving s → s.dev.cmdAt g tag = some c → c.op = 0x0B03 → c.stage = .long → c.held = false
    → s.dev.bgPaused = false → Does (.longOpInterim dt g tag pos) s [] fun x =>
    x.cmdAt g tag = some { c with pos := max c.pos (min pos c.total) }) ∧
  ∀ (dt : Nat) (s : State), Serving s → s.dev.autoFlip (s.dev.bel.seq + 1) = true → s.dev.bel.nextAt ≤ s.dev.now + dt →
    s.dev.cnt.flippedFor ≠ s.dev.bel.seq + 1 → Does (.autoSnapshot dt) s [] fun x =>
    x.cnt.snapSeq = s.dev.bel.seq + 1 ∧ x.cnt.flippedFor = s.dev.bel.seq + 1 ∧ x.cnt.frozen = (s.dev.elapse dt).cnt.live

/-- A sound descriptor fetched from a running TX ring is the last of those read; a dispatch takes the oldest of its ring. A function-level
reset, or entry into D3hot, leaves every ring OFF, the ledger with what completion rings owed, and the function in reset until it ends.
The ledger is written to its ring as room allows, and a new link speed or width is kept. -/
def Obligations.HostFramesAndResets : Prop :=
  (∀ (dt r : Nat) (raw bytes : List Byte) (s : State), Serving s → s.dev.mayFetchTx r = true → s.dev.bdy.state ≠ .paired → s.dev.descBad
    (s.dev.descOf r raw bytes) = false → s.dev.flushedEntry (s.dev.descOf r raw bytes) = false → s.dev.xoffNow (ptTx r) (s.dev.descOf r raw
    bytes).cls = false → Does (.txDescriptorFetch dt r raw bytes) s [] fun x =>
    x.hif.tx = s.dev.hif.tx ++ [s.dev.descOf r raw bytes] ∧ (x.ring (64 + r)).devIdx = ((s.dev.ring (64 + r)).devIdx + 1) % (2 * (s.dev.ring (64 + r)).n)) ∧
  (∀ (dt r : Nat) (t : TxDesc) (s : State), Serving s → (s.dev.txRead r).head? = some t → s.dev.txHalted t = false → (s.dev.sourceFor (ptTx
    r) t.cls (cellsOf (t.data.length + 4))).1.isSome = true → t.mode = 0 → t.module = false → Decides (.txDispatch dt r) s (.gov ::
    wayOfFrames) fun x =>
    x.txRead r = (s.dev.txRead r).tail) ∧
  (∀ (dt : Nat) (s : State), Serving s → s.dev.prc.zeroizing = none → s.dev.hif.inflight.filter flrEnds = [] → Does (.flr dt) s [.buf,
    .bdy] fun x =>
    x.hif.flr = true ∧ x.hif.rings = [] ∧ x.hif.owed = [] ∧ x.hif.msixTable = [] ∧ ∀ p ∈ s.dev.hif.owed, { p.2 with ledger := true } ∈ x.hif.ledger) ∧
  (∀ (dt : Nat) (s : State), Serving s → s.dev.prc.zeroizing = none → s.dev.hif.inflight.filter flrEnds = [] → Does (.d3hotEntry dt) s
    [.buf, .bdy] fun x =>
    x.hif.flr = true ∧ x.hif.rings = [] ∧ x.hif.owed = [] ∧ ∀ c ∈ x.hif.inflight, c.mirrored = true ∨ c.cring = 32) ∧
  (∀ (dt : Nat) (s : State), Serving s → s.dev.hif.flr = true → Does (.flrDone dt) s [] fun x =>
    x.hif.flr = false ∧ x.hif.ledger = s.dev.hif.ledger) ∧
  (∀ (dt : Nat) (c : Compl) (s : State), Serving s → s.dev.hif.ledger = [c] → c.kind = 0 ∧ c.status ≠ 1 → (s.dev.ring (32 +
    s.dev.hif.ledgerRing)).state = .running → (s.dev.ring (32 + s.dev.hif.ledgerRing)).room = true → Does (.ledgerWrite dt) s [] fun x =>
    x.hif.ledger = [] ∧ x.out.length = s.dev.out.length + 1) ∧
  ∀ (dt gen width : Nat) (s : State), (s.dev.hif.linkGen, s.dev.hif.linkWidth) ≠ (gen, width) → gen < 8 ∧ width < 32 → Quiet s → Does
    (.pcieLinkChanged dt gen width) s [] fun x =>
    x.hif.linkGen = gen ∧ x.hif.linkWidth = width

/-! ### Substitutes -/

/-- An evaluation of a unit that the variant has keeps its value, or the reading that the module holds, as the unit's; the level rises
only with a full run of worse values and falls by one at a time. A worn bank due for automatic substitution claims the spare that serves
it. A lane substitution in SYNC goes on to agreement once three frames have matched; a buddy lane without agreement by its deadline ends
its substitution; a whole copy makes the cut-over due; a lane whose linger ends is OFF. -/
def Obligations.SubstituteRows : Prop :=
  (∀ (dt k u v : Nat) (s : State), Serving s → 3 ≤ k ∧ k < 7 → s.dev.monitored k u = true → Does (.wearEvaluation dt k u v) s [.sub] fun x
    =>
    (x.wear k u).value = (if k = 5 then signed 16 v else (v : Int)) ∧ (x.wear k u).lastAt = some x.now ∧
      ((s.dev.wear k u).level < (x.wear k u).level → s.dev.sub.persist ≤ (x.wear k u).worse ∨ s.dev.sub.persist ≤ (x.wear k u).worseAct) ∧
      ((x.wear k u).level < (s.dev.wear k u).level → (x.wear k u).level + 1 = (s.dev.wear k u).level)) ∧
  (∀ (dt k u v : Nat) (s : State), Serving s → k < 3 → s.dev.monitored k u = true → (s.dev.wear k u).fresh = true → Does (.wearEvaluation
    dt k u v) s [.sub] fun x =>
    (x.wear k u).value = (if k = 0 then ((s.dev.lane u).vert : Int) else if k = 1 then ((s.dev.lane u).horiz : Int) else ((s.dev.chan u).ceLast : Int)) ∧
      (x.wear k u).fresh = false ∧
      ((s.dev.wear k u).level < (x.wear k u).level → s.dev.sub.persist ≤ (x.wear k u).worse ∨ s.dev.sub.persist ≤ (x.wear k u).worseAct) ∧
      ((x.wear k u).level < (s.dev.wear k u).level → (x.wear k u).level + 1 = (s.dev.wear k u).level)) ∧
  (∀ (dt k u sp : Nat) (s : State), Serving s → s.dev.sub.autoDue.contains (3, u) = true → s.dev.bel.nextAt ≤ s.dev.now + dt →
    s.dev.freeSlot = some k → s.dev.substituting 3 u = false → s.dev.unitInService 3 u = true → s.dev.spareFor 3 u = some sp → Does
    (.autoSubstitutionStart dt 3 u) s [.sub] fun x =>
    (x.slotOf k).claimed = true ∧ (x.slotOf k).kind = 3 ∧ (x.slotOf k).unit = u ∧ (x.slotOf k).spare = sp ∧ (x.slotOf k).auto = true ∧ (x.bank sp).state = 2 ∧
      x.sub.autoDue.contains (3, u) = false) ∧
  (∀ (dt k : Nat) (s : State), Serving s → (s.dev.slotOf k).claimed = true → (s.dev.slotOf k).kind = 1 → (s.dev.slotOf k).step = 2 → 3 ≤
    (s.dev.slotOf k).matched → Does (.subLaneAgreed dt k) s [.sub] fun x =>
    x.slotOf k = { s.dev.slotOf k with step := 3, pos := 3, agreedAt := s.dev.now + dt }) ∧
  (∀ (dt k : Nat) (s : State), Serving s → (AMap.find? s.dev.sub.slots k).isSome = true → (s.dev.slotOf k).kind = 2 → (s.dev.slotOf k).step
    < 3 → Does (.agreeTimeout dt k) s (.lne :: .sub :: watched) fun x =>
    AMap.find? x.sub.slots k = none ∧ x.now = max (s.dev.now + dt) (s.dev.slotOf k).deadline) ∧
  (∀ (dt k : Nat) (s : State), Serving s → (s.dev.slotOf k).claimed = true → (s.dev.slotOf k).step = 5 → (s.dev.slotOf k).kind ≠ 4 →
    s.dev.bgPaused = false → s.dev.subHeld (s.dev.slotOf k) = false → Does (.subCopyDone dt k) s [.sub] fun x =>
    x.slotOf k = { s.dev.slotOf k with step := 6, pos := (s.dev.slotOf k).total }) ∧
  ∀ (dt l t : Nat) (s : State), Serving s → AMap.find? s.dev.sub.linger l = some t → Does (.lingerExpiry dt l) s (.lne :: .sub :: watched)
    fun x =>
    (x.lane l).state = .off ∧ (x.lane l).signal = false ∧ AMap.find? x.sub.linger l = none ∧ x.now = max (s.dev.now + dt) t

/-! ### Registers -/

/-- A dword written to the scratch register is its value, or its bits to set or clear, or masked, by the alias it goes through; poisoned
data and parts of a dword change nothing. A read gives the dword's value to the host. The reset control takes only its key; a sealed bell
control, a rail limit written once and a locked word of the officer key stand, and free ones take what is written. -/
def Obligations.RegisterAccess : Prop :=
  (∀ (dt v : Nat) (s : State), s.dev.busUp = true → Quiet s → Does (.registerWrite dt 0x90 4 v false) s [.glb, .bdy] fun x =>
    x.glb = { s.dev.glb with scratch := v % 2 ^ 32 }) ∧
  (∀ (dt v : Nat) (s : State), s.dev.busUp = true → Quiet s → Does (.registerWrite dt 0x94 4 v false) s [.glb, .bdy] fun x =>
    x.glb = { s.dev.glb with scratch := (s.dev.glb.scratch ||| v % 2 ^ 32) % 2 ^ 32 }) ∧
  (∀ (dt v : Nat) (s : State), s.dev.busUp = true → Quiet s → Does (.registerWrite dt 0x98 4 v false) s [.glb, .bdy] fun x =>
    x.glb = { s.dev.glb with scratch := (s.dev.glb.scratch - (s.dev.glb.scratch &&& v % 2 ^ 32)) % 2 ^ 32 }) ∧
  (∀ (dt v : Nat) (s : State), s.dev.busUp = true → Quiet s → Does (.registerWrite dt 0x9C 4 v false) s [.glb, .bdy] fun x =>
    bits x.glb.scratch 31 16 = bits s.dev.glb.scratch 31 16 ∧
      (∀ k ∈ List.range 16, bit x.glb.scratch k = if bit v (16 + k) then bit v k else bit s.dev.glb.scratch k)) ∧
  (∀ (dt a n v : Nat) (s : State), Quiet s → Does (.registerWrite dt a n v true) s [] fun x =>
    x.hif = s.dev.hif ∧ x.out = s.dev.out) ∧
  (∀ (dt a n v : Nat) (s : State), n < 4 → a % 4 + n ≤ 4 → Quiet s → Does (.registerWrite dt a n v false) s [] fun x =>
    x.hif = s.dev.hif ∧ x.out = s.dev.out) ∧
  (∀ (dt a : Nat) (s : State), s.dev.busUp = true → Quiet s → Does (.loRegisterRead dt a) s [.glb] fun x =>
    x.out = .readData a ((s.dev.elapse dt).readDword a) :: s.dev.out) ∧
  (∀ (dt : Nat) (w : RegWrite) (s : State), s.dev.busUp = true → w.off = 0 ∧ w.len = 4 ∧ w.poisoned = false → resetCtrlKey (w.data % 2 ^
    32) = true → s.dev.mayWarm = true → Quiet s → Does (.glbResetCtrlWrite dt w) s [.boot] fun x =>
    x.boot = { s.dev.boot with warmDue := some causeHostWarm }) ∧
  (∀ (dt : Nat) (w : RegWrite) (s : State), s.dev.busUp = true → w.off = 0 ∧ w.len = 4 ∧ w.poisoned = false → resetCtrlKey (w.data % 2 ^
    32) = false → Quiet s → Does (.glbResetCtrlWrite dt w) s [] fun x =>
    x.boot = s.dev.boot) ∧
  (∀ (dt : Nat) (w : RegWrite) (s : State), s.dev.busUp = true ∧ s.dev.regsUp = true → w.off = 0 ∧ w.len = 4 ∧ w.poisoned = false → bit
    s.dev.sealScopes 0 = false → s.dev.overfilledPort (bits w.data 7 0) (bits w.data 15 8) = none → Quiet s → Does (.belCtrlWrite dt w) s
    [.bel, .bdy] fun x =>
    x.bel = { s.dev.bel with slew := bits w.data 7 0, guard := bits w.data 15 8, stepEn := bit w.data 16 }) ∧
  (∀ (dt : Nat) (w : RegWrite) (s : State), s.dev.busUp = true ∧ s.dev.regsUp = true → w.off = 0 ∧ w.len = 4 ∧ w.poisoned = false → bit
    s.dev.sealScopes 0 = true → Quiet s → Does (.belCtrlWrite dt w) s [.prc] fun x =>
    x.prc.sealed = s.dev.prc.sealed ∧ x.prc.key = s.dev.prc.key) ∧
  (∀ (dt q : Nat) (w : RegWrite) (s : State), s.dev.busUp = true ∧ s.dev.regsUp = true → w.off = 0 ∧ w.len = 4 ∧ w.poisoned = false → q <
    s.dev.glb.part.quads → s.dev.glb.railLocks.contains q = false → Quiet s → Does (.govRailLimitWrite dt q w) s [.gov, .glb, .bdy] fun x =>
    x.quad q = { s.dev.quad q with limit := max 40 (min (bits w.data 9 0) 200) } ∧ x.glb = { s.dev.glb with railLocks := s.dev.glb.railLocks ++ [q] }) ∧
  (∀ (dt q : Nat) (w : RegWrite) (s : State), s.dev.glb.railLocks.contains q = true → w.off % 16 + w.len ≤ 16 → Quiet s → Does
    (.govRailLimitWrite dt q w) s [.prc] fun x =>
    x.quad q = s.dev.quad q) ∧
  (∀ (dt k : Nat) (w : RegWrite) (s : State), s.dev.busUp = true ∧ s.dev.regsUp = true → w.off = 0 ∧ w.len = 4 ∧ w.poisoned = false → k <
    16 → bit s.dev.prc.keyLocks k = false → setBit s.dev.prc.keyLocks k true ≠ 65535 → Quiet s → Does (.officerKeyWrite dt k w) s [.prc] fun
    x =>
    x.prc = { s.dev.prc with key := s.dev.prc.key.set k (w.data % 2 ^ 32), keyLocks := setBit s.dev.prc.keyLocks k true, keyState := 1 }) ∧
  ∀ (dt k : Nat) (w : RegWrite) (s : State), bit s.dev.prc.keyLocks k = true → w.off % 16 + w.len ≤ 16 → Quiet s → Does (.officerKeyWrite
    dt k w) s [.prc] fun x =>
    x.prc.key = s.dev.prc.key ∧ x.prc.keyLocks = s.dev.prc.keyLocks

/-! ### The buddy pair -/

/-- When the link comes up each class has its full credit; a pairing under way becomes LINKED and completes, or after its deadline returns
to the state before. A link lost in LINKED leads to LINKING. A heartbeat is kept as the summary of the buddy. Credit received is added, a
transit frame for a port here is stored when it is admitted, and the alarms of skew and of different settings are marked posted once. -/
def Obligations.BuddyLink : Prop :=
  (∀ (dt : Nat) (p : Pairing) (s : State), Serving s → s.dev.bdy.pairing = some p → Does (.pairLinkTimeout dt) s (.lne :: watched) fun x =>
    x.bdy.state = p.previous ∧ x.bdy.pairing = none ∧ x.bdy.index = p.prevIndex ∧ x.bdy.linkUp = false ∧ x.cmdAt p.ring p.tag = none ∧
      x.now = max (s.dev.now + dt) p.deadline) ∧
  (∀ (dt : Nat) (b : BuddyId) (s : State), Serving s → s.dev.bdy.linkUp = false → s.dev.linkWhole = true → s.dev.bdy.state = .isolated →
    s.dev.bdy.txq = [] → Does (.buddyLinkUp dt b) s (.ttb :: triggered) fun x =>
    x.bdy.linkUp = true ∧ x.bdy.credit = fullCredit ∧ x.bdy.state = .isolated) ∧
  (∀ (dt : Nat) (b : BuddyId) (p : Pairing) (s : State), Serving s → s.dev.bdy.linkUp = false → s.dev.linkWhole = true → s.dev.bdy.state =
    .linking → s.dev.bdy.pairing = some p → s.dev.pairFails p b = none → s.dev.bdy.shadowReserved = true ∨ s.dev.ttb.prots = [] →
    s.dev.bdy.txq = [] → Does (.buddyLinkUp dt b) s (.ttb :: triggered) fun x =>
    x.bdy.linkUp = true ∧ x.bdy.state = .linked ∧ x.bdy.pairing = none ∧ x.bdy.peerSerial = b.serial ∧ x.bdy.shadowReserved = true ∧
      x.cmdAt p.ring p.tag = none) ∧
  (∀ (dt p : Nat) (s : State), Serving s → s.dev.bdy.linkUp = true → s.dev.bdy.state = .linked → s.dev.bdy.rejoin = none → 16 ≤ p ∨
    s.dev.positionHeld p = false → Does (.buddyLinkDown dt p) s (.ttb :: triggered) fun x =>
    x.bdy.linkUp = false ∧ x.bdy.state = .linking ∧ x.bdy.index = s.dev.bdy.index) ∧
  (∀ (dt : Nat) (h : Heartbeat) (s : State), Serving s → s.dev.bdy.state ≠ .off → Does (.buddyHeartbeatRx dt h) s [.bdy] fun x =>
    x.bdy.summary = some h ∧ x.bdy.linkSeen = true ∧ (∀ y ∈ x.bdy.stored, h.writtenMark < y.1) ∧ x.bdy.state = s.dev.bdy.state) ∧
  (∀ (dt : Nat) (s : State), Serving s → Does (.buddyBeatEdge dt) s [.bdy] fun x =>
    x.bdy = { s.dev.bdy with beatSeen := true }) ∧
  (∀ (dt c n : Nat) (s : State), Serving s → s.dev.bdy.linkUp = true → s.dev.bdy.txq = [] → Does (.buddyCreditRx dt c n) s [.bdy] fun x =>
    AMap.getD x.bdy.credit c 0 = AMap.getD s.dev.bdy.credit c 0 + n) ∧
  (∀ (dt : Nat) (f : TransitFrame) (o : Origin) (s : State), Serving s → s.dev.bdy.linkUp = true → f.stream = none → f.isGroup = false →
    s.dev.portExists f.dest = true → o = { point := ptBuddy, ingress := f.ingress, sof := f.sof, period := if f.periodTai =
    s.dev.bel.lastTai then s.dev.bel.seq else s.dev.bel.seq - 1, fate := f.home, onestep := f.onestep } → ((s.dev.elapse dt).place o f.cls
    f.data f.data [f.dest] none none).1.isSome = true → Decides (.buddyFrameRx dt f) s (.gov :: wayOfFrames) fun x =>
    x.buf.nextFrame = s.dev.buf.nextFrame + 1) ∧
  (∀ (dt : Nat) (s : State), Serving s → 3 ≤ s.dev.bdy.skewBells → s.dev.bdy.skewPosted = false → s.dev.now + dt = s.dev.bel.lastAt → Does
    (.buddySkewAlarm dt) s [.bdy] fun x =>
    x.bdy = { s.dev.bdy with skewPosted := true }) ∧
  ∀ (dt : Nat) (s : State), Serving s → 3 ≤ s.dev.bdy.cfgBells → s.dev.bdy.cfgPosted = false → s.dev.now + dt = s.dev.bel.lastAt → Does
    (.cfgMismatchHeld dt) s [.bdy] fun x =>
    x.bdy = { s.dev.bdy with cfgPosted := true, cfgSet := s.dev.cfgDiff }

/-- While PAIRED a journal record is held and answered with the bell that opened the period; the answer accepts a journalled command in
that period, or ends it. A completion record is stored and acknowledged and ends what was held for it; an acknowledged completion is no
longer kept back and moves the written mark. One microsecond after a bell the commits of the period it ended are settled for the bell
after the next. Updates of the buddy reach the forwarding table, and rejoin data the target. -/
def Obligations.BuddyRecords : Prop :=
  (∀ (dt : Nat) (r : JournalRecord) (s : State), Serving s → s.dev.bdy.state = .paired → (specOf r.opcode).map (fun sp => sp.pairWide) =
    some false → r.opcode ≠ 0x0105 ∧ r.opcode ≠ 0x1003 → Does (.journalRecordRx dt r) s [.bdy] fun x =>
    (∃ h ∈ x.bdy.held, h.entry = r.entry ∧ h.opcode = r.opcode ∧ h.seq = r.seq ∧ h.stamp = s.dev.bel.seq) ∧
      Out.buddyMsg bmAck [r.seq, 0, s.dev.bel.lastTai, 0] ∈ x.out ∧ x.hif.inflight = s.dev.hif.inflight) ∧
  (∀ (dt : Nat) (a : JournalAck) (c : Cmd) (s : State), Serving s → s.dev.cmdAt a.ring a.tag = some c → c.stage = .journalled → a.refused =
    true → Does (.journalAckRx dt a) s [.bdy] fun x =>
    x.cmdAt a.ring a.tag = none) ∧
  (∀ (dt : Nat) (a : JournalAck) (c : Cmd) (s : State), Serving s → s.dev.cmdAt a.ring a.tag = some c → c.stage = .journalled → c.op =
    0x0102 → a.refused = false → Does (.journalAckRx dt a) s [.glb] fun x =>
    WaitsSince x c.e 0x0102 (s.dev.seqAt a.stampTai)) ∧
  (∀ (dt op tag st ring res ck v ix n : Nat) (s : State), Serving s → s.dev.bdy.state = .paired → Does (.completionRecordRx dt (.completion
    0 op tag st ring res ck v ix n)) s [.bdy] fun x =>
    (∃ c, (n, c) ∈ x.bdy.stored ∧ c.tag = tag ∧ c.ring = ring ∧ c.status = st ∧ c.result = res) ∧ Out.buddyMsg bmRecordAck [n] ∈ x.out ∧
      ∀ h ∈ x.bdy.held, ¬ (h.entry.ring = ring ∧ h.entry.tag = tag)) ∧
  (∀ (dt n k : Nat) (c : Compl) (s : State), Serving s → s.dev.bdy.own = [.completion n k c] → k < 32 → (s.dev.ring (32 + k)).state =
    .running → (s.dev.ring (32 + k)).room = true → ∀ p ∈ s.dev.hif.owed, p.1 ≠ k → Does (.completionRecordAck dt n) s [.bdy] fun x =>
    x.bdy = { s.dev.bdy with own := [], writtenMark := max s.dev.bdy.writtenMark n } ∧
      (x.ring (32 + k)).devIdx = ((s.dev.ring (32 + k)).devIdx + 1) % (2 * (s.dev.ring (32 + k)).n)) ∧
  (∀ (dt k : Nat) (c : Cmd) (s : State), Serving s → s.dev.bdy.state = .paired → s.dev.hif.inflight = [c] → c.stage = .accepted k → k ≤
    s.dev.bel.seq - 1 → c.op = 0x0102 → Does (.pairSettlement dt) s [] fun x =>
    x.hif.inflight = [{ c with stage := .won (k + 2) }] ∧ x.now = max (s.dev.now + dt) (s.dev.bel.lastAt + 4000)) ∧
  (∀ (dt mac fid loc : Nat) (e : FdbEntry) (s : State), Serving s → s.dev.bdy.state = .paired → s.dev.fdbFind mac fid = some (loc, e) →
    Does (.buddyUpdateRx dt (.hit mac fid)) s [.fwd, .bdy] fun x =>
    AMap.find? x.fwd.fdb loc = some { e with hit := true }) ∧
  (∀ (dt mac fid : Nat) (s : State), Serving s → s.dev.bdy.state = .paired → Does (.buddyUpdateRx dt (.remove mac fid)) s [.fwd, .bdy] fun
    x =>
    (∀ y ∈ x.fwd.fdb, ¬ (y.2.mac = mac ∧ y.2.fid = fid)) ∧ ∀ y ∈ s.dev.fwd.fdb, y.2.mac ≠ mac → y ∈ x.fwd.fdb) ∧
  ∀ (dt vid fid flood : Nat) (learn : Bool) (r : Rejoin) (s : State), Serving s → s.dev.bdy.rejoin = some r → r.source = false → r.started
    = true → Does (.rejoinDataRx dt (.vlan vid fid learn flood)) s [.fwd] fun x =>
    AMap.find? x.fwd.vlans vid = some { fid, learn, flood }

/-- Three link heartbeats missed while the pin still toggles isolate the module, and module 0 keeps the authority; three missed altogether
make the survivor SOLO with the authority and a report to write, which ends once it is written. Three heartbeats back lead from ISOLATED
to LINKED, and after the hold-down nothing waits for the link. A rejoin's cut-over makes the source PAIRED, and a module that has drained
is OFF. -/
def Obligations.PairLife : Prop :=
  (∀ (dt : Nat) (s : State), Serving s → s.dev.bdy.state = .paired → 3 ≤ s.dev.bdy.linkMissed → s.dev.bdy.missed < 3 → s.dev.hif.inflight =
    [] → s.dev.now + dt = s.dev.bel.lastAt → Does (.linkHeartbeatsMissed dt) s [.bdy] fun x =>
    x.bdy.state = .isolated ∧ x.bdy.authority = (s.dev.bdy.index == 0) ∧ x.bdy.own = [] ∧ x.bdy.holdUntil = s.dev.now + dt + s.dev.buf.holddown * qPerMs) ∧
  (∀ (dt : Nat) (s : State), Serving s → s.dev.bdy.state = .paired ∨ s.dev.bdy.state = .isolated → 2 ≤ s.dev.bdy.missed →
    s.dev.bdy.linkSeen = false → s.dev.bdy.beatSeen = false → s.dev.bdy.countedFor ≠ some (s.dev.bel.seq + 1) → s.dev.bel.nextAt ≤ s.dev.now
    + dt → s.dev.hif.inflight = [] → Does (.takeOver dt) s wayOfFrames fun x =>
    x.bdy.state = .solo ∧ x.bdy.authority = true ∧ x.bdy.reportPending = true ∧ x.bdy.txq = [] ∧ x.bdy.own = [] ∧
      (∀ y ∈ x.fwd.fdb, y.2.group = true ∨ y.2.module = s.dev.module)) ∧
  (∀ (dt : Nat) (s : State), Serving s → s.dev.bdy.reportPending = true → s.dev.bdy.report = [] → Does (.takeoverReportWrite dt) s [.bdy]
    fun x =>
    x.bdy.reportPending = false ∧ x.bdy.held = [] ∧ x.bdy.stored = [] ∧ x.bdy.txOpen = []) ∧
  (∀ (dt : Nat) (s : State), Serving s → s.dev.bdy.state = .isolated → 3 ≤ s.dev.bdy.backBells → s.dev.now + dt = s.dev.bel.lastAt → Does
    (.isolatedHeartbeatsBack dt) s [.bdy] fun x =>
    x.bdy = { s.dev.bdy with state := .linked }) ∧
  (∀ (dt : Nat) (s : State), Serving s → s.dev.bdy.holdUntil ≠ 0 → s.dev.bdy.state ≠ .paired → Does (.isolatedHolddownExpiry dt) s
    wayOfFrames fun x =>
    x.bdy.holdUntil = 0 ∧ x.bdy.txq = [] ∧ (∀ y ∈ x.fwd.fdb, y.2.group = true ∨ y.2.module = s.dev.module) ∧
      x.now = max (s.dev.now + dt) s.dev.bdy.holdUntil) ∧
  (∀ (dt : Nat) (r : Rejoin) (s : State), Serving s → s.dev.bdy.state = .syncing → s.dev.bdy.rejoin = some r → r.started = true → r.source
    = true → s.dev.rejoinHeld r = false → s.dev.bdy.txq = [] → s.dev.now + dt = s.dev.bel.lastAt → Does (.rejoinCutover dt) s (.ttb ::
    triggered) fun x =>
    x.bdy.state = .paired ∧ x.bdy.rejoin = none ∧ x.bdy.authority = false ∧ x.cmdAt r.ring r.tag = none) ∧
  ∀ (dt : Nat) (s : State), Serving s → s.dev.bdy.unpairDraining = true → s.dev.bdy.txq = [] → s.dev.bdy.pairing = none ∧ s.dev.bdy.rejoin
    = none → s.dev.hif.inflight = [] → Does (.unpairDrained dt) s wayOfFrames fun x =>
    x.bdy.state = .off ∧ x.bdy.linkUp = false ∧ x.bdy.unpairDraining = false ∧ x.bdy.authority = false ∧ x.bdy.own = [] ∧ x.bdy.shadow = (if s.dev.bdy.shadowReserved then [] else s.dev.bdy.shadow)

/-! ### The Proctor -/

/-- An update that passes every check is staged in the other bank, which becomes active, and one that fails leaves that bank without an
image; either way the update has ended. A computed digest that equals the payload seals its scope. A failed health test leaves the Proctor
in ERROR with nothing under way. ZEROIZE_N held low starts zeroization; verified, it leaves no key, no identity and a cold reset of its
cause; the third failure halts with code 8. -/
def Obligations.ProctorRows : Prop :=
  (∀ (dt : Nat) (u : FwUpdate) (c : Cmd) (s : State), Serving s → s.dev.prc.update = some u → s.dev.cmdAt u.ring u.tag = some c → c.held =
    false → Does (.firmwareStaged dt) s [.prc, .bdy, .free] fun x =>
    x.prc.update = none ∧ x.cmdAt u.ring u.tag = none ∧
      if imageFault u.image c.e.payload s.dev.prc.rollback = none ∧ Config.flashGood s.dev.free = true then
        x.prc.staged = some (u.version, u.secVersion) ∧ x.prc.activeBank = 1 - s.dev.prc.bank ∧
          x.prc.activateAt = if u.activate then some (s.dev.now + dt + 10 * qPerMs) else s.dev.prc.activateAt
      else (if s.dev.prc.bank = 0 then x.prc.bankB else x.prc.bankA) = { valid := false }) ∧
  (∀ (dt : Nat) (y : SealPending) (s : State), Serving s → s.dev.prc.sealing = [y] → y.computed = some y.payload → Does (.sealDigestChecked
    dt) s [.prc, .bdy] fun x =>
    x.prc.sealed = y.scope ∧ x.prc.sealDigest = y.payload ∧ x.prc.sealing = [] ∧ x.cmdAt y.ring y.tag = none) ∧
  (∀ (dt t : Nat) (s : State), Serving s → s.dev.serves = true → Does (.noiseHealthFail dt t) s [.prc, .bdy] fun x =>
    x.prc.state = .error ∧ x.prc.failed = t ∧ x.prc.sealing = [] ∧ x.prc.update = none ∧ x.prc.sealed = s.dev.prc.sealed) ∧
  (∀ (dt : Nat) (low : Bool) (s : State), s.dev.prc.zeroizeLow ≠ low → Quiet s → Does (.zeroizeNChange dt low) s [.prc] fun x =>
    x.prc.zeroizeLow = low ∧ x.prc.zeroizeSince = s.dev.now + dt ∧
      x.prc.zeroizeArmed = (s.dev.prc.zeroizeArmed || (low && decide (s.dev.prc.zeroizeSince + qPerMs ≤ s.dev.now + dt)))) ∧
  (∀ (dt : Nat) (s : State), s.dev.prc.zeroizeLow = true → s.dev.prc.zeroizeArmed = true → s.dev.prc.zeroizing = none → Quiet s → Does
    (.zeroizeNQualified dt) s [.prc, .bdy] fun x =>
    x.prc.state = .zeroizing ∧ x.prc.zeroizing = some { contact := true, began := s.dev.prc.state.code } ∧ x.prc.update = none ∧
      x.now = max (s.dev.now + dt) (s.dev.prc.zeroizeSince + qPerMs)) ∧
  (∀ (dt : Nat) (z : Zeroizing) (s : State), s.dev.prc.zeroizing = some z → z.attempts < 3 → Quiet s → Gives (.zeroizeAttemptDone dt true)
    s fun x =>
    x.prc.key = List.replicate 16 0 ∧ x.prc.keyLocks = 0 ∧ x.prc.identity = false ∧ x.prc.sealed = 0 ∧ x.prc.zeroizing = none ∧ x.prc.state = .boot ∧
      x.glb.phase = 0 ∧ x.glb.cause = 2 ^ 5 + 64 ∧ x.hif = {} ∧ x.bel = {} ∧ x.now = 0 ∧ x.prc.rollback = s.dev.prc.rollback) ∧
  (∀ (dt : Nat) (z : Zeroizing) (s : State), s.dev.prc.zeroizing = some z → z.attempts < 2 → Quiet s → Does (.zeroizeAttemptDone dt false)
    s [.prc] fun x =>
    x.prc = { s.dev.prc with zeroizing := some { z with attempts := z.attempts + 1 } }) ∧
  ∀ (dt : Nat) (z : Zeroizing) (s : State), s.dev.prc.zeroizing = some z → z.attempts = 2 → Quiet s → Gives (.zeroizeAttemptDone dt false)
    s fun x =>
    x.glb.phase = 15 ∧ x.glb.haltCode = 8 ∧ x.boot.eraseFirst = true ∧ x.boot.stopped = .erase ∧ x.inService = false ∧ x.buf.frames = []

/-! ### Resets and start-up -/

/-- At power-on, at RESET_N and when a lost clock returns, the module stands in phase 0 with the cause set, device time 0, and the host
interface, bells, ports, lanes, timetable, tables, stores and the pair as at reset; the officer key, the firmware banks and the audit log
stand. A rail out of tolerance or a lost reference clock stops the module, and no stored frame is left. -/
def Obligations.ColdResets : Prop :=
  (∀ (dt : Nat) (s : State), s.dev.prc.zeroizing = none → s.dev.prc.update = none → s.dev.boot.railsOut = [] ∨ 0 ∈ s.dev.boot.railsOut →
    Quiet s → Gives (.powerOn dt false []) s fun x =>
    x.now = 0 ∧ x.hif = {} ∧ x.bel = {} ∧ x.tim = {} ∧ x.lne = {} ∧ x.mac = {} ∧ x.zbn = {} ∧ x.ttb = {} ∧ x.prs = {} ∧ x.fwd = {} ∧ x.buf = {} ∧ x.sch = {} ∧
      x.gov = {} ∧ x.sub = {} ∧ x.bdy = {} ∧ x.glb = { part := s.dev.glb.part, cause := 65 } ∧ x.pins = {} ∧ x.boot = { eraseFirst := s.dev.boot.eraseFirst } ∧
      x.prc.key = s.dev.prc.key ∧ x.prc.audit = s.dev.prc.audit ∧ x.prc.bankA = s.dev.prc.bankA ∧ x.prc.sealed = 0 ∧ x.prc.state = .boot) ∧
  (∀ (dt : Nat) (s : State), s.dev.prc.zeroizing = none → s.dev.boot.stopped ≠ .supply → Quiet s → Gives (.resetPin dt false []) s fun x =>
    x.now = 0 ∧ x.hif = {} ∧ x.bel = {} ∧ x.tim = {} ∧ x.lne = {} ∧ x.mac = {} ∧ x.zbn = {} ∧ x.ttb = {} ∧ x.prs = {} ∧ x.fwd = {} ∧ x.buf = {} ∧ x.sch = {} ∧
      x.gov = {} ∧ x.sub = {} ∧ x.bdy = {} ∧ x.glb.phase = 0 ∧ x.glb.cause = 66 ∧
      x.glb.afterTrip = (s.dev.boot.stopped == .trip || s.dev.glb.afterTrip) ∧ x.prc.key = s.dev.prc.key ∧ x.prc.audit = s.dev.prc.audit ∧ x.prc.state = .boot) ∧
  (∀ (dt : Nat) (s : State), s.dev.prc.zeroizing = none → s.dev.boot.stopped = .clock → Quiet s → Gives (.clockRestored dt) s fun x =>
    x.now = 0 ∧ x.hif = {} ∧ x.bel = {} ∧ x.mac = {} ∧ x.buf = {} ∧ x.bdy = {} ∧ x.glb = { part := s.dev.glb.part, cause := 65 } ∧ x.boot.stopped = .no ∧
      x.prc.key = s.dev.prc.key) ∧
  (∀ (dt r : Nat) (s : State), s.dev.glb.part.hasRail r = true → s.dev.boot.stopped = .no → Quiet s → Does (.railOutOfTolerance dt r) s
    [.boot, .buf, .sch, .fwd, .ttb, .drc, .bdy] fun x =>
    x.boot = { s.dev.boot with stopped := .supply, railsOut := r :: s.dev.boot.railsOut.filter (· != r) } ∧ x.buf.frames = [] ∧ x.inService = false) ∧
  (∀ (dt : Nat) (aux : Bool) (s : State), s.dev.boot.clockOn = true → s.dev.boot.stopped = .no → Quiet s → Does (.refclkLoss dt aux) s
    [.boot, .buf, .sch, .fwd, .ttb, .drc, .bdy] fun x =>
    x.boot = { s.dev.boot with stopped := .clock } ∧ x.buf.frames = [] ∧ x.inService = false) ∧
  (∀ (dt : Nat) (s : State), Serving s → s.dev.prc.zeroizing = none → s.dev.hif.inflight.filter flrEnds = [] → Does (.perstAssert dt) s
    [.buf, .bdy] fun x =>
    x.hif.flr = true ∧ x.hif.rings = [] ∧ x.hif.linkGen = 0 ∧ x.hif.linkWidth = 0) ∧
  ∀ (dt : Nat) (s : State), Serving s → s.dev.prc.zeroizing = none → s.dev.hif.inflight.filter flrEnds = [] → Does (.refclkPcieLoss dt) s
    [.buf, .bdy] fun x =>
    x.hif.flr = true ∧ x.hif.rings = [] ∧ x.hif.linkGen = 0 ∧ x.hif.linkWidth = 0

/-- The watchdog and an activating update ask for a warm reset, which starts again in phase 0 with its cause and one more counted. A
stable core clock rings bell 0 on the grid and leads to phase 1, a verified bank to phase 2, passed self-tests to phase 3, initialised
memory to phase 4, and trained DRAM to phase 5 with the host interface ready. Without a good bank the module halts. Out of service a bell
only counts itself. -/
def Obligations.WarmResetsAndStartUp : Prop :=
  (∀ (dt : Nat) (s : State), Serving s → s.dev.prc.zeroizing = none → Does (.watchdogExpiry dt) s [.boot] fun x =>
    x.boot = { s.dev.boot with warmDue := some causeWatchdog }) ∧
  (∀ (dt v w t : Nat) (s : State), Serving s → s.dev.prc.zeroizing = none → s.dev.prc.activateAt = some t → s.dev.prc.staged = some (v, w)
    → v / 2 ^ 24 = s.dev.glb.fwVersion / 2 ^ 24 → Does (.firmwareActivation dt) s [.boot, .prc] fun x =>
    x.boot = { s.dev.boot with warmDue := some causeFwUpdate } ∧ x.prc = { s.dev.prc with activateAt := none } ∧ x.now = max (s.dev.now + dt) t) ∧
  (∀ (dt k : Nat) (s : State), s.dev.boot.warmDue = some k → s.dev.boot.stopped = .no → s.dev.glb.phase ≠ 15 → s.dev.prc.zeroizing = none →
    s.dev.hif.inflight = [] → Quiet s → Gives (.warmReset dt k) s fun x =>
    x.glb.phase = 0 ∧ x.glb.hifReady = false ∧ x.glb.cause = 2 ^ k ∧ x.glb.warmCount = min (s.dev.glb.warmCount + 1) 65535 ∧ x.boot.resetting = true ∧
      x.boot.warmDue = none ∧ x.prc.state = .boot ∧ x.prc.sealed = s.dev.prc.sealed ∧ x.prc.key = s.dev.prc.key ∧
      (s.dev.glb.phase = 5 ∨ s.dev.glb.phase = 6 → x.boot.warm = true ∧ x.hif.rings = [] ∧ x.buf.frames = [] ∧ x.bdy.state = .off)) ∧
  (∀ (dt : Nat) (s : State), s.dev.inPhase 0 = true → s.dev.boot.clockOn = false → s.dev.pins.flashSelHeld = false → 0 < s.dev.bel.period →
    Quiet s → Does (.coreClockStable dt true) s [.bel, .glb, .boot] fun x =>
    x.glb = { s.dev.glb with phase := 1 } ∧ x.boot.clockOn = true ∧ x.bel.seq = 0 ∧ s.dev.now + dt ≤ x.bel.lastAt ∧ x.bel.lastAt < s.dev.now + dt + s.dev.bel.period * qPerNs ∧
      x.bel.lastAt % (s.dev.bel.period * qPerNs) = 0 ∧ x.bel.nextAt = x.bel.lastAt + s.dev.bel.period * qPerNs) ∧
  (∀ (dt : Nat) (s : State), s.dev.inPhase 0 = true → Quiet s → Does (.coreClockStable dt false) s [.glb] fun x =>
    x.glb = { s.dev.glb with phase := 15, haltCode := 2, hifReady := false }) ∧
  (∀ (dt : Nat) (s : State), s.dev.inPhase 0 = true → s.dev.boot.clockOn = true → s.dev.pins.flashSelHeld = true → Quiet s → Does
    (.flashSelRelease dt) s [.glb, .pins] fun x =>
    x.glb = { s.dev.glb with phase := 1 } ∧ x.pins = { s.dev.pins with flashSelHeld := false }) ∧
  (∀ (dt k : Nat) (s : State), s.dev.inPhase 1 = true → s.dev.prc.bootBank = some k → Quiet s → Does (.firmwareVerified dt k true) s [.glb,
    .prc] fun x =>
    x.glb = { s.dev.glb with phase := 2, fwVersion := (s.dev.prc.bankAt k).version } ∧ x.prc.state = .selftest ∧ x.prc.bank = k ∧
      x.prc.running = (s.dev.prc.bankAt k).secVersion) ∧
  (∀ (dt k : Nat) (s : State), s.dev.inPhase 1 = true → s.dev.prc.bootBank = none → Quiet s → Does (.firmwareVerified dt k false) s [.glb]
    fun x =>
    x.glb = { s.dev.glb with phase := 15, haltCode := 1, hifReady := false }) ∧
  (∀ (dt ms : Nat) (s : State), s.dev.inPhase 2 = true → s.dev.prc.identity = true → Quiet s → Does (.selftestsDone dt 0 ms) s [.glb, .prc]
    fun x =>
    x.glb = { s.dev.glb with phase := 3 } ∧ x.prc.state = .operational ∧ x.prc.passed = 127 ∧ x.prc.powerUpMs = min ms 4095 ∧
      x.prc.rollback = max s.dev.prc.rollback s.dev.prc.running) ∧
  (∀ (dt : Nat) (s : State), s.dev.inPhase 3 = true → s.dev.boot.warm = false → Quiet s → Does (.memoryInitDone dt []) s [.glb, .drc] fun x
    =>
    x.glb = { s.dev.glb with phase := 4 } ∧ x.drc = { s.dev.drc with training := true }) ∧
  ∀ (dt : Nat) (ts : List LaneTrain) (s : State), s.dev.inPhase 4 = true → s.dev.boot.warm = false → Quiet s → Does (.drcTrainingDone dt
    ts) s [.glb, .boot, .drc, .buf] fun x =>
    x.glb = { s.dev.glb with phase := 5, hifReady := true } ∧ x.drc.ready = true ∧ x.drc.training = false ∧ x.boot.watchdogs = 0 ∧ x.inService = true

/-- While the core clock runs, every bell raises BEL_SEQ by one. Out of service, with no step of time or of the grid ordered, it rings at
the instant the bell before fixed, and besides the bell block nothing of the module changes. -/
def Obligations.BellsRing : Prop :=
  (∀ (dt : Nat) (b : BellInput) (s : State), s.dev.boot.clockOn = true → s.dev.boot.stopped = .no → s.dev.inService = false →
    s.dev.tim.servo.pendingStep = none → s.dev.hif.inflight = [] → Quiet s → Does (.bell dt b) s [.bel] fun x =>
    x.bel.seq = (s.dev.bel.seq + 1) % 2 ^ 64 ∧ x.bel.lastAt = s.dev.bel.nextAt ∧ x.bel.lastTai = s.dev.bel.nextAt / qPerNs ∧
      x.now = max (s.dev.now + dt) s.dev.bel.nextAt ∧ x.bel.period = s.dev.bel.period ∧ x.bel.epoch = s.dev.bel.epoch) ∧
  ∀ (dt : Nat) (b : BellInput) (s : State), s.dev.boot.clockOn = true → Serving s → Gives (.bell dt b) s fun x =>
    x.bel.seq = (s.dev.bel.seq + 1) % 2 ^ 64

/-! ### Rules of the spec stated whole -/

/-- TIM.SET_HOLDOVER, opcode 0x0403, orders holdover by a 1 in bit 0 of byte 16 and releases it by a 0; TIM.SET_SYNCE, opcode 0x0404,
takes the lane of bits 9 to 0 of byte 16 clamped to the variant's lanes, the enable of bit 16 and option 2 of bit 17, whatever heads that
lane's port. Both complete with ST_OK at once. -/
def Obligations.HoldoverAndSynceSettings : Prop :=
  (∀ (dt : Nat) (e : CmdEntry) (s : State), Ready s dt timSetHoldover e → CanTell s e.ring → CompletesAtOnce (.timSetHoldover dt e)
    timSetHoldover e s [.tim, .bel] 0 fun x =>
    timSetHoldover.op = 0x0403 ∧ x.tim.servo.hostHoldover = e.b 16 0 ∧ (e.b 16 0 = true → x.tim.servo.state = .holdover)) ∧
  ∀ (dt : Nat) (e : CmdEntry) (s : State), Ready s dt timSetSynce e → CanTell s e.ring → CompletesAtOnce (.timSetSynce dt e) timSetSynce e
    s [.tim] 0 fun x =>
    timSetSynce.op = 0x0404 ∧ x.tim.syncLane = min (e.f 16 9 0) (s.dev.glb.part.lanes - 1) ∧ x.tim.syncEn = e.b 16 16 ∧ x.tim.syncOption2 = e.b 16 17 ∧ x.tim.syncState = 0

/-- GOV.SET_VBOUND, opcode 0x0E02, and BUF.SET_VOQ, opcode 0x0B04, wait for their bell. There the quadrant of bits 1 to 0 of byte 16,
clamped to the variant's quadrants, takes both bounds of byte 20 clamped to 650 to 800, the lower then to at most the upper, and no other
quadrant changes; and, where no port is formed (08 R313), VOQ mode is that of bit 0 of byte 16 and voq_max that of bits 22 to 0 of byte
20, clamped. -/
def Obligations.VoltageBoundsAndVoqMode : Prop :=
    (govSetVbound.op = 0x0E02 ∧ bufSetVoq.op = 0x0B04) ∧
  (Commits (.govSetVbound, govSetVbound) (fun _ _ => True) [.gov] (fun _ _ => 0) fun c d x =>
    let q := min (c.e.f 16 1 0) (d.glb.part.quads - 1)
    (x.quad q).vmax = max 650 (min (c.e.f 20 25 16) 800) ∧ (x.quad q).vmin = min (max 650 (min (c.e.f 20 9 0) 800)) (x.quad q).vmax ∧
      ∀ k, k ≠ q → x.quad k = d.quad k) ∧
  Commits (.bufSetVoq, bufSetVoq) (fun _ d => d.voqFree = true) [.buf] (fun _ _ => 0) fun c d x =>
    x.buf = { d.buf with voq := c.e.b 16 0, voqMax := max 16 (min (c.e.f 20 22 0) 4194304) }

/-- FWD.DELETE_FDB, opcode 0x0A02, FWD.SET_VLAN, opcode 0x0A05, and FWD.SET_CLASS_MAP, opcode 0x0A07, wait for their bell. There, unless
an earlier commit has taken the key, the entry of the key in bytes 16 to 23 is gone, and result bit 0 is 1 when there was one and 0
otherwise; the VID of bits 11 to 0 of byte 16 takes its FID, learn_en and flood group; and the set of bits 3 to 0 of byte 16 takes pcp_dei
and dscp, and nothing else changes. -/
def Obligations.ForwardingEntriesByCommand : Prop :=
    (fwdDeleteFdb.op = 0x0A02 ∧ fwdSetVlan.op = 0x0A05 ∧ fwdSetClassMap.op = 0x0A07) ∧
  (Commits (.fwdDeleteFdb, fwdDeleteFdb) (fun c d => d.keyTaken c.e = false ∧ (d.fdbFind (c.e.f 16 47 0) (c.e.f 16 59 48)).isSome = true)
    [.fwd] (fun _ _ => 1) fun c d x =>
    ∃ loc ent, d.fdbFind (c.e.f 16 47 0) (c.e.f 16 59 48) = some (loc, ent) ∧ x.fwd = { d.fwd with fdb := AMap.erase d.fwd.fdb loc } ∧
      AMap.find? x.fwd.fdb loc = none) ∧
  (Commits (.fwdDeleteFdb, fwdDeleteFdb) (fun c d => d.keyTaken c.e = false ∧ d.fdbFind (c.e.f 16 47 0) (c.e.f 16 59 48) = none) [] (fun _
    _ => 0) fun _ d x =>
    x = d) ∧
  (Commits (.fwdSetVlan, fwdSetVlan) (fun _ _ => True) [.fwd] (fun _ _ => 0) fun c d x =>
    AMap.find? x.fwd.vlans (c.e.f 16 11 0) = some { fid := c.e.f 20 11 0, learn := c.e.b 20 16, flood := c.e.f 24 13 0 } ∧
      ∀ v, v ≠ c.e.f 16 11 0 → AMap.find? x.fwd.vlans v = AMap.find? d.fwd.vlans v) ∧
  Commits (.fwdSetClassMap, fwdSetClassMap) (fun _ _ => True) [.fwd] (fun _ _ => 0) fun c d x =>
    AMap.find? x.fwd.maps (c.e.f 16 3 0) = some { pcpDei := c.e.f 20 63 0, dscp := c.e.f 32 255 0 } ∧
      ∀ k, k ≠ c.e.f 16 3 0 → AMap.find? x.fwd.maps k = AMap.find? d.fwd.maps k

/-- Whenever the module posts an event, a RUNNING event ring whose mask includes the event's block and that has room and nothing lost gets
its record, with the time and the event's number; a full one counts one more lost event and gets no record; and an event that no RUNNING
ring takes counts as unrouted. -/
def Obligations.EventRecords : Prop :=
  (∀ (d : Dev) (ev k : Nat) (items : List Item), ev < 65536 → k < 8 → (d.ring (192 + k)).state = .running → bit (d.route k) (ev / 256 - 1) = true →
    (d.ring (192 + k)).room = true → (d.ring (192 + k)).lost = 0 →
      ∃ i w, Out.entry (192 + k) i w ∈ (d.post ev items).out ∧ bits w 63 0 = d.now % 2 ^ 64 ∧ bits w 79 64 = ev) ∧
  (∀ (d : Dev) (ev k : Nat) (items : List Item), k < 8 → (d.ring (192 + k)).state = .running → bit (d.route k) (ev / 256 - 1) = true →
    (d.ring (192 + k)).room = false →
      ((d.post ev items).ring (192 + k)).lost = (d.ring (192 + k)).lost + 1 ∧
        ∀ i w, Out.entry (192 + k) i w ∈ (d.post ev items).out → Out.entry (192 + k) i w ∈ d.out) ∧
  ∀ (d : Dev) (ev : Nat) (items : List Item), (∀ k, k < 8 → (d.ring (192 + k)).state = .running → bit (d.route k) (ev / 256 - 1) = false) →
    d.post ev items = (d.occur ev items).count (cDev 2) 1

/-- In PAIRED a command that reaches step 9 is sent to the buddy as a journal record with its entry, extension and host memory under the
next record number, and waits as journalled, with no other effect than the count of records; the commands not journalled are GLB.QUERY,
PRC.GET_TRANSCRIPT, PRC.EXPORT_AUDIT, PRC.GET_RANDOM and those whose names begin READ_. -/
def Obligations.PairedCommandsAreJournalled : Prop :=
  (∀ (d : Dev) (sp : CmdSpec) (c : Cmd), d.bdy.state = .paired → sp.journal = true → d.pairRefuses sp = false →
    (d.stepNine sp c).out = Out.buddyMsg bmJournal ([d.bdy.nextSeq, c.op, c.e.ring, c.entry, c.e.tag, c.e.cookie, c.e.body] ++ c.e.extBytes ++ c.e.mem) :: d.out ∧
      (d.stepNine sp c).bdy = { d.bdy with nextSeq := d.bdy.nextSeq + 1 } ∧
      (∀ x ∈ (d.stepNine sp c).hif.inflight, x.e.ring = c.e.ring → x.e.tag = c.e.tag → x.mirrored = c.mirrored → x.stage = .journalled) ∧
      Only [.hif, .cnt, .out, .bdy] d (d.stepNine sp c)) ∧
  ∀ sp ∈ commandSpecs, sp.journal = false ↔
    sp.op ∈ [0x0101, 0x0703, 0x0704, 0x0807, 0x0909, 0x090A, 0x0A04, 0x0A0E, 0x0C03, 0x0D03, 0x0F04, 0x1201, 0x1204, 0x1206]

/-- After a cold reset no command waits, the phase and BEL_SEQ are 0, the period is 10,000 ns, no port, rule, VLAN, stream, group or
recorder is configured, all counters are 0, every ring is OFF, the pair state is OFF, the Proctor is in BOOT, GLB_RESET_CAUSE reads 0x41,
and from phase 5 on BEL_CTRL reads its reset value. -/
def Obligations.ResetHoldsTheSpecsValues : Prop :=
  State.reset.pending = [] ∧ State.reset.dev.glb.phase = 0 ∧ State.reset.dev.glb.scratch = 0 ∧ State.reset.dev.bel.seq = 0 ∧
  State.reset.dev.bel.period = 10000 ∧ (∀ n, State.reset.dev.portExists n = false) ∧ State.reset.dev.prs.rules = [] ∧ State.reset.dev.prs.gen = 0 ∧
  State.reset.dev.fwd.fdb = [] ∧ State.reset.dev.fwd.vlans = [] ∧ (∀ r, (State.reset.dev.region r).state = .off) ∧
  (∀ k, AMap.getD State.reset.dev.cnt.live k 0 = 0 ∧ AMap.getD State.reset.dev.cnt.frozen k 0 = 0) ∧
  (∀ g, (State.reset.dev.ring g).state = .off) ∧ State.reset.dev.hif.inflight = [] ∧ State.reset.dev.bdy.state = .off ∧
  State.reset.dev.prc.state = .boot ∧ State.reset.dev.readDword 0x70 = 0x41 ∧
  ({ State.reset.dev with glb := { State.reset.dev.glb with phase := 5 } } : Dev).readDword 0x200000 = 0x11004

end
end

