-- ==== Sys2Proof/Laws/Maps.lean ====
section
/-! SUPPORT. Maps kept as lists in rising order: reading after a write, and the order that every write keeps. -/

namespace Sys2Proof

variable {α β : Type}

@[simp] theorem AMap.find?_nil (i : Nat) : AMap.find? ([] : AMap α) i = none := rfl

theorem AMap.find?_set (m : AMap α) (i j : Nat) (v : α) :
    AMap.find? (AMap.set m i v) j = if j = i then some v else AMap.find? m j := by
  induction m with
  | nil => rfl
  | cons p r ih =>
    obtain ⟨k, w⟩ := p
    simp only [AMap.set]
    split
    · simp only [AMap.find?]
    · split
      · subst_vars
        simp only [AMap.find?]
        split <;> simp_all
      · simp only [AMap.find?]
        split
        · subst_vars
          rw [if_neg (by omega)]
        · exact ih

/-- A read after a write at a key: the value written there, any other key as before. -/
@[simp] theorem AMap.getD_set (m : AMap α) (i j : Nat) (v dflt : α) :
    AMap.getD (AMap.set m i v) j dflt = if j = i then v else AMap.getD m j dflt := by
  unfold AMap.getD
  rw [AMap.find?_set]
  split <;> rfl

theorem AMap.getD_upd (m : AMap α) (i j : Nat) (dflt : α) (f : α → α) :
    AMap.getD (AMap.upd m i dflt f) j dflt = if j = i then f (AMap.getD m i dflt) else AMap.getD m j dflt :=
  AMap.getD_set m i j _ dflt

theorem AMap.find?_erase (m : AMap α) (i j : Nat) :
    AMap.find? (AMap.erase m i) j = if j = i then none else AMap.find? m j := by
  induction m with
  | nil => simp [AMap.erase]
  | cons p r ih =>
    obtain ⟨k, w⟩ := p
    simp only [AMap.erase]
    split
    · subst_vars
      rw [ih]
      simp only [AMap.find?]
      split <;> rfl
    · simp only [AMap.find?, ih]
      split
      · subst_vars
        rw [if_neg (by omega)]
      · rfl

/-- Keys in strictly rising order, as a relation. -/
theorem AMap.rising_iff (m : AMap α) : AMap.rising m = true ↔ m.Pairwise fun a b => a.1 < b.1 := by
  induction m with
  | nil => simp [AMap.rising]
  | cons p r ih =>
    cases r with
    | nil => simp [AMap.rising]
    | cons q t =>
      simp only [AMap.rising, Bool.and_eq_true, decide_eq_true_eq, ih]
      constructor
      · rintro ⟨h, k⟩
        refine List.pairwise_cons.2 ⟨?_, k⟩
        intro x hx
        rcases List.mem_cons.1 hx with rfl | hx
        · exact h
        · exact Nat.lt_trans h ((List.pairwise_cons.1 k).1 x hx)
      · intro h
        exact ⟨(List.pairwise_cons.1 h).1 q (by simp), (List.pairwise_cons.1 h).2⟩

theorem AMap.mem_set {m : AMap α} {i : Nat} {v : α} {p : Nat × α} (h : p ∈ AMap.set m i v) : p = (i, v) ∨ p ∈ m := by
  induction m with
  | nil => simpa [AMap.set] using h
  | cons q r ih =>
    obtain ⟨k, w⟩ := q
    simp only [AMap.set] at h
    split at h
    · simpa using h
    · split at h
      · rcases List.mem_cons.1 h with h | h
        · exact .inl h
        · exact .inr (List.mem_cons_of_mem _ h)
      · rcases List.mem_cons.1 h with h | h
        · exact .inr (h ▸ List.mem_cons_self)
        · rcases ih h with h | h
          · exact .inl h
          · exact .inr (List.mem_cons_of_mem _ h)

/-- A write keeps the rising order of the keys. -/
theorem AMap.rising_set {m : AMap α} (h : AMap.rising m = true) (i : Nat) (v : α) : AMap.rising (AMap.set m i v) = true := by
  rw [AMap.rising_iff] at h ⊢
  induction m with
  | nil => simp [AMap.set]
  | cons q r ih =>
    obtain ⟨k, w⟩ := q
    have hr := (List.pairwise_cons.1 h).2
    have hk := (List.pairwise_cons.1 h).1
    simp only [AMap.set]
    split
    · rename_i lt
      refine List.pairwise_cons.2 ⟨?_, h⟩
      intro x hx
      rcases List.mem_cons.1 hx with rfl | hx
      · exact lt
      · exact Nat.lt_trans lt (hk x hx)
    · split
      · subst_vars
        exact List.pairwise_cons.2 ⟨hk, hr⟩
      · refine List.pairwise_cons.2 ⟨?_, ih hr⟩
        intro x hx
        rcases AMap.mem_set hx with rfl | hx
        · dsimp only
          omega
        · exact hk x hx

theorem AMap.mem_erase {m : AMap α} {i : Nat} {p : Nat × α} (h : p ∈ AMap.erase m i) : p ∈ m := by
  induction m with
  | nil => exact h
  | cons q r ih =>
    obtain ⟨k, w⟩ := q
    simp only [AMap.erase] at h
    split at h
    · exact List.mem_cons_of_mem _ (ih h)
    · rcases List.mem_cons.1 h with h | h
      · exact h ▸ List.mem_cons_self
      · exact List.mem_cons_of_mem _ (ih h)

/-- Unlisting a key keeps the rising order. -/
theorem AMap.rising_erase {m : AMap α} (h : AMap.rising m = true) (i : Nat) : AMap.rising (AMap.erase m i) = true := by
  rw [AMap.rising_iff] at h ⊢
  induction m with
  | nil => exact h
  | cons q r ih =>
    obtain ⟨k, w⟩ := q
    have hr := (List.pairwise_cons.1 h).2
    have hk := (List.pairwise_cons.1 h).1
    simp only [AMap.erase]
    split
    · exact ih hr
    · exact List.pairwise_cons.2 ⟨fun x hx => hk x (AMap.mem_erase hx), ih hr⟩

end Sys2Proof
end

