-- ==== Sys2Proof/Laws/State.lean ====
section
/-! SUPPORT. What each update of the module's state leaves in each field: one lemma per field per update, so that no proof unfolds a
record update. -/

namespace Sys2Proof.Machine

variable (d : Dev)

@[simp] theorem Dev.glbM_now (f : Glb → Glb) : (d.glbM f).now = d.now := rfl
@[simp] theorem Dev.glbM_free (f : Glb → Glb) : (d.glbM f).free = d.free := rfl
@[simp] theorem Dev.glbM_arrivals (f : Glb → Glb) : (d.glbM f).arrivals = d.arrivals := rfl
@[simp] theorem Dev.glbM_out (f : Glb → Glb) : (d.glbM f).out = d.out := rfl
@[simp] theorem Dev.glbM_glb (f : Glb → Glb) : (d.glbM f).glb = f d.glb := rfl
@[simp] theorem Dev.glbM_cnt (f : Glb → Glb) : (d.glbM f).cnt = d.cnt := rfl
@[simp] theorem Dev.glbM_hif (f : Glb → Glb) : (d.glbM f).hif = d.hif := rfl
@[simp] theorem Dev.glbM_bel (f : Glb → Glb) : (d.glbM f).bel = d.bel := rfl
@[simp] theorem Dev.glbM_tim (f : Glb → Glb) : (d.glbM f).tim = d.tim := rfl
@[simp] theorem Dev.glbM_lne (f : Glb → Glb) : (d.glbM f).lne = d.lne := rfl
@[simp] theorem Dev.glbM_mac (f : Glb → Glb) : (d.glbM f).mac = d.mac := rfl
@[simp] theorem Dev.glbM_zbn (f : Glb → Glb) : (d.glbM f).zbn = d.zbn := rfl
@[simp] theorem Dev.glbM_ttb (f : Glb → Glb) : (d.glbM f).ttb = d.ttb := rfl
@[simp] theorem Dev.glbM_prs (f : Glb → Glb) : (d.glbM f).prs = d.prs := rfl
@[simp] theorem Dev.glbM_fwd (f : Glb → Glb) : (d.glbM f).fwd = d.fwd := rfl
@[simp] theorem Dev.glbM_buf (f : Glb → Glb) : (d.glbM f).buf = d.buf := rfl
@[simp] theorem Dev.glbM_sch (f : Glb → Glb) : (d.glbM f).sch = d.sch := rfl
@[simp] theorem Dev.glbM_drc (f : Glb → Glb) : (d.glbM f).drc = d.drc := rfl
@[simp] theorem Dev.glbM_gov (f : Glb → Glb) : (d.glbM f).gov = d.gov := rfl
@[simp] theorem Dev.glbM_sub (f : Glb → Glb) : (d.glbM f).sub = d.sub := rfl
@[simp] theorem Dev.glbM_bdy (f : Glb → Glb) : (d.glbM f).bdy = d.bdy := rfl
@[simp] theorem Dev.glbM_prc (f : Glb → Glb) : (d.glbM f).prc = d.prc := rfl
@[simp] theorem Dev.glbM_pins (f : Glb → Glb) : (d.glbM f).pins = d.pins := rfl
@[simp] theorem Dev.glbM_boot (f : Glb → Glb) : (d.glbM f).boot = d.boot := rfl

@[simp] theorem Dev.cntM_now (f : Cnt → Cnt) : (d.cntM f).now = d.now := rfl
@[simp] theorem Dev.cntM_free (f : Cnt → Cnt) : (d.cntM f).free = d.free := rfl
@[simp] theorem Dev.cntM_arrivals (f : Cnt → Cnt) : (d.cntM f).arrivals = d.arrivals := rfl
@[simp] theorem Dev.cntM_out (f : Cnt → Cnt) : (d.cntM f).out = d.out := rfl
@[simp] theorem Dev.cntM_glb (f : Cnt → Cnt) : (d.cntM f).glb = d.glb := rfl
@[simp] theorem Dev.cntM_cnt (f : Cnt → Cnt) : (d.cntM f).cnt = f d.cnt := rfl
@[simp] theorem Dev.cntM_hif (f : Cnt → Cnt) : (d.cntM f).hif = d.hif := rfl
@[simp] theorem Dev.cntM_bel (f : Cnt → Cnt) : (d.cntM f).bel = d.bel := rfl
@[simp] theorem Dev.cntM_tim (f : Cnt → Cnt) : (d.cntM f).tim = d.tim := rfl
@[simp] theorem Dev.cntM_lne (f : Cnt → Cnt) : (d.cntM f).lne = d.lne := rfl
@[simp] theorem Dev.cntM_mac (f : Cnt → Cnt) : (d.cntM f).mac = d.mac := rfl
@[simp] theorem Dev.cntM_zbn (f : Cnt → Cnt) : (d.cntM f).zbn = d.zbn := rfl
@[simp] theorem Dev.cntM_ttb (f : Cnt → Cnt) : (d.cntM f).ttb = d.ttb := rfl
@[simp] theorem Dev.cntM_prs (f : Cnt → Cnt) : (d.cntM f).prs = d.prs := rfl
@[simp] theorem Dev.cntM_fwd (f : Cnt → Cnt) : (d.cntM f).fwd = d.fwd := rfl
@[simp] theorem Dev.cntM_buf (f : Cnt → Cnt) : (d.cntM f).buf = d.buf := rfl
@[simp] theorem Dev.cntM_sch (f : Cnt → Cnt) : (d.cntM f).sch = d.sch := rfl
@[simp] theorem Dev.cntM_drc (f : Cnt → Cnt) : (d.cntM f).drc = d.drc := rfl
@[simp] theorem Dev.cntM_gov (f : Cnt → Cnt) : (d.cntM f).gov = d.gov := rfl
@[simp] theorem Dev.cntM_sub (f : Cnt → Cnt) : (d.cntM f).sub = d.sub := rfl
@[simp] theorem Dev.cntM_bdy (f : Cnt → Cnt) : (d.cntM f).bdy = d.bdy := rfl
@[simp] theorem Dev.cntM_prc (f : Cnt → Cnt) : (d.cntM f).prc = d.prc := rfl
@[simp] theorem Dev.cntM_pins (f : Cnt → Cnt) : (d.cntM f).pins = d.pins := rfl
@[simp] theorem Dev.cntM_boot (f : Cnt → Cnt) : (d.cntM f).boot = d.boot := rfl

@[simp] theorem Dev.hifM_now (f : Hif → Hif) : (d.hifM f).now = d.now := rfl
@[simp] theorem Dev.hifM_free (f : Hif → Hif) : (d.hifM f).free = d.free := rfl
@[simp] theorem Dev.hifM_arrivals (f : Hif → Hif) : (d.hifM f).arrivals = d.arrivals := rfl
@[simp] theorem Dev.hifM_out (f : Hif → Hif) : (d.hifM f).out = d.out := rfl
@[simp] theorem Dev.hifM_glb (f : Hif → Hif) : (d.hifM f).glb = d.glb := rfl
@[simp] theorem Dev.hifM_cnt (f : Hif → Hif) : (d.hifM f).cnt = d.cnt := rfl
@[simp] theorem Dev.hifM_hif (f : Hif → Hif) : (d.hifM f).hif = f d.hif := rfl
@[simp] theorem Dev.hifM_bel (f : Hif → Hif) : (d.hifM f).bel = d.bel := rfl
@[simp] theorem Dev.hifM_tim (f : Hif → Hif) : (d.hifM f).tim = d.tim := rfl
@[simp] theorem Dev.hifM_lne (f : Hif → Hif) : (d.hifM f).lne = d.lne := rfl
@[simp] theorem Dev.hifM_mac (f : Hif → Hif) : (d.hifM f).mac = d.mac := rfl
@[simp] theorem Dev.hifM_zbn (f : Hif → Hif) : (d.hifM f).zbn = d.zbn := rfl
@[simp] theorem Dev.hifM_ttb (f : Hif → Hif) : (d.hifM f).ttb = d.ttb := rfl
@[simp] theorem Dev.hifM_prs (f : Hif → Hif) : (d.hifM f).prs = d.prs := rfl
@[simp] theorem Dev.hifM_fwd (f : Hif → Hif) : (d.hifM f).fwd = d.fwd := rfl
@[simp] theorem Dev.hifM_buf (f : Hif → Hif) : (d.hifM f).buf = d.buf := rfl
@[simp] theorem Dev.hifM_sch (f : Hif → Hif) : (d.hifM f).sch = d.sch := rfl
@[simp] theorem Dev.hifM_drc (f : Hif → Hif) : (d.hifM f).drc = d.drc := rfl
@[simp] theorem Dev.hifM_gov (f : Hif → Hif) : (d.hifM f).gov = d.gov := rfl
@[simp] theorem Dev.hifM_sub (f : Hif → Hif) : (d.hifM f).sub = d.sub := rfl
@[simp] theorem Dev.hifM_bdy (f : Hif → Hif) : (d.hifM f).bdy = d.bdy := rfl
@[simp] theorem Dev.hifM_prc (f : Hif → Hif) : (d.hifM f).prc = d.prc := rfl
@[simp] theorem Dev.hifM_pins (f : Hif → Hif) : (d.hifM f).pins = d.pins := rfl
@[simp] theorem Dev.hifM_boot (f : Hif → Hif) : (d.hifM f).boot = d.boot := rfl

@[simp] theorem Dev.belM_now (f : Bel → Bel) : (d.belM f).now = d.now := rfl
@[simp] theorem Dev.belM_free (f : Bel → Bel) : (d.belM f).free = d.free := rfl
@[simp] theorem Dev.belM_arrivals (f : Bel → Bel) : (d.belM f).arrivals = d.arrivals := rfl
@[simp] theorem Dev.belM_out (f : Bel → Bel) : (d.belM f).out = d.out := rfl
@[simp] theorem Dev.belM_glb (f : Bel → Bel) : (d.belM f).glb = d.glb := rfl
@[simp] theorem Dev.belM_cnt (f : Bel → Bel) : (d.belM f).cnt = d.cnt := rfl
@[simp] theorem Dev.belM_hif (f : Bel → Bel) : (d.belM f).hif = d.hif := rfl
@[simp] theorem Dev.belM_bel (f : Bel → Bel) : (d.belM f).bel = f d.bel := rfl
@[simp] theorem Dev.belM_tim (f : Bel → Bel) : (d.belM f).tim = d.tim := rfl
@[simp] theorem Dev.belM_lne (f : Bel → Bel) : (d.belM f).lne = d.lne := rfl
@[simp] theorem Dev.belM_mac (f : Bel → Bel) : (d.belM f).mac = d.mac := rfl
@[simp] theorem Dev.belM_zbn (f : Bel → Bel) : (d.belM f).zbn = d.zbn := rfl
@[simp] theorem Dev.belM_ttb (f : Bel → Bel) : (d.belM f).ttb = d.ttb := rfl
@[simp] theorem Dev.belM_prs (f : Bel → Bel) : (d.belM f).prs = d.prs := rfl
@[simp] theorem Dev.belM_fwd (f : Bel → Bel) : (d.belM f).fwd = d.fwd := rfl
@[simp] theorem Dev.belM_buf (f : Bel → Bel) : (d.belM f).buf = d.buf := rfl
@[simp] theorem Dev.belM_sch (f : Bel → Bel) : (d.belM f).sch = d.sch := rfl
@[simp] theorem Dev.belM_drc (f : Bel → Bel) : (d.belM f).drc = d.drc := rfl
@[simp] theorem Dev.belM_gov (f : Bel → Bel) : (d.belM f).gov = d.gov := rfl
@[simp] theorem Dev.belM_sub (f : Bel → Bel) : (d.belM f).sub = d.sub := rfl
@[simp] theorem Dev.belM_bdy (f : Bel → Bel) : (d.belM f).bdy = d.bdy := rfl
@[simp] theorem Dev.belM_prc (f : Bel → Bel) : (d.belM f).prc = d.prc := rfl
@[simp] theorem Dev.belM_pins (f : Bel → Bel) : (d.belM f).pins = d.pins := rfl
@[simp] theorem Dev.belM_boot (f : Bel → Bel) : (d.belM f).boot = d.boot := rfl

@[simp] theorem Dev.timM_now (f : Tim → Tim) : (d.timM f).now = d.now := rfl
@[simp] theorem Dev.timM_free (f : Tim → Tim) : (d.timM f).free = d.free := rfl
@[simp] theorem Dev.timM_arrivals (f : Tim → Tim) : (d.timM f).arrivals = d.arrivals := rfl
@[simp] theorem Dev.timM_out (f : Tim → Tim) : (d.timM f).out = d.out := rfl
@[simp] theorem Dev.timM_glb (f : Tim → Tim) : (d.timM f).glb = d.glb := rfl
@[simp] theorem Dev.timM_cnt (f : Tim → Tim) : (d.timM f).cnt = d.cnt := rfl
@[simp] theorem Dev.timM_hif (f : Tim → Tim) : (d.timM f).hif = d.hif := rfl
@[simp] theorem Dev.timM_bel (f : Tim → Tim) : (d.timM f).bel = d.bel := rfl
@[simp] theorem Dev.timM_tim (f : Tim → Tim) : (d.timM f).tim = f d.tim := rfl
@[simp] theorem Dev.timM_lne (f : Tim → Tim) : (d.timM f).lne = d.lne := rfl
@[simp] theorem Dev.timM_mac (f : Tim → Tim) : (d.timM f).mac = d.mac := rfl
@[simp] theorem Dev.timM_zbn (f : Tim → Tim) : (d.timM f).zbn = d.zbn := rfl
@[simp] theorem Dev.timM_ttb (f : Tim → Tim) : (d.timM f).ttb = d.ttb := rfl
@[simp] theorem Dev.timM_prs (f : Tim → Tim) : (d.timM f).prs = d.prs := rfl
@[simp] theorem Dev.timM_fwd (f : Tim → Tim) : (d.timM f).fwd = d.fwd := rfl
@[simp] theorem Dev.timM_buf (f : Tim → Tim) : (d.timM f).buf = d.buf := rfl
@[simp] theorem Dev.timM_sch (f : Tim → Tim) : (d.timM f).sch = d.sch := rfl
@[simp] theorem Dev.timM_drc (f : Tim → Tim) : (d.timM f).drc = d.drc := rfl
@[simp] theorem Dev.timM_gov (f : Tim → Tim) : (d.timM f).gov = d.gov := rfl
@[simp] theorem Dev.timM_sub (f : Tim → Tim) : (d.timM f).sub = d.sub := rfl
@[simp] theorem Dev.timM_bdy (f : Tim → Tim) : (d.timM f).bdy = d.bdy := rfl
@[simp] theorem Dev.timM_prc (f : Tim → Tim) : (d.timM f).prc = d.prc := rfl
@[simp] theorem Dev.timM_pins (f : Tim → Tim) : (d.timM f).pins = d.pins := rfl
@[simp] theorem Dev.timM_boot (f : Tim → Tim) : (d.timM f).boot = d.boot := rfl

@[simp] theorem Dev.lneM_now (f : Lne → Lne) : (d.lneM f).now = d.now := rfl
@[simp] theorem Dev.lneM_free (f : Lne → Lne) : (d.lneM f).free = d.free := rfl
@[simp] theorem Dev.lneM_arrivals (f : Lne → Lne) : (d.lneM f).arrivals = d.arrivals := rfl
@[simp] theorem Dev.lneM_out (f : Lne → Lne) : (d.lneM f).out = d.out := rfl
@[simp] theorem Dev.lneM_glb (f : Lne → Lne) : (d.lneM f).glb = d.glb := rfl
@[simp] theorem Dev.lneM_cnt (f : Lne → Lne) : (d.lneM f).cnt = d.cnt := rfl
@[simp] theorem Dev.lneM_hif (f : Lne → Lne) : (d.lneM f).hif = d.hif := rfl
@[simp] theorem Dev.lneM_bel (f : Lne → Lne) : (d.lneM f).bel = d.bel := rfl
@[simp] theorem Dev.lneM_tim (f : Lne → Lne) : (d.lneM f).tim = d.tim := rfl
@[simp] theorem Dev.lneM_lne (f : Lne → Lne) : (d.lneM f).lne = f d.lne := rfl
@[simp] theorem Dev.lneM_mac (f : Lne → Lne) : (d.lneM f).mac = d.mac := rfl
@[simp] theorem Dev.lneM_zbn (f : Lne → Lne) : (d.lneM f).zbn = d.zbn := rfl
@[simp] theorem Dev.lneM_ttb (f : Lne → Lne) : (d.lneM f).ttb = d.ttb := rfl
@[simp] theorem Dev.lneM_prs (f : Lne → Lne) : (d.lneM f).prs = d.prs := rfl
@[simp] theorem Dev.lneM_fwd (f : Lne → Lne) : (d.lneM f).fwd = d.fwd := rfl
@[simp] theorem Dev.lneM_buf (f : Lne → Lne) : (d.lneM f).buf = d.buf := rfl
@[simp] theorem Dev.lneM_sch (f : Lne → Lne) : (d.lneM f).sch = d.sch := rfl
@[simp] theorem Dev.lneM_drc (f : Lne → Lne) : (d.lneM f).drc = d.drc := rfl
@[simp] theorem Dev.lneM_gov (f : Lne → Lne) : (d.lneM f).gov = d.gov := rfl
@[simp] theorem Dev.lneM_sub (f : Lne → Lne) : (d.lneM f).sub = d.sub := rfl
@[simp] theorem Dev.lneM_bdy (f : Lne → Lne) : (d.lneM f).bdy = d.bdy := rfl
@[simp] theorem Dev.lneM_prc (f : Lne → Lne) : (d.lneM f).prc = d.prc := rfl
@[simp] theorem Dev.lneM_pins (f : Lne → Lne) : (d.lneM f).pins = d.pins := rfl
@[simp] theorem Dev.lneM_boot (f : Lne → Lne) : (d.lneM f).boot = d.boot := rfl

@[simp] theorem Dev.macM_now (f : Mac → Mac) : (d.macM f).now = d.now := rfl
@[simp] theorem Dev.macM_free (f : Mac → Mac) : (d.macM f).free = d.free := rfl
@[simp] theorem Dev.macM_arrivals (f : Mac → Mac) : (d.macM f).arrivals = d.arrivals := rfl
@[simp] theorem Dev.macM_out (f : Mac → Mac) : (d.macM f).out = d.out := rfl
@[simp] theorem Dev.macM_glb (f : Mac → Mac) : (d.macM f).glb = d.glb := rfl
@[simp] theorem Dev.macM_cnt (f : Mac → Mac) : (d.macM f).cnt = d.cnt := rfl
@[simp] theorem Dev.macM_hif (f : Mac → Mac) : (d.macM f).hif = d.hif := rfl
@[simp] theorem Dev.macM_bel (f : Mac → Mac) : (d.macM f).bel = d.bel := rfl
@[simp] theorem Dev.macM_tim (f : Mac → Mac) : (d.macM f).tim = d.tim := rfl
@[simp] theorem Dev.macM_lne (f : Mac → Mac) : (d.macM f).lne = d.lne := rfl
@[simp] theorem Dev.macM_mac (f : Mac → Mac) : (d.macM f).mac = f d.mac := rfl
@[simp] theorem Dev.macM_zbn (f : Mac → Mac) : (d.macM f).zbn = d.zbn := rfl
@[simp] theorem Dev.macM_ttb (f : Mac → Mac) : (d.macM f).ttb = d.ttb := rfl
@[simp] theorem Dev.macM_prs (f : Mac → Mac) : (d.macM f).prs = d.prs := rfl
@[simp] theorem Dev.macM_fwd (f : Mac → Mac) : (d.macM f).fwd = d.fwd := rfl
@[simp] theorem Dev.macM_buf (f : Mac → Mac) : (d.macM f).buf = d.buf := rfl
@[simp] theorem Dev.macM_sch (f : Mac → Mac) : (d.macM f).sch = d.sch := rfl
@[simp] theorem Dev.macM_drc (f : Mac → Mac) : (d.macM f).drc = d.drc := rfl
@[simp] theorem Dev.macM_gov (f : Mac → Mac) : (d.macM f).gov = d.gov := rfl
@[simp] theorem Dev.macM_sub (f : Mac → Mac) : (d.macM f).sub = d.sub := rfl
@[simp] theorem Dev.macM_bdy (f : Mac → Mac) : (d.macM f).bdy = d.bdy := rfl
@[simp] theorem Dev.macM_prc (f : Mac → Mac) : (d.macM f).prc = d.prc := rfl
@[simp] theorem Dev.macM_pins (f : Mac → Mac) : (d.macM f).pins = d.pins := rfl
@[simp] theorem Dev.macM_boot (f : Mac → Mac) : (d.macM f).boot = d.boot := rfl

@[simp] theorem Dev.zbnM_now (f : Zbn → Zbn) : (d.zbnM f).now = d.now := rfl
@[simp] theorem Dev.zbnM_free (f : Zbn → Zbn) : (d.zbnM f).free = d.free := rfl
@[simp] theorem Dev.zbnM_arrivals (f : Zbn → Zbn) : (d.zbnM f).arrivals = d.arrivals := rfl
@[simp] theorem Dev.zbnM_out (f : Zbn → Zbn) : (d.zbnM f).out = d.out := rfl
@[simp] theorem Dev.zbnM_glb (f : Zbn → Zbn) : (d.zbnM f).glb = d.glb := rfl
@[simp] theorem Dev.zbnM_cnt (f : Zbn → Zbn) : (d.zbnM f).cnt = d.cnt := rfl
@[simp] theorem Dev.zbnM_hif (f : Zbn → Zbn) : (d.zbnM f).hif = d.hif := rfl
@[simp] theorem Dev.zbnM_bel (f : Zbn → Zbn) : (d.zbnM f).bel = d.bel := rfl
@[simp] theorem Dev.zbnM_tim (f : Zbn → Zbn) : (d.zbnM f).tim = d.tim := rfl
@[simp] theorem Dev.zbnM_lne (f : Zbn → Zbn) : (d.zbnM f).lne = d.lne := rfl
@[simp] theorem Dev.zbnM_mac (f : Zbn → Zbn) : (d.zbnM f).mac = d.mac := rfl
@[simp] theorem Dev.zbnM_zbn (f : Zbn → Zbn) : (d.zbnM f).zbn = f d.zbn := rfl
@[simp] theorem Dev.zbnM_ttb (f : Zbn → Zbn) : (d.zbnM f).ttb = d.ttb := rfl
@[simp] theorem Dev.zbnM_prs (f : Zbn → Zbn) : (d.zbnM f).prs = d.prs := rfl
@[simp] theorem Dev.zbnM_fwd (f : Zbn → Zbn) : (d.zbnM f).fwd = d.fwd := rfl
@[simp] theorem Dev.zbnM_buf (f : Zbn → Zbn) : (d.zbnM f).buf = d.buf := rfl
@[simp] theorem Dev.zbnM_sch (f : Zbn → Zbn) : (d.zbnM f).sch = d.sch := rfl
@[simp] theorem Dev.zbnM_drc (f : Zbn → Zbn) : (d.zbnM f).drc = d.drc := rfl
@[simp] theorem Dev.zbnM_gov (f : Zbn → Zbn) : (d.zbnM f).gov = d.gov := rfl
@[simp] theorem Dev.zbnM_sub (f : Zbn → Zbn) : (d.zbnM f).sub = d.sub := rfl
@[simp] theorem Dev.zbnM_bdy (f : Zbn → Zbn) : (d.zbnM f).bdy = d.bdy := rfl
@[simp] theorem Dev.zbnM_prc (f : Zbn → Zbn) : (d.zbnM f).prc = d.prc := rfl
@[simp] theorem Dev.zbnM_pins (f : Zbn → Zbn) : (d.zbnM f).pins = d.pins := rfl
@[simp] theorem Dev.zbnM_boot (f : Zbn → Zbn) : (d.zbnM f).boot = d.boot := rfl

@[simp] theorem Dev.ttbM_now (f : Ttb → Ttb) : (d.ttbM f).now = d.now := rfl
@[simp] theorem Dev.ttbM_free (f : Ttb → Ttb) : (d.ttbM f).free = d.free := rfl
@[simp] theorem Dev.ttbM_arrivals (f : Ttb → Ttb) : (d.ttbM f).arrivals = d.arrivals := rfl
@[simp] theorem Dev.ttbM_out (f : Ttb → Ttb) : (d.ttbM f).out = d.out := rfl
@[simp] theorem Dev.ttbM_glb (f : Ttb → Ttb) : (d.ttbM f).glb = d.glb := rfl
@[simp] theorem Dev.ttbM_cnt (f : Ttb → Ttb) : (d.ttbM f).cnt = d.cnt := rfl
@[simp] theorem Dev.ttbM_hif (f : Ttb → Ttb) : (d.ttbM f).hif = d.hif := rfl
@[simp] theorem Dev.ttbM_bel (f : Ttb → Ttb) : (d.ttbM f).bel = d.bel := rfl
@[simp] theorem Dev.ttbM_tim (f : Ttb → Ttb) : (d.ttbM f).tim = d.tim := rfl
@[simp] theorem Dev.ttbM_lne (f : Ttb → Ttb) : (d.ttbM f).lne = d.lne := rfl
@[simp] theorem Dev.ttbM_mac (f : Ttb → Ttb) : (d.ttbM f).mac = d.mac := rfl
@[simp] theorem Dev.ttbM_zbn (f : Ttb → Ttb) : (d.ttbM f).zbn = d.zbn := rfl
@[simp] theorem Dev.ttbM_ttb (f : Ttb → Ttb) : (d.ttbM f).ttb = f d.ttb := rfl
@[simp] theorem Dev.ttbM_prs (f : Ttb → Ttb) : (d.ttbM f).prs = d.prs := rfl
@[simp] theorem Dev.ttbM_fwd (f : Ttb → Ttb) : (d.ttbM f).fwd = d.fwd := rfl
@[simp] theorem Dev.ttbM_buf (f : Ttb → Ttb) : (d.ttbM f).buf = d.buf := rfl
@[simp] theorem Dev.ttbM_sch (f : Ttb → Ttb) : (d.ttbM f).sch = d.sch := rfl
@[simp] theorem Dev.ttbM_drc (f : Ttb → Ttb) : (d.ttbM f).drc = d.drc := rfl
@[simp] theorem Dev.ttbM_gov (f : Ttb → Ttb) : (d.ttbM f).gov = d.gov := rfl
@[simp] theorem Dev.ttbM_sub (f : Ttb → Ttb) : (d.ttbM f).sub = d.sub := rfl
@[simp] theorem Dev.ttbM_bdy (f : Ttb → Ttb) : (d.ttbM f).bdy = d.bdy := rfl
@[simp] theorem Dev.ttbM_prc (f : Ttb → Ttb) : (d.ttbM f).prc = d.prc := rfl
@[simp] theorem Dev.ttbM_pins (f : Ttb → Ttb) : (d.ttbM f).pins = d.pins := rfl
@[simp] theorem Dev.ttbM_boot (f : Ttb → Ttb) : (d.ttbM f).boot = d.boot := rfl

@[simp] theorem Dev.prsM_now (f : Prs → Prs) : (d.prsM f).now = d.now := rfl
@[simp] theorem Dev.prsM_free (f : Prs → Prs) : (d.prsM f).free = d.free := rfl
@[simp] theorem Dev.prsM_arrivals (f : Prs → Prs) : (d.prsM f).arrivals = d.arrivals := rfl
@[simp] theorem Dev.prsM_out (f : Prs → Prs) : (d.prsM f).out = d.out := rfl
@[simp] theorem Dev.prsM_glb (f : Prs → Prs) : (d.prsM f).glb = d.glb := rfl
@[simp] theorem Dev.prsM_cnt (f : Prs → Prs) : (d.prsM f).cnt = d.cnt := rfl
@[simp] theorem Dev.prsM_hif (f : Prs → Prs) : (d.prsM f).hif = d.hif := rfl
@[simp] theorem Dev.prsM_bel (f : Prs → Prs) : (d.prsM f).bel = d.bel := rfl
@[simp] theorem Dev.prsM_tim (f : Prs → Prs) : (d.prsM f).tim = d.tim := rfl
@[simp] theorem Dev.prsM_lne (f : Prs → Prs) : (d.prsM f).lne = d.lne := rfl
@[simp] theorem Dev.prsM_mac (f : Prs → Prs) : (d.prsM f).mac = d.mac := rfl
@[simp] theorem Dev.prsM_zbn (f : Prs → Prs) : (d.prsM f).zbn = d.zbn := rfl
@[simp] theorem Dev.prsM_ttb (f : Prs → Prs) : (d.prsM f).ttb = d.ttb := rfl
@[simp] theorem Dev.prsM_prs (f : Prs → Prs) : (d.prsM f).prs = f d.prs := rfl
@[simp] theorem Dev.prsM_fwd (f : Prs → Prs) : (d.prsM f).fwd = d.fwd := rfl
@[simp] theorem Dev.prsM_buf (f : Prs → Prs) : (d.prsM f).buf = d.buf := rfl
@[simp] theorem Dev.prsM_sch (f : Prs → Prs) : (d.prsM f).sch = d.sch := rfl
@[simp] theorem Dev.prsM_drc (f : Prs → Prs) : (d.prsM f).drc = d.drc := rfl
@[simp] theorem Dev.prsM_gov (f : Prs → Prs) : (d.prsM f).gov = d.gov := rfl
@[simp] theorem Dev.prsM_sub (f : Prs → Prs) : (d.prsM f).sub = d.sub := rfl
@[simp] theorem Dev.prsM_bdy (f : Prs → Prs) : (d.prsM f).bdy = d.bdy := rfl
@[simp] theorem Dev.prsM_prc (f : Prs → Prs) : (d.prsM f).prc = d.prc := rfl
@[simp] theorem Dev.prsM_pins (f : Prs → Prs) : (d.prsM f).pins = d.pins := rfl
@[simp] theorem Dev.prsM_boot (f : Prs → Prs) : (d.prsM f).boot = d.boot := rfl

@[simp] theorem Dev.fwdM_now (f : Fwd → Fwd) : (d.fwdM f).now = d.now := rfl
@[simp] theorem Dev.fwdM_free (f : Fwd → Fwd) : (d.fwdM f).free = d.free := rfl
@[simp] theorem Dev.fwdM_arrivals (f : Fwd → Fwd) : (d.fwdM f).arrivals = d.arrivals := rfl
@[simp] theorem Dev.fwdM_out (f : Fwd → Fwd) : (d.fwdM f).out = d.out := rfl
@[simp] theorem Dev.fwdM_glb (f : Fwd → Fwd) : (d.fwdM f).glb = d.glb := rfl
@[simp] theorem Dev.fwdM_cnt (f : Fwd → Fwd) : (d.fwdM f).cnt = d.cnt := rfl
@[simp] theorem Dev.fwdM_hif (f : Fwd → Fwd) : (d.fwdM f).hif = d.hif := rfl
@[simp] theorem Dev.fwdM_bel (f : Fwd → Fwd) : (d.fwdM f).bel = d.bel := rfl
@[simp] theorem Dev.fwdM_tim (f : Fwd → Fwd) : (d.fwdM f).tim = d.tim := rfl
@[simp] theorem Dev.fwdM_lne (f : Fwd → Fwd) : (d.fwdM f).lne = d.lne := rfl
@[simp] theorem Dev.fwdM_mac (f : Fwd → Fwd) : (d.fwdM f).mac = d.mac := rfl
@[simp] theorem Dev.fwdM_zbn (f : Fwd → Fwd) : (d.fwdM f).zbn = d.zbn := rfl
@[simp] theorem Dev.fwdM_ttb (f : Fwd → Fwd) : (d.fwdM f).ttb = d.ttb := rfl
@[simp] theorem Dev.fwdM_prs (f : Fwd → Fwd) : (d.fwdM f).prs = d.prs := rfl
@[simp] theorem Dev.fwdM_fwd (f : Fwd → Fwd) : (d.fwdM f).fwd = f d.fwd := rfl
@[simp] theorem Dev.fwdM_buf (f : Fwd → Fwd) : (d.fwdM f).buf = d.buf := rfl
@[simp] theorem Dev.fwdM_sch (f : Fwd → Fwd) : (d.fwdM f).sch = d.sch := rfl
@[simp] theorem Dev.fwdM_drc (f : Fwd → Fwd) : (d.fwdM f).drc = d.drc := rfl
@[simp] theorem Dev.fwdM_gov (f : Fwd → Fwd) : (d.fwdM f).gov = d.gov := rfl
@[simp] theorem Dev.fwdM_sub (f : Fwd → Fwd) : (d.fwdM f).sub = d.sub := rfl
@[simp] theorem Dev.fwdM_bdy (f : Fwd → Fwd) : (d.fwdM f).bdy = d.bdy := rfl
@[simp] theorem Dev.fwdM_prc (f : Fwd → Fwd) : (d.fwdM f).prc = d.prc := rfl
@[simp] theorem Dev.fwdM_pins (f : Fwd → Fwd) : (d.fwdM f).pins = d.pins := rfl
@[simp] theorem Dev.fwdM_boot (f : Fwd → Fwd) : (d.fwdM f).boot = d.boot := rfl

@[simp] theorem Dev.bufM_now (f : Buf → Buf) : (d.bufM f).now = d.now := rfl
@[simp] theorem Dev.bufM_free (f : Buf → Buf) : (d.bufM f).free = d.free := rfl
@[simp] theorem Dev.bufM_arrivals (f : Buf → Buf) : (d.bufM f).arrivals = d.arrivals := rfl
@[simp] theorem Dev.bufM_out (f : Buf → Buf) : (d.bufM f).out = d.out := rfl
@[simp] theorem Dev.bufM_glb (f : Buf → Buf) : (d.bufM f).glb = d.glb := rfl
@[simp] theorem Dev.bufM_cnt (f : Buf → Buf) : (d.bufM f).cnt = d.cnt := rfl
@[simp] theorem Dev.bufM_hif (f : Buf → Buf) : (d.bufM f).hif = d.hif := rfl
@[simp] theorem Dev.bufM_bel (f : Buf → Buf) : (d.bufM f).bel = d.bel := rfl
@[simp] theorem Dev.bufM_tim (f : Buf → Buf) : (d.bufM f).tim = d.tim := rfl
@[simp] theorem Dev.bufM_lne (f : Buf → Buf) : (d.bufM f).lne = d.lne := rfl
@[simp] theorem Dev.bufM_mac (f : Buf → Buf) : (d.bufM f).mac = d.mac := rfl
@[simp] theorem Dev.bufM_zbn (f : Buf → Buf) : (d.bufM f).zbn = d.zbn := rfl
@[simp] theorem Dev.bufM_ttb (f : Buf → Buf) : (d.bufM f).ttb = d.ttb := rfl
@[simp] theorem Dev.bufM_prs (f : Buf → Buf) : (d.bufM f).prs = d.prs := rfl
@[simp] theorem Dev.bufM_fwd (f : Buf → Buf) : (d.bufM f).fwd = d.fwd := rfl
@[simp] theorem Dev.bufM_buf (f : Buf → Buf) : (d.bufM f).buf = f d.buf := rfl
@[simp] theorem Dev.bufM_sch (f : Buf → Buf) : (d.bufM f).sch = d.sch := rfl
@[simp] theorem Dev.bufM_drc (f : Buf → Buf) : (d.bufM f).drc = d.drc := rfl
@[simp] theorem Dev.bufM_gov (f : Buf → Buf) : (d.bufM f).gov = d.gov := rfl
@[simp] theorem Dev.bufM_sub (f : Buf → Buf) : (d.bufM f).sub = d.sub := rfl
@[simp] theorem Dev.bufM_bdy (f : Buf → Buf) : (d.bufM f).bdy = d.bdy := rfl
@[simp] theorem Dev.bufM_prc (f : Buf → Buf) : (d.bufM f).prc = d.prc := rfl
@[simp] theorem Dev.bufM_pins (f : Buf → Buf) : (d.bufM f).pins = d.pins := rfl
@[simp] theorem Dev.bufM_boot (f : Buf → Buf) : (d.bufM f).boot = d.boot := rfl

@[simp] theorem Dev.schM_now (f : Sch → Sch) : (d.schM f).now = d.now := rfl
@[simp] theorem Dev.schM_free (f : Sch → Sch) : (d.schM f).free = d.free := rfl
@[simp] theorem Dev.schM_arrivals (f : Sch → Sch) : (d.schM f).arrivals = d.arrivals := rfl
@[simp] theorem Dev.schM_out (f : Sch → Sch) : (d.schM f).out = d.out := rfl
@[simp] theorem Dev.schM_glb (f : Sch → Sch) : (d.schM f).glb = d.glb := rfl
@[simp] theorem Dev.schM_cnt (f : Sch → Sch) : (d.schM f).cnt = d.cnt := rfl
@[simp] theorem Dev.schM_hif (f : Sch → Sch) : (d.schM f).hif = d.hif := rfl
@[simp] theorem Dev.schM_bel (f : Sch → Sch) : (d.schM f).bel = d.bel := rfl
@[simp] theorem Dev.schM_tim (f : Sch → Sch) : (d.schM f).tim = d.tim := rfl
@[simp] theorem Dev.schM_lne (f : Sch → Sch) : (d.schM f).lne = d.lne := rfl
@[simp] theorem Dev.schM_mac (f : Sch → Sch) : (d.schM f).mac = d.mac := rfl
@[simp] theorem Dev.schM_zbn (f : Sch → Sch) : (d.schM f).zbn = d.zbn := rfl
@[simp] theorem Dev.schM_ttb (f : Sch → Sch) : (d.schM f).ttb = d.ttb := rfl
@[simp] theorem Dev.schM_prs (f : Sch → Sch) : (d.schM f).prs = d.prs := rfl
@[simp] theorem Dev.schM_fwd (f : Sch → Sch) : (d.schM f).fwd = d.fwd := rfl
@[simp] theorem Dev.schM_buf (f : Sch → Sch) : (d.schM f).buf = d.buf := rfl
@[simp] theorem Dev.schM_sch (f : Sch → Sch) : (d.schM f).sch = f d.sch := rfl
@[simp] theorem Dev.schM_drc (f : Sch → Sch) : (d.schM f).drc = d.drc := rfl
@[simp] theorem Dev.schM_gov (f : Sch → Sch) : (d.schM f).gov = d.gov := rfl
@[simp] theorem Dev.schM_sub (f : Sch → Sch) : (d.schM f).sub = d.sub := rfl
@[simp] theorem Dev.schM_bdy (f : Sch → Sch) : (d.schM f).bdy = d.bdy := rfl
@[simp] theorem Dev.schM_prc (f : Sch → Sch) : (d.schM f).prc = d.prc := rfl
@[simp] theorem Dev.schM_pins (f : Sch → Sch) : (d.schM f).pins = d.pins := rfl
@[simp] theorem Dev.schM_boot (f : Sch → Sch) : (d.schM f).boot = d.boot := rfl

@[simp] theorem Dev.drcM_now (f : Drc → Drc) : (d.drcM f).now = d.now := rfl
@[simp] theorem Dev.drcM_free (f : Drc → Drc) : (d.drcM f).free = d.free := rfl
@[simp] theorem Dev.drcM_arrivals (f : Drc → Drc) : (d.drcM f).arrivals = d.arrivals := rfl
@[simp] theorem Dev.drcM_out (f : Drc → Drc) : (d.drcM f).out = d.out := rfl
@[simp] theorem Dev.drcM_glb (f : Drc → Drc) : (d.drcM f).glb = d.glb := rfl
@[simp] theorem Dev.drcM_cnt (f : Drc → Drc) : (d.drcM f).cnt = d.cnt := rfl
@[simp] theorem Dev.drcM_hif (f : Drc → Drc) : (d.drcM f).hif = d.hif := rfl
@[simp] theorem Dev.drcM_bel (f : Drc → Drc) : (d.drcM f).bel = d.bel := rfl
@[simp] theorem Dev.drcM_tim (f : Drc → Drc) : (d.drcM f).tim = d.tim := rfl
@[simp] theorem Dev.drcM_lne (f : Drc → Drc) : (d.drcM f).lne = d.lne := rfl
@[simp] theorem Dev.drcM_mac (f : Drc → Drc) : (d.drcM f).mac = d.mac := rfl
@[simp] theorem Dev.drcM_zbn (f : Drc → Drc) : (d.drcM f).zbn = d.zbn := rfl
@[simp] theorem Dev.drcM_ttb (f : Drc → Drc) : (d.drcM f).ttb = d.ttb := rfl
@[simp] theorem Dev.drcM_prs (f : Drc → Drc) : (d.drcM f).prs = d.prs := rfl
@[simp] theorem Dev.drcM_fwd (f : Drc → Drc) : (d.drcM f).fwd = d.fwd := rfl
@[simp] theorem Dev.drcM_buf (f : Drc → Drc) : (d.drcM f).buf = d.buf := rfl
@[simp] theorem Dev.drcM_sch (f : Drc → Drc) : (d.drcM f).sch = d.sch := rfl
@[simp] theorem Dev.drcM_drc (f : Drc → Drc) : (d.drcM f).drc = f d.drc := rfl
@[simp] theorem Dev.drcM_gov (f : Drc → Drc) : (d.drcM f).gov = d.gov := rfl
@[simp] theorem Dev.drcM_sub (f : Drc → Drc) : (d.drcM f).sub = d.sub := rfl
@[simp] theorem Dev.drcM_bdy (f : Drc → Drc) : (d.drcM f).bdy = d.bdy := rfl
@[simp] theorem Dev.drcM_prc (f : Drc → Drc) : (d.drcM f).prc = d.prc := rfl
@[simp] theorem Dev.drcM_pins (f : Drc → Drc) : (d.drcM f).pins = d.pins := rfl
@[simp] theorem Dev.drcM_boot (f : Drc → Drc) : (d.drcM f).boot = d.boot := rfl

@[simp] theorem Dev.govM_now (f : Gov → Gov) : (d.govM f).now = d.now := rfl
@[simp] theorem Dev.govM_free (f : Gov → Gov) : (d.govM f).free = d.free := rfl
@[simp] theorem Dev.govM_arrivals (f : Gov → Gov) : (d.govM f).arrivals = d.arrivals := rfl
@[simp] theorem Dev.govM_out (f : Gov → Gov) : (d.govM f).out = d.out := rfl
@[simp] theorem Dev.govM_glb (f : Gov → Gov) : (d.govM f).glb = d.glb := rfl
@[simp] theorem Dev.govM_cnt (f : Gov → Gov) : (d.govM f).cnt = d.cnt := rfl
@[simp] theorem Dev.govM_hif (f : Gov → Gov) : (d.govM f).hif = d.hif := rfl
@[simp] theorem Dev.govM_bel (f : Gov → Gov) : (d.govM f).bel = d.bel := rfl
@[simp] theorem Dev.govM_tim (f : Gov → Gov) : (d.govM f).tim = d.tim := rfl
@[simp] theorem Dev.govM_lne (f : Gov → Gov) : (d.govM f).lne = d.lne := rfl
@[simp] theorem Dev.govM_mac (f : Gov → Gov) : (d.govM f).mac = d.mac := rfl
@[simp] theorem Dev.govM_zbn (f : Gov → Gov) : (d.govM f).zbn = d.zbn := rfl
@[simp] theorem Dev.govM_ttb (f : Gov → Gov) : (d.govM f).ttb = d.ttb := rfl
@[simp] theorem Dev.govM_prs (f : Gov → Gov) : (d.govM f).prs = d.prs := rfl
@[simp] theorem Dev.govM_fwd (f : Gov → Gov) : (d.govM f).fwd = d.fwd := rfl
@[simp] theorem Dev.govM_buf (f : Gov → Gov) : (d.govM f).buf = d.buf := rfl
@[simp] theorem Dev.govM_sch (f : Gov → Gov) : (d.govM f).sch = d.sch := rfl
@[simp] theorem Dev.govM_drc (f : Gov → Gov) : (d.govM f).drc = d.drc := rfl
@[simp] theorem Dev.govM_gov (f : Gov → Gov) : (d.govM f).gov = f d.gov := rfl
@[simp] theorem Dev.govM_sub (f : Gov → Gov) : (d.govM f).sub = d.sub := rfl
@[simp] theorem Dev.govM_bdy (f : Gov → Gov) : (d.govM f).bdy = d.bdy := rfl
@[simp] theorem Dev.govM_prc (f : Gov → Gov) : (d.govM f).prc = d.prc := rfl
@[simp] theorem Dev.govM_pins (f : Gov → Gov) : (d.govM f).pins = d.pins := rfl
@[simp] theorem Dev.govM_boot (f : Gov → Gov) : (d.govM f).boot = d.boot := rfl

@[simp] theorem Dev.subM_now (f : Sub → Sub) : (d.subM f).now = d.now := rfl
@[simp] theorem Dev.subM_free (f : Sub → Sub) : (d.subM f).free = d.free := rfl
@[simp] theorem Dev.subM_arrivals (f : Sub → Sub) : (d.subM f).arrivals = d.arrivals := rfl
@[simp] theorem Dev.subM_out (f : Sub → Sub) : (d.subM f).out = d.out := rfl
@[simp] theorem Dev.subM_glb (f : Sub → Sub) : (d.subM f).glb = d.glb := rfl
@[simp] theorem Dev.subM_cnt (f : Sub → Sub) : (d.subM f).cnt = d.cnt := rfl
@[simp] theorem Dev.subM_hif (f : Sub → Sub) : (d.subM f).hif = d.hif := rfl
@[simp] theorem Dev.subM_bel (f : Sub → Sub) : (d.subM f).bel = d.bel := rfl
@[simp] theorem Dev.subM_tim (f : Sub → Sub) : (d.subM f).tim = d.tim := rfl
@[simp] theorem Dev.subM_lne (f : Sub → Sub) : (d.subM f).lne = d.lne := rfl
@[simp] theorem Dev.subM_mac (f : Sub → Sub) : (d.subM f).mac = d.mac := rfl
@[simp] theorem Dev.subM_zbn (f : Sub → Sub) : (d.subM f).zbn = d.zbn := rfl
@[simp] theorem Dev.subM_ttb (f : Sub → Sub) : (d.subM f).ttb = d.ttb := rfl
@[simp] theorem Dev.subM_prs (f : Sub → Sub) : (d.subM f).prs = d.prs := rfl
@[simp] theorem Dev.subM_fwd (f : Sub → Sub) : (d.subM f).fwd = d.fwd := rfl
@[simp] theorem Dev.subM_buf (f : Sub → Sub) : (d.subM f).buf = d.buf := rfl
@[simp] theorem Dev.subM_sch (f : Sub → Sub) : (d.subM f).sch = d.sch := rfl
@[simp] theorem Dev.subM_drc (f : Sub → Sub) : (d.subM f).drc = d.drc := rfl
@[simp] theorem Dev.subM_gov (f : Sub → Sub) : (d.subM f).gov = d.gov := rfl
@[simp] theorem Dev.subM_sub (f : Sub → Sub) : (d.subM f).sub = f d.sub := rfl
@[simp] theorem Dev.subM_bdy (f : Sub → Sub) : (d.subM f).bdy = d.bdy := rfl
@[simp] theorem Dev.subM_prc (f : Sub → Sub) : (d.subM f).prc = d.prc := rfl
@[simp] theorem Dev.subM_pins (f : Sub → Sub) : (d.subM f).pins = d.pins := rfl
@[simp] theorem Dev.subM_boot (f : Sub → Sub) : (d.subM f).boot = d.boot := rfl

@[simp] theorem Dev.bdyM_now (f : Bdy → Bdy) : (d.bdyM f).now = d.now := rfl
@[simp] theorem Dev.bdyM_free (f : Bdy → Bdy) : (d.bdyM f).free = d.free := rfl
@[simp] theorem Dev.bdyM_arrivals (f : Bdy → Bdy) : (d.bdyM f).arrivals = d.arrivals := rfl
@[simp] theorem Dev.bdyM_out (f : Bdy → Bdy) : (d.bdyM f).out = d.out := rfl
@[simp] theorem Dev.bdyM_glb (f : Bdy → Bdy) : (d.bdyM f).glb = d.glb := rfl
@[simp] theorem Dev.bdyM_cnt (f : Bdy → Bdy) : (d.bdyM f).cnt = d.cnt := rfl
@[simp] theorem Dev.bdyM_hif (f : Bdy → Bdy) : (d.bdyM f).hif = d.hif := rfl
@[simp] theorem Dev.bdyM_bel (f : Bdy → Bdy) : (d.bdyM f).bel = d.bel := rfl
@[simp] theorem Dev.bdyM_tim (f : Bdy → Bdy) : (d.bdyM f).tim = d.tim := rfl
@[simp] theorem Dev.bdyM_lne (f : Bdy → Bdy) : (d.bdyM f).lne = d.lne := rfl
@[simp] theorem Dev.bdyM_mac (f : Bdy → Bdy) : (d.bdyM f).mac = d.mac := rfl
@[simp] theorem Dev.bdyM_zbn (f : Bdy → Bdy) : (d.bdyM f).zbn = d.zbn := rfl
@[simp] theorem Dev.bdyM_ttb (f : Bdy → Bdy) : (d.bdyM f).ttb = d.ttb := rfl
@[simp] theorem Dev.bdyM_prs (f : Bdy → Bdy) : (d.bdyM f).prs = d.prs := rfl
@[simp] theorem Dev.bdyM_fwd (f : Bdy → Bdy) : (d.bdyM f).fwd = d.fwd := rfl
@[simp] theorem Dev.bdyM_buf (f : Bdy → Bdy) : (d.bdyM f).buf = d.buf := rfl
@[simp] theorem Dev.bdyM_sch (f : Bdy → Bdy) : (d.bdyM f).sch = d.sch := rfl
@[simp] theorem Dev.bdyM_drc (f : Bdy → Bdy) : (d.bdyM f).drc = d.drc := rfl
@[simp] theorem Dev.bdyM_gov (f : Bdy → Bdy) : (d.bdyM f).gov = d.gov := rfl
@[simp] theorem Dev.bdyM_sub (f : Bdy → Bdy) : (d.bdyM f).sub = d.sub := rfl
@[simp] theorem Dev.bdyM_bdy (f : Bdy → Bdy) : (d.bdyM f).bdy = f d.bdy := rfl
@[simp] theorem Dev.bdyM_prc (f : Bdy → Bdy) : (d.bdyM f).prc = d.prc := rfl
@[simp] theorem Dev.bdyM_pins (f : Bdy → Bdy) : (d.bdyM f).pins = d.pins := rfl
@[simp] theorem Dev.bdyM_boot (f : Bdy → Bdy) : (d.bdyM f).boot = d.boot := rfl

@[simp] theorem Dev.prcM_now (f : Prc → Prc) : (d.prcM f).now = d.now := rfl
@[simp] theorem Dev.prcM_free (f : Prc → Prc) : (d.prcM f).free = d.free := rfl
@[simp] theorem Dev.prcM_arrivals (f : Prc → Prc) : (d.prcM f).arrivals = d.arrivals := rfl
@[simp] theorem Dev.prcM_out (f : Prc → Prc) : (d.prcM f).out = d.out := rfl
@[simp] theorem Dev.prcM_glb (f : Prc → Prc) : (d.prcM f).glb = d.glb := rfl
@[simp] theorem Dev.prcM_cnt (f : Prc → Prc) : (d.prcM f).cnt = d.cnt := rfl
@[simp] theorem Dev.prcM_hif (f : Prc → Prc) : (d.prcM f).hif = d.hif := rfl
@[simp] theorem Dev.prcM_bel (f : Prc → Prc) : (d.prcM f).bel = d.bel := rfl
@[simp] theorem Dev.prcM_tim (f : Prc → Prc) : (d.prcM f).tim = d.tim := rfl
@[simp] theorem Dev.prcM_lne (f : Prc → Prc) : (d.prcM f).lne = d.lne := rfl
@[simp] theorem Dev.prcM_mac (f : Prc → Prc) : (d.prcM f).mac = d.mac := rfl
@[simp] theorem Dev.prcM_zbn (f : Prc → Prc) : (d.prcM f).zbn = d.zbn := rfl
@[simp] theorem Dev.prcM_ttb (f : Prc → Prc) : (d.prcM f).ttb = d.ttb := rfl
@[simp] theorem Dev.prcM_prs (f : Prc → Prc) : (d.prcM f).prs = d.prs := rfl
@[simp] theorem Dev.prcM_fwd (f : Prc → Prc) : (d.prcM f).fwd = d.fwd := rfl
@[simp] theorem Dev.prcM_buf (f : Prc → Prc) : (d.prcM f).buf = d.buf := rfl
@[simp] theorem Dev.prcM_sch (f : Prc → Prc) : (d.prcM f).sch = d.sch := rfl
@[simp] theorem Dev.prcM_drc (f : Prc → Prc) : (d.prcM f).drc = d.drc := rfl
@[simp] theorem Dev.prcM_gov (f : Prc → Prc) : (d.prcM f).gov = d.gov := rfl
@[simp] theorem Dev.prcM_sub (f : Prc → Prc) : (d.prcM f).sub = d.sub := rfl
@[simp] theorem Dev.prcM_bdy (f : Prc → Prc) : (d.prcM f).bdy = d.bdy := rfl
@[simp] theorem Dev.prcM_prc (f : Prc → Prc) : (d.prcM f).prc = f d.prc := rfl
@[simp] theorem Dev.prcM_pins (f : Prc → Prc) : (d.prcM f).pins = d.pins := rfl
@[simp] theorem Dev.prcM_boot (f : Prc → Prc) : (d.prcM f).boot = d.boot := rfl

@[simp] theorem Dev.pinsM_now (f : Pins → Pins) : (d.pinsM f).now = d.now := rfl
@[simp] theorem Dev.pinsM_free (f : Pins → Pins) : (d.pinsM f).free = d.free := rfl
@[simp] theorem Dev.pinsM_arrivals (f : Pins → Pins) : (d.pinsM f).arrivals = d.arrivals := rfl
@[simp] theorem Dev.pinsM_out (f : Pins → Pins) : (d.pinsM f).out = d.out := rfl
@[simp] theorem Dev.pinsM_glb (f : Pins → Pins) : (d.pinsM f).glb = d.glb := rfl
@[simp] theorem Dev.pinsM_cnt (f : Pins → Pins) : (d.pinsM f).cnt = d.cnt := rfl
@[simp] theorem Dev.pinsM_hif (f : Pins → Pins) : (d.pinsM f).hif = d.hif := rfl
@[simp] theorem Dev.pinsM_bel (f : Pins → Pins) : (d.pinsM f).bel = d.bel := rfl
@[simp] theorem Dev.pinsM_tim (f : Pins → Pins) : (d.pinsM f).tim = d.tim := rfl
@[simp] theorem Dev.pinsM_lne (f : Pins → Pins) : (d.pinsM f).lne = d.lne := rfl
@[simp] theorem Dev.pinsM_mac (f : Pins → Pins) : (d.pinsM f).mac = d.mac := rfl
@[simp] theorem Dev.pinsM_zbn (f : Pins → Pins) : (d.pinsM f).zbn = d.zbn := rfl
@[simp] theorem Dev.pinsM_ttb (f : Pins → Pins) : (d.pinsM f).ttb = d.ttb := rfl
@[simp] theorem Dev.pinsM_prs (f : Pins → Pins) : (d.pinsM f).prs = d.prs := rfl
@[simp] theorem Dev.pinsM_fwd (f : Pins → Pins) : (d.pinsM f).fwd = d.fwd := rfl
@[simp] theorem Dev.pinsM_buf (f : Pins → Pins) : (d.pinsM f).buf = d.buf := rfl
@[simp] theorem Dev.pinsM_sch (f : Pins → Pins) : (d.pinsM f).sch = d.sch := rfl
@[simp] theorem Dev.pinsM_drc (f : Pins → Pins) : (d.pinsM f).drc = d.drc := rfl
@[simp] theorem Dev.pinsM_gov (f : Pins → Pins) : (d.pinsM f).gov = d.gov := rfl
@[simp] theorem Dev.pinsM_sub (f : Pins → Pins) : (d.pinsM f).sub = d.sub := rfl
@[simp] theorem Dev.pinsM_bdy (f : Pins → Pins) : (d.pinsM f).bdy = d.bdy := rfl
@[simp] theorem Dev.pinsM_prc (f : Pins → Pins) : (d.pinsM f).prc = d.prc := rfl
@[simp] theorem Dev.pinsM_pins (f : Pins → Pins) : (d.pinsM f).pins = f d.pins := rfl
@[simp] theorem Dev.pinsM_boot (f : Pins → Pins) : (d.pinsM f).boot = d.boot := rfl

@[simp] theorem Dev.bootM_now (f : Boot → Boot) : (d.bootM f).now = d.now := rfl
@[simp] theorem Dev.bootM_free (f : Boot → Boot) : (d.bootM f).free = d.free := rfl
@[simp] theorem Dev.bootM_arrivals (f : Boot → Boot) : (d.bootM f).arrivals = d.arrivals := rfl
@[simp] theorem Dev.bootM_out (f : Boot → Boot) : (d.bootM f).out = d.out := rfl
@[simp] theorem Dev.bootM_glb (f : Boot → Boot) : (d.bootM f).glb = d.glb := rfl
@[simp] theorem Dev.bootM_cnt (f : Boot → Boot) : (d.bootM f).cnt = d.cnt := rfl
@[simp] theorem Dev.bootM_hif (f : Boot → Boot) : (d.bootM f).hif = d.hif := rfl
@[simp] theorem Dev.bootM_bel (f : Boot → Boot) : (d.bootM f).bel = d.bel := rfl
@[simp] theorem Dev.bootM_tim (f : Boot → Boot) : (d.bootM f).tim = d.tim := rfl
@[simp] theorem Dev.bootM_lne (f : Boot → Boot) : (d.bootM f).lne = d.lne := rfl
@[simp] theorem Dev.bootM_mac (f : Boot → Boot) : (d.bootM f).mac = d.mac := rfl
@[simp] theorem Dev.bootM_zbn (f : Boot → Boot) : (d.bootM f).zbn = d.zbn := rfl
@[simp] theorem Dev.bootM_ttb (f : Boot → Boot) : (d.bootM f).ttb = d.ttb := rfl
@[simp] theorem Dev.bootM_prs (f : Boot → Boot) : (d.bootM f).prs = d.prs := rfl
@[simp] theorem Dev.bootM_fwd (f : Boot → Boot) : (d.bootM f).fwd = d.fwd := rfl
@[simp] theorem Dev.bootM_buf (f : Boot → Boot) : (d.bootM f).buf = d.buf := rfl
@[simp] theorem Dev.bootM_sch (f : Boot → Boot) : (d.bootM f).sch = d.sch := rfl
@[simp] theorem Dev.bootM_drc (f : Boot → Boot) : (d.bootM f).drc = d.drc := rfl
@[simp] theorem Dev.bootM_gov (f : Boot → Boot) : (d.bootM f).gov = d.gov := rfl
@[simp] theorem Dev.bootM_sub (f : Boot → Boot) : (d.bootM f).sub = d.sub := rfl
@[simp] theorem Dev.bootM_bdy (f : Boot → Boot) : (d.bootM f).bdy = d.bdy := rfl
@[simp] theorem Dev.bootM_prc (f : Boot → Boot) : (d.bootM f).prc = d.prc := rfl
@[simp] theorem Dev.bootM_pins (f : Boot → Boot) : (d.bootM f).pins = d.pins := rfl
@[simp] theorem Dev.bootM_boot (f : Boot → Boot) : (d.bootM f).boot = f d.boot := rfl

@[simp] theorem Dev.servoM_now (f : Servo → Servo) : (d.servoM f).now = d.now := rfl
@[simp] theorem Dev.servoM_free (f : Servo → Servo) : (d.servoM f).free = d.free := rfl
@[simp] theorem Dev.servoM_arrivals (f : Servo → Servo) : (d.servoM f).arrivals = d.arrivals := rfl
@[simp] theorem Dev.servoM_out (f : Servo → Servo) : (d.servoM f).out = d.out := rfl
@[simp] theorem Dev.servoM_glb (f : Servo → Servo) : (d.servoM f).glb = d.glb := rfl
@[simp] theorem Dev.servoM_cnt (f : Servo → Servo) : (d.servoM f).cnt = d.cnt := rfl
@[simp] theorem Dev.servoM_hif (f : Servo → Servo) : (d.servoM f).hif = d.hif := rfl
@[simp] theorem Dev.servoM_bel (f : Servo → Servo) : (d.servoM f).bel = d.bel := rfl
@[simp] theorem Dev.servoM_tim (f : Servo → Servo) : (d.servoM f).tim = { d.tim with servo := f d.tim.servo } := rfl
@[simp] theorem Dev.servoM_lne (f : Servo → Servo) : (d.servoM f).lne = d.lne := rfl
@[simp] theorem Dev.servoM_mac (f : Servo → Servo) : (d.servoM f).mac = d.mac := rfl
@[simp] theorem Dev.servoM_zbn (f : Servo → Servo) : (d.servoM f).zbn = d.zbn := rfl
@[simp] theorem Dev.servoM_ttb (f : Servo → Servo) : (d.servoM f).ttb = d.ttb := rfl
@[simp] theorem Dev.servoM_prs (f : Servo → Servo) : (d.servoM f).prs = d.prs := rfl
@[simp] theorem Dev.servoM_fwd (f : Servo → Servo) : (d.servoM f).fwd = d.fwd := rfl
@[simp] theorem Dev.servoM_buf (f : Servo → Servo) : (d.servoM f).buf = d.buf := rfl
@[simp] theorem Dev.servoM_sch (f : Servo → Servo) : (d.servoM f).sch = d.sch := rfl
@[simp] theorem Dev.servoM_drc (f : Servo → Servo) : (d.servoM f).drc = d.drc := rfl
@[simp] theorem Dev.servoM_gov (f : Servo → Servo) : (d.servoM f).gov = d.gov := rfl
@[simp] theorem Dev.servoM_sub (f : Servo → Servo) : (d.servoM f).sub = d.sub := rfl
@[simp] theorem Dev.servoM_bdy (f : Servo → Servo) : (d.servoM f).bdy = d.bdy := rfl
@[simp] theorem Dev.servoM_prc (f : Servo → Servo) : (d.servoM f).prc = d.prc := rfl
@[simp] theorem Dev.servoM_pins (f : Servo → Servo) : (d.servoM f).pins = d.pins := rfl
@[simp] theorem Dev.servoM_boot (f : Servo → Servo) : (d.servoM f).boot = d.boot := rfl

@[simp] theorem Dev.emit_now (o : Out) : (d.emit o).now = d.now := rfl
@[simp] theorem Dev.emit_free (o : Out) : (d.emit o).free = d.free := rfl
@[simp] theorem Dev.emit_arrivals (o : Out) : (d.emit o).arrivals = d.arrivals := rfl
@[simp] theorem Dev.emit_out (o : Out) : (d.emit o).out = o :: d.out := rfl
@[simp] theorem Dev.emit_glb (o : Out) : (d.emit o).glb = d.glb := rfl
@[simp] theorem Dev.emit_cnt (o : Out) : (d.emit o).cnt = d.cnt := rfl
@[simp] theorem Dev.emit_hif (o : Out) : (d.emit o).hif = d.hif := rfl
@[simp] theorem Dev.emit_bel (o : Out) : (d.emit o).bel = d.bel := rfl
@[simp] theorem Dev.emit_tim (o : Out) : (d.emit o).tim = d.tim := rfl
@[simp] theorem Dev.emit_lne (o : Out) : (d.emit o).lne = d.lne := rfl
@[simp] theorem Dev.emit_mac (o : Out) : (d.emit o).mac = d.mac := rfl
@[simp] theorem Dev.emit_zbn (o : Out) : (d.emit o).zbn = d.zbn := rfl
@[simp] theorem Dev.emit_ttb (o : Out) : (d.emit o).ttb = d.ttb := rfl
@[simp] theorem Dev.emit_prs (o : Out) : (d.emit o).prs = d.prs := rfl
@[simp] theorem Dev.emit_fwd (o : Out) : (d.emit o).fwd = d.fwd := rfl
@[simp] theorem Dev.emit_buf (o : Out) : (d.emit o).buf = d.buf := rfl
@[simp] theorem Dev.emit_sch (o : Out) : (d.emit o).sch = d.sch := rfl
@[simp] theorem Dev.emit_drc (o : Out) : (d.emit o).drc = d.drc := rfl
@[simp] theorem Dev.emit_gov (o : Out) : (d.emit o).gov = d.gov := rfl
@[simp] theorem Dev.emit_sub (o : Out) : (d.emit o).sub = d.sub := rfl
@[simp] theorem Dev.emit_bdy (o : Out) : (d.emit o).bdy = d.bdy := rfl
@[simp] theorem Dev.emit_prc (o : Out) : (d.emit o).prc = d.prc := rfl
@[simp] theorem Dev.emit_pins (o : Out) : (d.emit o).pins = d.pins := rfl
@[simp] theorem Dev.emit_boot (o : Out) : (d.emit o).boot = d.boot := rfl

@[simp] theorem Dev.ringM_now (g : Nat) (f : Ring → Ring) : (d.ringM g f).now = d.now := rfl
@[simp] theorem Dev.ringM_free (g : Nat) (f : Ring → Ring) : (d.ringM g f).free = d.free := rfl
@[simp] theorem Dev.ringM_arrivals (g : Nat) (f : Ring → Ring) : (d.ringM g f).arrivals = d.arrivals := rfl
@[simp] theorem Dev.ringM_out (g : Nat) (f : Ring → Ring) : (d.ringM g f).out = d.out := rfl
@[simp] theorem Dev.ringM_glb (g : Nat) (f : Ring → Ring) : (d.ringM g f).glb = d.glb := rfl
@[simp] theorem Dev.ringM_cnt (g : Nat) (f : Ring → Ring) : (d.ringM g f).cnt = d.cnt := rfl
@[simp] theorem Dev.ringM_bel (g : Nat) (f : Ring → Ring) : (d.ringM g f).bel = d.bel := rfl
@[simp] theorem Dev.ringM_tim (g : Nat) (f : Ring → Ring) : (d.ringM g f).tim = d.tim := rfl
@[simp] theorem Dev.ringM_lne (g : Nat) (f : Ring → Ring) : (d.ringM g f).lne = d.lne := rfl
@[simp] theorem Dev.ringM_mac (g : Nat) (f : Ring → Ring) : (d.ringM g f).mac = d.mac := rfl
@[simp] theorem Dev.ringM_zbn (g : Nat) (f : Ring → Ring) : (d.ringM g f).zbn = d.zbn := rfl
@[simp] theorem Dev.ringM_ttb (g : Nat) (f : Ring → Ring) : (d.ringM g f).ttb = d.ttb := rfl
@[simp] theorem Dev.ringM_prs (g : Nat) (f : Ring → Ring) : (d.ringM g f).prs = d.prs := rfl
@[simp] theorem Dev.ringM_fwd (g : Nat) (f : Ring → Ring) : (d.ringM g f).fwd = d.fwd := rfl
@[simp] theorem Dev.ringM_buf (g : Nat) (f : Ring → Ring) : (d.ringM g f).buf = d.buf := rfl
@[simp] theorem Dev.ringM_sch (g : Nat) (f : Ring → Ring) : (d.ringM g f).sch = d.sch := rfl
@[simp] theorem Dev.ringM_drc (g : Nat) (f : Ring → Ring) : (d.ringM g f).drc = d.drc := rfl
@[simp] theorem Dev.ringM_gov (g : Nat) (f : Ring → Ring) : (d.ringM g f).gov = d.gov := rfl
@[simp] theorem Dev.ringM_sub (g : Nat) (f : Ring → Ring) : (d.ringM g f).sub = d.sub := rfl
@[simp] theorem Dev.ringM_bdy (g : Nat) (f : Ring → Ring) : (d.ringM g f).bdy = d.bdy := rfl
@[simp] theorem Dev.ringM_prc (g : Nat) (f : Ring → Ring) : (d.ringM g f).prc = d.prc := rfl
@[simp] theorem Dev.ringM_pins (g : Nat) (f : Ring → Ring) : (d.ringM g f).pins = d.pins := rfl
@[simp] theorem Dev.ringM_boot (g : Nat) (f : Ring → Ring) : (d.ringM g f).boot = d.boot := rfl

@[simp] theorem Dev.portM_now (n : Nat) (f : Port → Port) : (d.portM n f).now = d.now := rfl
@[simp] theorem Dev.portM_free (n : Nat) (f : Port → Port) : (d.portM n f).free = d.free := rfl
@[simp] theorem Dev.portM_arrivals (n : Nat) (f : Port → Port) : (d.portM n f).arrivals = d.arrivals := rfl
@[simp] theorem Dev.portM_out (n : Nat) (f : Port → Port) : (d.portM n f).out = d.out := rfl
@[simp] theorem Dev.portM_glb (n : Nat) (f : Port → Port) : (d.portM n f).glb = d.glb := rfl
@[simp] theorem Dev.portM_cnt (n : Nat) (f : Port → Port) : (d.portM n f).cnt = d.cnt := rfl
@[simp] theorem Dev.portM_hif (n : Nat) (f : Port → Port) : (d.portM n f).hif = d.hif := rfl
@[simp] theorem Dev.portM_bel (n : Nat) (f : Port → Port) : (d.portM n f).bel = d.bel := rfl
@[simp] theorem Dev.portM_tim (n : Nat) (f : Port → Port) : (d.portM n f).tim = d.tim := rfl
@[simp] theorem Dev.portM_lne (n : Nat) (f : Port → Port) : (d.portM n f).lne = d.lne := rfl
@[simp] theorem Dev.portM_zbn (n : Nat) (f : Port → Port) : (d.portM n f).zbn = d.zbn := rfl
@[simp] theorem Dev.portM_ttb (n : Nat) (f : Port → Port) : (d.portM n f).ttb = d.ttb := rfl
@[simp] theorem Dev.portM_prs (n : Nat) (f : Port → Port) : (d.portM n f).prs = d.prs := rfl
@[simp] theorem Dev.portM_fwd (n : Nat) (f : Port → Port) : (d.portM n f).fwd = d.fwd := rfl
@[simp] theorem Dev.portM_buf (n : Nat) (f : Port → Port) : (d.portM n f).buf = d.buf := rfl
@[simp] theorem Dev.portM_sch (n : Nat) (f : Port → Port) : (d.portM n f).sch = d.sch := rfl
@[simp] theorem Dev.portM_drc (n : Nat) (f : Port → Port) : (d.portM n f).drc = d.drc := rfl
@[simp] theorem Dev.portM_gov (n : Nat) (f : Port → Port) : (d.portM n f).gov = d.gov := rfl
@[simp] theorem Dev.portM_sub (n : Nat) (f : Port → Port) : (d.portM n f).sub = d.sub := rfl
@[simp] theorem Dev.portM_bdy (n : Nat) (f : Port → Port) : (d.portM n f).bdy = d.bdy := rfl
@[simp] theorem Dev.portM_prc (n : Nat) (f : Port → Port) : (d.portM n f).prc = d.prc := rfl
@[simp] theorem Dev.portM_pins (n : Nat) (f : Port → Port) : (d.portM n f).pins = d.pins := rfl
@[simp] theorem Dev.portM_boot (n : Nat) (f : Port → Port) : (d.portM n f).boot = d.boot := rfl

@[simp] theorem Dev.laneM_now (l : Nat) (f : Lane → Lane) : (d.laneM l f).now = d.now := rfl
@[simp] theorem Dev.laneM_free (l : Nat) (f : Lane → Lane) : (d.laneM l f).free = d.free := rfl
@[simp] theorem Dev.laneM_arrivals (l : Nat) (f : Lane → Lane) : (d.laneM l f).arrivals = d.arrivals := rfl
@[simp] theorem Dev.laneM_out (l : Nat) (f : Lane → Lane) : (d.laneM l f).out = d.out := rfl
@[simp] theorem Dev.laneM_glb (l : Nat) (f : Lane → Lane) : (d.laneM l f).glb = d.glb := rfl
@[simp] theorem Dev.laneM_cnt (l : Nat) (f : Lane → Lane) : (d.laneM l f).cnt = d.cnt := rfl
@[simp] theorem Dev.laneM_hif (l : Nat) (f : Lane → Lane) : (d.laneM l f).hif = d.hif := rfl
@[simp] theorem Dev.laneM_bel (l : Nat) (f : Lane → Lane) : (d.laneM l f).bel = d.bel := rfl
@[simp] theorem Dev.laneM_tim (l : Nat) (f : Lane → Lane) : (d.laneM l f).tim = d.tim := rfl
@[simp] theorem Dev.laneM_mac (l : Nat) (f : Lane → Lane) : (d.laneM l f).mac = d.mac := rfl
@[simp] theorem Dev.laneM_zbn (l : Nat) (f : Lane → Lane) : (d.laneM l f).zbn = d.zbn := rfl
@[simp] theorem Dev.laneM_ttb (l : Nat) (f : Lane → Lane) : (d.laneM l f).ttb = d.ttb := rfl
@[simp] theorem Dev.laneM_prs (l : Nat) (f : Lane → Lane) : (d.laneM l f).prs = d.prs := rfl
@[simp] theorem Dev.laneM_fwd (l : Nat) (f : Lane → Lane) : (d.laneM l f).fwd = d.fwd := rfl
@[simp] theorem Dev.laneM_buf (l : Nat) (f : Lane → Lane) : (d.laneM l f).buf = d.buf := rfl
@[simp] theorem Dev.laneM_sch (l : Nat) (f : Lane → Lane) : (d.laneM l f).sch = d.sch := rfl
@[simp] theorem Dev.laneM_drc (l : Nat) (f : Lane → Lane) : (d.laneM l f).drc = d.drc := rfl
@[simp] theorem Dev.laneM_gov (l : Nat) (f : Lane → Lane) : (d.laneM l f).gov = d.gov := rfl
@[simp] theorem Dev.laneM_sub (l : Nat) (f : Lane → Lane) : (d.laneM l f).sub = d.sub := rfl
@[simp] theorem Dev.laneM_bdy (l : Nat) (f : Lane → Lane) : (d.laneM l f).bdy = d.bdy := rfl
@[simp] theorem Dev.laneM_prc (l : Nat) (f : Lane → Lane) : (d.laneM l f).prc = d.prc := rfl
@[simp] theorem Dev.laneM_pins (l : Nat) (f : Lane → Lane) : (d.laneM l f).pins = d.pins := rfl
@[simp] theorem Dev.laneM_boot (l : Nat) (f : Lane → Lane) : (d.laneM l f).boot = d.boot := rfl

@[simp] theorem Dev.count_now (k n : Nat) : (d.count k n).now = d.now := rfl
@[simp] theorem Dev.count_free (k n : Nat) : (d.count k n).free = d.free := rfl
@[simp] theorem Dev.count_arrivals (k n : Nat) : (d.count k n).arrivals = d.arrivals := rfl
@[simp] theorem Dev.count_out (k n : Nat) : (d.count k n).out = d.out := rfl
@[simp] theorem Dev.count_glb (k n : Nat) : (d.count k n).glb = d.glb := rfl
@[simp] theorem Dev.count_hif (k n : Nat) : (d.count k n).hif = d.hif := rfl
@[simp] theorem Dev.count_bel (k n : Nat) : (d.count k n).bel = d.bel := rfl
@[simp] theorem Dev.count_tim (k n : Nat) : (d.count k n).tim = d.tim := rfl
@[simp] theorem Dev.count_lne (k n : Nat) : (d.count k n).lne = d.lne := rfl
@[simp] theorem Dev.count_mac (k n : Nat) : (d.count k n).mac = d.mac := rfl
@[simp] theorem Dev.count_zbn (k n : Nat) : (d.count k n).zbn = d.zbn := rfl
@[simp] theorem Dev.count_ttb (k n : Nat) : (d.count k n).ttb = d.ttb := rfl
@[simp] theorem Dev.count_prs (k n : Nat) : (d.count k n).prs = d.prs := rfl
@[simp] theorem Dev.count_fwd (k n : Nat) : (d.count k n).fwd = d.fwd := rfl
@[simp] theorem Dev.count_buf (k n : Nat) : (d.count k n).buf = d.buf := rfl
@[simp] theorem Dev.count_sch (k n : Nat) : (d.count k n).sch = d.sch := rfl
@[simp] theorem Dev.count_drc (k n : Nat) : (d.count k n).drc = d.drc := rfl
@[simp] theorem Dev.count_gov (k n : Nat) : (d.count k n).gov = d.gov := rfl
@[simp] theorem Dev.count_sub (k n : Nat) : (d.count k n).sub = d.sub := rfl
@[simp] theorem Dev.count_bdy (k n : Nat) : (d.count k n).bdy = d.bdy := rfl
@[simp] theorem Dev.count_prc (k n : Nat) : (d.count k n).prc = d.prc := rfl
@[simp] theorem Dev.count_pins (k n : Nat) : (d.count k n).pins = d.pins := rfl
@[simp] theorem Dev.count_boot (k n : Nat) : (d.count k n).boot = d.boot := rfl

@[simp] theorem Dev.setLive_now (k n : Nat) : (d.setLive k n).now = d.now := rfl
@[simp] theorem Dev.setLive_free (k n : Nat) : (d.setLive k n).free = d.free := rfl
@[simp] theorem Dev.setLive_arrivals (k n : Nat) : (d.setLive k n).arrivals = d.arrivals := rfl
@[simp] theorem Dev.setLive_out (k n : Nat) : (d.setLive k n).out = d.out := rfl
@[simp] theorem Dev.setLive_glb (k n : Nat) : (d.setLive k n).glb = d.glb := rfl
@[simp] theorem Dev.setLive_hif (k n : Nat) : (d.setLive k n).hif = d.hif := rfl
@[simp] theorem Dev.setLive_bel (k n : Nat) : (d.setLive k n).bel = d.bel := rfl
@[simp] theorem Dev.setLive_tim (k n : Nat) : (d.setLive k n).tim = d.tim := rfl
@[simp] theorem Dev.setLive_lne (k n : Nat) : (d.setLive k n).lne = d.lne := rfl
@[simp] theorem Dev.setLive_mac (k n : Nat) : (d.setLive k n).mac = d.mac := rfl
@[simp] theorem Dev.setLive_zbn (k n : Nat) : (d.setLive k n).zbn = d.zbn := rfl
@[simp] theorem Dev.setLive_ttb (k n : Nat) : (d.setLive k n).ttb = d.ttb := rfl
@[simp] theorem Dev.setLive_prs (k n : Nat) : (d.setLive k n).prs = d.prs := rfl
@[simp] theorem Dev.setLive_fwd (k n : Nat) : (d.setLive k n).fwd = d.fwd := rfl
@[simp] theorem Dev.setLive_buf (k n : Nat) : (d.setLive k n).buf = d.buf := rfl
@[simp] theorem Dev.setLive_sch (k n : Nat) : (d.setLive k n).sch = d.sch := rfl
@[simp] theorem Dev.setLive_drc (k n : Nat) : (d.setLive k n).drc = d.drc := rfl
@[simp] theorem Dev.setLive_gov (k n : Nat) : (d.setLive k n).gov = d.gov := rfl
@[simp] theorem Dev.setLive_sub (k n : Nat) : (d.setLive k n).sub = d.sub := rfl
@[simp] theorem Dev.setLive_bdy (k n : Nat) : (d.setLive k n).bdy = d.bdy := rfl
@[simp] theorem Dev.setLive_prc (k n : Nat) : (d.setLive k n).prc = d.prc := rfl
@[simp] theorem Dev.setLive_pins (k n : Nat) : (d.setLive k n).pins = d.pins := rfl
@[simp] theorem Dev.setLive_boot (k n : Nat) : (d.setLive k n).boot = d.boot := rfl

@[simp] theorem Dev.queueM_now (q : Nat) (f : Queue → Queue) : (d.queueM q f).now = d.now := rfl
@[simp] theorem Dev.queueM_free (q : Nat) (f : Queue → Queue) : (d.queueM q f).free = d.free := rfl
@[simp] theorem Dev.queueM_arrivals (q : Nat) (f : Queue → Queue) : (d.queueM q f).arrivals = d.arrivals := rfl
@[simp] theorem Dev.queueM_out (q : Nat) (f : Queue → Queue) : (d.queueM q f).out = d.out := rfl
@[simp] theorem Dev.queueM_glb (q : Nat) (f : Queue → Queue) : (d.queueM q f).glb = d.glb := rfl
@[simp] theorem Dev.queueM_cnt (q : Nat) (f : Queue → Queue) : (d.queueM q f).cnt = d.cnt := rfl
@[simp] theorem Dev.queueM_hif (q : Nat) (f : Queue → Queue) : (d.queueM q f).hif = d.hif := rfl
@[simp] theorem Dev.queueM_bel (q : Nat) (f : Queue → Queue) : (d.queueM q f).bel = d.bel := rfl
@[simp] theorem Dev.queueM_tim (q : Nat) (f : Queue → Queue) : (d.queueM q f).tim = d.tim := rfl
@[simp] theorem Dev.queueM_lne (q : Nat) (f : Queue → Queue) : (d.queueM q f).lne = d.lne := rfl
@[simp] theorem Dev.queueM_mac (q : Nat) (f : Queue → Queue) : (d.queueM q f).mac = d.mac := rfl
@[simp] theorem Dev.queueM_zbn (q : Nat) (f : Queue → Queue) : (d.queueM q f).zbn = d.zbn := rfl
@[simp] theorem Dev.queueM_ttb (q : Nat) (f : Queue → Queue) : (d.queueM q f).ttb = d.ttb := rfl
@[simp] theorem Dev.queueM_prs (q : Nat) (f : Queue → Queue) : (d.queueM q f).prs = d.prs := rfl
@[simp] theorem Dev.queueM_fwd (q : Nat) (f : Queue → Queue) : (d.queueM q f).fwd = d.fwd := rfl
@[simp] theorem Dev.queueM_sch (q : Nat) (f : Queue → Queue) : (d.queueM q f).sch = d.sch := rfl
@[simp] theorem Dev.queueM_drc (q : Nat) (f : Queue → Queue) : (d.queueM q f).drc = d.drc := rfl
@[simp] theorem Dev.queueM_gov (q : Nat) (f : Queue → Queue) : (d.queueM q f).gov = d.gov := rfl
@[simp] theorem Dev.queueM_sub (q : Nat) (f : Queue → Queue) : (d.queueM q f).sub = d.sub := rfl
@[simp] theorem Dev.queueM_bdy (q : Nat) (f : Queue → Queue) : (d.queueM q f).bdy = d.bdy := rfl
@[simp] theorem Dev.queueM_prc (q : Nat) (f : Queue → Queue) : (d.queueM q f).prc = d.prc := rfl
@[simp] theorem Dev.queueM_pins (q : Nat) (f : Queue → Queue) : (d.queueM q f).pins = d.pins := rfl
@[simp] theorem Dev.queueM_boot (q : Nat) (f : Queue → Queue) : (d.queueM q f).boot = d.boot := rfl

@[simp] theorem Dev.acctM_now (p c : Nat) (f : Account → Account) : (d.acctM p c f).now = d.now := rfl
@[simp] theorem Dev.acctM_free (p c : Nat) (f : Account → Account) : (d.acctM p c f).free = d.free := rfl
@[simp] theorem Dev.acctM_arrivals (p c : Nat) (f : Account → Account) : (d.acctM p c f).arrivals = d.arrivals := rfl
@[simp] theorem Dev.acctM_out (p c : Nat) (f : Account → Account) : (d.acctM p c f).out = d.out := rfl
@[simp] theorem Dev.acctM_glb (p c : Nat) (f : Account → Account) : (d.acctM p c f).glb = d.glb := rfl
@[simp] theorem Dev.acctM_cnt (p c : Nat) (f : Account → Account) : (d.acctM p c f).cnt = d.cnt := rfl
@[simp] theorem Dev.acctM_hif (p c : Nat) (f : Account → Account) : (d.acctM p c f).hif = d.hif := rfl
@[simp] theorem Dev.acctM_bel (p c : Nat) (f : Account → Account) : (d.acctM p c f).bel = d.bel := rfl
@[simp] theorem Dev.acctM_tim (p c : Nat) (f : Account → Account) : (d.acctM p c f).tim = d.tim := rfl
@[simp] theorem Dev.acctM_lne (p c : Nat) (f : Account → Account) : (d.acctM p c f).lne = d.lne := rfl
@[simp] theorem Dev.acctM_mac (p c : Nat) (f : Account → Account) : (d.acctM p c f).mac = d.mac := rfl
@[simp] theorem Dev.acctM_zbn (p c : Nat) (f : Account → Account) : (d.acctM p c f).zbn = d.zbn := rfl
@[simp] theorem Dev.acctM_ttb (p c : Nat) (f : Account → Account) : (d.acctM p c f).ttb = d.ttb := rfl
@[simp] theorem Dev.acctM_prs (p c : Nat) (f : Account → Account) : (d.acctM p c f).prs = d.prs := rfl
@[simp] theorem Dev.acctM_fwd (p c : Nat) (f : Account → Account) : (d.acctM p c f).fwd = d.fwd := rfl
@[simp] theorem Dev.acctM_sch (p c : Nat) (f : Account → Account) : (d.acctM p c f).sch = d.sch := rfl
@[simp] theorem Dev.acctM_drc (p c : Nat) (f : Account → Account) : (d.acctM p c f).drc = d.drc := rfl
@[simp] theorem Dev.acctM_gov (p c : Nat) (f : Account → Account) : (d.acctM p c f).gov = d.gov := rfl
@[simp] theorem Dev.acctM_sub (p c : Nat) (f : Account → Account) : (d.acctM p c f).sub = d.sub := rfl
@[simp] theorem Dev.acctM_bdy (p c : Nat) (f : Account → Account) : (d.acctM p c f).bdy = d.bdy := rfl
@[simp] theorem Dev.acctM_prc (p c : Nat) (f : Account → Account) : (d.acctM p c f).prc = d.prc := rfl
@[simp] theorem Dev.acctM_pins (p c : Nat) (f : Account → Account) : (d.acctM p c f).pins = d.pins := rfl
@[simp] theorem Dev.acctM_boot (p c : Nat) (f : Account → Account) : (d.acctM p c f).boot = d.boot := rfl

end Sys2Proof.Machine
end

