-- ==== Sys2Proof/Laws/Only.lean ====
section
/-! SUPPORT. Which areas of the module's state each shared operation may change, said once; and from it, field by field, what the
operation leaves alone. -/

namespace Sys2Proof

open Sys2Proof.Machine

theorem Area.Same.refl (a : Area) (d : Dev) : a.Same d d := by cases a <;> rfl

theorem Area.Same.trans {a : Area} {d e f : Dev} (h : a.Same d e) (k : a.Same e f) : a.Same d f := by
  cases a <;> exact Eq.trans k h

theorem Only.refl (l : List Area) (d : Dev) : Only l d d := fun a _ => Area.Same.refl a d

theorem Only.mono {l m : List Area} {d e : Dev} (h : Only l d e) (s : l ⊆ m) : Only m d e := fun a k => h a fun q => k (s q)

theorem Only.trans {l : List Area} {d e f : Dev} (h : Only l d e) (k : Only l e f) : Only l d f := fun a q => (h a q).trans (k a q)

theorem Only.when {l : List Area} (c : Bool) {d : Dev} {f : Dev → Dev} (h : Only l d (f d)) : Only l d (d.when c f) := by
  cases c
  · exact Only.refl l d
  · exact h

theorem Only.each {α : Type} {l : List Area} (xs : List α) {f : α → Dev → Dev} (h : ∀ a d, Only l d (f a d)) (d : Dev) :
    Only l d (d.each xs f) := by
  induction xs generalizing d with
  | nil => exact Only.refl l d
  | cons x r ih => exact (h x d).trans (ih (f x d))

theorem Only.now {l : List Area} {d e : Dev} (h : Only l d e) (k : Area.time ∉ l) : e.now = d.now := h .time k
theorem Only.free {l : List Area} {d e : Dev} (h : Only l d e) (k : Area.free ∉ l) : e.free = d.free := h .free k
theorem Only.arrivals {l : List Area} {d e : Dev} (h : Only l d e) (k : Area.arr ∉ l) : e.arrivals = d.arrivals := h .arr k
theorem Only.out {l : List Area} {d e : Dev} (h : Only l d e) (k : Area.out ∉ l) : e.out = d.out := h .out k
theorem Only.glb {l : List Area} {d e : Dev} (h : Only l d e) (k : Area.glb ∉ l) : e.glb = d.glb := h .glb k
theorem Only.cnt {l : List Area} {d e : Dev} (h : Only l d e) (k : Area.cnt ∉ l) : e.cnt = d.cnt := h .cnt k
theorem Only.hif {l : List Area} {d e : Dev} (h : Only l d e) (k : Area.hif ∉ l) : e.hif = d.hif := h .hif k
theorem Only.bel {l : List Area} {d e : Dev} (h : Only l d e) (k : Area.bel ∉ l) : e.bel = d.bel := h .bel k
theorem Only.tim {l : List Area} {d e : Dev} (h : Only l d e) (k : Area.tim ∉ l) : e.tim = d.tim := h .tim k
theorem Only.lne {l : List Area} {d e : Dev} (h : Only l d e) (k : Area.lne ∉ l) : e.lne = d.lne := h .lne k
theorem Only.mac {l : List Area} {d e : Dev} (h : Only l d e) (k : Area.mac ∉ l) : e.mac = d.mac := h .mac k
theorem Only.zbn {l : List Area} {d e : Dev} (h : Only l d e) (k : Area.zbn ∉ l) : e.zbn = d.zbn := h .zbn k
theorem Only.ttb {l : List Area} {d e : Dev} (h : Only l d e) (k : Area.ttb ∉ l) : e.ttb = d.ttb := h .ttb k
theorem Only.prs {l : List Area} {d e : Dev} (h : Only l d e) (k : Area.prs ∉ l) : e.prs = d.prs := h .prs k
theorem Only.fwd {l : List Area} {d e : Dev} (h : Only l d e) (k : Area.fwd ∉ l) : e.fwd = d.fwd := h .fwd k
theorem Only.buf {l : List Area} {d e : Dev} (h : Only l d e) (k : Area.buf ∉ l) : e.buf = d.buf := h .buf k
theorem Only.sch {l : List Area} {d e : Dev} (h : Only l d e) (k : Area.sch ∉ l) : e.sch = d.sch := h .sch k
theorem Only.drc {l : List Area} {d e : Dev} (h : Only l d e) (k : Area.drc ∉ l) : e.drc = d.drc := h .drc k
theorem Only.gov {l : List Area} {d e : Dev} (h : Only l d e) (k : Area.gov ∉ l) : e.gov = d.gov := h .gov k
theorem Only.sub {l : List Area} {d e : Dev} (h : Only l d e) (k : Area.sub ∉ l) : e.sub = d.sub := h .sub k
theorem Only.bdy {l : List Area} {d e : Dev} (h : Only l d e) (k : Area.bdy ∉ l) : e.bdy = d.bdy := h .bdy k
theorem Only.prc {l : List Area} {d e : Dev} (h : Only l d e) (k : Area.prc ∉ l) : e.prc = d.prc := h .prc k
theorem Only.pins {l : List Area} {d e : Dev} (h : Only l d e) (k : Area.pins ∉ l) : e.pins = d.pins := h .pins k
theorem Only.boot {l : List Area} {d e : Dev} (h : Only l d e) (k : Area.boot ∉ l) : e.boot = d.boot := h .boot k

/-! ### Updates of one area -/

theorem Only.glbM (d : Dev) (f : Glb → Glb) : Only [.glb] d (d.glbM f) := by
  intro x k; cases x <;> first | rfl | exact absurd (by decide) k
theorem Only.cntM (d : Dev) (f : Cnt → Cnt) : Only [.cnt] d (d.cntM f) := by
  intro x k; cases x <;> first | rfl | exact absurd (by decide) k
theorem Only.hifM (d : Dev) (f : Hif → Hif) : Only [.hif] d (d.hifM f) := by
  intro x k; cases x <;> first | rfl | exact absurd (by decide) k
theorem Only.belM (d : Dev) (f : Bel → Bel) : Only [.bel] d (d.belM f) := by
  intro x k; cases x <;> first | rfl | exact absurd (by decide) k
theorem Only.timM (d : Dev) (f : Tim → Tim) : Only [.tim] d (d.timM f) := by
  intro x k; cases x <;> first | rfl | exact absurd (by decide) k
theorem Only.lneM (d : Dev) (f : Lne → Lne) : Only [.lne] d (d.lneM f) := by
  intro x k; cases x <;> first | rfl | exact absurd (by decide) k
theorem Only.macM (d : Dev) (f : Mac → Mac) : Only [.mac] d (d.macM f) := by
  intro x k; cases x <;> first | rfl | exact absurd (by decide) k
theorem Only.zbnM (d : Dev) (f : Zbn → Zbn) : Only [.zbn] d (d.zbnM f) := by
  intro x k; cases x <;> first | rfl | exact absurd (by decide) k
theorem Only.ttbM (d : Dev) (f : Ttb → Ttb) : Only [.ttb] d (d.ttbM f) := by
  intro x k; cases x <;> first | rfl | exact absurd (by decide) k
theorem Only.prsM (d : Dev) (f : Prs → Prs) : Only [.prs] d (d.prsM f) := by
  intro x k; cases x <;> first | rfl | exact absurd (by decide) k
theorem Only.fwdM (d : Dev) (f : Fwd → Fwd) : Only [.fwd] d (d.fwdM f) := by
  intro x k; cases x <;> first | rfl | exact absurd (by decide) k
theorem Only.bufM (d : Dev) (f : Buf → Buf) : Only [.buf] d (d.bufM f) := by
  intro x k; cases x <;> first | rfl | exact absurd (by decide) k
theorem Only.schM (d : Dev) (f : Sch → Sch) : Only [.sch] d (d.schM f) := by
  intro x k; cases x <;> first | rfl | exact absurd (by decide) k
theorem Only.drcM (d : Dev) (f : Drc → Drc) : Only [.drc] d (d.drcM f) := by
  intro x k; cases x <;> first | rfl | exact absurd (by decide) k
theorem Only.govM (d : Dev) (f : Gov → Gov) : Only [.gov] d (d.govM f) := by
  intro x k; cases x <;> first | rfl | exact absurd (by decide) k
theorem Only.subM (d : Dev) (f : Sub → Sub) : Only [.sub] d (d.subM f) := by
  intro x k; cases x <;> first | rfl | exact absurd (by decide) k
theorem Only.bdyM (d : Dev) (f : Bdy → Bdy) : Only [.bdy] d (d.bdyM f) := by
  intro x k; cases x <;> first | rfl | exact absurd (by decide) k
theorem Only.prcM (d : Dev) (f : Prc → Prc) : Only [.prc] d (d.prcM f) := by
  intro x k; cases x <;> first | rfl | exact absurd (by decide) k
theorem Only.pinsM (d : Dev) (f : Pins → Pins) : Only [.pins] d (d.pinsM f) := by
  intro x k; cases x <;> first | rfl | exact absurd (by decide) k
theorem Only.bootM (d : Dev) (f : Boot → Boot) : Only [.boot] d (d.bootM f) := by
  intro x k; cases x <;> first | rfl | exact absurd (by decide) k
theorem Only.servoM (d : Dev) (f : Servo → Servo) : Only [.tim] d (d.servoM f) := by
  intro x k; cases x <;> first | rfl | exact absurd (by decide) k
theorem Only.emit (d : Dev) (o : Out) : Only [.out] d (d.emit o) := by
  intro x k; cases x <;> first | rfl | exact absurd (by decide) k
theorem Only.ringM (d : Dev) (g : Nat) (f : Ring → Ring) : Only [.hif] d (d.ringM g f) := by
  intro x k; cases x <;> first | rfl | exact absurd (by decide) k
theorem Only.portM (d : Dev) (n : Nat) (f : Port → Port) : Only [.mac] d (d.portM n f) := by
  intro x k; cases x <;> first | rfl | exact absurd (by decide) k
theorem Only.laneM (d : Dev) (l : Nat) (f : Lane → Lane) : Only [.lne] d (d.laneM l f) := by
  intro x k; cases x <;> first | rfl | exact absurd (by decide) k
theorem Only.count (d : Dev) (k n : Nat) : Only [.cnt] d (d.count k n) := by
  intro x k; cases x <;> first | rfl | exact absurd (by decide) k
theorem Only.setLive (d : Dev) (k n : Nat) : Only [.cnt] d (d.setLive k n) := by
  intro x k; cases x <;> first | rfl | exact absurd (by decide) k
theorem Only.queueM (d : Dev) (q : Nat) (f : Queue → Queue) : Only [.buf] d (d.queueM q f) := by
  intro x k; cases x <;> first | rfl | exact absurd (by decide) k
theorem Only.acctM (d : Dev) (p c : Nat) (f : Account → Account) : Only [.buf] d (d.acctM p c f) := by
  intro x k; cases x <;> first | rfl | exact absurd (by decide) k
theorem Only.cmdM (d : Dev) (c : Cmd) (f : Cmd → Cmd) : Only [.hif] d (d.cmdM c f) := by
  intro x k; cases x <;> first | rfl | exact absurd (by decide) k
theorem Only.unflight (d : Dev) (c : Cmd) : Only [.hif] d (d.unflight c) := by
  intro x k; cases x <;> first | rfl | exact absurd (by decide) k
theorem Only.noteLocal (d : Dev) (c : Cmd) : Only [.hif] d (d.noteLocal c) := by
  unfold Dev.noteLocal; split
  · intro x k; cases x <;> first | rfl | exact absurd (by decide) k
  · exact Only.refl _ _
theorem Only.setFate (d : Dev) (c : Cmd) (n : Nat) : Only [.bdy] d (d.setFate c n) := by
  intro x k; cases x <;> first | rfl | exact absurd (by decide) k
theorem Only.timPortM (d : Dev) (n : Nat) (f : TimPort → TimPort) : Only [.tim] d (d.timPortM n f) := by
  intro x k; cases x <;> first | rfl | exact absurd (by decide) k
theorem Only.belPortM (d : Dev) (n : Nat) (f : BelPort → BelPort) : Only [.bel] d (d.belPortM n f) := by
  intro x k; cases x <;> first | rfl | exact absurd (by decide) k
theorem Only.zlaneM (d : Dev) (l : Nat) (f : ZLane → ZLane) : Only [.zbn] d (d.zlaneM l f) := by
  intro x k; cases x <;> first | rfl | exact absurd (by decide) k
theorem Only.zslotM (d : Dev) (l s : Nat) (f : ZSlot → ZSlot) : Only [.zbn] d (d.zslotM l s f) := by
  intro x k; cases x <;> first | rfl | exact absurd (by decide) k

/-! ### Entries, events and completions -/

theorem Only.writeEntry (d : Dev) (g b : Nat) : Only tells d (d.writeEntry g b) := by
  intro x k; cases x <;> first | rfl | exact absurd (by decide) k

theorem Only.countIn (d : Dev) (k n : Nat) : Only tells d (d.count k n) := (Only.count d k n).mono (by decide)

theorem Only.ringIn (d : Dev) (g : Nat) (f : Ring → Ring) : Only tells d (d.ringM g f) := (Only.ringM d g f).mono (by decide)

theorem Only.hifIn (d : Dev) (f : Hif → Hif) : Only tells d (d.hifM f) := (Only.hifM d f).mono (by decide)

theorem Only.emitIn (d : Dev) (o : Out) : Only tells d (d.emit o) := (Only.emit d o).mono (by decide)

theorem Only.occur (d : Dev) (ev : Nat) (items : List Item) : Only [.cnt] d (d.occur ev items) := by
  refine Only.each _ (fun a d => ?_) d
  obtain ⟨k, c⟩ := a
  dsimp only
  repeat' split
  all_goals first | exact Only.count d _ 1 | exact Only.refl _ d

theorem Only.writeLost (d : Dev) (k : Nat) : Only tells d (d.writeLost k) :=
  (((Only.occur d _ _).mono (by decide)).trans (Only.writeEntry _ _ _)).trans (Only.ringIn _ _ _)

theorem Only.writeEvent (d : Dev) (k b : Nat) : Only tells d (d.writeEvent k b) := by
  unfold Dev.writeEvent
  have h := Only.when (f := fun d => d.writeLost k) ((d.ring (192 + k)).lost != 0 && (d.ring (192 + k)).room) (Only.writeLost d k)
  refine h.trans ?_
  dsimp only
  split
  · exact Only.writeEntry _ _ _
  · exact (Only.ringIn _ _ _).trans (Only.countIn _ _ _)

theorem Only.postAs (d : Dev) (ev : Nat) (items : List Item) (m b : Nat) : Only tells d (d.postAs ev items m b) := by
  unfold Dev.postAs
  refine ((Only.occur d ev items).mono (by decide)).trans ?_
  dsimp only
  split
  · exact Only.countIn _ _ _
  · exact Only.each _ (fun _ d => Only.writeEvent d _ _) _

theorem Only.post (d : Dev) (ev : Nat) (items : List Item) : Only tells d (d.post ev items) := Only.postAs d ev items _ _

theorem Only.deliver (d : Dev) (k : Nat) (c : Compl) : Only tells d (d.deliver k c) := by
  unfold Dev.deliver
  dsimp only
  split
  · exact Only.hifIn _ _
  · split
    · exact Only.writeEntry _ _ _
    · exact Only.hifIn _ _

theorem Only.complete (d : Dev) (k : Nat) (c : Compl) : Only (.bdy :: tells) d (d.complete k c) := by
  unfold Dev.complete
  dsimp only
  split
  · exact ((Only.bdyM d _).mono (by decide)).trans (((Only.emit _ _).mono (by decide)).trans ((Only.count _ _ _).mono (by decide)))
  · exact (Only.deliver d k _).mono (by decide)

/-- Outside PAIRED, a completion leaves what the module holds for its buddy. -/
theorem Only.completeSingle (d : Dev) (k : Nat) (c : Compl) (h : d.bdy.state ≠ .paired) : Only tells d (d.complete k c) := by
  unfold Dev.complete
  dsimp only
  split
  · rename_i p
    exact absurd (eq_of_beq p) h
  · exact Only.deliver d k _

theorem Only.finish (d : Dev) (c : Cmd) (st r : Nat) : Only (.bdy :: tells) d (d.finish c st r) := by
  unfold Dev.finish
  refine ((Only.unflight d c).mono (by decide)).trans ?_
  dsimp only
  split
  · exact (Only.setFate _ _ _).mono (by decide)
  · have n : Only (.bdy :: tells) (d.unflight c) ((d.unflight c).when (st == stOk) fun d => d.noteLocal c) :=
      Only.when _ ((Only.noteLocal _ c).mono (by decide))
    refine n.trans ?_
    exact (Only.when _ ((Only.count _ _ _).mono (by decide))).trans (Only.complete _ _ _)

/-- Outside PAIRED, a command of this module's own rings ends without a change of the buddy's area. -/
theorem Only.finishSingle (d : Dev) (c : Cmd) (st r : Nat) (h : d.bdy.state ≠ .paired) (m : c.mirrored = false) :
    Only tells d (d.finish c st r) := by
  unfold Dev.finish
  refine ((Only.unflight d c).mono (by decide)).trans ?_
  dsimp only
  rw [m]
  have n : Only tells (d.unflight c) ((d.unflight c).when (st == stOk) fun d => d.noteLocal c) :=
    Only.when _ ((Only.noteLocal _ c).mono (by decide))
  refine n.trans ?_
  refine (Only.when _ (Only.countIn _ _ _)).trans (Only.completeSingle _ _ _ ?_)
  rw [(Only.when (l := tells) _ (Only.countIn _ _ _)).bdy (by decide), n.bdy (by decide)]
  exact h

theorem Only.finishAt (d : Dev) (g t st r : Nat) : Only (.bdy :: tells) d (d.finishAt g t st r) := by
  unfold Dev.finishAt
  split
  · exact Only.finish _ _ _ _
  · exact Only.refl _ _

theorem Only.readOut (d : Dev) (c : Cmd) (a : Nat) (b : List Byte) (r : Nat) : Only (.bdy :: tells) d (d.readOut c a b r) :=
  ((Only.emit d _).mono (by decide)).trans (Only.finish _ _ _ _)

theorem Only.audit (d : Dev) (code a b : Nat) : Only (.prc :: tells) d (d.audit code a b) := by
  unfold Dev.audit
  exact ((Only.prcM d _).mono (by decide)).trans ((Only.post _ _ _).mono (by decide))

theorem Only.auditFold (d : Dev) (key code a b : Nat) : Only (.prc :: tells) d (d.auditFold key code a b) := by
  unfold Dev.auditFold
  split
  · exact (Only.prcM d _).mono (by decide)
  · exact (Only.audit d _ _ _).trans ((Only.prcM _ _).mono (by decide))

/-! ### The frame of every command: time, and the monitors -/

theorem Only.elapse (d : Dev) (dt : Nat) : Only [.time, .cnt] d (d.elapse dt) := by
  unfold Dev.elapse
  dsimp only
  have h : Only [.time, .cnt] d (d.each d.cnt.monitors fun (m, mon) d' =>
      d'.when (mon.live && mon.hits (d.occupancy mon.kind mon.index)) fun d' =>
        d'.count (cMon m 0) (coreCycles d.now (d.now + dt))) :=
    Only.each _ (fun a d => Only.when _ ((Only.count _ _ _).mono (by decide))) d
  refine h.trans ?_
  intro x k; cases x <;> first | rfl | exact absurd (by decide) k

@[simp] theorem Dev.elapse_now (d : Dev) (dt : Nat) : (d.elapse dt).now = d.now + dt := rfl

theorem Only.reach (d : Dev) (t : Q) : Only [.time, .cnt] d (d.reach t) := Only.elapse d _

@[simp] theorem Dev.reach_now (d : Dev) (t : Q) : (d.reach t).now = max d.now t := by
  rw [Dev.reach, Dev.elapse_now]; omega

theorem Only.settle (d : Dev) : Only [.cnt] d d.settle := by
  unfold Dev.settle
  exact Only.each _ (fun a d => Only.when _ (Only.setLive _ _ _)) d

/-! ### Field by field -/

@[simp] theorem Dev.occur_now (d : Dev) (ev : Nat) (items : List Item) : (d.occur ev items).now = d.now := (Only.occur d ev items).now (by decide)
@[simp] theorem Dev.occur_arrivals (d : Dev) (ev : Nat) (items : List Item) : (d.occur ev items).arrivals = d.arrivals := (Only.occur d ev items).arrivals (by decide)
@[simp] theorem Dev.occur_free (d : Dev) (ev : Nat) (items : List Item) : (d.occur ev items).free = d.free := (Only.occur d ev items).free (by decide)
@[simp] theorem Dev.occur_out (d : Dev) (ev : Nat) (items : List Item) : (d.occur ev items).out = d.out := (Only.occur d ev items).out (by decide)
@[simp] theorem Dev.occur_glb (d : Dev) (ev : Nat) (items : List Item) : (d.occur ev items).glb = d.glb := (Only.occur d ev items).glb (by decide)
@[simp] theorem Dev.occur_hif (d : Dev) (ev : Nat) (items : List Item) : (d.occur ev items).hif = d.hif := (Only.occur d ev items).hif (by decide)
@[simp] theorem Dev.occur_bel (d : Dev) (ev : Nat) (items : List Item) : (d.occur ev items).bel = d.bel := (Only.occur d ev items).bel (by decide)
@[simp] theorem Dev.occur_tim (d : Dev) (ev : Nat) (items : List Item) : (d.occur ev items).tim = d.tim := (Only.occur d ev items).tim (by decide)
@[simp] theorem Dev.occur_lne (d : Dev) (ev : Nat) (items : List Item) : (d.occur ev items).lne = d.lne := (Only.occur d ev items).lne (by decide)
@[simp] theorem Dev.occur_mac (d : Dev) (ev : Nat) (items : List Item) : (d.occur ev items).mac = d.mac := (Only.occur d ev items).mac (by decide)
@[simp] theorem Dev.occur_zbn (d : Dev) (ev : Nat) (items : List Item) : (d.occur ev items).zbn = d.zbn := (Only.occur d ev items).zbn (by decide)
@[simp] theorem Dev.occur_ttb (d : Dev) (ev : Nat) (items : List Item) : (d.occur ev items).ttb = d.ttb := (Only.occur d ev items).ttb (by decide)
@[simp] theorem Dev.occur_prs (d : Dev) (ev : Nat) (items : List Item) : (d.occur ev items).prs = d.prs := (Only.occur d ev items).prs (by decide)
@[simp] theorem Dev.occur_fwd (d : Dev) (ev : Nat) (items : List Item) : (d.occur ev items).fwd = d.fwd := (Only.occur d ev items).fwd (by decide)
@[simp] theorem Dev.occur_buf (d : Dev) (ev : Nat) (items : List Item) : (d.occur ev items).buf = d.buf := (Only.occur d ev items).buf (by decide)
@[simp] theorem Dev.occur_sch (d : Dev) (ev : Nat) (items : List Item) : (d.occur ev items).sch = d.sch := (Only.occur d ev items).sch (by decide)
@[simp] theorem Dev.occur_drc (d : Dev) (ev : Nat) (items : List Item) : (d.occur ev items).drc = d.drc := (Only.occur d ev items).drc (by decide)
@[simp] theorem Dev.occur_gov (d : Dev) (ev : Nat) (items : List Item) : (d.occur ev items).gov = d.gov := (Only.occur d ev items).gov (by decide)
@[simp] theorem Dev.occur_sub (d : Dev) (ev : Nat) (items : List Item) : (d.occur ev items).sub = d.sub := (Only.occur d ev items).sub (by decide)
@[simp] theorem Dev.occur_bdy (d : Dev) (ev : Nat) (items : List Item) : (d.occur ev items).bdy = d.bdy := (Only.occur d ev items).bdy (by decide)
@[simp] theorem Dev.occur_prc (d : Dev) (ev : Nat) (items : List Item) : (d.occur ev items).prc = d.prc := (Only.occur d ev items).prc (by decide)
@[simp] theorem Dev.occur_pins (d : Dev) (ev : Nat) (items : List Item) : (d.occur ev items).pins = d.pins := (Only.occur d ev items).pins (by decide)
@[simp] theorem Dev.occur_boot (d : Dev) (ev : Nat) (items : List Item) : (d.occur ev items).boot = d.boot := (Only.occur d ev items).boot (by decide)

@[simp] theorem Dev.postAs_now (d : Dev) (ev : Nat) (items : List Item) (m b : Nat) : (d.postAs ev items m b).now = d.now := (Only.postAs d ev items m b).now (by decide)
@[simp] theorem Dev.postAs_arrivals (d : Dev) (ev : Nat) (items : List Item) (m b : Nat) : (d.postAs ev items m b).arrivals = d.arrivals := (Only.postAs d ev items m b).arrivals (by decide)
@[simp] theorem Dev.postAs_free (d : Dev) (ev : Nat) (items : List Item) (m b : Nat) : (d.postAs ev items m b).free = d.free := (Only.postAs d ev items m b).free (by decide)
@[simp] theorem Dev.postAs_glb (d : Dev) (ev : Nat) (items : List Item) (m b : Nat) : (d.postAs ev items m b).glb = d.glb := (Only.postAs d ev items m b).glb (by decide)
@[simp] theorem Dev.postAs_bel (d : Dev) (ev : Nat) (items : List Item) (m b : Nat) : (d.postAs ev items m b).bel = d.bel := (Only.postAs d ev items m b).bel (by decide)
@[simp] theorem Dev.postAs_tim (d : Dev) (ev : Nat) (items : List Item) (m b : Nat) : (d.postAs ev items m b).tim = d.tim := (Only.postAs d ev items m b).tim (by decide)
@[simp] theorem Dev.postAs_lne (d : Dev) (ev : Nat) (items : List Item) (m b : Nat) : (d.postAs ev items m b).lne = d.lne := (Only.postAs d ev items m b).lne (by decide)
@[simp] theorem Dev.postAs_mac (d : Dev) (ev : Nat) (items : List Item) (m b : Nat) : (d.postAs ev items m b).mac = d.mac := (Only.postAs d ev items m b).mac (by decide)
@[simp] theorem Dev.postAs_zbn (d : Dev) (ev : Nat) (items : List Item) (m b : Nat) : (d.postAs ev items m b).zbn = d.zbn := (Only.postAs d ev items m b).zbn (by decide)
@[simp] theorem Dev.postAs_ttb (d : Dev) (ev : Nat) (items : List Item) (m b : Nat) : (d.postAs ev items m b).ttb = d.ttb := (Only.postAs d ev items m b).ttb (by decide)
@[simp] theorem Dev.postAs_prs (d : Dev) (ev : Nat) (items : List Item) (m b : Nat) : (d.postAs ev items m b).prs = d.prs := (Only.postAs d ev items m b).prs (by decide)
@[simp] theorem Dev.postAs_fwd (d : Dev) (ev : Nat) (items : List Item) (m b : Nat) : (d.postAs ev items m b).fwd = d.fwd := (Only.postAs d ev items m b).fwd (by decide)
@[simp] theorem Dev.postAs_buf (d : Dev) (ev : Nat) (items : List Item) (m b : Nat) : (d.postAs ev items m b).buf = d.buf := (Only.postAs d ev items m b).buf (by decide)
@[simp] theorem Dev.postAs_sch (d : Dev) (ev : Nat) (items : List Item) (m b : Nat) : (d.postAs ev items m b).sch = d.sch := (Only.postAs d ev items m b).sch (by decide)
@[simp] theorem Dev.postAs_drc (d : Dev) (ev : Nat) (items : List Item) (m b : Nat) : (d.postAs ev items m b).drc = d.drc := (Only.postAs d ev items m b).drc (by decide)
@[simp] theorem Dev.postAs_gov (d : Dev) (ev : Nat) (items : List Item) (m b : Nat) : (d.postAs ev items m b).gov = d.gov := (Only.postAs d ev items m b).gov (by decide)
@[simp] theorem Dev.postAs_sub (d : Dev) (ev : Nat) (items : List Item) (m b : Nat) : (d.postAs ev items m b).sub = d.sub := (Only.postAs d ev items m b).sub (by decide)
@[simp] theorem Dev.postAs_bdy (d : Dev) (ev : Nat) (items : List Item) (m b : Nat) : (d.postAs ev items m b).bdy = d.bdy := (Only.postAs d ev items m b).bdy (by decide)
@[simp] theorem Dev.postAs_prc (d : Dev) (ev : Nat) (items : List Item) (m b : Nat) : (d.postAs ev items m b).prc = d.prc := (Only.postAs d ev items m b).prc (by decide)
@[simp] theorem Dev.postAs_pins (d : Dev) (ev : Nat) (items : List Item) (m b : Nat) : (d.postAs ev items m b).pins = d.pins := (Only.postAs d ev items m b).pins (by decide)
@[simp] theorem Dev.postAs_boot (d : Dev) (ev : Nat) (items : List Item) (m b : Nat) : (d.postAs ev items m b).boot = d.boot := (Only.postAs d ev items m b).boot (by decide)

@[simp] theorem Dev.post_now (d : Dev) (ev : Nat) (items : List Item) : (d.post ev items).now = d.now := (Only.post d ev items).now (by decide)
@[simp] theorem Dev.post_arrivals (d : Dev) (ev : Nat) (items : List Item) : (d.post ev items).arrivals = d.arrivals := (Only.post d ev items).arrivals (by decide)
@[simp] theorem Dev.post_free (d : Dev) (ev : Nat) (items : List Item) : (d.post ev items).free = d.free := (Only.post d ev items).free (by decide)
@[simp] theorem Dev.post_glb (d : Dev) (ev : Nat) (items : List Item) : (d.post ev items).glb = d.glb := (Only.post d ev items).glb (by decide)
@[simp] theorem Dev.post_bel (d : Dev) (ev : Nat) (items : List Item) : (d.post ev items).bel = d.bel := (Only.post d ev items).bel (by decide)
@[simp] theorem Dev.post_tim (d : Dev) (ev : Nat) (items : List Item) : (d.post ev items).tim = d.tim := (Only.post d ev items).tim (by decide)
@[simp] theorem Dev.post_lne (d : Dev) (ev : Nat) (items : List Item) : (d.post ev items).lne = d.lne := (Only.post d ev items).lne (by decide)
@[simp] theorem Dev.post_mac (d : Dev) (ev : Nat) (items : List Item) : (d.post ev items).mac = d.mac := (Only.post d ev items).mac (by decide)
@[simp] theorem Dev.post_zbn (d : Dev) (ev : Nat) (items : List Item) : (d.post ev items).zbn = d.zbn := (Only.post d ev items).zbn (by decide)
@[simp] theorem Dev.post_ttb (d : Dev) (ev : Nat) (items : List Item) : (d.post ev items).ttb = d.ttb := (Only.post d ev items).ttb (by decide)
@[simp] theorem Dev.post_prs (d : Dev) (ev : Nat) (items : List Item) : (d.post ev items).prs = d.prs := (Only.post d ev items).prs (by decide)
@[simp] theorem Dev.post_fwd (d : Dev) (ev : Nat) (items : List Item) : (d.post ev items).fwd = d.fwd := (Only.post d ev items).fwd (by decide)
@[simp] theorem Dev.post_buf (d : Dev) (ev : Nat) (items : List Item) : (d.post ev items).buf = d.buf := (Only.post d ev items).buf (by decide)
@[simp] theorem Dev.post_sch (d : Dev) (ev : Nat) (items : List Item) : (d.post ev items).sch = d.sch := (Only.post d ev items).sch (by decide)
@[simp] theorem Dev.post_drc (d : Dev) (ev : Nat) (items : List Item) : (d.post ev items).drc = d.drc := (Only.post d ev items).drc (by decide)
@[simp] theorem Dev.post_gov (d : Dev) (ev : Nat) (items : List Item) : (d.post ev items).gov = d.gov := (Only.post d ev items).gov (by decide)
@[simp] theorem Dev.post_sub (d : Dev) (ev : Nat) (items : List Item) : (d.post ev items).sub = d.sub := (Only.post d ev items).sub (by decide)
@[simp] theorem Dev.post_bdy (d : Dev) (ev : Nat) (items : List Item) : (d.post ev items).bdy = d.bdy := (Only.post d ev items).bdy (by decide)
@[simp] theorem Dev.post_prc (d : Dev) (ev : Nat) (items : List Item) : (d.post ev items).prc = d.prc := (Only.post d ev items).prc (by decide)
@[simp] theorem Dev.post_pins (d : Dev) (ev : Nat) (items : List Item) : (d.post ev items).pins = d.pins := (Only.post d ev items).pins (by decide)
@[simp] theorem Dev.post_boot (d : Dev) (ev : Nat) (items : List Item) : (d.post ev items).boot = d.boot := (Only.post d ev items).boot (by decide)

@[simp] theorem Dev.complete_now (d : Dev) (k : Nat) (c : Compl) : (d.complete k c).now = d.now := (Only.complete d k c).now (by decide)
@[simp] theorem Dev.complete_arrivals (d : Dev) (k : Nat) (c : Compl) : (d.complete k c).arrivals = d.arrivals := (Only.complete d k c).arrivals (by decide)
@[simp] theorem Dev.complete_free (d : Dev) (k : Nat) (c : Compl) : (d.complete k c).free = d.free := (Only.complete d k c).free (by decide)
@[simp] theorem Dev.complete_glb (d : Dev) (k : Nat) (c : Compl) : (d.complete k c).glb = d.glb := (Only.complete d k c).glb (by decide)
@[simp] theorem Dev.complete_bel (d : Dev) (k : Nat) (c : Compl) : (d.complete k c).bel = d.bel := (Only.complete d k c).bel (by decide)
@[simp] theorem Dev.complete_tim (d : Dev) (k : Nat) (c : Compl) : (d.complete k c).tim = d.tim := (Only.complete d k c).tim (by decide)
@[simp] theorem Dev.complete_lne (d : Dev) (k : Nat) (c : Compl) : (d.complete k c).lne = d.lne := (Only.complete d k c).lne (by decide)
@[simp] theorem Dev.complete_mac (d : Dev) (k : Nat) (c : Compl) : (d.complete k c).mac = d.mac := (Only.complete d k c).mac (by decide)
@[simp] theorem Dev.complete_zbn (d : Dev) (k : Nat) (c : Compl) : (d.complete k c).zbn = d.zbn := (Only.complete d k c).zbn (by decide)
@[simp] theorem Dev.complete_ttb (d : Dev) (k : Nat) (c : Compl) : (d.complete k c).ttb = d.ttb := (Only.complete d k c).ttb (by decide)
@[simp] theorem Dev.complete_prs (d : Dev) (k : Nat) (c : Compl) : (d.complete k c).prs = d.prs := (Only.complete d k c).prs (by decide)
@[simp] theorem Dev.complete_fwd (d : Dev) (k : Nat) (c : Compl) : (d.complete k c).fwd = d.fwd := (Only.complete d k c).fwd (by decide)
@[simp] theorem Dev.complete_buf (d : Dev) (k : Nat) (c : Compl) : (d.complete k c).buf = d.buf := (Only.complete d k c).buf (by decide)
@[simp] theorem Dev.complete_sch (d : Dev) (k : Nat) (c : Compl) : (d.complete k c).sch = d.sch := (Only.complete d k c).sch (by decide)
@[simp] theorem Dev.complete_drc (d : Dev) (k : Nat) (c : Compl) : (d.complete k c).drc = d.drc := (Only.complete d k c).drc (by decide)
@[simp] theorem Dev.complete_gov (d : Dev) (k : Nat) (c : Compl) : (d.complete k c).gov = d.gov := (Only.complete d k c).gov (by decide)
@[simp] theorem Dev.complete_sub (d : Dev) (k : Nat) (c : Compl) : (d.complete k c).sub = d.sub := (Only.complete d k c).sub (by decide)
@[simp] theorem Dev.complete_prc (d : Dev) (k : Nat) (c : Compl) : (d.complete k c).prc = d.prc := (Only.complete d k c).prc (by decide)
@[simp] theorem Dev.complete_pins (d : Dev) (k : Nat) (c : Compl) : (d.complete k c).pins = d.pins := (Only.complete d k c).pins (by decide)
@[simp] theorem Dev.complete_boot (d : Dev) (k : Nat) (c : Compl) : (d.complete k c).boot = d.boot := (Only.complete d k c).boot (by decide)

@[simp] theorem Dev.deliver_now (d : Dev) (k : Nat) (c : Compl) : (d.deliver k c).now = d.now := (Only.deliver d k c).now (by decide)
@[simp] theorem Dev.deliver_arrivals (d : Dev) (k : Nat) (c : Compl) : (d.deliver k c).arrivals = d.arrivals := (Only.deliver d k c).arrivals (by decide)
@[simp] theorem Dev.deliver_free (d : Dev) (k : Nat) (c : Compl) : (d.deliver k c).free = d.free := (Only.deliver d k c).free (by decide)
@[simp] theorem Dev.deliver_glb (d : Dev) (k : Nat) (c : Compl) : (d.deliver k c).glb = d.glb := (Only.deliver d k c).glb (by decide)
@[simp] theorem Dev.deliver_bel (d : Dev) (k : Nat) (c : Compl) : (d.deliver k c).bel = d.bel := (Only.deliver d k c).bel (by decide)
@[simp] theorem Dev.deliver_tim (d : Dev) (k : Nat) (c : Compl) : (d.deliver k c).tim = d.tim := (Only.deliver d k c).tim (by decide)
@[simp] theorem Dev.deliver_lne (d : Dev) (k : Nat) (c : Compl) : (d.deliver k c).lne = d.lne := (Only.deliver d k c).lne (by decide)
@[simp] theorem Dev.deliver_mac (d : Dev) (k : Nat) (c : Compl) : (d.deliver k c).mac = d.mac := (Only.deliver d k c).mac (by decide)
@[simp] theorem Dev.deliver_zbn (d : Dev) (k : Nat) (c : Compl) : (d.deliver k c).zbn = d.zbn := (Only.deliver d k c).zbn (by decide)
@[simp] theorem Dev.deliver_ttb (d : Dev) (k : Nat) (c : Compl) : (d.deliver k c).ttb = d.ttb := (Only.deliver d k c).ttb (by decide)
@[simp] theorem Dev.deliver_prs (d : Dev) (k : Nat) (c : Compl) : (d.deliver k c).prs = d.prs := (Only.deliver d k c).prs (by decide)
@[simp] theorem Dev.deliver_fwd (d : Dev) (k : Nat) (c : Compl) : (d.deliver k c).fwd = d.fwd := (Only.deliver d k c).fwd (by decide)
@[simp] theorem Dev.deliver_buf (d : Dev) (k : Nat) (c : Compl) : (d.deliver k c).buf = d.buf := (Only.deliver d k c).buf (by decide)
@[simp] theorem Dev.deliver_sch (d : Dev) (k : Nat) (c : Compl) : (d.deliver k c).sch = d.sch := (Only.deliver d k c).sch (by decide)
@[simp] theorem Dev.deliver_drc (d : Dev) (k : Nat) (c : Compl) : (d.deliver k c).drc = d.drc := (Only.deliver d k c).drc (by decide)
@[simp] theorem Dev.deliver_gov (d : Dev) (k : Nat) (c : Compl) : (d.deliver k c).gov = d.gov := (Only.deliver d k c).gov (by decide)
@[simp] theorem Dev.deliver_sub (d : Dev) (k : Nat) (c : Compl) : (d.deliver k c).sub = d.sub := (Only.deliver d k c).sub (by decide)
@[simp] theorem Dev.deliver_bdy (d : Dev) (k : Nat) (c : Compl) : (d.deliver k c).bdy = d.bdy := (Only.deliver d k c).bdy (by decide)
@[simp] theorem Dev.deliver_prc (d : Dev) (k : Nat) (c : Compl) : (d.deliver k c).prc = d.prc := (Only.deliver d k c).prc (by decide)
@[simp] theorem Dev.deliver_pins (d : Dev) (k : Nat) (c : Compl) : (d.deliver k c).pins = d.pins := (Only.deliver d k c).pins (by decide)
@[simp] theorem Dev.deliver_boot (d : Dev) (k : Nat) (c : Compl) : (d.deliver k c).boot = d.boot := (Only.deliver d k c).boot (by decide)

@[simp] theorem Dev.finish_now (d : Dev) (c : Cmd) (st r : Nat) : (d.finish c st r).now = d.now := (Only.finish d c st r).now (by decide)
@[simp] theorem Dev.finish_arrivals (d : Dev) (c : Cmd) (st r : Nat) : (d.finish c st r).arrivals = d.arrivals := (Only.finish d c st r).arrivals (by decide)
@[simp] theorem Dev.finish_free (d : Dev) (c : Cmd) (st r : Nat) : (d.finish c st r).free = d.free := (Only.finish d c st r).free (by decide)
@[simp] theorem Dev.finish_glb (d : Dev) (c : Cmd) (st r : Nat) : (d.finish c st r).glb = d.glb := (Only.finish d c st r).glb (by decide)
@[simp] theorem Dev.finish_bel (d : Dev) (c : Cmd) (st r : Nat) : (d.finish c st r).bel = d.bel := (Only.finish d c st r).bel (by decide)
@[simp] theorem Dev.finish_tim (d : Dev) (c : Cmd) (st r : Nat) : (d.finish c st r).tim = d.tim := (Only.finish d c st r).tim (by decide)
@[simp] theorem Dev.finish_lne (d : Dev) (c : Cmd) (st r : Nat) : (d.finish c st r).lne = d.lne := (Only.finish d c st r).lne (by decide)
@[simp] theorem Dev.finish_mac (d : Dev) (c : Cmd) (st r : Nat) : (d.finish c st r).mac = d.mac := (Only.finish d c st r).mac (by decide)
@[simp] theorem Dev.finish_zbn (d : Dev) (c : Cmd) (st r : Nat) : (d.finish c st r).zbn = d.zbn := (Only.finish d c st r).zbn (by decide)
@[simp] theorem Dev.finish_ttb (d : Dev) (c : Cmd) (st r : Nat) : (d.finish c st r).ttb = d.ttb := (Only.finish d c st r).ttb (by decide)
@[simp] theorem Dev.finish_prs (d : Dev) (c : Cmd) (st r : Nat) : (d.finish c st r).prs = d.prs := (Only.finish d c st r).prs (by decide)
@[simp] theorem Dev.finish_fwd (d : Dev) (c : Cmd) (st r : Nat) : (d.finish c st r).fwd = d.fwd := (Only.finish d c st r).fwd (by decide)
@[simp] theorem Dev.finish_buf (d : Dev) (c : Cmd) (st r : Nat) : (d.finish c st r).buf = d.buf := (Only.finish d c st r).buf (by decide)
@[simp] theorem Dev.finish_sch (d : Dev) (c : Cmd) (st r : Nat) : (d.finish c st r).sch = d.sch := (Only.finish d c st r).sch (by decide)
@[simp] theorem Dev.finish_drc (d : Dev) (c : Cmd) (st r : Nat) : (d.finish c st r).drc = d.drc := (Only.finish d c st r).drc (by decide)
@[simp] theorem Dev.finish_gov (d : Dev) (c : Cmd) (st r : Nat) : (d.finish c st r).gov = d.gov := (Only.finish d c st r).gov (by decide)
@[simp] theorem Dev.finish_sub (d : Dev) (c : Cmd) (st r : Nat) : (d.finish c st r).sub = d.sub := (Only.finish d c st r).sub (by decide)
@[simp] theorem Dev.finish_prc (d : Dev) (c : Cmd) (st r : Nat) : (d.finish c st r).prc = d.prc := (Only.finish d c st r).prc (by decide)
@[simp] theorem Dev.finish_pins (d : Dev) (c : Cmd) (st r : Nat) : (d.finish c st r).pins = d.pins := (Only.finish d c st r).pins (by decide)
@[simp] theorem Dev.finish_boot (d : Dev) (c : Cmd) (st r : Nat) : (d.finish c st r).boot = d.boot := (Only.finish d c st r).boot (by decide)

@[simp] theorem Dev.finishAt_now (d : Dev) (g t st r : Nat) : (d.finishAt g t st r).now = d.now := (Only.finishAt d g t st r).now (by decide)
@[simp] theorem Dev.finishAt_arrivals (d : Dev) (g t st r : Nat) : (d.finishAt g t st r).arrivals = d.arrivals := (Only.finishAt d g t st r).arrivals (by decide)
@[simp] theorem Dev.finishAt_free (d : Dev) (g t st r : Nat) : (d.finishAt g t st r).free = d.free := (Only.finishAt d g t st r).free (by decide)
@[simp] theorem Dev.finishAt_glb (d : Dev) (g t st r : Nat) : (d.finishAt g t st r).glb = d.glb := (Only.finishAt d g t st r).glb (by decide)
@[simp] theorem Dev.finishAt_bel (d : Dev) (g t st r : Nat) : (d.finishAt g t st r).bel = d.bel := (Only.finishAt d g t st r).bel (by decide)
@[simp] theorem Dev.finishAt_tim (d : Dev) (g t st r : Nat) : (d.finishAt g t st r).tim = d.tim := (Only.finishAt d g t st r).tim (by decide)
@[simp] theorem Dev.finishAt_lne (d : Dev) (g t st r : Nat) : (d.finishAt g t st r).lne = d.lne := (Only.finishAt d g t st r).lne (by decide)
@[simp] theorem Dev.finishAt_mac (d : Dev) (g t st r : Nat) : (d.finishAt g t st r).mac = d.mac := (Only.finishAt d g t st r).mac (by decide)
@[simp] theorem Dev.finishAt_zbn (d : Dev) (g t st r : Nat) : (d.finishAt g t st r).zbn = d.zbn := (Only.finishAt d g t st r).zbn (by decide)
@[simp] theorem Dev.finishAt_ttb (d : Dev) (g t st r : Nat) : (d.finishAt g t st r).ttb = d.ttb := (Only.finishAt d g t st r).ttb (by decide)
@[simp] theorem Dev.finishAt_prs (d : Dev) (g t st r : Nat) : (d.finishAt g t st r).prs = d.prs := (Only.finishAt d g t st r).prs (by decide)
@[simp] theorem Dev.finishAt_fwd (d : Dev) (g t st r : Nat) : (d.finishAt g t st r).fwd = d.fwd := (Only.finishAt d g t st r).fwd (by decide)
@[simp] theorem Dev.finishAt_buf (d : Dev) (g t st r : Nat) : (d.finishAt g t st r).buf = d.buf := (Only.finishAt d g t st r).buf (by decide)
@[simp] theorem Dev.finishAt_sch (d : Dev) (g t st r : Nat) : (d.finishAt g t st r).sch = d.sch := (Only.finishAt d g t st r).sch (by decide)
@[simp] theorem Dev.finishAt_drc (d : Dev) (g t st r : Nat) : (d.finishAt g t st r).drc = d.drc := (Only.finishAt d g t st r).drc (by decide)
@[simp] theorem Dev.finishAt_gov (d : Dev) (g t st r : Nat) : (d.finishAt g t st r).gov = d.gov := (Only.finishAt d g t st r).gov (by decide)
@[simp] theorem Dev.finishAt_sub (d : Dev) (g t st r : Nat) : (d.finishAt g t st r).sub = d.sub := (Only.finishAt d g t st r).sub (by decide)
@[simp] theorem Dev.finishAt_prc (d : Dev) (g t st r : Nat) : (d.finishAt g t st r).prc = d.prc := (Only.finishAt d g t st r).prc (by decide)
@[simp] theorem Dev.finishAt_pins (d : Dev) (g t st r : Nat) : (d.finishAt g t st r).pins = d.pins := (Only.finishAt d g t st r).pins (by decide)
@[simp] theorem Dev.finishAt_boot (d : Dev) (g t st r : Nat) : (d.finishAt g t st r).boot = d.boot := (Only.finishAt d g t st r).boot (by decide)

@[simp] theorem Dev.readOut_now (d : Dev) (c : Cmd) (a : Nat) (b : List Byte) (r : Nat) : (d.readOut c a b r).now = d.now := (Only.readOut d c a b r).now (by decide)
@[simp] theorem Dev.readOut_arrivals (d : Dev) (c : Cmd) (a : Nat) (b : List Byte) (r : Nat) : (d.readOut c a b r).arrivals = d.arrivals := (Only.readOut d c a b r).arrivals (by decide)
@[simp] theorem Dev.readOut_free (d : Dev) (c : Cmd) (a : Nat) (b : List Byte) (r : Nat) : (d.readOut c a b r).free = d.free := (Only.readOut d c a b r).free (by decide)
@[simp] theorem Dev.readOut_glb (d : Dev) (c : Cmd) (a : Nat) (b : List Byte) (r : Nat) : (d.readOut c a b r).glb = d.glb := (Only.readOut d c a b r).glb (by decide)
@[simp] theorem Dev.readOut_bel (d : Dev) (c : Cmd) (a : Nat) (b : List Byte) (r : Nat) : (d.readOut c a b r).bel = d.bel := (Only.readOut d c a b r).bel (by decide)
@[simp] theorem Dev.readOut_tim (d : Dev) (c : Cmd) (a : Nat) (b : List Byte) (r : Nat) : (d.readOut c a b r).tim = d.tim := (Only.readOut d c a b r).tim (by decide)
@[simp] theorem Dev.readOut_lne (d : Dev) (c : Cmd) (a : Nat) (b : List Byte) (r : Nat) : (d.readOut c a b r).lne = d.lne := (Only.readOut d c a b r).lne (by decide)
@[simp] theorem Dev.readOut_mac (d : Dev) (c : Cmd) (a : Nat) (b : List Byte) (r : Nat) : (d.readOut c a b r).mac = d.mac := (Only.readOut d c a b r).mac (by decide)
@[simp] theorem Dev.readOut_zbn (d : Dev) (c : Cmd) (a : Nat) (b : List Byte) (r : Nat) : (d.readOut c a b r).zbn = d.zbn := (Only.readOut d c a b r).zbn (by decide)
@[simp] theorem Dev.readOut_ttb (d : Dev) (c : Cmd) (a : Nat) (b : List Byte) (r : Nat) : (d.readOut c a b r).ttb = d.ttb := (Only.readOut d c a b r).ttb (by decide)
@[simp] theorem Dev.readOut_prs (d : Dev) (c : Cmd) (a : Nat) (b : List Byte) (r : Nat) : (d.readOut c a b r).prs = d.prs := (Only.readOut d c a b r).prs (by decide)
@[simp] theorem Dev.readOut_fwd (d : Dev) (c : Cmd) (a : Nat) (b : List Byte) (r : Nat) : (d.readOut c a b r).fwd = d.fwd := (Only.readOut d c a b r).fwd (by decide)
@[simp] theorem Dev.readOut_buf (d : Dev) (c : Cmd) (a : Nat) (b : List Byte) (r : Nat) : (d.readOut c a b r).buf = d.buf := (Only.readOut d c a b r).buf (by decide)
@[simp] theorem Dev.readOut_sch (d : Dev) (c : Cmd) (a : Nat) (b : List Byte) (r : Nat) : (d.readOut c a b r).sch = d.sch := (Only.readOut d c a b r).sch (by decide)
@[simp] theorem Dev.readOut_drc (d : Dev) (c : Cmd) (a : Nat) (b : List Byte) (r : Nat) : (d.readOut c a b r).drc = d.drc := (Only.readOut d c a b r).drc (by decide)
@[simp] theorem Dev.readOut_gov (d : Dev) (c : Cmd) (a : Nat) (b : List Byte) (r : Nat) : (d.readOut c a b r).gov = d.gov := (Only.readOut d c a b r).gov (by decide)
@[simp] theorem Dev.readOut_sub (d : Dev) (c : Cmd) (a : Nat) (b : List Byte) (r : Nat) : (d.readOut c a b r).sub = d.sub := (Only.readOut d c a b r).sub (by decide)
@[simp] theorem Dev.readOut_prc (d : Dev) (c : Cmd) (a : Nat) (b : List Byte) (r : Nat) : (d.readOut c a b r).prc = d.prc := (Only.readOut d c a b r).prc (by decide)
@[simp] theorem Dev.readOut_pins (d : Dev) (c : Cmd) (a : Nat) (b : List Byte) (r : Nat) : (d.readOut c a b r).pins = d.pins := (Only.readOut d c a b r).pins (by decide)
@[simp] theorem Dev.readOut_boot (d : Dev) (c : Cmd) (a : Nat) (b : List Byte) (r : Nat) : (d.readOut c a b r).boot = d.boot := (Only.readOut d c a b r).boot (by decide)

@[simp] theorem Dev.audit_now (d : Dev) (code a b : Nat) : (d.audit code a b).now = d.now := (Only.audit d code a b).now (by decide)
@[simp] theorem Dev.audit_arrivals (d : Dev) (code a b : Nat) : (d.audit code a b).arrivals = d.arrivals := (Only.audit d code a b).arrivals (by decide)
@[simp] theorem Dev.audit_free (d : Dev) (code a b : Nat) : (d.audit code a b).free = d.free := (Only.audit d code a b).free (by decide)
@[simp] theorem Dev.audit_glb (d : Dev) (code a b : Nat) : (d.audit code a b).glb = d.glb := (Only.audit d code a b).glb (by decide)
@[simp] theorem Dev.audit_bel (d : Dev) (code a b : Nat) : (d.audit code a b).bel = d.bel := (Only.audit d code a b).bel (by decide)
@[simp] theorem Dev.audit_tim (d : Dev) (code a b : Nat) : (d.audit code a b).tim = d.tim := (Only.audit d code a b).tim (by decide)
@[simp] theorem Dev.audit_lne (d : Dev) (code a b : Nat) : (d.audit code a b).lne = d.lne := (Only.audit d code a b).lne (by decide)
@[simp] theorem Dev.audit_mac (d : Dev) (code a b : Nat) : (d.audit code a b).mac = d.mac := (Only.audit d code a b).mac (by decide)
@[simp] theorem Dev.audit_zbn (d : Dev) (code a b : Nat) : (d.audit code a b).zbn = d.zbn := (Only.audit d code a b).zbn (by decide)
@[simp] theorem Dev.audit_ttb (d : Dev) (code a b : Nat) : (d.audit code a b).ttb = d.ttb := (Only.audit d code a b).ttb (by decide)
@[simp] theorem Dev.audit_prs (d : Dev) (code a b : Nat) : (d.audit code a b).prs = d.prs := (Only.audit d code a b).prs (by decide)
@[simp] theorem Dev.audit_fwd (d : Dev) (code a b : Nat) : (d.audit code a b).fwd = d.fwd := (Only.audit d code a b).fwd (by decide)
@[simp] theorem Dev.audit_buf (d : Dev) (code a b : Nat) : (d.audit code a b).buf = d.buf := (Only.audit d code a b).buf (by decide)
@[simp] theorem Dev.audit_sch (d : Dev) (code a b : Nat) : (d.audit code a b).sch = d.sch := (Only.audit d code a b).sch (by decide)
@[simp] theorem Dev.audit_drc (d : Dev) (code a b : Nat) : (d.audit code a b).drc = d.drc := (Only.audit d code a b).drc (by decide)
@[simp] theorem Dev.audit_gov (d : Dev) (code a b : Nat) : (d.audit code a b).gov = d.gov := (Only.audit d code a b).gov (by decide)
@[simp] theorem Dev.audit_sub (d : Dev) (code a b : Nat) : (d.audit code a b).sub = d.sub := (Only.audit d code a b).sub (by decide)
@[simp] theorem Dev.audit_bdy (d : Dev) (code a b : Nat) : (d.audit code a b).bdy = d.bdy := (Only.audit d code a b).bdy (by decide)
@[simp] theorem Dev.audit_pins (d : Dev) (code a b : Nat) : (d.audit code a b).pins = d.pins := (Only.audit d code a b).pins (by decide)
@[simp] theorem Dev.audit_boot (d : Dev) (code a b : Nat) : (d.audit code a b).boot = d.boot := (Only.audit d code a b).boot (by decide)

@[simp] theorem Dev.auditFold_now (d : Dev) (key code a b : Nat) : (d.auditFold key code a b).now = d.now := (Only.auditFold d key code a b).now (by decide)
@[simp] theorem Dev.auditFold_arrivals (d : Dev) (key code a b : Nat) : (d.auditFold key code a b).arrivals = d.arrivals := (Only.auditFold d key code a b).arrivals (by decide)
@[simp] theorem Dev.auditFold_free (d : Dev) (key code a b : Nat) : (d.auditFold key code a b).free = d.free := (Only.auditFold d key code a b).free (by decide)
@[simp] theorem Dev.auditFold_glb (d : Dev) (key code a b : Nat) : (d.auditFold key code a b).glb = d.glb := (Only.auditFold d key code a b).glb (by decide)
@[simp] theorem Dev.auditFold_bel (d : Dev) (key code a b : Nat) : (d.auditFold key code a b).bel = d.bel := (Only.auditFold d key code a b).bel (by decide)
@[simp] theorem Dev.auditFold_tim (d : Dev) (key code a b : Nat) : (d.auditFold key code a b).tim = d.tim := (Only.auditFold d key code a b).tim (by decide)
@[simp] theorem Dev.auditFold_lne (d : Dev) (key code a b : Nat) : (d.auditFold key code a b).lne = d.lne := (Only.auditFold d key code a b).lne (by decide)
@[simp] theorem Dev.auditFold_mac (d : Dev) (key code a b : Nat) : (d.auditFold key code a b).mac = d.mac := (Only.auditFold d key code a b).mac (by decide)
@[simp] theorem Dev.auditFold_zbn (d : Dev) (key code a b : Nat) : (d.auditFold key code a b).zbn = d.zbn := (Only.auditFold d key code a b).zbn (by decide)
@[simp] theorem Dev.auditFold_ttb (d : Dev) (key code a b : Nat) : (d.auditFold key code a b).ttb = d.ttb := (Only.auditFold d key code a b).ttb (by decide)
@[simp] theorem Dev.auditFold_prs (d : Dev) (key code a b : Nat) : (d.auditFold key code a b).prs = d.prs := (Only.auditFold d key code a b).prs (by decide)
@[simp] theorem Dev.auditFold_fwd (d : Dev) (key code a b : Nat) : (d.auditFold key code a b).fwd = d.fwd := (Only.auditFold d key code a b).fwd (by decide)
@[simp] theorem Dev.auditFold_buf (d : Dev) (key code a b : Nat) : (d.auditFold key code a b).buf = d.buf := (Only.auditFold d key code a b).buf (by decide)
@[simp] theorem Dev.auditFold_sch (d : Dev) (key code a b : Nat) : (d.auditFold key code a b).sch = d.sch := (Only.auditFold d key code a b).sch (by decide)
@[simp] theorem Dev.auditFold_drc (d : Dev) (key code a b : Nat) : (d.auditFold key code a b).drc = d.drc := (Only.auditFold d key code a b).drc (by decide)
@[simp] theorem Dev.auditFold_gov (d : Dev) (key code a b : Nat) : (d.auditFold key code a b).gov = d.gov := (Only.auditFold d key code a b).gov (by decide)
@[simp] theorem Dev.auditFold_sub (d : Dev) (key code a b : Nat) : (d.auditFold key code a b).sub = d.sub := (Only.auditFold d key code a b).sub (by decide)
@[simp] theorem Dev.auditFold_bdy (d : Dev) (key code a b : Nat) : (d.auditFold key code a b).bdy = d.bdy := (Only.auditFold d key code a b).bdy (by decide)
@[simp] theorem Dev.auditFold_pins (d : Dev) (key code a b : Nat) : (d.auditFold key code a b).pins = d.pins := (Only.auditFold d key code a b).pins (by decide)
@[simp] theorem Dev.auditFold_boot (d : Dev) (key code a b : Nat) : (d.auditFold key code a b).boot = d.boot := (Only.auditFold d key code a b).boot (by decide)

@[simp] theorem Dev.elapse_arrivals (d : Dev) (dt : Nat) : (d.elapse dt).arrivals = d.arrivals := (Only.elapse d dt).arrivals (by decide)
@[simp] theorem Dev.elapse_free (d : Dev) (dt : Nat) : (d.elapse dt).free = d.free := (Only.elapse d dt).free (by decide)
@[simp] theorem Dev.elapse_out (d : Dev) (dt : Nat) : (d.elapse dt).out = d.out := (Only.elapse d dt).out (by decide)
@[simp] theorem Dev.elapse_glb (d : Dev) (dt : Nat) : (d.elapse dt).glb = d.glb := (Only.elapse d dt).glb (by decide)
@[simp] theorem Dev.elapse_hif (d : Dev) (dt : Nat) : (d.elapse dt).hif = d.hif := (Only.elapse d dt).hif (by decide)
@[simp] theorem Dev.elapse_bel (d : Dev) (dt : Nat) : (d.elapse dt).bel = d.bel := (Only.elapse d dt).bel (by decide)
@[simp] theorem Dev.elapse_tim (d : Dev) (dt : Nat) : (d.elapse dt).tim = d.tim := (Only.elapse d dt).tim (by decide)
@[simp] theorem Dev.elapse_lne (d : Dev) (dt : Nat) : (d.elapse dt).lne = d.lne := (Only.elapse d dt).lne (by decide)
@[simp] theorem Dev.elapse_mac (d : Dev) (dt : Nat) : (d.elapse dt).mac = d.mac := (Only.elapse d dt).mac (by decide)
@[simp] theorem Dev.elapse_zbn (d : Dev) (dt : Nat) : (d.elapse dt).zbn = d.zbn := (Only.elapse d dt).zbn (by decide)
@[simp] theorem Dev.elapse_ttb (d : Dev) (dt : Nat) : (d.elapse dt).ttb = d.ttb := (Only.elapse d dt).ttb (by decide)
@[simp] theorem Dev.elapse_prs (d : Dev) (dt : Nat) : (d.elapse dt).prs = d.prs := (Only.elapse d dt).prs (by decide)
@[simp] theorem Dev.elapse_fwd (d : Dev) (dt : Nat) : (d.elapse dt).fwd = d.fwd := (Only.elapse d dt).fwd (by decide)
@[simp] theorem Dev.elapse_buf (d : Dev) (dt : Nat) : (d.elapse dt).buf = d.buf := (Only.elapse d dt).buf (by decide)
@[simp] theorem Dev.elapse_sch (d : Dev) (dt : Nat) : (d.elapse dt).sch = d.sch := (Only.elapse d dt).sch (by decide)
@[simp] theorem Dev.elapse_drc (d : Dev) (dt : Nat) : (d.elapse dt).drc = d.drc := (Only.elapse d dt).drc (by decide)
@[simp] theorem Dev.elapse_gov (d : Dev) (dt : Nat) : (d.elapse dt).gov = d.gov := (Only.elapse d dt).gov (by decide)
@[simp] theorem Dev.elapse_sub (d : Dev) (dt : Nat) : (d.elapse dt).sub = d.sub := (Only.elapse d dt).sub (by decide)
@[simp] theorem Dev.elapse_bdy (d : Dev) (dt : Nat) : (d.elapse dt).bdy = d.bdy := (Only.elapse d dt).bdy (by decide)
@[simp] theorem Dev.elapse_prc (d : Dev) (dt : Nat) : (d.elapse dt).prc = d.prc := (Only.elapse d dt).prc (by decide)
@[simp] theorem Dev.elapse_pins (d : Dev) (dt : Nat) : (d.elapse dt).pins = d.pins := (Only.elapse d dt).pins (by decide)
@[simp] theorem Dev.elapse_boot (d : Dev) (dt : Nat) : (d.elapse dt).boot = d.boot := (Only.elapse d dt).boot (by decide)

@[simp] theorem Dev.reach_arrivals (d : Dev) (t : Q) : (d.reach t).arrivals = d.arrivals := (Only.reach d t).arrivals (by decide)
@[simp] theorem Dev.reach_free (d : Dev) (t : Q) : (d.reach t).free = d.free := (Only.reach d t).free (by decide)
@[simp] theorem Dev.reach_out (d : Dev) (t : Q) : (d.reach t).out = d.out := (Only.reach d t).out (by decide)
@[simp] theorem Dev.reach_glb (d : Dev) (t : Q) : (d.reach t).glb = d.glb := (Only.reach d t).glb (by decide)
@[simp] theorem Dev.reach_hif (d : Dev) (t : Q) : (d.reach t).hif = d.hif := (Only.reach d t).hif (by decide)
@[simp] theorem Dev.reach_bel (d : Dev) (t : Q) : (d.reach t).bel = d.bel := (Only.reach d t).bel (by decide)
@[simp] theorem Dev.reach_tim (d : Dev) (t : Q) : (d.reach t).tim = d.tim := (Only.reach d t).tim (by decide)
@[simp] theorem Dev.reach_lne (d : Dev) (t : Q) : (d.reach t).lne = d.lne := (Only.reach d t).lne (by decide)
@[simp] theorem Dev.reach_mac (d : Dev) (t : Q) : (d.reach t).mac = d.mac := (Only.reach d t).mac (by decide)
@[simp] theorem Dev.reach_zbn (d : Dev) (t : Q) : (d.reach t).zbn = d.zbn := (Only.reach d t).zbn (by decide)
@[simp] theorem Dev.reach_ttb (d : Dev) (t : Q) : (d.reach t).ttb = d.ttb := (Only.reach d t).ttb (by decide)
@[simp] theorem Dev.reach_prs (d : Dev) (t : Q) : (d.reach t).prs = d.prs := (Only.reach d t).prs (by decide)
@[simp] theorem Dev.reach_fwd (d : Dev) (t : Q) : (d.reach t).fwd = d.fwd := (Only.reach d t).fwd (by decide)
@[simp] theorem Dev.reach_buf (d : Dev) (t : Q) : (d.reach t).buf = d.buf := (Only.reach d t).buf (by decide)
@[simp] theorem Dev.reach_sch (d : Dev) (t : Q) : (d.reach t).sch = d.sch := (Only.reach d t).sch (by decide)
@[simp] theorem Dev.reach_drc (d : Dev) (t : Q) : (d.reach t).drc = d.drc := (Only.reach d t).drc (by decide)
@[simp] theorem Dev.reach_gov (d : Dev) (t : Q) : (d.reach t).gov = d.gov := (Only.reach d t).gov (by decide)
@[simp] theorem Dev.reach_sub (d : Dev) (t : Q) : (d.reach t).sub = d.sub := (Only.reach d t).sub (by decide)
@[simp] theorem Dev.reach_bdy (d : Dev) (t : Q) : (d.reach t).bdy = d.bdy := (Only.reach d t).bdy (by decide)
@[simp] theorem Dev.reach_prc (d : Dev) (t : Q) : (d.reach t).prc = d.prc := (Only.reach d t).prc (by decide)
@[simp] theorem Dev.reach_pins (d : Dev) (t : Q) : (d.reach t).pins = d.pins := (Only.reach d t).pins (by decide)
@[simp] theorem Dev.reach_boot (d : Dev) (t : Q) : (d.reach t).boot = d.boot := (Only.reach d t).boot (by decide)

@[simp] theorem Dev.settle_now (d : Dev)  : (d.settle ).now = d.now := (Only.settle d).now (by decide)
@[simp] theorem Dev.settle_arrivals (d : Dev)  : (d.settle ).arrivals = d.arrivals := (Only.settle d).arrivals (by decide)
@[simp] theorem Dev.settle_free (d : Dev)  : (d.settle ).free = d.free := (Only.settle d).free (by decide)
@[simp] theorem Dev.settle_out (d : Dev)  : (d.settle ).out = d.out := (Only.settle d).out (by decide)
@[simp] theorem Dev.settle_glb (d : Dev)  : (d.settle ).glb = d.glb := (Only.settle d).glb (by decide)
@[simp] theorem Dev.settle_hif (d : Dev)  : (d.settle ).hif = d.hif := (Only.settle d).hif (by decide)
@[simp] theorem Dev.settle_bel (d : Dev)  : (d.settle ).bel = d.bel := (Only.settle d).bel (by decide)
@[simp] theorem Dev.settle_tim (d : Dev)  : (d.settle ).tim = d.tim := (Only.settle d).tim (by decide)
@[simp] theorem Dev.settle_lne (d : Dev)  : (d.settle ).lne = d.lne := (Only.settle d).lne (by decide)
@[simp] theorem Dev.settle_mac (d : Dev)  : (d.settle ).mac = d.mac := (Only.settle d).mac (by decide)
@[simp] theorem Dev.settle_zbn (d : Dev)  : (d.settle ).zbn = d.zbn := (Only.settle d).zbn (by decide)
@[simp] theorem Dev.settle_ttb (d : Dev)  : (d.settle ).ttb = d.ttb := (Only.settle d).ttb (by decide)
@[simp] theorem Dev.settle_prs (d : Dev)  : (d.settle ).prs = d.prs := (Only.settle d).prs (by decide)
@[simp] theorem Dev.settle_fwd (d : Dev)  : (d.settle ).fwd = d.fwd := (Only.settle d).fwd (by decide)
@[simp] theorem Dev.settle_buf (d : Dev)  : (d.settle ).buf = d.buf := (Only.settle d).buf (by decide)
@[simp] theorem Dev.settle_sch (d : Dev)  : (d.settle ).sch = d.sch := (Only.settle d).sch (by decide)
@[simp] theorem Dev.settle_drc (d : Dev)  : (d.settle ).drc = d.drc := (Only.settle d).drc (by decide)
@[simp] theorem Dev.settle_gov (d : Dev)  : (d.settle ).gov = d.gov := (Only.settle d).gov (by decide)
@[simp] theorem Dev.settle_sub (d : Dev)  : (d.settle ).sub = d.sub := (Only.settle d).sub (by decide)
@[simp] theorem Dev.settle_bdy (d : Dev)  : (d.settle ).bdy = d.bdy := (Only.settle d).bdy (by decide)
@[simp] theorem Dev.settle_prc (d : Dev)  : (d.settle ).prc = d.prc := (Only.settle d).prc (by decide)
@[simp] theorem Dev.settle_pins (d : Dev)  : (d.settle ).pins = d.pins := (Only.settle d).pins (by decide)
@[simp] theorem Dev.settle_boot (d : Dev)  : (d.settle ).boot = d.boot := (Only.settle d).boot (by decide)

end Sys2Proof
end

