-- ==== Sys2Proof/Laws/Commands.lean ====
section
/-! SUPPORT. The mechanics of commands: what a command row does when the module can take the command, and what the end of a command
leaves. -/

namespace Sys2Proof

open Sys2Proof.Machine

/-! ### Time changes nothing that the mechanics look at -/

@[simp] theorem Dev.ring_elapse (d : Dev) (dt g : Nat) : (d.elapse dt).ring g = d.ring g := by simp [Dev.ring]

@[simp] theorem Dev.inService_elapse (d : Dev) (dt : Nat) : (d.elapse dt).inService = d.inService := by simp [Dev.inService]

/-- A quiet module has nothing to decide. -/
theorem Dev.decideAll_quiet {d : Dev} (q : d.arrivals = []) : d.decideAll = d := by
  unfold Dev.decideAll; rw [q]; rfl

/-- Decisions leave nothing to decide. -/
@[simp] theorem Dev.decideAll_arrivals (d : Dev) : d.decideAll.arrivals = [] := by
  unfold Dev.decideAll
  split
  · next h => exact List.isEmpty_iff.1 h
  · rfl

/-- Decisions leave nothing to decide, out of service nothing but that. -/
theorem Dev.decideAll_down {d : Dev} (u : d.inService = false) : Only [.arr, .cnt] d d.decideAll := by
  unfold Dev.decideAll
  split
  · exact Only.refl _ d
  · have h : ∀ (as : List Arrival) (x : Dev), x.inService = false →
        x.each as (fun a d => d.when d.inService fun d => d.decideOne a) = x := by
      intro as
      induction as with
      | nil => intro x _; rfl
      | cons a as ih =>
        intro x u
        have : (x.when x.inService fun d => d.decideOne a) = x := by rw [u]; rfl
        change Dev.each (x.when x.inService fun d => d.decideOne a) as _ = x
        rw [this]; exact ih x u
    have c : ∀ x : Dev, Only [.arr] x { x with arrivals := [] } := by
      intro x a k; cases a <;> first | rfl | exact absurd (by decide) k
    rw [h _ { d with arrivals := [] } u]
    exact (((c d).mono (by decide)).trans ((Only.settle _).mono (by decide))).trans ((c _).mono (by decide))

/-- A quiet module's row has its effect after the time before it. -/
theorem act_quiet {s : State} (q : Quiet s) (dt : Nat) (f : Dev → Dev) :
    s.act dt f = .next { s with dev := (f (s.dev.elapse dt)).settle } := by
  unfold State.act Dev.run; rw [Dev.decideAll_quiet q]

/-- In service, a row's effect follows the time before it, and the monitors look again. -/
theorem actUp_up {s : State} (u : s.dev.inService = true) (q : Quiet s) (dt : Nat) (f : Dev → Dev) :
    s.actUp dt f = .next { s with dev := (f (s.dev.elapse dt)).settle } := by
  unfold State.actUp
  rw [act_quiet q, Dev.inService_elapse, u]
  rfl

/-- Out of service, only time passes, and what waited to be decided is lost. -/
theorem actUp_down {s : State} (u : s.dev.inService = false) (dt : Nat) (f : Dev → Dev) :
    s.actUp dt f = .next { s with dev := (s.dev.decideAll.elapse dt).settle } := by
  have v : s.dev.decideAll.inService = false := by
    have o := Dev.decideAll_down u
    unfold Dev.inService at *; rw [o.glb (by decide), o.boot (by decide)]; exact u
  unfold State.actUp State.act Dev.run
  dsimp only
  rw [Dev.inService_elapse, v]
  rfl

/-- A module that starts its cycle with an arrival holds it, and decides it as it stood then. -/
theorem arrive_quiet {s : State} (q : Quiet s) (dt : Nat) (a : Arrival) :
    s.arrive dt a = .next { s with dev := { (s.dev.elapse dt).settle with arrivals := [a] } } := by
  have h : (if s.dev.cycleEnds dt then s.dev.decideAll else s.dev) = s.dev := by rw [Dev.decideAll_quiet q, ite_self]
  unfold State.arrive Dev.arrived
  rw [h]
  simp only [Dev.settle_arrivals, Dev.elapse_arrivals, q, insertArrival]

/-! ### Fields of a completion entry -/

theorem bits_eq (x hi lo : Nat) : bits x hi lo = x / 2 ^ lo % 2 ^ (hi + 1 - lo) := by
  unfold bits; rw [Nat.shiftRight_eq_div_pow]

theorem fld_eq (v w lo : Nat) : fld v w lo = v % 2 ^ w * 2 ^ lo := by
  unfold fld; rw [Nat.shiftLeft_eq]

theorem b2n_le (b : Bool) : b2n b ≤ 1 := by cases b <;> decide
/-- The entry shows the opcode, tag, status and result of its completion (12 R417). -/
theorem Compl.fields (c : Compl) (bell p : Nat) :
    let w := c.bytes bell + p * 2 ^ 255
    bits w 15 0 = c.op % 2 ^ 16 ∧ bits w 27 16 = c.tag % 2 ^ 12 ∧ bits w 39 32 = c.status % 2 ^ 8 ∧ bits w 95 64 = c.result % 2 ^ 32 := by
  have hl := b2n_le c.ledger
  have h1 := Nat.mod_lt c.op (show 0 < 2 ^ 16 by decide)
  have h2 := Nat.mod_lt c.tag (show 0 < 2 ^ 12 by decide)
  have h3 := Nat.mod_lt c.kind (show 0 < 2 ^ 4 by decide)
  have h4 := Nat.mod_lt c.status (show 0 < 2 ^ 8 by decide)
  have h5 := Nat.mod_lt c.ring (show 0 < 2 ^ 7 by decide)
  have h6 := Nat.mod_lt c.module (show 0 < 2 ^ 1 by decide)
  have h7 := Nat.mod_lt c.result (show 0 < 2 ^ 32 by decide)
  have h8 := Nat.mod_lt c.cookie (show 0 < 2 ^ 32 by decide)
  have h9 := Nat.mod_lt c.value (show 0 < 2 ^ 64 by decide)
  have h10 := Nat.mod_lt c.index (show 0 < 2 ^ 16 by decide)
  dsimp only
  simp only [bits_eq, Compl.bytes, fld_eq]
  generalize c.op % 2 ^ 16 = x1 at *
  generalize c.tag % 2 ^ 12 = x2 at *
  generalize c.kind % 2 ^ 4 = x3 at *
  generalize c.status % 2 ^ 8 = x4 at *
  generalize c.ring % 2 ^ 7 = x5 at *
  generalize c.module % 2 ^ 1 = x6 at *
  generalize c.result % 2 ^ 32 = x7 at *
  generalize c.cookie % 2 ^ 32 = x8 at *
  generalize c.value % 2 ^ 64 = x9 at *
  generalize c.index % 2 ^ 16 = x10 at *
  generalize b2n c.ledger = x11 at *
  refine ⟨?_, ?_, ?_, ?_⟩ <;> omega

/-! ### Fetch and acceptance of one command -/

theorem Ring.n_pos (r : Ring) : 0 < r.n := Nat.mul_pos (by decide) (Nat.two_pow_pos _)

@[simp] theorem Dev.ring_ringM (d : Dev) (g h : Nat) (f : Ring → Ring) :
    (d.ringM g f).ring h = if h = g then f (d.ring g) else d.ring h := by
  simp [Dev.ringM, Dev.ring, AMap.getD_upd]

@[simp] theorem Dev.ring_count (d : Dev) (k n h : Nat) : (d.count k n).ring h = d.ring h := rfl

/-- What posting a command leaves of its ring. -/
theorem Dev.hostPosts_ring (d : Dev) (g h : Nat) (w : (d.ring g).waiting = 0) :
    (d.hostPosts g).ring h = if h = g then { d.ring g with
      hostIdx := ((d.ring g).hostIdx + 1) % (2 * (d.ring g).n), doorbell := ((d.ring g).hostIdx + 1) % (2 * (d.ring g).n) } else d.ring h := by
  simp [Dev.hostPosts, w]

theorem Only.hostPosts (d : Dev) (g : Nat) : Only [.hif, .cnt] d (d.hostPosts g) := by
  unfold Dev.hostPosts
  dsimp only
  split
  · exact ((Only.ringM d _ _).mono (by decide)).trans ((Only.count _ _ _).mono (by decide))
  · exact Only.refl _ _

@[simp] theorem Dev.hostPosts_inflight (d : Dev) (g : Nat) : (d.hostPosts g).hif.inflight = d.hif.inflight := by
  unfold Dev.hostPosts; dsimp only; split <;> rfl
@[simp] theorem Dev.hostPosts_tx (d : Dev) (g : Nat) : (d.hostPosts g).hif.tx = d.hif.tx := by
  unfold Dev.hostPosts; dsimp only; split <;> rfl
@[simp] theorem Dev.hostPosts_owed (d : Dev) (g : Nat) : (d.hostPosts g).hif.owed = d.hif.owed := by
  unfold Dev.hostPosts; dsimp only; split <;> rfl
@[simp] theorem Dev.hostPosts_prog (d : Dev) (g : Nat) : (d.hostPosts g).hif.prog = d.hif.prog := by
  unfold Dev.hostPosts; dsimp only; split <;> rfl
@[simp] theorem Dev.hostPosts_bdy (d : Dev) (g : Nat) : (d.hostPosts g).bdy = d.bdy := (Only.hostPosts d g).bdy (by decide)

/-- The bound completion ring of a ring and what it owes are the same after a post. -/
theorem Dev.hostPosts_bindRoom (d : Dev) (g : Nat) (hg : g < 32) (w : (d.ring g).waiting = 0) :
    (d.hostPosts g).bindRoom g = d.bindRoom g := by
  have lc : ∀ h, ((d.hostPosts g).ring h).lCring = (d.ring h).lCring := by
    intro h; rw [Dev.hostPosts_ring d g h w]; split <;> simp_all
  have far : ∀ k, (d.hostPosts g).ring (32 + k) = d.ring (32 + k) := by
    intro k; rw [Dev.hostPosts_ring d g _ w, if_neg (by omega)]
  have owed : ∀ k, (d.hostPosts g).finalsOwed k = d.finalsOwed k := by
    intro k; unfold Dev.finalsOwed; simp [lc]
  unfold Dev.bindRoom
  simp only [lc, far, owed]

/-- No command of a ring is in flight. -/
def Idle (d : Dev) (g : Nat) : Prop := ∀ c ∈ d.hif.inflight, c.mirrored = true ∨ c.e.ring ≠ g

theorem cmdAt_idle {d : Dev} {g : Nat} (h : Idle d g) (t : Nat) : d.cmdAt g t = none := by
  unfold Dev.cmdAt
  rw [List.find?_eq_none]
  intro c hc
  rcases h c hc with m | m <;> simp [m]

theorem fenced_idle {d : Dev} {g : Nat} (h : Idle d g) : d.fenced g = false := by
  unfold Dev.fenced
  rw [List.any_eq_false]
  intro c hc
  rcases h c hc with m | m <;> simp [m]

theorem foldl_le {α : Type} {f g : α → Nat} (h : ∀ x, f x ≤ g x) :
    ∀ (xs : List α) {m n : Nat}, m ≤ n → xs.foldl (fun k a => k + f a) m ≤ xs.foldl (fun k a => k + g a) n
  | [], _, _, q => q
  | a :: as, _, _, q => foldl_le h as (Nat.add_le_add q (h a))

theorem sumBy_zero {α : Type} {xs : List α} {f g : α → Nat} (h : ∀ x, f x ≤ g x) (z : sumBy xs g = 0) : sumBy xs f = 0 := by
  have := foldl_le h xs (Nat.le_refl 0)
  unfold sumBy at z ⊢
  omega

/-- No completion of a wider kind waits, so none of a narrower one does. -/
theorem Dev.unwritten_mono {d : Dev} {p q : Compl → Bool} (h : ∀ x, p x = true → q x = true) (z : d.unwritten q = 0) : d.unwritten p = 0 := by
  have le : ∀ x, b2n (p x) ≤ b2n (q x) := by
    intro x
    cases hp : p x
    · exact Nat.zero_le _
    · exact Nat.le_of_eq (by rw [h x hp])
  unfold Dev.unwritten at z ⊢
  rw [Nat.add_eq_zero_iff] at z ⊢
  refine ⟨sumBy_zero (fun x => le x.2) z.1, sumBy_zero (fun o => ?_) z.2⟩
  cases o with
  | completion => exact le _
  | fetch => exact Nat.le_refl _

/-- Steps 1 and 2 of a command whose ring is RUNNING and has nothing in flight. -/
theorem fetchCmd_idle {d : Dev} {sp : CmdSpec} {e : CmdEntry} (r : (d.ring e.ring).state = .running) (h : Idle d e.ring)
    (u : d.unwritten (fun x => x.kind == 0 && x.ring == e.ring) = 0) :
    d.fetchCmd true sp.op e = ((d.ringM e.ring fun r => { r with devIdx := (r.devIdx + 1) % (2 * r.n) }).count (cRing e.ring 2) 1).hifM fun x =>
      { x with inflight := x.inflight ++ [fetchedCmd d sp e] } := by
  let d' := (d.ringM e.ring fun r => { r with devIdx := (r.devIdx + 1) % (2 * r.n) }).count (cRing e.ring 2) 1
  have n : d'.cmdAt e.ring e.tag = none := cmdAt_idle (d := d') h e.tag
  have u' : d'.unwritten (fun x => x.kind == 0 && x.ring == e.ring && x.tag == e.tag) = 0 :=
    Dev.unwritten_mono (d := d') (q := fun x => x.kind == 0 && x.ring == e.ring)
      (fun x h => by simp only [Bool.and_eq_true] at h ⊢; exact h.1) u
  have k : ((d'.cmdAt e.ring e.tag).isSome || d'.unwritten (fun x => x.kind == 0 && x.ring == e.ring && x.tag == e.tag) != 0) = false := by
    rw [n, u']; rfl
  unfold Dev.fetchCmd
  dsimp only
  rw [if_neg (by rw [r]; decide), if_neg (by decide), if_neg (by rw [k]; decide)]
  rfl

theorem turn_fetched (d : Dev) (c : Cmd) (h : Idle d c.e.ring) (m : c.mirrored = false) (st : c.stage = .fetched)
    (u : d.unwritten (fun x => x.kind == 0 && x.ring == c.e.ring) = 0) :
    (d.hifM fun x => { x with inflight := x.inflight ++ [c] }).turn c.e.ring = some c := by
  have f : d.hif.inflight.filter (fun x => !x.mirrored && x.e.ring == c.e.ring) = [] := by
    rw [List.filter_eq_nil_iff]
    intro x hx
    rcases h x hx with q | q <;> simp [q]
  have g : (d.hif.inflight ++ [c]).filter (fun x => !x.mirrored && x.e.ring == c.e.ring) = [c] := by
    rw [List.filter_append, f]; simp [m]
  have u' : (d.hifM fun x => { x with inflight := x.inflight ++ [c] }).unwritten (fun x => x.kind == 0 && x.ring == c.e.ring) = 0 := u
  simp only [Dev.turn, Dev.hifM_hif, g, List.find?, st, List.head?, u']
  simp [Cmd.same]

/-- Steps 3 to 9 when every check passes: the command is taken up. -/
theorem acceptCmd_passes {d : Dev} {sp : CmdSpec} {c : Cmd} (u : (d.ring c.e.ring).user = false ∨ sp.user = true)
    (o : sp.officer = false) (p : d.checks sp c.e = none) (w : sp.kind c = .long → d.freeProg ≠ none) (m : c.e.readFail = false)
    (b : d.bdy.state ≠ .paired ∧ d.bdy.state ≠ .syncing ∧ d.pairRefuses sp = false) : d.acceptCmd sp c = d.takeUp sp c := by
  have u' : ((d.ring c.e.ring).user && !sp.user) = false := by rcases u with u | u <;> simp [u]
  have w' : (sp.kind c == .long && d.freeProg.isNone) = false := by
    by_cases k : sp.kind c = .long
    · have := w k
      cases hf : d.freeProg with
      | none => exact absurd hf this
      | some _ => simp
    · simp [k]
  have s1 : (d.bdy.state == .paired) = false := by simpa using b.1
  have s2 : (d.bdy.state == .syncing) = false := by simpa using b.2.1
  simp [Dev.acceptCmd, Dev.stepsFour, Dev.stepNine, u', o, p, w', m, b.2.2, s1, s2]

@[simp] theorem Dev.ring_inflight (d : Dev) (f : Hif → List Cmd) (g : Nat) : (d.hifM fun x => { x with inflight := f x }).ring g = d.ring g := rfl

/-- What the device holds once it has fetched a command from a ring that had nothing waiting or in flight. -/
structure Fetches (d : Dev) (e : CmdEntry) : Prop where
  ring : e.ring < 32
  running : (d.ring e.ring).state = .running
  still : (d.ring e.ring).fetchEnded = false
  empty : (d.ring e.ring).waiting = 0
  room : d.bindRoom e.ring = true
  few : d.inflightCount < 4096
  fresh : d.unwritten (fun x => x.kind == 0 && x.ring == e.ring) = 0
  idle : Idle d e.ring

theorem Fetches.posted {d : Dev} {e : CmdEntry} (h : Fetches d e) (k : Nat) :
    (d.hostPosts e.ring).ring k = if k = e.ring then { d.ring e.ring with
      hostIdx := ((d.ring e.ring).hostIdx + 1) % (2 * (d.ring e.ring).n)
      doorbell := ((d.ring e.ring).hostIdx + 1) % (2 * (d.ring e.ring).n) } else d.ring k :=
  Dev.hostPosts_ring d e.ring k h.empty

theorem Fetches.idle' {d : Dev} {e : CmdEntry} (h : Fetches d e) : Idle (d.hostPosts e.ring) e.ring := by
  intro c hc
  rw [Dev.hostPosts_inflight] at hc
  exact h.idle c hc

theorem Fetches.fresh' {d : Dev} {e : CmdEntry} (h : Fetches d e) :
    (d.hostPosts e.ring).unwritten (fun x => x.kind == 0 && x.ring == e.ring) = 0 := by
  have f := h.fresh
  unfold Dev.unwritten at f ⊢
  rw [Dev.hostPosts_owed, Dev.hostPosts_bdy]; exact f

theorem Fetches.running' {d : Dev} {e : CmdEntry} (h : Fetches d e) : ((d.hostPosts e.ring).ring e.ring).state = .running := by
  rw [h.posted, if_pos rfl]; exact h.running

theorem Fetches.cmd {d : Dev} {e : CmdEntry} (h : Fetches d e) (sp : CmdSpec) : fetchedCmd (d.hostPosts e.ring) sp e = fetchedCmd d sp e := by
  unfold fetchedCmd
  rw [h.posted, if_pos rfl]
  rfl

theorem Fetches.may {d : Dev} {e : CmdEntry} (h : Fetches d e) : (d.hostPosts e.ring).mayFetch e.ring = true := by
  have st : ((d.hostPosts e.ring).ring e.ring).fetchEnded = false := by rw [h.posted, if_pos rfl]; exact h.still
  have few : (d.hostPosts e.ring).inflightCount < 4096 := by
    have := h.few
    unfold Dev.inflightCount Dev.unwritten at this ⊢
    rw [Dev.hostPosts_inflight, Dev.hostPosts_owed, Dev.hostPosts_bdy]; exact this
  have room := Dev.hostPosts_bindRoom d e.ring h.ring h.empty
  unfold Dev.mayFetch
  simp [h.running', st, room, h.room, fenced_idle h.idle', few, h.ring]

theorem Fetches.fetched {d : Dev} {e : CmdEntry} (h : Fetches d e) (sp : CmdSpec) :
    Dev.fetched d sp e = (((d.hostPosts e.ring).ringM e.ring fun r => { r with devIdx := (r.devIdx + 1) % (2 * r.n) }).count (cRing e.ring 2) 1).hifM
      fun x => { x with inflight := x.inflight ++ [fetchedCmd d sp e] } := by
  unfold Dev.fetched
  rw [fetchCmd_idle h.running' h.idle' h.fresh', h.cmd]

theorem Fetches.turn {d : Dev} {e : CmdEntry} (h : Fetches d e) (sp : CmdSpec) :
    (Dev.fetched d sp e).turn e.ring = some (fetchedCmd d sp e) := by
  rw [h.fetched]
  exact turn_fetched (((d.hostPosts e.ring).ringM e.ring _).count _ _) (fetchedCmd d sp e) h.idle' rfl rfl h.fresh'

/-- Every ring once a command has been fetched: its own ring has moved on by one entry. -/
theorem Fetches.rings {d : Dev} {e : CmdEntry} (h : Fetches d e) (sp : CmdSpec) (k : Nat) :
    (Dev.fetched d sp e).ring k = if k = e.ring then { d.ring e.ring with
      hostIdx := ((d.ring e.ring).hostIdx + 1) % (2 * (d.ring e.ring).n)
      doorbell := ((d.ring e.ring).hostIdx + 1) % (2 * (d.ring e.ring).n)
      devIdx := ((d.ring e.ring).devIdx + 1) % (2 * (d.ring e.ring).n) } else d.ring k := by
  rw [h.fetched, Dev.ring_inflight, Dev.ring_count, Dev.ring_ringM, h.posted, h.posted, if_pos rfl]
  split <;> rfl

theorem Fetches.inflight {d : Dev} {e : CmdEntry} (h : Fetches d e) (sp : CmdSpec) :
    (Dev.fetched d sp e).hif.inflight = d.hif.inflight ++ [fetchedCmd d sp e] := by
  rw [h.fetched, Dev.hifM_hif]
  change (d.hostPosts e.ring).hif.inflight ++ _ = _
  rw [Dev.hostPosts_inflight]

theorem Fetches.only {d : Dev} {e : CmdEntry} (h : Fetches d e) (sp : CmdSpec) : Only [.hif, .cnt] d (Dev.fetched d sp e) := by
  rw [h.fetched]
  exact (((Only.hostPosts d e.ring).trans ((Only.ringM _ _ _).mono (by decide))).trans ((Only.count _ _ _).mono (by decide))).trans
    ((Only.hifM _ _).mono (by decide))

theorem Fetches.prog {d : Dev} {e : CmdEntry} (h : Fetches d e) (sp : CmdSpec) : (Dev.fetched d sp e).hif.prog = d.hif.prog := by
  rw [h.fetched, Dev.hifM_hif]
  exact Dev.hostPosts_prog d e.ring

theorem Fetches.owed {d : Dev} {e : CmdEntry} (h : Fetches d e) (sp : CmdSpec) : (Dev.fetched d sp e).hif.owed = d.hif.owed := by
  rw [h.fetched, Dev.hifM_hif]
  exact Dev.hostPosts_owed d e.ring

theorem Ready.fetches {s : State} {dt : Nat} {sp : CmdSpec} {e : CmdEntry} (h : Ready s dt sp e) : Fetches (s.dev.elapse dt) e where
  ring := h.ring
  running := by rw [Dev.ring_elapse]; exact h.running
  still := by rw [Dev.ring_elapse]; exact h.still
  empty := by rw [Dev.ring_elapse]; exact h.empty
  room := by
    have := h.room
    unfold Dev.bindRoom Dev.finalsOwed at this ⊢
    simp only [Dev.ring_elapse, Dev.elapse_hif, Dev.elapse_bdy]; exact this
  few := by
    have := h.few
    unfold Dev.inflightCount Dev.unwritten at this ⊢
    rw [Dev.elapse_hif, Dev.elapse_bdy]; exact this
  fresh := by
    have := h.fresh
    unfold Dev.unwritten at this ⊢
    rw [Dev.elapse_hif, Dev.elapse_bdy]; exact this
  idle := by
    intro c hc
    rw [Dev.elapse_hif] at hc
    exact h.alone c hc

theorem fetchedCmd_elapse (d : Dev) (dt : Nat) (sp : CmdSpec) (e : CmdEntry) : fetchedCmd (d.elapse dt) sp e = fetchedCmd d sp e := by
  unfold fetchedCmd; rw [Dev.ring_elapse]

/-- A command that the module can take is posted, fetched and taken up in its row. -/
theorem submit_ready {s : State} {dt : Nat} {sp : CmdSpec} {e : CmdEntry} (h : Ready s dt sp e) :
    (s.dev.elapse dt).submit sp e = (Dev.fetched (s.dev.elapse dt) sp e).takeUp sp (fetchedCmd s.dev sp e) := by
  have f := h.fetches
  have b : (Dev.fetched (s.dev.elapse dt) sp e).bdy = s.dev.bdy := ((f.only sp).bdy (by decide)).trans (Dev.elapse_bdy _ _)
  have acc : (Dev.fetched (s.dev.elapse dt) sp e).acceptCmd sp (fetchedCmd s.dev sp e) =
      (Dev.fetched (s.dev.elapse dt) sp e).takeUp sp (fetchedCmd s.dev sp e) := by
    refine acceptCmd_passes ?_ h.officer h.pass ?_ h.mem ?_
    · rw [show (fetchedCmd s.dev sp e).e = e from rfl, f.rings sp, if_pos rfl, Dev.ring_elapse]
      exact h.user
    · intro k
      have := h.window k
      unfold Dev.freeProg at this ⊢
      rw [f.prog, Dev.elapse_hif]; exact this
    · have := h.pair
      unfold Dev.pairRefuses at this ⊢
      rw [b]; exact this
  have t := f.turn sp
  rw [fetchedCmd_elapse] at t
  have g32 : ¬ (32 ≤ e.ring) := by have := h.ring; omega
  have st : (((s.dev.elapse dt).ring e.ring).state != .running) = false := by rw [f.running]; rfl
  have fe : ((s.dev.elapse dt).hostPosts e.ring).fetchCmd true sp.op e = Dev.fetched (s.dev.elapse dt) sp e := rfl
  unfold Dev.submit
  simp only [g32, st, f.may, fe, t, acc]
  simp [fetchedCmd]

/-- The meaning of a command row on a command that the module can take. -/
theorem actUp_ready {s : State} {dt : Nat} {sp : CmdSpec} {e : CmdEntry} (h : Ready s dt sp e) :
    s.actUp dt (fun d => d.submit sp e) =
      .next { s with dev := ((Dev.fetched (s.dev.elapse dt) sp e).takeUp sp (fetchedCmd s.dev sp e)).settle } := by
  rw [actUp_up h.up h.quiet, submit_ready h]

/-! ### Taking a command up -/

/-- A command record as it stands once taken up: its stage by its kind, its place in the order of acceptance, and the
progress entry that a long operation gets (12 R416, R420). -/
def takenCmd (d : Dev) (sp : CmdSpec) (c : Cmd) : Cmd :=
  { c with
    stage := match sp.kind c with
      | .commit => .accepted d.bel.seq
      | .long => .long
      | _ => .waiting
    order := d.hif.accepted
    since := d.now
    prog := d.freeProg.getD 0 }

/-- The module as it stands before the command's own effect on acceptance. -/
def takenDev (d : Dev) (sp : CmdSpec) (c : Cmd) : Dev :=
  ((d.cmdM c fun _ => takenCmd d sp c).hifM fun h => { h with
    accepted := h.accepted + 1
    prog := if (takenCmd d sp c).stage == .long && !c.mirrored then AMap.set h.prog (d.freeProg.getD 0) (c.e.tag, c.e.ring, 0, 0) else h.prog }).glbM
      fun g => { g with phase := if g.phase = 5 then 6 else g.phase }

theorem takeUp_eq (d : Dev) (sp : CmdSpec) (c : Cmd) : d.takeUp sp c = sp.accept (takenCmd d sp c) (takenDev d sp c) := rfl

theorem takenDev_now (d : Dev) (sp : CmdSpec) (c : Cmd) : (takenDev d sp c).now = d.now := rfl
theorem takenDev_glb (d : Dev) (sp : CmdSpec) (c : Cmd) :
    (takenDev d sp c).glb = { d.glb with phase := if d.glb.phase = 5 then 6 else d.glb.phase } := rfl
theorem takenDev_ring (d : Dev) (sp : CmdSpec) (c : Cmd) (k : Nat) : (takenDev d sp c).ring k = d.ring k := rfl
theorem takenDev_owed (d : Dev) (sp : CmdSpec) (c : Cmd) : (takenDev d sp c).hif.owed = d.hif.owed := rfl
theorem takenDev_inflight (d : Dev) (sp : CmdSpec) (c : Cmd) :
    (takenDev d sp c).hif.inflight = d.hif.inflight.map fun x => if x.same c then takenCmd d sp c else x := rfl
theorem Only.takenDev (d : Dev) (sp : CmdSpec) (c : Cmd) : Only [.hif, .glb] d (takenDev d sp c) := by
  intro x k; cases x <;> first | rfl | exact absurd (by decide) k

/-- Replacing the one command of an idle ring. -/
theorem map_idle {d : Dev} {c c' : Cmd} (h : Idle d c.e.ring) (m : c.mirrored = false) :
    (d.hif.inflight ++ [c]).map (fun x => if x.same c then c' else x) = d.hif.inflight ++ [c'] := by
  rw [List.map_append]
  congr 1
  · conv => rhs; rw [← List.map_id d.hif.inflight]
    refine List.map_congr_left fun x hx => ?_
    have : x.same c = false := by
      unfold Cmd.same
      rcases h x hx with q | q
      · simp [q, m]
      · simp [q]
    simp [this]
  · simp [Cmd.same]

variable {s : State} {dt : Nat} {sp : CmdSpec} {e : CmdEntry}

/-- The record of a command that has been taken up in its row. -/
def recordOf (s : State) (dt : Nat) (sp : CmdSpec) (e : CmdEntry) : Cmd := takenCmd (s.dev.elapse dt) sp (fetchedCmd s.dev sp e)

/-- The module when it has taken the command up, before the command's own effect. -/
def tookUp (s : State) (dt : Nat) (sp : CmdSpec) (e : CmdEntry) : Dev :=
  takenDev (Dev.fetched (s.dev.elapse dt) sp e) sp (fetchedCmd s.dev sp e)

theorem Ready.record (h : Ready s dt sp e) :
    takenCmd (Dev.fetched (s.dev.elapse dt) sp e) sp (fetchedCmd s.dev sp e) = recordOf s dt sp e := by
  have f := h.fetches
  have a : (Dev.fetched (s.dev.elapse dt) sp e).hif.accepted = (s.dev.elapse dt).hif.accepted := by
    rw [f.fetched, Dev.hifM_hif]
    change ((s.dev.elapse dt).hostPosts e.ring).hif.accepted = _
    have : ((s.dev.elapse dt).hostPosts e.ring).hif.accepted = (s.dev.elapse dt).hif.accepted := by
      unfold Dev.hostPosts; dsimp only; split <;> rfl
    rw [this]
  have b : (Dev.fetched (s.dev.elapse dt) sp e).bel = (s.dev.elapse dt).bel := (f.only sp).bel (by decide)
  have n : (Dev.fetched (s.dev.elapse dt) sp e).now = (s.dev.elapse dt).now := (f.only sp).now (by decide)
  have p : (Dev.fetched (s.dev.elapse dt) sp e).freeProg = (s.dev.elapse dt).freeProg := by
    unfold Dev.freeProg; rw [f.prog]
  unfold recordOf takenCmd
  rw [a, b, n, p]

/-- A command row on a command that the module can take: the command's effect on acceptance. -/
theorem exec_ready (h : Ready s dt sp e) :
    s.actUp dt (fun d => d.submit sp e) = .next { s with dev := (sp.accept (recordOf s dt sp e) (tookUp s dt sp e)).settle } := by
  rw [actUp_ready h, takeUp_eq, h.record]
  rfl

theorem Ready.inflight (h : Ready s dt sp e) : (tookUp s dt sp e).hif.inflight = s.dev.hif.inflight ++ [recordOf s dt sp e] := by
  have f := h.fetches
  have r := h.record
  unfold tookUp
  rw [takenDev_inflight, r, f.inflight, fetchedCmd_elapse, Dev.elapse_hif]
  exact map_idle h.alone rfl

theorem Ready.tookOnly (h : Ready s dt sp e) : Only [.time, .hif, .cnt, .glb] s.dev (tookUp s dt sp e) := by
  have f := h.fetches
  refine ((Only.elapse s.dev dt).mono (by decide)).trans (((f.only sp).mono (by decide)).trans ?_)
  exact (Only.takenDev _ _ _).mono (by decide)

theorem Ready.tookNow (h : Ready s dt sp e) : (tookUp s dt sp e).now = s.dev.now + dt := by
  have f := h.fetches
  unfold tookUp
  rw [takenDev_now, (f.only sp).now (by decide), Dev.elapse_now]

theorem Ready.tookGlb (h : Ready s dt sp e) : (tookUp s dt sp e).glb = { s.dev.glb with phase := 6 } := by
  have f := h.fetches
  have g : (Dev.fetched (s.dev.elapse dt) sp e).glb = s.dev.glb := ((f.only sp).glb (by decide)).trans (Dev.elapse_glb _ _)
  have u := h.up
  simp only [Dev.inService, Bool.and_eq_true, Bool.or_eq_true, beq_iff_eq] at u
  unfold tookUp
  rw [takenDev_glb, g]
  rcases u.1 with k | k <;> simp [k]

theorem Ready.tookRing (h : Ready s dt sp e) (k : Nat) (ne : k ≠ e.ring) : (tookUp s dt sp e).ring k = s.dev.ring k := by
  have f := h.fetches
  unfold tookUp
  rw [takenDev_ring, f.rings sp, if_neg ne, Dev.ring_elapse]

/-- Its own command ring has moved on by one entry. -/
theorem Ready.tookOwn (h : Ready s dt sp e) :
    ((tookUp s dt sp e).ring e.ring).devIdx = ((s.dev.ring e.ring).devIdx + 1) % (2 * (s.dev.ring e.ring).n) := by
  have f := h.fetches
  unfold tookUp
  rw [takenDev_ring, f.rings sp, if_pos rfl]
  simp only [Dev.ring_elapse]

theorem Ready.tookOwed (h : Ready s dt sp e) : (tookUp s dt sp e).hif.owed = s.dev.hif.owed := by
  have f := h.fetches
  unfold tookUp
  rw [takenDev_owed, f.owed, Dev.elapse_hif]

/-- A commit waits for its bell, and nothing but the host's area, the time and the phase has changed. -/
theorem Ready.commit (h : Ready s dt sp e) (k : ∀ c, sp.kind c = .commit) (a : ∀ c d, sp.accept c d = d) :
    ∃ t, s.actUp dt (fun d => d.submit sp e) = .next t ∧ t.pending = s.pending ∧ WaitsSince t.dev e sp.op s.dev.bel.seq ∧
      t.dev.glb = { s.dev.glb with phase := 6 } ∧ t.dev.now = s.dev.now + dt ∧ Only [.time, .hif, .cnt, .glb] s.dev t.dev := by
  refine ⟨_, exec_ready h, rfl, ?_, ?_, ?_, ?_⟩
  · rw [a]
    refine ⟨recordOf s dt sp e, ?_, rfl, rfl, rfl, ?_⟩
    · rw [Dev.settle_hif, h.inflight]; simp
    · change (match sp.kind (fetchedCmd s.dev sp e) with | .commit => CmdStage.accepted (s.dev.elapse dt).bel.seq | .long => .long | _ => .waiting) = _
      rw [k, Dev.elapse_bel]
  · rw [a, Dev.settle_glb]; exact h.tookGlb
  · rw [a, Dev.settle_now]; exact h.tookNow
  · rw [a]; exact h.tookOnly.trans ((Only.settle _).mono (by decide))

/-! ### The end of a command -/

/-- The commands in flight, what is owed and every ring but the event rings are the same: what events never touch. -/
structure HostKept (d e : Dev) : Prop where
  inflight : e.hif.inflight = d.hif.inflight
  owed : e.hif.owed = d.hif.owed
  prog : e.hif.prog = d.hif.prog
  rings : ∀ g, g < 192 → e.ring g = d.ring g

theorem HostKept.refl (d : Dev) : HostKept d d := ⟨rfl, rfl, rfl, fun _ _ => rfl⟩

theorem HostKept.trans {d e f : Dev} (h : HostKept d e) (k : HostKept e f) : HostKept d f :=
  ⟨k.inflight.trans h.inflight, k.owed.trans h.owed, k.prog.trans h.prog, fun g lt => (k.rings g lt).trans (h.rings g lt)⟩

theorem HostKept.of_hif {d e : Dev} (h : e.hif = d.hif) : HostKept d e :=
  ⟨by rw [h], by rw [h], by rw [h], fun g _ => by unfold Dev.ring; rw [h]⟩

theorem HostKept.each {α : Type} (xs : List α) {f : α → Dev → Dev} (h : ∀ a d, HostKept d (f a d)) (d : Dev) :
    HostKept d (d.each xs f) := by
  induction xs generalizing d with
  | nil => exact HostKept.refl d
  | cons x r ih => exact (h x d).trans (ih (f x d))

theorem HostKept.when (c : Bool) {d : Dev} {f : Dev → Dev} (h : HostKept d (f d)) : HostKept d (d.when c f) := by
  cases c
  · exact HostKept.refl d
  · exact h

theorem HostKept.ringM (d : Dev) {g : Nat} (lt : 192 ≤ g) (f : Ring → Ring) : HostKept d (d.ringM g f) :=
  ⟨rfl, rfl, rfl, fun k kl => by rw [Dev.ring_ringM, if_neg (by omega)]⟩

theorem HostKept.writeEntry (d : Dev) {g : Nat} (lt : 192 ≤ g) (b : Nat) : HostKept d (d.writeEntry g b) := by
  refine HostKept.trans (e := (d.emit (.entry g ((d.ring g).devIdx % (d.ring g).n) (b + b2n ((d.ring g).devIdx < (d.ring g).n) * 2 ^ 255))))
    (HostKept.of_hif rfl) ?_
  exact (HostKept.ringM _ lt _).trans (HostKept.of_hif rfl)

theorem HostKept.occur (d : Dev) (ev : Nat) (items : List Item) : HostKept d (d.occur ev items) :=
  HostKept.of_hif ((Only.occur d ev items).hif (by decide))

theorem HostKept.writeLost (d : Dev) (k : Nat) : HostKept d (d.writeLost k) :=
  ((HostKept.occur d _ _).trans (HostKept.writeEntry _ (by omega) _)).trans (HostKept.ringM _ (by omega) _)

theorem HostKept.writeEvent (d : Dev) (k b : Nat) : HostKept d (d.writeEvent k b) := by
  have h := HostKept.when (f := fun d => d.writeLost k) ((d.ring (192 + k)).lost != 0 && (d.ring (192 + k)).room) (HostKept.writeLost d k)
  unfold Dev.writeEvent
  refine h.trans ?_
  dsimp only
  split
  · exact HostKept.writeEntry _ (by omega) _
  · exact (HostKept.ringM _ (by omega) _).trans (HostKept.of_hif rfl)

theorem HostKept.postAs (d : Dev) (ev : Nat) (items : List Item) (m b : Nat) : HostKept d (d.postAs ev items m b) := by
  unfold Dev.postAs
  refine (HostKept.occur d ev items).trans ?_
  dsimp only
  split
  · exact HostKept.of_hif rfl
  · exact HostKept.each _ (fun _ d => HostKept.writeEvent d _ _) _

/-- An event leaves the commands, what is owed and the rings below the event rings. -/
theorem HostKept.post (d : Dev) (ev : Nat) (items : List Item) : HostKept d (d.post ev items) := HostKept.postAs d ev items _ _

theorem cmdAt_unflight (d : Dev) (c : Cmd) (m : c.mirrored = false) : (d.unflight c).cmdAt c.e.ring c.e.tag = none := by
  unfold Dev.cmdAt Dev.unflight
  rw [List.find?_eq_none]
  intro x hx
  simp only [Dev.hifM_hif, m, List.mem_map, List.mem_filter, Bool.false_eq_true, if_false] at hx
  obtain ⟨y, ⟨_, ny⟩, rfl⟩ := hx
  unfold Cmd.same at ny
  rw [m] at ny
  cases hm : y.mirrored
  · simp only [hm, beq_self_eq_true, Bool.true_and, Bool.not_eq_true'] at ny
    simpa [hm] using ny
  · simp

theorem deliver_written {d : Dev} {k : Nat} (lt : k < 32) (run : (d.ring (32 + k)).state = .running) (room : (d.ring (32 + k)).room = true)
    (none' : ∀ p ∈ d.hif.owed, p.1 ≠ k) (c : Compl) : d.deliver k c = d.writeEntry (32 + k) (c.bytes d.bell24) := by
  have a : (d.hif.owed.any fun p => p.1 == k) = false := by
    rw [List.any_eq_false]
    intro p hp
    simpa using none' p hp
  have o : (decide (32 ≤ k) || (d.ring (32 + k)).state == .off) = false := by
    rw [run]; simp; omega
  unfold Dev.deliver
  dsimp only
  rw [o, a, room]
  rfl

/-- The device as it stands when a command has left flight and its end is to be told. -/
def leaving (d : Dev) (c : Cmd) (st : Nat) : Dev :=
  ((d.unflight c).when (st == stOk) fun d => d.noteLocal c).when (st == stAborted) fun d => d.count (cRing c.e.ring 3) 1

theorem noteLocal_eq (d : Dev) (c : Cmd) : ∃ l, d.noteLocal c = d.hifM fun h => { h with applied := l } := by
  unfold Dev.noteLocal; split
  · exact ⟨_, rfl⟩
  · exact ⟨d.hif.applied, rfl⟩

theorem leaving_eq (d : Dev) (c : Cmd) (st : Nat) : ∃ l, leaving d c st =
    ((d.unflight c).hifM fun h => { h with applied := l }).when (st == stAborted) fun d => d.count (cRing c.e.ring 3) 1 := by
  obtain ⟨l, e⟩ := noteLocal_eq (d.unflight c) c
  unfold leaving
  cases st == stOk
  · exact ⟨d.hif.applied, rfl⟩
  · exact ⟨l, by rw [← e]; rfl⟩

theorem leaving_ring (d : Dev) (c : Cmd) (st g : Nat) : (leaving d c st).ring g = d.ring g := by
  obtain ⟨l, e⟩ := leaving_eq d c st
  rw [e]; unfold Dev.when; split <;> rfl
theorem leaving_owed (d : Dev) (c : Cmd) (st : Nat) : (leaving d c st).hif.owed = d.hif.owed := by
  obtain ⟨l, e⟩ := leaving_eq d c st
  rw [e]; unfold Dev.when; split <;> rfl
theorem leaving_bdy (d : Dev) (c : Cmd) (st : Nat) : (leaving d c st).bdy = d.bdy := by
  obtain ⟨l, e⟩ := leaving_eq d c st
  rw [e]; unfold Dev.when; split <;> rfl
theorem leaving_cmdAt (d : Dev) (c : Cmd) (st : Nat) (m : c.mirrored = false) : (leaving d c st).cmdAt c.e.ring c.e.tag = none := by
  obtain ⟨l, e⟩ := leaving_eq d c st
  have := cmdAt_unflight d c m
  rw [e]; unfold Dev.when; split <;> exact this

theorem finish_written {d : Dev} {c : Cmd} {k st r : Nat} (m : c.mirrored = false) (b : d.bdy.state ≠ .paired) (ck : c.cring = k) (lt : k < 32)
    (run : (d.ring (32 + k)).state = .running) (room : (d.ring (32 + k)).room = true) (none' : ∀ p ∈ d.hif.owed, p.1 ≠ k) :
    d.finish c st r = (leaving d c st).writeEntry (32 + k) (({ c.completion st r with module := (leaving d c st).module } : Compl).bytes (leaving d c st).bell24) := by
  have p : ((leaving d c st).bdy.state == .paired) = false := by rw [leaving_bdy]; simpa using b
  unfold Dev.finish
  dsimp only
  rw [m]
  change (leaving d c st).complete c.cring (c.completion st r) = _
  unfold Dev.complete
  dsimp only
  rw [p, ck]
  exact deliver_written lt (by rw [leaving_ring]; exact run) (by rw [leaving_ring]; exact room) (by rw [leaving_owed]; exact none') _

theorem writeEntry_out (d : Dev) (g b : Nat) :
    (d.writeEntry g b).out = Out.entry g ((d.ring g).devIdx % (d.ring g).n) (b + b2n ((d.ring g).devIdx < (d.ring g).n) * 2 ^ 255) :: d.out := rfl

theorem writeEntry_cmdAt (d : Dev) (g b r t : Nat) : (d.writeEntry g b).cmdAt r t = d.cmdAt r t := rfl

theorem settle_cmdAt (d : Dev) (r t : Nat) : d.settle.cmdAt r t = d.cmdAt r t := by
  unfold Dev.cmdAt; rw [Dev.settle_hif]

/-- Outside PAIRED, a command of this module ends with its completion entry in the completion ring that its ring is bound to. -/
theorem Ready.finish (h : Ready s dt sp e) (ct : CanTell s e.ring) {d : Dev} (k : HostKept (tookUp s dt sp e) d)
    (b : d.bdy.state = s.dev.bdy.state) {c : Cmd} (ce : c.e = e) (co : c.op = sp.op) (cr : c.cring = (s.dev.ring e.ring).lCring)
    (cm : c.mirrored = false) (cs : c.stage ≠ .long) (st r : Nat) : Completed s (d.finish c st r).settle e sp.op st r := by
  obtain ⟨lt, run, room, owed⟩ := ct
  have ring : d.ring (32 + (s.dev.ring e.ring).lCring) = s.dev.ring (32 + (s.dev.ring e.ring).lCring) := by
    rw [k.rings _ (by omega), h.tookRing _ (by have := h.ring; omega)]
  have none' : ∀ p ∈ d.hif.owed, p.1 ≠ (s.dev.ring e.ring).lCring := by
    rw [k.owed, h.tookOwed]; exact owed
  have fin := finish_written (d := d) (c := c) (st := st) (r := r) cm (by rw [b]; exact h.pair.1) cr lt (by rw [ring]; exact run) (by rw [ring]; exact room) none'
  have q : (c.stage == .long) = false := by simpa using cs
  have fields := Compl.fields { c.completion st r with module := (leaving d c st).module } (leaving d c st).bell24
    (b2n (((leaving d c st).ring (32 + (s.dev.ring e.ring).lCring)).devIdx < ((leaving d c st).ring (32 + (s.dev.ring e.ring).lCring)).n))
  rw [fin]
  constructor
  · rw [Dev.settle_out, writeEntry_out]
    refine ⟨_, _, List.mem_cons_self, ?_⟩
    have a : (c.completion st r).op = sp.op := co
    have t : (c.completion st r).tag = e.tag := by rw [← ce]; rfl
    have rr : (c.completion st r).result = r := by simp [Cmd.completion, q]
    have ss : (c.completion st r).status = st := rfl
    simpa only [a, t, rr, ss] using fields
  · rw [settle_cmdAt, writeEntry_cmdAt]
    have := leaving_cmdAt d c st cm
    rwa [ce] at this

end Sys2Proof
end

