-- ==== Sys2Proof/WellFormed.lean ====
section
/-! DEFINITION. Well-formed commands and events: every operand within the width or range that the spec gives it. `exec` is total
on ill-formed ones as well. -/

namespace Sys2Proof

/-- Bytes, each below 256. -/
def octets (l : List Byte) : Bool := l.all fun b => decide (b < 256)

/-- A command entry (12 R414): ring 0 to 31, a 12-bit tag, a 32-bit cookie, 48 bytes of body, and 128 bytes of extension where
it has one (18 R571). -/
def CmdEntry.wf (e : CmdEntry) : Bool :=
  decide (e.ring < 32) && decide (e.tag < 4096) && decide (e.cookie < 2 ^ 32) && decide (e.body < 2 ^ 384) &&
    octets e.extBytes && octets e.mem && (!e.ext || e.readFail || e.extBytes.length == 128)

/-- A write to a set-up register (14 R463, R467): within the 16 bytes of its aliases, 1 to 16 bytes. -/
def RegWrite.wf (w : RegWrite) : Bool :=
  decide (w.off < 16) && decide (0 < w.len) && decide (w.off + w.len ≤ 16) && decide (w.data < 2 ^ (8 * w.len))

/-- A 66-bit block as received: a sync header of two bits, and 64 bits (04 R122). -/
def Block.wf (b : Block) : Bool := decide (b.hdr < 4) && decide (b.content < 2 ^ 64)

/-- A Zuben frame has four overhead blocks and at most 20,480 payload blocks (04 R122, R123). -/
def ZFrame.wf (z : ZFrame) : Bool := decide (z.head.length = 4) && z.head.all Block.wf && decide (z.payload.length ≤ 20480) && z.payload.all Block.wf

/-- FlexE group and PHY numbers, the map of PHYs, and calendars of 20 slots (04 R154). -/
def FlexeOh.wf (f : FlexeOh) : Bool :=
  decide (f.group < 2 ^ 20) && decide (f.phy < 256) && octets f.map && decide (f.calA < 2 ^ 20) && decide (f.calB < 2 ^ 20)

/-- A byte lane of the far store, and 128 steps of each delay (10 R359). -/
def LaneTrain.wf (t : LaneTrain) : Bool := decide (t.lane < 2720) && decide (t.wrPass < 2 ^ 128) && decide (t.rdPass < 2 ^ 128)

/-- PTP messages come with a domain number and their frame (02 R48, R49). -/
def SyncMsg.wf (m : SyncMsg) : Bool := decide (m.port < 1024) && decide (m.domain < 256) && octets m.data
def DelayReq.wf (m : DelayReq) : Bool := decide (m.port < 1024) && decide (m.domain < 256) && octets m.data
def DelayResp.wf (m : DelayResp) : Bool := decide (m.port < 1024) && decide (m.domain < 256) && octets m.data

/-- The place of a burst lies in the far store (10 R347, R348). -/
def BurstAt.wf (b : BurstAt) : Bool := decide (b.chan < 544) && decide (b.bank < 32) && decide (b.row < 2 ^ 15)

/-- A codeword has one symbol from each of 10 devices (10 R364). -/
def EccOutcome.wf : EccOutcome → Bool
  | .corrected device => decide (device < 10)
  | .clean => true
  | .uncorrectable => true

/-- A frame's head on a port of the module. -/
def FrameHead.wf (h : FrameHead) : Bool := decide (h.port < 1024) && octets h.data

/-- A forwarded container of a protection index (17 R534). -/
def BuddyContainer.wf (k : BuddyContainer) : Bool := decide (k.index < 2048) && k.blocks.all Block.wf && decide (k.cond < 32)

/-- A transit frame of one of the sixteen classes, for a port or a group, of a stream or of none (17 R533). -/
def TransitFrame.wf (f : TransitFrame) : Bool :=
  decide (f.cls < 16) && decide (f.dest < if f.isGroup then 16384 else 1024) && decide (f.stream.getD 0 < 4096) && decide (f.ingress < 1024) && octets f.data

/-- Updates of the FDB and of the shadow name a key and a port of the buddy, or a command (17 R538). -/
def BuddyUpdate.wf : BuddyUpdate → Bool
  | .learn mac fid port _ => decide (mac < 2 ^ 48) && decide (fid < 4096) && decide (port < 1024)
  | .hit mac fid => decide (mac < 2 ^ 48) && decide (fid < 4096)
  | .remove mac fid => decide (mac < 2 ^ 48) && decide (fid < 4096)
  | .shadow opcode body => decide (opcode < 2 ^ 16) && decide (body < 2 ^ 384)
  | .fate _ _ _ time => decide (time < 2 ^ 64)

/-- An acknowledgement names a command ring and a tag. -/
def JournalAck.wf (a : JournalAck) : Bool := decide (a.ring < 32) && decide (a.tag < 4096)

/-- What is written to the flash goes to bank A or B, or is the marker (20 R609). -/
def FlashImage.wf (f : FlashImage) : Bool := decide (f.bank < 3) && octets f.image

/-- An eye reading of a lane, or of one of the 18 buddy lanes (03 R92, 17 R528). -/
def EyeReading.wf (r : EyeReading) : Bool := decide (r.lane < 1170)

/-- A finding of roll call is of one of the two stores (08 R311). -/
def RollFinding.wf (f : RollFinding) : Bool := decide (f.store < 2)

/-- Every operand within its range; the device time that passed may be any. -/
def Instr.wf : Instr → Bool
  | .bell _ _ => true
  | .cyclicGuardEnd _  => true
  | .belSetPeriod _ e => e.wf
  | .belSetPassing _ e => e.wf
  | .belSetBudget _ e => e.wf
  | .belRealign _ e => e.wf
  | .belCtrlWrite _ w => w.wf
  | .timSetPort _ e => e.wf
  | .timSelectSource _ e => e.wf
  | .timSetHoldover _ e => e.wf
  | .timSetSynce _ e => e.wf
  | .timSetTime _ e => e.wf
  | .timFeedOffset _ e => e.wf
  | .syncRx _ m => m.wf
  | .delayReqRx _ m => m.wf
  | .delayRespRx _ m => m.wf
  | .pdelayReqRx _ m => m.wf
  | .pdelayRespRx _ m => m.wf
  | .syncTxTimer _ port => decide (port < 1024)
  | .delayReqTxTimer _ port => decide (port < 1024)
  | .pdelayReqTxTimer _ port => decide (port < 1024)
  | .sampleTimeout _  => true
  | .holdoverLimit _  => true
  | .ppsOutRise _  => true
  | .ppsOutFall _  => true
  | .ppsInEdge _  => true
  | .ppsInMissing _  => true
  | .todLineTx _  => true
  | .todLineRx _ line => octets line
  | .synceLaneLoss _  => true
  | .eecLocked _  => true
  | .lneFormPort _ e => e.wf
  | .lneDissolvePort _ e => e.wf
  | .lnePinTaps _ e => e.wf
  | .laneSignalDetected _ lane => decide (lane < 1170)
  | .anResolved _ lane _ => decide (lane < 1170)
  | .trainingComplete _ lane => decide (lane < 1170)
  | .trainingTimeout _ lane => decide (lane < 1170)
  | .adaptationComplete _ lane => decide (lane < 1170)
  | .adaptationTimeout _ lane => decide (lane < 1170)
  | .lockAchieved _ lane => decide (lane < 1170)
  | .lockTimeout _ lane => decide (lane < 1170)
  | .laneLinkLoss _ lane => decide (lane < 1170)
  | .eyeMeasurement _ rs => rs.all EyeReading.wf
  | .macSetPortState _ e => e.wf
  | .macSetFlowControl _ e => e.wf
  | .macSetLpi _ e => e.wf
  | .macSetFrame _ e => e.wf
  | .lanesPowered _ port => decide (port < 1024)
  | .portUpQualified _ port => decide (port < 1024)
  | .faultRx _ port _ _ => decide (port < 1024)
  | .holdDownExpiry _ port => decide (port < 1024)
  | .portFlushEnd _ port => decide (port < 1024)
  | .portEmpty _ port => decide (port < 1024)
  | .powerDownComplete _ port => decide (port < 1024)
  | .portMismatchHeld _ port => decide (port < 1024)
  | .macControlFrameRx _ port data => decide (port < 1024) && octets data
  | .pauseTimerExpiry _ port => decide (port < 1024)
  | .flowControlFrameTx _ port => decide (port < 1024)
  | .flowControlRepeat _ port => decide (port < 1024)
  | .lpiIdleHoldExpiry _ port => decide (port < 1024)
  | .lpiPreBellWake _ port => decide (port < 1024)
  | .frameRxHead _ h => h.wf
  | .frameRxEnd _ r => decide (r.port < 1024)
  | .egressSelect _ port => decide (port < 1024)
  | .frameTxEnd _ port => decide (port < 1024)
  | .shaperRefill _ port => decide (port < 1024)
  | .schSetQueue _ e => e.wf
  | .schSetPort _ e => e.wf
  | .schReadPort _ e => e.wf
  | .zubenFrameRx _ lane z => decide (lane < 1170) && z.wf
  | .zubenFrameTx _ port => decide (port < 1024)
  | .candidateCreated _ lane _ z => decide (lane < 1170) && z.wf
  | .candidateCheck _ lane _ _ z => decide (lane < 1170) && z.wf
  | .syncLoss _ lane => decide (lane < 1170)
  | .bipWindowEnd _ lane _ => decide (lane < 1170)
  | .pmSecond _  => true
  | .pmBinClose _ _ => true
  | .handshakeAckDeadline _ lane => decide (lane < 1024)
  | .nakSentThree _ lane => decide (lane < 1024)
  | .pageMismatchHeld _ lane => decide (lane < 1024)
  | .mgmtFrameRx _ lane content _ => decide (lane < 1024) && octets content
  | .mgmtFrameSent _ lane => decide (lane < 1024)
  | .flexeCalendarSwitch _ port => decide (port < 1024)
  | .flexeAckTimeout _ port => decide (port < 1024)
  | .zbnSetLane _ e => e.wf
  | .zbnSetSlotTrace _ e => e.wf
  | .zbnReadPm _ e => e.wf
  | .zbnReadTrace _ e => e.wf
  | .zbnSendMgmt _ e => e.wf
  | .zbnSetFlexe _ e => e.wf
  | .ttbWriteSlot _ e => e.wf
  | .ttbWriteSeats _ e => e.wf
  | .ttbSwitchPage _ e => e.wf
  | .ttbCopyPage _ e => e.wf
  | .ttbSetProtection _ e => e.wf
  | .ttbProtectCommand _ e => e.wf
  | .ttbReadPage _ e => e.wf
  | .armTimeout _ lane => decide (lane < 1024)
  | .holdOffExpiry _ index _ => decide (index < 2048)
  | .wtrExpiry _ index => decide (index < 2048)
  | .protUnalignedTimer _ index => decide (index < 2048)
  | .protCopyFailedTimer _ index _ => decide (index < 2048)
  | .rxMismatchHeld _ lane => decide (lane < 1024)
  | .prsWriteProfile _ e => e.wf
  | .prsWritePortMap _ e => e.wf
  | .prsWriteEtypes _ e => e.wf
  | .prsWriteRule _ e => e.wf
  | .prsSetMember _ e => e.wf
  | .prsDiscardStaged _ e => e.wf
  | .prsCommit _ e => e.wf
  | .prsSetMeter _ e => e.wf
  | .prsReadRule _ e => e.wf
  | .prsReadMeter _ e => e.wf
  | .fwdWriteFdb _ e => e.wf
  | .fwdDeleteFdb _ e => e.wf
  | .fwdFlushFdb _ e => e.wf
  | .fdbFlushDone _ ring tag => decide (ring < 32) && decide (tag < 4096)
  | .fwdReadFdb _ e => e.wf
  | .fwdSetVlan _ e => e.wf
  | .fwdSetPort _ e => e.wf
  | .fwdSetClassMap _ e => e.wf
  | .fwdSetGroup _ e => e.wf
  | .fwdSetStream _ e => e.wf
  | .fwdSetMirror _ e => e.wf
  | .fwdSetRecorder _ e => e.wf
  | .fwdFreezeRecorder _ e => e.wf
  | .fwdRearmRecorder _ e => e.wf
  | .fwdReadRecorder _ e => e.wf
  | .recorderReadDone _ region => decide (region < 8)
  | .recorderPostDone _ region => decide (region < 8)
  | .agerVisit _ location => decide (location < 1048576)
  | .frerResetTimer _ stream => decide (stream < 4096)
  | .bufSetAdmit _ e => e.wf
  | .bufSetSpill _ e => e.wf
  | .bufRollCall _ e => e.wf
  | .rollCallDone _ fs => fs.all RollFinding.wf
  | .bufSetVoq _ e => e.wf
  | .spillPageAck _ queue => decide (queue < 16384)
  | .recallPageReturn _ queue => decide (queue < 16384)
  | .dramReadReturn _ at_ _ r => at_.wf && r.wf
  | .refreshDue _ chan bank _ => decide (chan < 544) && decide (bank < 32)
  | .scrubRead _ at_ r => at_.wf && r.wf
  | .stackTemperatureChange _ stack temp => decide (stack < 16) && decide (temp < 256)
  | .drcTrainingDone _ ts => ts.all LaneTrain.wf
  | .channelRetrainDone _ stack slot ts => decide (stack < 16) && decide (slot < 32) && ts.all LaneTrain.wf
  | .pprDone _ chan bank row => decide (chan < 544) && decide (bank < 32) && decide (row < 2 ^ 15)
  | .drcRetrainChannel _ e => e.wf
  | .drcQuarantinePage _ e => e.wf
  | .drcReadEyes _ e => e.wf
  | .govSetPolicy _ e => e.wf
  | .govSetVbound _ e => e.wf
  | .govStepDescend _  => true
  | .floorMismatchHeld _  => true
  | .thermalTrip _ site => decide (site < 64)
  | .railCurrentLimit _ quadrant _ => decide (quadrant < 4)
  | .avsEvaluation _ _ => true
  | .avsTransactionFail _ quadrant => decide (quadrant < 4)
  | .govRailLimitWrite _ quadrant w => decide (quadrant < 4) && w.wf
  | .doorbellWrite _ ring data posted => decide (ring < 200) && decide (data < 2 ^ 32) && posted.all fun p => decide (p.1 < 2 ^ 64) && decide (p.2 < 2 ^ 16)
  | .ringCtrlWrite _ ring w => decide (ring < 200) && w.wf
  | .ringStopped _ ring => decide (ring < 200)
  | .ringReadError _ ring _ _ => decide (ring < 200)
  | .commandFetch _ ring raw e => decide (ring < 32) && octets raw && e.wf
  | .commandAccept _ ring => decide (ring < 32)
  | .txDescriptorFetch _ ring raw data => decide (ring < 64) && octets raw && octets data
  | .txDispatch _ ring => decide (ring < 64)
  | .eventsLostRecord _ ring => decide (ring < 8)
  | .msixRaise _ ring => decide (ring < 200)
  | .longOpInterim _ ring tag _ => decide (ring < 32) && decide (tag < 4096)
  | .flr _  => true
  | .d3hotEntry _  => true
  | .flrDone _  => true
  | .ledgerWrite _  => true
  | .pcieLinkChanged _ gen width => decide (gen < 8) && decide (width < 17)
  | .glbQuery _ e => e.wf
  | .glbSnapshot _ e => e.wf
  | .glbBarrier _ e => e.wf
  | .barrierRelease _ ring tag => decide (ring < 32) && decide (tag < 4096)
  | .glbHoldOp _ e => e.wf
  | .glbAbort _ e => e.wf
  | .registerWrite _ addr len data _ => decide (addr < 2 ^ 24) && decide (len ≤ 64) && decide (data < 2 ^ 512)
  | .loRegisterRead _ addr => decide (addr < 2 ^ 24)
  | .glbResetCtrlWrite _ w => w.wf
  | .warmReset _ cause => decide (cause < 6)
  | .cntSetMonitor _ e => e.wf
  | .cntSetEventCounter _ e => e.wf
  | .cntSetWindow _ e => e.wf
  | .cntReadCounters _ e => e.wf
  | .autoSnapshot _  => true
  | .wearEvaluation _ kind unit _ => decide (kind < 8) && decide (unit < 2 ^ 16)
  | .autoSubstitutionStart _ kind unit => decide (kind < 8) && decide (unit < 2 ^ 16)
  | .subSetThreshold _ e => e.wf
  | .subSetPolicy _ e => e.wf
  | .subSubstitute _ e => e.wf
  | .subCopyDone _ slot => decide (slot < 8)
  | .subLaneAgreed _ slot => decide (slot < 8)
  | .agreeTimeout _ slot => decide (slot < 8)
  | .lingerExpiry _ lane => decide (lane < 1170)
  | .bdyPair _ e => e.wf
  | .bdyRejoin _ e => e.wf
  | .bdyUnpair _ e => e.wf
  | .pairLinkTimeout _  => true
  | .buddyLinkUp _ _ => true
  | .buddyLinkDown _ position => decide (position ≤ 16)
  | .buddyHeartbeatRx _ _ => true
  | .buddyBeatEdge _  => true
  | .journalRecordRx _ r => r.entry.wf
  | .journalAckRx _ a => a.wf
  | .completionRecordRx _ _ => true
  | .completionRecordAck _ seq => decide (seq < 2 ^ 64)
  | .buddyFrameRx _ f => f.wf
  | .buddyCreditRx _ cls _ => decide (cls < 16)
  | .pairSettlement _  => true
  | .linkHeartbeatsMissed _  => true
  | .takeOver _  => true
  | .takeoverReportWrite _  => true
  | .isolatedHeartbeatsBack _  => true
  | .buddySkewAlarm _  => true
  | .cfgMismatchHeld _  => true
  | .rejoinCutover _  => true
  | .unpairDrained _  => true
  | .prcGetTranscript _ e => e.wf
  | .prcUpdateFirmware _ e => e.wf
  | .firmwareStaged _  => true
  | .firmwareActivation _  => true
  | .prcZeroize _ e => e.wf
  | .prcExportAudit _ e => e.wf
  | .prcSealConfig _ e => e.wf
  | .sealDigestChecked _  => true
  | .prcGetRandom _ e => e.wf
  | .officerKeyWrite _ word w => decide (word < 16) && w.wf
  | .noiseHealthFail _ test => test == 8 || test == 9
  | .zeroizeNQualified _  => true
  | .zeroizeAttemptDone _ _ => true
  | .powerOn _ _ flash => flash.all FlashImage.wf
  | .resetPin _ _ flash => flash.all FlashImage.wf
  | .railOutOfTolerance _ rail => decide (rail < 16)
  | .refclkLoss _ _ => true
  | .refclkPcieLoss _  => true
  | .clockRestored _  => true
  | .perstAssert _  => true
  | .watchdogExpiry _  => true
  | .firmwareVerified _ bank _ => decide (bank < 2)
  | .selftestsDone _ _ _ => true
  | .memoryInitDone _ _ => true
  | .flashSelRelease _  => true
  | .coreClockStable _ _ => true
  | .isolatedHolddownExpiry _  => true
  | .lpiWakeComplete _ port => decide (port < 1024)
  | .rxLpiChange _ port _ => decide (port < 1024)
  | .flexeOverheadRx _ port f => decide (port < 1024) && f.wf
  | .zeroizeNChange _ _ => true
  | .buddyUpdateRx _ u => u.wf
  | .rejoinDataRx _ _ => true
  | .buddyContainerRx _ k => k.wf

end Sys2Proof
end

