-- ==== Sys2Proof/Laws/PerInstr.lean ====
section
/-! SUPPORT. What holds of every command as syntax, one lemma for each constructor: the entry that a well-formed command carries
has its fields in range (12 R414). -/

namespace Sys2Proof

/-- The fields of a command entry within their widths. -/
def CmdEntry.fieldsInRange (e : CmdEntry) : Prop := e.ring < 32 ∧ e.tag < 4096 ∧ e.cookie < 2 ^ 32

theorem CmdEntry.inRange {e : CmdEntry} (h : e.wf = true) : e.fieldsInRange := by
  simp only [CmdEntry.wf, Bool.and_eq_true, decide_eq_true_eq] at h
  exact ⟨h.1.1.1.1.1.1, h.1.1.1.1.1.2, h.1.1.1.1.2⟩

namespace Laws.EntryFields

/-- The command entry that a row carries. -/
def carried : Instr → Option CmdEntry
  | .belSetPeriod _ e => some e
  | .belSetPassing _ e => some e
  | .belSetBudget _ e => some e
  | .belRealign _ e => some e
  | .timSetPort _ e => some e
  | .timSelectSource _ e => some e
  | .timSetHoldover _ e => some e
  | .timSetSynce _ e => some e
  | .timSetTime _ e => some e
  | .timFeedOffset _ e => some e
  | .lneFormPort _ e => some e
  | .lneDissolvePort _ e => some e
  | .lnePinTaps _ e => some e
  | .macSetPortState _ e => some e
  | .macSetFlowControl _ e => some e
  | .macSetLpi _ e => some e
  | .macSetFrame _ e => some e
  | .schSetQueue _ e => some e
  | .schSetPort _ e => some e
  | .schReadPort _ e => some e
  | .zbnSetLane _ e => some e
  | .zbnSetSlotTrace _ e => some e
  | .zbnReadPm _ e => some e
  | .zbnReadTrace _ e => some e
  | .zbnSendMgmt _ e => some e
  | .zbnSetFlexe _ e => some e
  | .ttbWriteSlot _ e => some e
  | .ttbWriteSeats _ e => some e
  | .ttbSwitchPage _ e => some e
  | .ttbCopyPage _ e => some e
  | .ttbSetProtection _ e => some e
  | .ttbProtectCommand _ e => some e
  | .ttbReadPage _ e => some e
  | .prsWriteProfile _ e => some e
  | .prsWritePortMap _ e => some e
  | .prsWriteEtypes _ e => some e
  | .prsWriteRule _ e => some e
  | .prsSetMember _ e => some e
  | .prsDiscardStaged _ e => some e
  | .prsCommit _ e => some e
  | .prsSetMeter _ e => some e
  | .prsReadRule _ e => some e
  | .prsReadMeter _ e => some e
  | .fwdWriteFdb _ e => some e
  | .fwdDeleteFdb _ e => some e
  | .fwdFlushFdb _ e => some e
  | .fwdReadFdb _ e => some e
  | .fwdSetVlan _ e => some e
  | .fwdSetPort _ e => some e
  | .fwdSetClassMap _ e => some e
  | .fwdSetGroup _ e => some e
  | .fwdSetStream _ e => some e
  | .fwdSetMirror _ e => some e
  | .fwdSetRecorder _ e => some e
  | .fwdFreezeRecorder _ e => some e
  | .fwdRearmRecorder _ e => some e
  | .fwdReadRecorder _ e => some e
  | .bufSetAdmit _ e => some e
  | .bufSetSpill _ e => some e
  | .bufRollCall _ e => some e
  | .bufSetVoq _ e => some e
  | .drcRetrainChannel _ e => some e
  | .drcQuarantinePage _ e => some e
  | .drcReadEyes _ e => some e
  | .govSetPolicy _ e => some e
  | .govSetVbound _ e => some e
  | .commandFetch _ _ _ e => some e
  | .glbQuery _ e => some e
  | .glbSnapshot _ e => some e
  | .glbBarrier _ e => some e
  | .glbHoldOp _ e => some e
  | .glbAbort _ e => some e
  | .cntSetMonitor _ e => some e
  | .cntSetEventCounter _ e => some e
  | .cntSetWindow _ e => some e
  | .cntReadCounters _ e => some e
  | .subSetThreshold _ e => some e
  | .subSetPolicy _ e => some e
  | .subSubstitute _ e => some e
  | .bdyPair _ e => some e
  | .bdyRejoin _ e => some e
  | .bdyUnpair _ e => some e
  | .journalRecordRx _ r => some r.entry
  | .prcGetTranscript _ e => some e
  | .prcUpdateFirmware _ e => some e
  | .prcZeroize _ e => some e
  | .prcExportAudit _ e => some e
  | .prcSealConfig _ e => some e
  | .prcGetRandom _ e => some e
  | _ => none

/-- The entry of a well-formed command has its fields in range. -/
def Statement (i : Instr) : Prop := i.wf = true → ∀ e, carried i = some e → e.fieldsInRange

theorem bell (dt : Nat) (b : BellInput) : Statement (.bell dt b) := fun _ _ h => nomatch h
theorem cyclicGuardEnd (dt : Nat) : Statement (.cyclicGuardEnd dt) := fun _ _ h => nomatch h
theorem belSetPeriod (dt : Nat) (e : CmdEntry) : Statement (.belSetPeriod dt e) := fun w _ h => CmdEntry.inRange (Option.some.inj h ▸ w)
theorem belSetPassing (dt : Nat) (e : CmdEntry) : Statement (.belSetPassing dt e) := fun w _ h => CmdEntry.inRange (Option.some.inj h ▸ w)
theorem belSetBudget (dt : Nat) (e : CmdEntry) : Statement (.belSetBudget dt e) := fun w _ h => CmdEntry.inRange (Option.some.inj h ▸ w)
theorem belRealign (dt : Nat) (e : CmdEntry) : Statement (.belRealign dt e) := fun w _ h => CmdEntry.inRange (Option.some.inj h ▸ w)
theorem belCtrlWrite (dt : Nat) (w : RegWrite) : Statement (.belCtrlWrite dt w) := fun _ _ h => nomatch h
theorem timSetPort (dt : Nat) (e : CmdEntry) : Statement (.timSetPort dt e) := fun w _ h => CmdEntry.inRange (Option.some.inj h ▸ w)
theorem timSelectSource (dt : Nat) (e : CmdEntry) : Statement (.timSelectSource dt e) := fun w _ h => CmdEntry.inRange (Option.some.inj h ▸ w)
theorem timSetHoldover (dt : Nat) (e : CmdEntry) : Statement (.timSetHoldover dt e) := fun w _ h => CmdEntry.inRange (Option.some.inj h ▸ w)
theorem timSetSynce (dt : Nat) (e : CmdEntry) : Statement (.timSetSynce dt e) := fun w _ h => CmdEntry.inRange (Option.some.inj h ▸ w)
theorem timSetTime (dt : Nat) (e : CmdEntry) : Statement (.timSetTime dt e) := fun w _ h => CmdEntry.inRange (Option.some.inj h ▸ w)
theorem timFeedOffset (dt : Nat) (e : CmdEntry) : Statement (.timFeedOffset dt e) := fun w _ h => CmdEntry.inRange (Option.some.inj h ▸ w)
theorem syncRx (dt : Nat) (m : SyncMsg) : Statement (.syncRx dt m) := fun _ _ h => nomatch h
theorem delayReqRx (dt : Nat) (m : DelayReq) : Statement (.delayReqRx dt m) := fun _ _ h => nomatch h
theorem delayRespRx (dt : Nat) (m : DelayResp) : Statement (.delayRespRx dt m) := fun _ _ h => nomatch h
theorem pdelayReqRx (dt : Nat) (m : DelayReq) : Statement (.pdelayReqRx dt m) := fun _ _ h => nomatch h
theorem pdelayRespRx (dt : Nat) (m : DelayResp) : Statement (.pdelayRespRx dt m) := fun _ _ h => nomatch h
theorem syncTxTimer (dt : Nat) (port : Nat) : Statement (.syncTxTimer dt port) := fun _ _ h => nomatch h
theorem delayReqTxTimer (dt : Nat) (port : Nat) : Statement (.delayReqTxTimer dt port) := fun _ _ h => nomatch h
theorem pdelayReqTxTimer (dt : Nat) (port : Nat) : Statement (.pdelayReqTxTimer dt port) := fun _ _ h => nomatch h
theorem sampleTimeout (dt : Nat) : Statement (.sampleTimeout dt) := fun _ _ h => nomatch h
theorem holdoverLimit (dt : Nat) : Statement (.holdoverLimit dt) := fun _ _ h => nomatch h
theorem ppsOutRise (dt : Nat) : Statement (.ppsOutRise dt) := fun _ _ h => nomatch h
theorem ppsOutFall (dt : Nat) : Statement (.ppsOutFall dt) := fun _ _ h => nomatch h
theorem ppsInEdge (dt : Nat) : Statement (.ppsInEdge dt) := fun _ _ h => nomatch h
theorem ppsInMissing (dt : Nat) : Statement (.ppsInMissing dt) := fun _ _ h => nomatch h
theorem todLineTx (dt : Nat) : Statement (.todLineTx dt) := fun _ _ h => nomatch h
theorem todLineRx (dt : Nat) (line : List Byte) : Statement (.todLineRx dt line) := fun _ _ h => nomatch h
theorem synceLaneLoss (dt : Nat) : Statement (.synceLaneLoss dt) := fun _ _ h => nomatch h
theorem eecLocked (dt : Nat) : Statement (.eecLocked dt) := fun _ _ h => nomatch h
theorem lneFormPort (dt : Nat) (e : CmdEntry) : Statement (.lneFormPort dt e) := fun w _ h => CmdEntry.inRange (Option.some.inj h ▸ w)
theorem lneDissolvePort (dt : Nat) (e : CmdEntry) : Statement (.lneDissolvePort dt e) := fun w _ h => CmdEntry.inRange (Option.some.inj h ▸ w)
theorem lnePinTaps (dt : Nat) (e : CmdEntry) : Statement (.lnePinTaps dt e) := fun w _ h => CmdEntry.inRange (Option.some.inj h ▸ w)
theorem laneSignalDetected (dt : Nat) (lane : Nat) : Statement (.laneSignalDetected dt lane) := fun _ _ h => nomatch h
theorem anResolved (dt : Nat) (lane : Nat) (lacksMode : Bool) : Statement (.anResolved dt lane lacksMode) := fun _ _ h => nomatch h
theorem trainingComplete (dt : Nat) (lane : Nat) : Statement (.trainingComplete dt lane) := fun _ _ h => nomatch h
theorem trainingTimeout (dt : Nat) (lane : Nat) : Statement (.trainingTimeout dt lane) := fun _ _ h => nomatch h
theorem adaptationComplete (dt : Nat) (lane : Nat) : Statement (.adaptationComplete dt lane) := fun _ _ h => nomatch h
theorem adaptationTimeout (dt : Nat) (lane : Nat) : Statement (.adaptationTimeout dt lane) := fun _ _ h => nomatch h
theorem lockAchieved (dt : Nat) (lane : Nat) : Statement (.lockAchieved dt lane) := fun _ _ h => nomatch h
theorem lockTimeout (dt : Nat) (lane : Nat) : Statement (.lockTimeout dt lane) := fun _ _ h => nomatch h
theorem laneLinkLoss (dt : Nat) (lane : Nat) : Statement (.laneLinkLoss dt lane) := fun _ _ h => nomatch h
theorem eyeMeasurement (dt : Nat) (rs : List EyeReading) : Statement (.eyeMeasurement dt rs) := fun _ _ h => nomatch h
theorem macSetPortState (dt : Nat) (e : CmdEntry) : Statement (.macSetPortState dt e) := fun w _ h => CmdEntry.inRange (Option.some.inj h ▸ w)
theorem macSetFlowControl (dt : Nat) (e : CmdEntry) : Statement (.macSetFlowControl dt e) := fun w _ h => CmdEntry.inRange (Option.some.inj h ▸ w)
theorem macSetLpi (dt : Nat) (e : CmdEntry) : Statement (.macSetLpi dt e) := fun w _ h => CmdEntry.inRange (Option.some.inj h ▸ w)
theorem macSetFrame (dt : Nat) (e : CmdEntry) : Statement (.macSetFrame dt e) := fun w _ h => CmdEntry.inRange (Option.some.inj h ▸ w)
theorem lanesPowered (dt : Nat) (port : Nat) : Statement (.lanesPowered dt port) := fun _ _ h => nomatch h
theorem portUpQualified (dt : Nat) (port : Nat) : Statement (.portUpQualified dt port) := fun _ _ h => nomatch h
theorem faultRx (dt : Nat) (port : Nat) (localFault : Bool) (remoteFault : Bool) : Statement (.faultRx dt port localFault remoteFault) := fun _ _ h => nomatch h
theorem holdDownExpiry (dt : Nat) (port : Nat) : Statement (.holdDownExpiry dt port) := fun _ _ h => nomatch h
theorem portFlushEnd (dt : Nat) (port : Nat) : Statement (.portFlushEnd dt port) := fun _ _ h => nomatch h
theorem portEmpty (dt : Nat) (port : Nat) : Statement (.portEmpty dt port) := fun _ _ h => nomatch h
theorem powerDownComplete (dt : Nat) (port : Nat) : Statement (.powerDownComplete dt port) := fun _ _ h => nomatch h
theorem portMismatchHeld (dt : Nat) (port : Nat) : Statement (.portMismatchHeld dt port) := fun _ _ h => nomatch h
theorem macControlFrameRx (dt : Nat) (port : Nat) (data : List Byte) : Statement (.macControlFrameRx dt port data) := fun _ _ h => nomatch h
theorem pauseTimerExpiry (dt : Nat) (port : Nat) : Statement (.pauseTimerExpiry dt port) := fun _ _ h => nomatch h
theorem flowControlFrameTx (dt : Nat) (port : Nat) : Statement (.flowControlFrameTx dt port) := fun _ _ h => nomatch h
theorem flowControlRepeat (dt : Nat) (port : Nat) : Statement (.flowControlRepeat dt port) := fun _ _ h => nomatch h
theorem lpiIdleHoldExpiry (dt : Nat) (port : Nat) : Statement (.lpiIdleHoldExpiry dt port) := fun _ _ h => nomatch h
theorem lpiPreBellWake (dt : Nat) (port : Nat) : Statement (.lpiPreBellWake dt port) := fun _ _ h => nomatch h
theorem frameRxHead (dt : Nat) (h : FrameHead) : Statement (.frameRxHead dt h) := fun _ _ h => nomatch h
theorem frameRxEnd (dt : Nat) (r : FrameEnd) : Statement (.frameRxEnd dt r) := fun _ _ h => nomatch h
theorem egressSelect (dt : Nat) (port : Nat) : Statement (.egressSelect dt port) := fun _ _ h => nomatch h
theorem frameTxEnd (dt : Nat) (port : Nat) : Statement (.frameTxEnd dt port) := fun _ _ h => nomatch h
theorem shaperRefill (dt : Nat) (port : Nat) : Statement (.shaperRefill dt port) := fun _ _ h => nomatch h
theorem schSetQueue (dt : Nat) (e : CmdEntry) : Statement (.schSetQueue dt e) := fun w _ h => CmdEntry.inRange (Option.some.inj h ▸ w)
theorem schSetPort (dt : Nat) (e : CmdEntry) : Statement (.schSetPort dt e) := fun w _ h => CmdEntry.inRange (Option.some.inj h ▸ w)
theorem schReadPort (dt : Nat) (e : CmdEntry) : Statement (.schReadPort dt e) := fun w _ h => CmdEntry.inRange (Option.some.inj h ▸ w)
theorem zubenFrameRx (dt : Nat) (lane : Nat) (z : ZFrame) : Statement (.zubenFrameRx dt lane z) := fun _ _ h => nomatch h
theorem zubenFrameTx (dt : Nat) (port : Nat) : Statement (.zubenFrameTx dt port) := fun _ _ h => nomatch h
theorem candidateCreated (dt : Nat) (lane : Nat) (block : Nat) (z : ZFrame) : Statement (.candidateCreated dt lane block z) := fun _ _ h => nomatch h
theorem candidateCheck (dt : Nat) (lane : Nat) (born : Nat) (block : Nat) (z : ZFrame) : Statement (.candidateCheck dt lane born block z) := fun _ _ h => nomatch h
theorem syncLoss (dt : Nat) (lane : Nat) : Statement (.syncLoss dt lane) := fun _ _ h => nomatch h
theorem bipWindowEnd (dt : Nat) (lane : Nat) (sf : Bool) : Statement (.bipWindowEnd dt lane sf) := fun _ _ h => nomatch h
theorem pmSecond (dt : Nat) : Statement (.pmSecond dt) := fun _ _ h => nomatch h
theorem pmBinClose (dt : Nat) (day : Bool) : Statement (.pmBinClose dt day) := fun _ _ h => nomatch h
theorem handshakeAckDeadline (dt : Nat) (lane : Nat) : Statement (.handshakeAckDeadline dt lane) := fun _ _ h => nomatch h
theorem nakSentThree (dt : Nat) (lane : Nat) : Statement (.nakSentThree dt lane) := fun _ _ h => nomatch h
theorem pageMismatchHeld (dt : Nat) (lane : Nat) : Statement (.pageMismatchHeld dt lane) := fun _ _ h => nomatch h
theorem mgmtFrameRx (dt : Nat) (lane : Nat) (content : List Byte) (good : Bool) : Statement (.mgmtFrameRx dt lane content good) := fun _ _ h => nomatch h
theorem mgmtFrameSent (dt : Nat) (lane : Nat) : Statement (.mgmtFrameSent dt lane) := fun _ _ h => nomatch h
theorem flexeCalendarSwitch (dt : Nat) (port : Nat) : Statement (.flexeCalendarSwitch dt port) := fun _ _ h => nomatch h
theorem flexeAckTimeout (dt : Nat) (port : Nat) : Statement (.flexeAckTimeout dt port) := fun _ _ h => nomatch h
theorem zbnSetLane (dt : Nat) (e : CmdEntry) : Statement (.zbnSetLane dt e) := fun w _ h => CmdEntry.inRange (Option.some.inj h ▸ w)
theorem zbnSetSlotTrace (dt : Nat) (e : CmdEntry) : Statement (.zbnSetSlotTrace dt e) := fun w _ h => CmdEntry.inRange (Option.some.inj h ▸ w)
theorem zbnReadPm (dt : Nat) (e : CmdEntry) : Statement (.zbnReadPm dt e) := fun w _ h => CmdEntry.inRange (Option.some.inj h ▸ w)
theorem zbnReadTrace (dt : Nat) (e : CmdEntry) : Statement (.zbnReadTrace dt e) := fun w _ h => CmdEntry.inRange (Option.some.inj h ▸ w)
theorem zbnSendMgmt (dt : Nat) (e : CmdEntry) : Statement (.zbnSendMgmt dt e) := fun w _ h => CmdEntry.inRange (Option.some.inj h ▸ w)
theorem zbnSetFlexe (dt : Nat) (e : CmdEntry) : Statement (.zbnSetFlexe dt e) := fun w _ h => CmdEntry.inRange (Option.some.inj h ▸ w)
theorem ttbWriteSlot (dt : Nat) (e : CmdEntry) : Statement (.ttbWriteSlot dt e) := fun w _ h => CmdEntry.inRange (Option.some.inj h ▸ w)
theorem ttbWriteSeats (dt : Nat) (e : CmdEntry) : Statement (.ttbWriteSeats dt e) := fun w _ h => CmdEntry.inRange (Option.some.inj h ▸ w)
theorem ttbSwitchPage (dt : Nat) (e : CmdEntry) : Statement (.ttbSwitchPage dt e) := fun w _ h => CmdEntry.inRange (Option.some.inj h ▸ w)
theorem ttbCopyPage (dt : Nat) (e : CmdEntry) : Statement (.ttbCopyPage dt e) := fun w _ h => CmdEntry.inRange (Option.some.inj h ▸ w)
theorem ttbSetProtection (dt : Nat) (e : CmdEntry) : Statement (.ttbSetProtection dt e) := fun w _ h => CmdEntry.inRange (Option.some.inj h ▸ w)
theorem ttbProtectCommand (dt : Nat) (e : CmdEntry) : Statement (.ttbProtectCommand dt e) := fun w _ h => CmdEntry.inRange (Option.some.inj h ▸ w)
theorem ttbReadPage (dt : Nat) (e : CmdEntry) : Statement (.ttbReadPage dt e) := fun w _ h => CmdEntry.inRange (Option.some.inj h ▸ w)
theorem armTimeout (dt : Nat) (lane : Nat) : Statement (.armTimeout dt lane) := fun _ _ h => nomatch h
theorem holdOffExpiry (dt : Nat) (index : Nat) (degraded : Bool) : Statement (.holdOffExpiry dt index degraded) := fun _ _ h => nomatch h
theorem wtrExpiry (dt : Nat) (index : Nat) : Statement (.wtrExpiry dt index) := fun _ _ h => nomatch h
theorem protUnalignedTimer (dt : Nat) (index : Nat) : Statement (.protUnalignedTimer dt index) := fun _ _ h => nomatch h
theorem protCopyFailedTimer (dt : Nat) (index : Nat) (protection : Bool) : Statement (.protCopyFailedTimer dt index protection) := fun _ _ h => nomatch h
theorem rxMismatchHeld (dt : Nat) (lane : Nat) : Statement (.rxMismatchHeld dt lane) := fun _ _ h => nomatch h
theorem prsWriteProfile (dt : Nat) (e : CmdEntry) : Statement (.prsWriteProfile dt e) := fun w _ h => CmdEntry.inRange (Option.some.inj h ▸ w)
theorem prsWritePortMap (dt : Nat) (e : CmdEntry) : Statement (.prsWritePortMap dt e) := fun w _ h => CmdEntry.inRange (Option.some.inj h ▸ w)
theorem prsWriteEtypes (dt : Nat) (e : CmdEntry) : Statement (.prsWriteEtypes dt e) := fun w _ h => CmdEntry.inRange (Option.some.inj h ▸ w)
theorem prsWriteRule (dt : Nat) (e : CmdEntry) : Statement (.prsWriteRule dt e) := fun w _ h => CmdEntry.inRange (Option.some.inj h ▸ w)
theorem prsSetMember (dt : Nat) (e : CmdEntry) : Statement (.prsSetMember dt e) := fun w _ h => CmdEntry.inRange (Option.some.inj h ▸ w)
theorem prsDiscardStaged (dt : Nat) (e : CmdEntry) : Statement (.prsDiscardStaged dt e) := fun w _ h => CmdEntry.inRange (Option.some.inj h ▸ w)
theorem prsCommit (dt : Nat) (e : CmdEntry) : Statement (.prsCommit dt e) := fun w _ h => CmdEntry.inRange (Option.some.inj h ▸ w)
theorem prsSetMeter (dt : Nat) (e : CmdEntry) : Statement (.prsSetMeter dt e) := fun w _ h => CmdEntry.inRange (Option.some.inj h ▸ w)
theorem prsReadRule (dt : Nat) (e : CmdEntry) : Statement (.prsReadRule dt e) := fun w _ h => CmdEntry.inRange (Option.some.inj h ▸ w)
theorem prsReadMeter (dt : Nat) (e : CmdEntry) : Statement (.prsReadMeter dt e) := fun w _ h => CmdEntry.inRange (Option.some.inj h ▸ w)
theorem fwdWriteFdb (dt : Nat) (e : CmdEntry) : Statement (.fwdWriteFdb dt e) := fun w _ h => CmdEntry.inRange (Option.some.inj h ▸ w)
theorem fwdDeleteFdb (dt : Nat) (e : CmdEntry) : Statement (.fwdDeleteFdb dt e) := fun w _ h => CmdEntry.inRange (Option.some.inj h ▸ w)
theorem fwdFlushFdb (dt : Nat) (e : CmdEntry) : Statement (.fwdFlushFdb dt e) := fun w _ h => CmdEntry.inRange (Option.some.inj h ▸ w)
theorem fdbFlushDone (dt : Nat) (ring : Nat) (tag : Nat) : Statement (.fdbFlushDone dt ring tag) := fun _ _ h => nomatch h
theorem fwdReadFdb (dt : Nat) (e : CmdEntry) : Statement (.fwdReadFdb dt e) := fun w _ h => CmdEntry.inRange (Option.some.inj h ▸ w)
theorem fwdSetVlan (dt : Nat) (e : CmdEntry) : Statement (.fwdSetVlan dt e) := fun w _ h => CmdEntry.inRange (Option.some.inj h ▸ w)
theorem fwdSetPort (dt : Nat) (e : CmdEntry) : Statement (.fwdSetPort dt e) := fun w _ h => CmdEntry.inRange (Option.some.inj h ▸ w)
theorem fwdSetClassMap (dt : Nat) (e : CmdEntry) : Statement (.fwdSetClassMap dt e) := fun w _ h => CmdEntry.inRange (Option.some.inj h ▸ w)
theorem fwdSetGroup (dt : Nat) (e : CmdEntry) : Statement (.fwdSetGroup dt e) := fun w _ h => CmdEntry.inRange (Option.some.inj h ▸ w)
theorem fwdSetStream (dt : Nat) (e : CmdEntry) : Statement (.fwdSetStream dt e) := fun w _ h => CmdEntry.inRange (Option.some.inj h ▸ w)
theorem fwdSetMirror (dt : Nat) (e : CmdEntry) : Statement (.fwdSetMirror dt e) := fun w _ h => CmdEntry.inRange (Option.some.inj h ▸ w)
theorem fwdSetRecorder (dt : Nat) (e : CmdEntry) : Statement (.fwdSetRecorder dt e) := fun w _ h => CmdEntry.inRange (Option.some.inj h ▸ w)
theorem fwdFreezeRecorder (dt : Nat) (e : CmdEntry) : Statement (.fwdFreezeRecorder dt e) := fun w _ h => CmdEntry.inRange (Option.some.inj h ▸ w)
theorem fwdRearmRecorder (dt : Nat) (e : CmdEntry) : Statement (.fwdRearmRecorder dt e) := fun w _ h => CmdEntry.inRange (Option.some.inj h ▸ w)
theorem fwdReadRecorder (dt : Nat) (e : CmdEntry) : Statement (.fwdReadRecorder dt e) := fun w _ h => CmdEntry.inRange (Option.some.inj h ▸ w)
theorem recorderReadDone (dt : Nat) (region : Nat) : Statement (.recorderReadDone dt region) := fun _ _ h => nomatch h
theorem recorderPostDone (dt : Nat) (region : Nat) : Statement (.recorderPostDone dt region) := fun _ _ h => nomatch h
theorem agerVisit (dt : Nat) (location : Nat) : Statement (.agerVisit dt location) := fun _ _ h => nomatch h
theorem frerResetTimer (dt : Nat) (stream : Nat) : Statement (.frerResetTimer dt stream) := fun _ _ h => nomatch h
theorem bufSetAdmit (dt : Nat) (e : CmdEntry) : Statement (.bufSetAdmit dt e) := fun w _ h => CmdEntry.inRange (Option.some.inj h ▸ w)
theorem bufSetSpill (dt : Nat) (e : CmdEntry) : Statement (.bufSetSpill dt e) := fun w _ h => CmdEntry.inRange (Option.some.inj h ▸ w)
theorem bufRollCall (dt : Nat) (e : CmdEntry) : Statement (.bufRollCall dt e) := fun w _ h => CmdEntry.inRange (Option.some.inj h ▸ w)
theorem rollCallDone (dt : Nat) (fs : List RollFinding) : Statement (.rollCallDone dt fs) := fun _ _ h => nomatch h
theorem bufSetVoq (dt : Nat) (e : CmdEntry) : Statement (.bufSetVoq dt e) := fun w _ h => CmdEntry.inRange (Option.some.inj h ▸ w)
theorem spillPageAck (dt : Nat) (queue : Nat) : Statement (.spillPageAck dt queue) := fun _ _ h => nomatch h
theorem recallPageReturn (dt : Nat) (queue : Nat) : Statement (.recallPageReturn dt queue) := fun _ _ h => nomatch h
theorem dramReadReturn (dt : Nat) (at_ : BurstAt) (client : DrcClient) (r : EccOutcome) : Statement (.dramReadReturn dt at_ client r) := fun _ _ h => nomatch h
theorem refreshDue (dt : Nat) (chan : Nat) (bank : Nat) (pending : Bool) : Statement (.refreshDue dt chan bank pending) := fun _ _ h => nomatch h
theorem scrubRead (dt : Nat) (at_ : BurstAt) (r : EccOutcome) : Statement (.scrubRead dt at_ r) := fun _ _ h => nomatch h
theorem stackTemperatureChange (dt : Nat) (stack : Nat) (temp : Nat) : Statement (.stackTemperatureChange dt stack temp) := fun _ _ h => nomatch h
theorem drcTrainingDone (dt : Nat) (ts : List LaneTrain) : Statement (.drcTrainingDone dt ts) := fun _ _ h => nomatch h
theorem channelRetrainDone (dt : Nat) (stack : Nat) (slot : Nat) (ts : List LaneTrain) : Statement (.channelRetrainDone dt stack slot ts) := fun _ _ h => nomatch h
theorem pprDone (dt : Nat) (chan : Nat) (bank : Nat) (row : Nat) : Statement (.pprDone dt chan bank row) := fun _ _ h => nomatch h
theorem drcRetrainChannel (dt : Nat) (e : CmdEntry) : Statement (.drcRetrainChannel dt e) := fun w _ h => CmdEntry.inRange (Option.some.inj h ▸ w)
theorem drcQuarantinePage (dt : Nat) (e : CmdEntry) : Statement (.drcQuarantinePage dt e) := fun w _ h => CmdEntry.inRange (Option.some.inj h ▸ w)
theorem drcReadEyes (dt : Nat) (e : CmdEntry) : Statement (.drcReadEyes dt e) := fun w _ h => CmdEntry.inRange (Option.some.inj h ▸ w)
theorem govSetPolicy (dt : Nat) (e : CmdEntry) : Statement (.govSetPolicy dt e) := fun w _ h => CmdEntry.inRange (Option.some.inj h ▸ w)
theorem govSetVbound (dt : Nat) (e : CmdEntry) : Statement (.govSetVbound dt e) := fun w _ h => CmdEntry.inRange (Option.some.inj h ▸ w)
theorem govStepDescend (dt : Nat) : Statement (.govStepDescend dt) := fun _ _ h => nomatch h
theorem floorMismatchHeld (dt : Nat) : Statement (.floorMismatchHeld dt) := fun _ _ h => nomatch h
theorem thermalTrip (dt : Nat) (site : Nat) : Statement (.thermalTrip dt site) := fun _ _ h => nomatch h
theorem railCurrentLimit (dt : Nat) (quadrant : Nat) (amps : Nat) : Statement (.railCurrentLimit dt quadrant amps) := fun _ _ h => nomatch h
theorem avsEvaluation (dt : Nat) (targets : List Nat) : Statement (.avsEvaluation dt targets) := fun _ _ h => nomatch h
theorem avsTransactionFail (dt : Nat) (quadrant : Nat) : Statement (.avsTransactionFail dt quadrant) := fun _ _ h => nomatch h
theorem govRailLimitWrite (dt : Nat) (quadrant : Nat) (w : RegWrite) : Statement (.govRailLimitWrite dt quadrant w) := fun _ _ h => nomatch h
theorem doorbellWrite (dt : Nat) (ring : Nat) (data : Nat) (posted : List (Nat × Nat)) : Statement (.doorbellWrite dt ring data posted) := fun _ _ h => nomatch h
theorem ringCtrlWrite (dt : Nat) (ring : Nat) (w : RegWrite) : Statement (.ringCtrlWrite dt ring w) := fun _ _ h => nomatch h
theorem ringStopped (dt : Nat) (ring : Nat) : Statement (.ringStopped dt ring) := fun _ _ h => nomatch h
theorem ringReadError (dt : Nat) (ring : Nat) (item : ReadItem) (poisoned : Bool) : Statement (.ringReadError dt ring item poisoned) := fun _ _ h => nomatch h
theorem commandFetch (dt : Nat) (ring : Nat) (raw : List Byte) (e : CmdEntry) : Statement (.commandFetch dt ring raw e) := fun w _ h => CmdEntry.inRange (Option.some.inj h ▸ (Bool.and_eq_true _ _ ▸ w).2)
theorem commandAccept (dt : Nat) (ring : Nat) : Statement (.commandAccept dt ring) := fun _ _ h => nomatch h
theorem txDescriptorFetch (dt : Nat) (ring : Nat) (raw : List Byte) (data : List Byte) : Statement (.txDescriptorFetch dt ring raw data) := fun _ _ h => nomatch h
theorem txDispatch (dt : Nat) (ring : Nat) : Statement (.txDispatch dt ring) := fun _ _ h => nomatch h
theorem eventsLostRecord (dt : Nat) (ring : Nat) : Statement (.eventsLostRecord dt ring) := fun _ _ h => nomatch h
theorem msixRaise (dt : Nat) (ring : Nat) : Statement (.msixRaise dt ring) := fun _ _ h => nomatch h
theorem longOpInterim (dt : Nat) (ring : Nat) (tag : Nat) (pos : Nat) : Statement (.longOpInterim dt ring tag pos) := fun _ _ h => nomatch h
theorem flr (dt : Nat) : Statement (.flr dt) := fun _ _ h => nomatch h
theorem d3hotEntry (dt : Nat) : Statement (.d3hotEntry dt) := fun _ _ h => nomatch h
theorem flrDone (dt : Nat) : Statement (.flrDone dt) := fun _ _ h => nomatch h
theorem ledgerWrite (dt : Nat) : Statement (.ledgerWrite dt) := fun _ _ h => nomatch h
theorem pcieLinkChanged (dt : Nat) (gen : Nat) (width : Nat) : Statement (.pcieLinkChanged dt gen width) := fun _ _ h => nomatch h
theorem glbQuery (dt : Nat) (e : CmdEntry) : Statement (.glbQuery dt e) := fun w _ h => CmdEntry.inRange (Option.some.inj h ▸ w)
theorem glbSnapshot (dt : Nat) (e : CmdEntry) : Statement (.glbSnapshot dt e) := fun w _ h => CmdEntry.inRange (Option.some.inj h ▸ w)
theorem glbBarrier (dt : Nat) (e : CmdEntry) : Statement (.glbBarrier dt e) := fun w _ h => CmdEntry.inRange (Option.some.inj h ▸ w)
theorem barrierRelease (dt : Nat) (ring : Nat) (tag : Nat) : Statement (.barrierRelease dt ring tag) := fun _ _ h => nomatch h
theorem glbHoldOp (dt : Nat) (e : CmdEntry) : Statement (.glbHoldOp dt e) := fun w _ h => CmdEntry.inRange (Option.some.inj h ▸ w)
theorem glbAbort (dt : Nat) (e : CmdEntry) : Statement (.glbAbort dt e) := fun w _ h => CmdEntry.inRange (Option.some.inj h ▸ w)
theorem registerWrite (dt : Nat) (addr : Nat) (len : Nat) (data : Nat) (poisoned : Bool) : Statement (.registerWrite dt addr len data poisoned) := fun _ _ h => nomatch h
theorem loRegisterRead (dt : Nat) (addr : Nat) : Statement (.loRegisterRead dt addr) := fun _ _ h => nomatch h
theorem glbResetCtrlWrite (dt : Nat) (w : RegWrite) : Statement (.glbResetCtrlWrite dt w) := fun _ _ h => nomatch h
theorem warmReset (dt : Nat) (cause : Nat) : Statement (.warmReset dt cause) := fun _ _ h => nomatch h
theorem cntSetMonitor (dt : Nat) (e : CmdEntry) : Statement (.cntSetMonitor dt e) := fun w _ h => CmdEntry.inRange (Option.some.inj h ▸ w)
theorem cntSetEventCounter (dt : Nat) (e : CmdEntry) : Statement (.cntSetEventCounter dt e) := fun w _ h => CmdEntry.inRange (Option.some.inj h ▸ w)
theorem cntSetWindow (dt : Nat) (e : CmdEntry) : Statement (.cntSetWindow dt e) := fun w _ h => CmdEntry.inRange (Option.some.inj h ▸ w)
theorem cntReadCounters (dt : Nat) (e : CmdEntry) : Statement (.cntReadCounters dt e) := fun w _ h => CmdEntry.inRange (Option.some.inj h ▸ w)
theorem autoSnapshot (dt : Nat) : Statement (.autoSnapshot dt) := fun _ _ h => nomatch h
theorem wearEvaluation (dt : Nat) (kind : Nat) (unit : Nat) (value : Nat) : Statement (.wearEvaluation dt kind unit value) := fun _ _ h => nomatch h
theorem autoSubstitutionStart (dt : Nat) (kind : Nat) (unit : Nat) : Statement (.autoSubstitutionStart dt kind unit) := fun _ _ h => nomatch h
theorem subSetThreshold (dt : Nat) (e : CmdEntry) : Statement (.subSetThreshold dt e) := fun w _ h => CmdEntry.inRange (Option.some.inj h ▸ w)
theorem subSetPolicy (dt : Nat) (e : CmdEntry) : Statement (.subSetPolicy dt e) := fun w _ h => CmdEntry.inRange (Option.some.inj h ▸ w)
theorem subSubstitute (dt : Nat) (e : CmdEntry) : Statement (.subSubstitute dt e) := fun w _ h => CmdEntry.inRange (Option.some.inj h ▸ w)
theorem subCopyDone (dt : Nat) (slot : Nat) : Statement (.subCopyDone dt slot) := fun _ _ h => nomatch h
theorem subLaneAgreed (dt : Nat) (slot : Nat) : Statement (.subLaneAgreed dt slot) := fun _ _ h => nomatch h
theorem agreeTimeout (dt : Nat) (slot : Nat) : Statement (.agreeTimeout dt slot) := fun _ _ h => nomatch h
theorem lingerExpiry (dt : Nat) (lane : Nat) : Statement (.lingerExpiry dt lane) := fun _ _ h => nomatch h
theorem bdyPair (dt : Nat) (e : CmdEntry) : Statement (.bdyPair dt e) := fun w _ h => CmdEntry.inRange (Option.some.inj h ▸ w)
theorem bdyRejoin (dt : Nat) (e : CmdEntry) : Statement (.bdyRejoin dt e) := fun w _ h => CmdEntry.inRange (Option.some.inj h ▸ w)
theorem bdyUnpair (dt : Nat) (e : CmdEntry) : Statement (.bdyUnpair dt e) := fun w _ h => CmdEntry.inRange (Option.some.inj h ▸ w)
theorem pairLinkTimeout (dt : Nat) : Statement (.pairLinkTimeout dt) := fun _ _ h => nomatch h
theorem buddyLinkUp (dt : Nat) (b : BuddyId) : Statement (.buddyLinkUp dt b) := fun _ _ h => nomatch h
theorem buddyLinkDown (dt : Nat) (position : Nat) : Statement (.buddyLinkDown dt position) := fun _ _ h => nomatch h
theorem buddyHeartbeatRx (dt : Nat) (h : Heartbeat) : Statement (.buddyHeartbeatRx dt h) := fun _ _ h => nomatch h
theorem buddyBeatEdge (dt : Nat) : Statement (.buddyBeatEdge dt) := fun _ _ h => nomatch h
theorem journalRecordRx (dt : Nat) (r : JournalRecord) : Statement (.journalRecordRx dt r) := fun w _ h => CmdEntry.inRange (Option.some.inj h ▸ w)
theorem journalAckRx (dt : Nat) (a : JournalAck) : Statement (.journalAckRx dt a) := fun _ _ h => nomatch h
theorem completionRecordRx (dt : Nat) (r : BuddyRecord) : Statement (.completionRecordRx dt r) := fun _ _ h => nomatch h
theorem completionRecordAck (dt : Nat) (seq : Nat) : Statement (.completionRecordAck dt seq) := fun _ _ h => nomatch h
theorem buddyFrameRx (dt : Nat) (f : TransitFrame) : Statement (.buddyFrameRx dt f) := fun _ _ h => nomatch h
theorem buddyCreditRx (dt : Nat) (cls : Nat) (cells : Nat) : Statement (.buddyCreditRx dt cls cells) := fun _ _ h => nomatch h
theorem pairSettlement (dt : Nat) : Statement (.pairSettlement dt) := fun _ _ h => nomatch h
theorem linkHeartbeatsMissed (dt : Nat) : Statement (.linkHeartbeatsMissed dt) := fun _ _ h => nomatch h
theorem takeOver (dt : Nat) : Statement (.takeOver dt) := fun _ _ h => nomatch h
theorem takeoverReportWrite (dt : Nat) : Statement (.takeoverReportWrite dt) := fun _ _ h => nomatch h
theorem isolatedHeartbeatsBack (dt : Nat) : Statement (.isolatedHeartbeatsBack dt) := fun _ _ h => nomatch h
theorem buddySkewAlarm (dt : Nat) : Statement (.buddySkewAlarm dt) := fun _ _ h => nomatch h
theorem cfgMismatchHeld (dt : Nat) : Statement (.cfgMismatchHeld dt) := fun _ _ h => nomatch h
theorem rejoinCutover (dt : Nat) : Statement (.rejoinCutover dt) := fun _ _ h => nomatch h
theorem unpairDrained (dt : Nat) : Statement (.unpairDrained dt) := fun _ _ h => nomatch h
theorem prcGetTranscript (dt : Nat) (e : CmdEntry) : Statement (.prcGetTranscript dt e) := fun w _ h => CmdEntry.inRange (Option.some.inj h ▸ w)
theorem prcUpdateFirmware (dt : Nat) (e : CmdEntry) : Statement (.prcUpdateFirmware dt e) := fun w _ h => CmdEntry.inRange (Option.some.inj h ▸ w)
theorem firmwareStaged (dt : Nat) : Statement (.firmwareStaged dt) := fun _ _ h => nomatch h
theorem firmwareActivation (dt : Nat) : Statement (.firmwareActivation dt) := fun _ _ h => nomatch h
theorem prcZeroize (dt : Nat) (e : CmdEntry) : Statement (.prcZeroize dt e) := fun w _ h => CmdEntry.inRange (Option.some.inj h ▸ w)
theorem prcExportAudit (dt : Nat) (e : CmdEntry) : Statement (.prcExportAudit dt e) := fun w _ h => CmdEntry.inRange (Option.some.inj h ▸ w)
theorem prcSealConfig (dt : Nat) (e : CmdEntry) : Statement (.prcSealConfig dt e) := fun w _ h => CmdEntry.inRange (Option.some.inj h ▸ w)
theorem sealDigestChecked (dt : Nat) : Statement (.sealDigestChecked dt) := fun _ _ h => nomatch h
theorem prcGetRandom (dt : Nat) (e : CmdEntry) : Statement (.prcGetRandom dt e) := fun w _ h => CmdEntry.inRange (Option.some.inj h ▸ w)
theorem officerKeyWrite (dt : Nat) (word : Nat) (w : RegWrite) : Statement (.officerKeyWrite dt word w) := fun _ _ h => nomatch h
theorem noiseHealthFail (dt : Nat) (test : Nat) : Statement (.noiseHealthFail dt test) := fun _ _ h => nomatch h
theorem zeroizeNQualified (dt : Nat) : Statement (.zeroizeNQualified dt) := fun _ _ h => nomatch h
theorem zeroizeAttemptDone (dt : Nat) (verified : Bool) : Statement (.zeroizeAttemptDone dt verified) := fun _ _ h => nomatch h
theorem powerOn (dt : Nat) (flashSel : Bool) (flash : List FlashImage) : Statement (.powerOn dt flashSel flash) := fun _ _ h => nomatch h
theorem resetPin (dt : Nat) (flashSel : Bool) (flash : List FlashImage) : Statement (.resetPin dt flashSel flash) := fun _ _ h => nomatch h
theorem railOutOfTolerance (dt : Nat) (rail : Nat) : Statement (.railOutOfTolerance dt rail) := fun _ _ h => nomatch h
theorem refclkLoss (dt : Nat) (aux : Bool) : Statement (.refclkLoss dt aux) := fun _ _ h => nomatch h
theorem refclkPcieLoss (dt : Nat) : Statement (.refclkPcieLoss dt) := fun _ _ h => nomatch h
theorem clockRestored (dt : Nat) : Statement (.clockRestored dt) := fun _ _ h => nomatch h
theorem perstAssert (dt : Nat) : Statement (.perstAssert dt) := fun _ _ h => nomatch h
theorem watchdogExpiry (dt : Nat) : Statement (.watchdogExpiry dt) := fun _ _ h => nomatch h
theorem firmwareVerified (dt : Nat) (bank : Nat) (good : Bool) : Statement (.firmwareVerified dt bank good) := fun _ _ h => nomatch h
theorem selftestsDone (dt : Nat) (failed : Nat) (ms : Nat) : Statement (.selftestsDone dt failed ms) := fun _ _ h => nomatch h
theorem memoryInitDone (dt : Nat) (failed : List (Nat × Nat)) : Statement (.memoryInitDone dt failed) := fun _ _ h => nomatch h
theorem flashSelRelease (dt : Nat) : Statement (.flashSelRelease dt) := fun _ _ h => nomatch h
theorem coreClockStable (dt : Nat) (ok : Bool) : Statement (.coreClockStable dt ok) := fun _ _ h => nomatch h
theorem isolatedHolddownExpiry (dt : Nat) : Statement (.isolatedHolddownExpiry dt) := fun _ _ h => nomatch h
theorem lpiWakeComplete (dt : Nat) (port : Nat) : Statement (.lpiWakeComplete dt port) := fun _ _ h => nomatch h
theorem rxLpiChange (dt : Nat) (port : Nat) (enter : Bool) : Statement (.rxLpiChange dt port enter) := fun _ _ h => nomatch h
theorem flexeOverheadRx (dt : Nat) (port : Nat) (f : FlexeOh) : Statement (.flexeOverheadRx dt port f) := fun _ _ h => nomatch h
theorem zeroizeNChange (dt : Nat) (low : Bool) : Statement (.zeroizeNChange dt low) := fun _ _ h => nomatch h
theorem buddyUpdateRx (dt : Nat) (u : BuddyUpdate) : Statement (.buddyUpdateRx dt u) := fun _ _ h => nomatch h
theorem rejoinDataRx (dt : Nat) (item : RejoinItem) : Statement (.rejoinDataRx dt item) := fun _ _ h => nomatch h
theorem buddyContainerRx (dt : Nat) (k : BuddyContainer) : Statement (.buddyContainerRx dt k) := fun _ _ h => nomatch h

end Laws.EntryFields

end Sys2Proof
end

