-- ==== Sys2Proof/Laws/Step.lean ====
section
/-! SUPPORT. What every arm of exec has in common: time passes, the command has its effect, the monitors look again; the queue stands. -/

namespace Sys2Proof

open Sys2Proof.Machine

theorem act_next (dt : Nat) (f : Dev → Dev) (s : State) :
    ∃ (d : Dev) (as : List Arrival), State.act dt f s = .next { s with dev := { d.settle with arrivals := as } } := ⟨_, _, rfl⟩

theorem arrive_next (dt : Nat) (a : Arrival) (s : State) :
    ∃ (d : Dev) (as : List Arrival), State.arrive dt a s = .next { s with dev := { d.settle with arrivals := as } } := ⟨_, _, rfl⟩

set_option maxRecDepth 4000 in
/-- Whatever the command, the next state is one at which the monitors have just looked, with the queue as it was. -/
theorem exec_settled (i : Instr) (s : State) :
    ∃ (d : Dev) (as : List Arrival), exec i s = .next { s with dev := { d.settle with arrivals := as } } := by
  cases i
  case frameRxHead => exact arrive_next _ _ s
  case frameRxEnd => exact arrive_next _ _ s
  case buddyFrameRx => exact arrive_next _ _ s
  case txDispatch => exact arrive_next _ _ s
  all_goals exact act_next _ _ s

/-- What a monitor watches does not depend on the counters. -/
theorem Dev.occupancy_settle (d : Dev) (k i : Nat) : d.settle.occupancy k i = d.occupancy k i := by
  unfold Dev.occupancy Dev.voqCells Dev.queue Dev.acct Dev.nearFree Dev.nearReserved Dev.sharedUsed Dev.farFree Dev.listPages Dev.idleBad
    Dev.badPages Dev.pageHeld Dev.pageAt Dev.chan Dev.outstanding Dev.ring Dev.prefetch Dev.stack
  simp only [Dev.settle_buf, Dev.settle_ttb, Dev.settle_fwd, Dev.settle_drc, Dev.settle_hif, Dev.settle_glb]

/-- Counters of two monitors are apart (15 R485). -/
theorem cMon_ne {a b x y : Nat} (h : a ≠ b) (hx : x < 2) (hy : y < 2) : cMon a x ≠ cMon b y := by unfold cMon cKey; omega

/-- A row of a module in service gives what its effect gives. -/
theorem Gives.up {i : Instr} {s : State} {P : Dev → Prop} {dt : Nat} {f : Dev → Dev} (x : exec i s = s.actUp dt f)
    (u : Serving s) (h : P (f (s.dev.elapse dt)).settle) : Gives i s P :=
  ⟨_, x.trans (actUp_up u.1 u.2 dt f), rfl, h⟩

/-- A row that acts always gives what its effect gives. -/
theorem Gives.act {i : Instr} {s : State} {P : Dev → Prop} {dt : Nat} {f : Dev → Dev} (x : exec i s = s.act dt f) (q : Quiet s)
    (h : P (f (s.dev.elapse dt)).settle) : Gives i s P := ⟨_, x.trans (act_quiet q dt f), rfl, h⟩

/-- A command row gives what the command's effect on acceptance gives. -/
theorem Gives.command {i : Instr} {s : State} {P : Dev → Prop} {dt : Nat} {sp : CmdSpec} {e : CmdEntry}
    (x : exec i s = s.actUp dt fun d => d.submit sp e) (h : Ready s dt sp e) (p : P (sp.accept (recordOf s dt sp e) (tookUp s dt sp e)).settle) :
    Gives i s P := ⟨_, x.trans (exec_ready h), rfl, p⟩

theorem Only.run {as : List Area} {d x : Dev} (dt : Nat) (o : Only (.time :: tells ++ as) (d.elapse dt) x) :
    Only (.time :: tells ++ as) d x.settle := by
  refine ((Only.elapse d dt).mono ?_).trans (o.trans ((Only.settle _).mono ?_))
  · intro y hy; simp only [List.mem_cons, List.not_mem_nil, or_false] at hy; rcases hy with rfl | rfl <;> simp [tells]
  · intro y hy; simp only [List.mem_cons, List.not_mem_nil, or_false] at hy; subst hy; simp [tells]

/-- A row of a module in service does what its effect does. -/
theorem Does.up {i : Instr} {s : State} {as : List Area} {P : Dev → Prop} {dt : Nat} {f : Dev → Dev} (x : exec i s = s.actUp dt f)
    (u : Serving s) (o : Only (.time :: tells ++ as) (s.dev.elapse dt) (f (s.dev.elapse dt))) (p : P (f (s.dev.elapse dt)).settle) :
    Does i s as P := Gives.up x u ⟨Only.run dt o, p⟩

/-- A row that acts always does what its effect does. -/
theorem Does.act {i : Instr} {s : State} {as : List Area} {P : Dev → Prop} {dt : Nat} {f : Dev → Dev} (x : exec i s = s.act dt f) (q : Quiet s)
    (o : Only (.time :: tells ++ as) (s.dev.elapse dt) (f (s.dev.elapse dt))) (p : P (f (s.dev.elapse dt)).settle) :
    Does i s as P := Gives.act x q ⟨Only.run dt o, p⟩

/-- A commit with no effect on acceptance waits for its bell. -/
theorem accepts_id {r : CommandRow} (x : ∀ dt e s, exec (r.1 dt e) s = s.actUp dt fun d => d.submit r.2 e)
    (k : ∀ c, r.2.kind c = .commit) (a : ∀ c d, r.2.accept c d = d) : AcceptsForItsBell r := by
  intro dt e s h
  obtain ⟨t, h1, h2, h3, h4, h5, h6⟩ := h.commit k a
  exact ⟨t, (x dt e s).trans h1, h2, h3, h5, h4, h6⟩

/-- A commit that on acceptance only notes something in its record waits for its bell. -/
theorem accepts_note {r : CommandRow} (f : Cmd → Dev → Cmd → Cmd)
    (hf : ∀ c d x, (f c d x).e = x.e ∧ (f c d x).op = x.op ∧ (f c d x).mirrored = x.mirrored ∧ (f c d x).stage = x.stage)
    (x : ∀ dt e s, exec (r.1 dt e) s = s.actUp dt fun d => d.submit r.2 e) (k : ∀ c, r.2.kind c = .commit)
    (a : ∀ c d, r.2.accept c d = d.cmdM c (f c d)) : AcceptsForItsBell r := by
  intro dt e s h
  refine Gives.command (x dt e s) h ⟨?_, ?_, ?_, ?_⟩
  · rw [a]
    obtain ⟨f1, f2, f3, f4⟩ := hf (recordOf s dt r.2 e) (tookUp s dt r.2 e) (recordOf s dt r.2 e)
    refine ⟨f (recordOf s dt r.2 e) (tookUp s dt r.2 e) (recordOf s dt r.2 e), ?_, f1.trans rfl, f2.trans rfl, f3.trans rfl, f4.trans ?_⟩
    · rw [Dev.settle_hif]
      change _ ∈ List.map _ (tookUp s dt r.2 e).hif.inflight
      rw [h.inflight]
      exact List.mem_map.2 ⟨recordOf s dt r.2 e, by simp, by simp [Cmd.same]⟩
    · change (match r.2.kind (fetchedCmd s.dev r.2 e) with | .commit => CmdStage.accepted (s.dev.elapse dt).bel.seq | .long => .long | _ => .waiting) = _
      rw [k, Dev.elapse_bel]
  · rw [a, Dev.settle_now]; exact h.tookNow
  · rw [a, Dev.settle_glb]; exact h.tookGlb
  · rw [a]; exact h.tookOnly.trans (((Only.cmdM _ _ _).mono (by decide)).trans ((Only.settle _).mono (by decide)))

/-- A command that ends at once: what is left to show is its effect. -/
theorem completes {i : Instr} {s : State} {dt : Nat} {sp : CmdSpec} {e : CmdEntry} {as : List Area} {r : Nat} {P : Dev → Prop} {d : Dev}
    (x : exec i s = s.actUp dt fun d => d.submit sp e) (h : Ready s dt sp e) (ct : CanTell s e.ring)
    (sh : ∀ c, sp.kind c = .short) (a : sp.accept (recordOf s dt sp e) (tookUp s dt sp e) = d.finish (recordOf s dt sp e) stOk r)
    (k : HostKept (tookUp s dt sp e) d) (o : Only (.time :: .glb :: tells ++ as) (tookUp s dt sp e) d)
    (b : d.bdy.state = s.dev.bdy.state) (p : P (d.finish (recordOf s dt sp e) stOk r).settle) : CompletesAtOnce i sp e s as r P := by
  have cm : (recordOf s dt sp e).mirrored = false := rfl
  have cs : (recordOf s dt sp e).stage ≠ .long := by
    change (match sp.kind (fetchedCmd s.dev sp e) with | .commit => CmdStage.accepted (s.dev.elapse dt).bel.seq | .long => .long | _ => .waiting) ≠ _
    rw [sh]; intro q; cases q
  refine Gives.command x h ?_
  rw [a]
  refine ⟨h.finish ct k b rfl rfl rfl cm cs stOk r, ?_, p⟩
  refine (h.tookOnly.mono ?_).trans (o.trans (((Only.finishSingle d _ _ _ ?_ cm).mono ?_).trans ((Only.settle _).mono ?_)))
  · intro y hy; simp only [List.mem_cons, List.not_mem_nil, or_false] at hy; rcases hy with rfl | rfl | rfl | rfl <;> simp [tells]
  · rw [b]; exact h.pair.1
  · intro y hy; simp only [List.cons_append, List.mem_cons, List.mem_append]; exact .inr (.inr (.inl hy))
  · intro y hy; simp only [List.mem_cons, List.not_mem_nil, or_false] at hy; subst hy; simp [tells]

end Sys2Proof
end

