-- ==== Sys2Proof/Tests/Slice0.lean ====
section
/-! SUPPORT. Our own tests: well-formedness refuses what it should, small steps do what the spec's examples say, and every statement's
hypotheses are met by a concrete state. -/

section

open Sys2Proof Sys2Proof.Machine

/-! ### States and entries for tests -/

/-- A module in service, otherwise as at reset but for a change. -/
def atWork (f : Dev → Dev) : State := { State.reset with dev := f { State.reset.dev with glb := { State.reset.dev.glb with phase := 6 } } }

/-- A port of one lane in UP. -/
def oneUp (n : Nat) (d : Dev) : Dev :=
  (d.portM n fun p => { p with state := .up, speed := 3, lanes := 0 }).laneM n fun l => { l with state := .up, use := 1, port := n }

/-- A port in UP that runs the PTP engines in a role, with its Syncs selected as the source. -/
def ptpPort (role : Nat) : State :=
  atWork fun d => (((oneUp 3 d).timM fun t => { t with hwEn := true }).timPortM 3 fun p => { p with role, seqSync := 65535 }).servoM fun v =>
    { v with srcKind := 1, srcPort := 3, parentClock := 9 }

/-- Command ring 0 and completion ring 0 are RUNNING. -/
def withRings (d : Dev) : Dev := (d.ringM 0 fun r => { r with state := .running }).ringM 32 fun r => { r with state := .running }

/-- `Ready`, as a computation. -/
def readyB (s : State) (dt : Nat) (sp : CmdSpec) (e : CmdEntry) : Bool :=
  decide (s.dev.inService = true) && decide (s.dev.arrivals = []) && decide (e.ring < 32) && decide ((s.dev.ring e.ring).state = .running) &&
    decide ((s.dev.ring e.ring).fetchEnded = false) && decide ((s.dev.ring e.ring).waiting = 0) && s.dev.bindRoom e.ring &&
    decide (s.dev.inflightCount < 4096) && decide (s.dev.unwritten (fun x => x.kind == 0 && x.ring == e.ring) = 0) && decide (∀ c ∈ s.dev.hif.inflight, c.mirrored = true ∨ c.e.ring ≠ e.ring) &&
    decide ((s.dev.ring e.ring).user = false ∨ sp.user = true) && decide (sp.officer = false) &&
    decide ((Dev.fetched (s.dev.elapse dt) sp e).checks sp e = none) &&
    decide (sp.kind (fetchedCmd s.dev sp e) = .long → s.dev.freeProg ≠ none) && decide (e.readFail = false) &&
    decide (s.dev.bdy.state ≠ .paired ∧ s.dev.bdy.state ≠ .syncing ∧ s.dev.pairRefuses sp = false)

theorem ready_of {s : State} {dt : Nat} {sp : CmdSpec} {e : CmdEntry} (h : readyB s dt sp e = true) : Ready s dt sp e := by
  simp only [readyB, Bool.and_eq_true, decide_eq_true_eq] at h
  obtain ⟨⟨⟨⟨⟨⟨⟨⟨⟨⟨⟨⟨⟨⟨⟨a, q⟩, b⟩, c⟩, d⟩, e⟩, f⟩, g⟩, r⟩, i⟩, j⟩, k⟩, l⟩, m⟩, n⟩, o⟩ := h
  exact { up := a, quiet := q, ring := b, running := c, still := d, empty := e, room := f, few := g, fresh := r, alone := i, user := j, officer := k, pass := l, window := m, mem := n, pair := o }

/-- Value of a field of a command entry at its byte and bit. -/
def fd (off lo v : Nat) : Nat := v * 2 ^ (8 * (off - 16) + lo)

/-- A module in service with running rings and lane 3 a port of one lane in UP. -/
def desk (f : Dev → Dev) : State := atWork fun d => f (withRings (oneUp 3 d))

/-- Lane 3 becomes a Zuben port of one lane. -/
def zubenPort (d : Dev) : Dev := d.portM 3 fun p => { p with framing := 1 }

/-- A long command in flight on ring 1. -/
def longCmd : Cmd := { e := { ring := 1, tag := 9 }, op := 0x1102, stage := .long }


/-- A module in service with a Zuben lane 3 in UP. -/
def zub (f : Dev → Dev) : State := desk fun d => f (zubenPort d)

/-- A good frame, sealed by its CRC. -/
def goodZ : ZFrame := { head := overheadBlocks (sealOverhead ([7, 0, 0x5A, 0] ++ List.replicate 18 0)) }

/-- A module in service in a state of its pair. -/
def mate (st : PairState) (f : Bdy → Bdy) : State := desk fun d => d.bdyM fun b => f { b with state := st }

/-- A module that starts up, in a phase of 19 R594. -/
def starting (k : Nat) (f : Dev → Dev) : State := { State.reset with dev := f { State.reset.dev with glb := { State.reset.dev.glb with phase := k } } }

/-- A module in service whose officer key is the sample key. -/
def vault : State := desk fun d => d.prcM fun p => { p with state := .operational, keyState := 2, key := Config.sm2SampleKey }

/-- Header of an officer's extension: version 1, this module's serial and sequence number 1. -/
def officerHeader : List Byte := [1, 0, 0, 0, 0, 0, 0, 0] ++ bytesLE 8 Config.serial ++ [1, 0, 0, 0, 0, 0, 0, 0] ++ List.replicate 40 0

/-- An entry with the officer's signature. -/
def signedBy (op : Nat) (e : CmdEntry) : CmdEntry :=
  { e with ext := true, extBytes := officerHeader ++ Config.padTo 64 (Config.sm2SampleFree (bytesLE 2 op ++ e.bytes 16 48 ++ officerHeader)) }

theorem length_padTo (n : Nat) (l : List Byte) : (Config.padTo n l).length = n := by simp [Config.padTo]

theorem natLE_bytesLE (n : Nat) : ∀ x, natLE (bytesLE n x) = x % 256 ^ n := by
  induction n with
  | zero => intro x; simp [bytesLE, natLE, Nat.mod_one]
  | succ n ih => intro x; simp only [bytesLE, natLE, ih, Nat.pow_succ]; rw [Nat.mul_comm (256 ^ n), Nat.mod_mul]; omega

theorem serial_lt : Config.serial < 256 ^ 8 := by
  unfold Config.serial
  split
  · decide
  · exact Nat.mod_lt _ (by decide)

theorem signed_denied {d : Dev} {op : Nat} {e : CmdEntry} (st : d.prc.state = .operational) (ks : d.prc.keyState = 2)
    (k : d.prc.key = Config.sm2SampleKey) (q : d.prc.officerSeq = 0) : d.officerDenied op (signedBy op e) = none := by
  have hl : officerHeader.length = 64 := rfl
  have h1 : natLE ((((signedBy op e).extBytes).drop 8).take 8) = Config.serial := by
    have : (((signedBy op e).extBytes).drop 8).take 8 = bytesLE 8 Config.serial := rfl
    rw [this, natLE_bytesLE, Nat.mod_eq_of_lt serial_lt]
  have h2 : ((signedBy op e).extBytes).length = 128 := by simp [signedBy, hl, length_padTo]
  have h3 : natLE ((signedBy op e).extBytes.take 2) = 1 := rfl
  have h4 : natLE ((((signedBy op e).extBytes).drop 16).take 8) = 1 := rfl
  have h5 : (signedBy op e).extBytes.take 64 = officerHeader := by simp [signedBy, hl]
  have h6 : ((signedBy op e).extBytes.drop 64).take 64 =
      Config.padTo 64 (Config.sm2SampleFree (bytesLE 2 op ++ (signedBy op e).bytes 16 48 ++ officerHeader)) := by
    have : (signedBy op e).extBytes.drop 64 = Config.padTo 64 (Config.sm2SampleFree (bytesLE 2 op ++ e.bytes 16 48 ++ officerHeader)) := by
      simp [signedBy, hl]
    rw [this, List.take_of_length_le (Nat.le_of_eq (length_padTo 64 _))]
    rfl
  have h7 : (signedBy op e).ext = true := rfl
  unfold Dev.officerDenied
  simp only [st, ks, k, q, h1, h2, h3, h4, h5, h6, h7, Config.sm2Verify]
  simp

theorem officerStep_passed {d : Dev} {op : Nat} {e : CmdEntry} (h : d.officerDenied op e = none)
    (n : natLE ((e.extBytes.drop 16).take 8) = 1) :
    (d.officerStep op e).1 = ((d.prcM fun p => { p with officerSeq := 1 }).audit 6 op 1).count (cDev 312) 1 := by
  unfold Dev.officerStep
  rw [h]
  simp only [n]

/-- `Signed` at `vault`. -/
theorem signed_of {sp : CmdSpec} {e : CmdEntry} (f : Fetchable vault sp (signedBy sp.op e)) (o : sp.officer = true)
    (q : (Dev.fetched (vault.dev.elapse 1) sp (signedBy sp.op e)).prc = vault.dev.prc)
    (p : ((((Dev.fetched (vault.dev.elapse 1) sp (signedBy sp.op e)).prcM fun p => { p with officerSeq := 1 }).audit 6 sp.op 1).count (cDev 312) 1).checks sp
      (signedBy sp.op e) = none) : Signed vault 1 sp (signedBy sp.op e) := by
  have v : (Dev.fetched (vault.dev.elapse 1) sp (signedBy sp.op e)).officerDenied sp.op (signedBy sp.op e) = none :=
    signed_denied (by rw [q]; rfl) (by rw [q]; rfl) (by rw [q]; rfl) (by rw [q]; rfl)
  refine { toFetchable := f, officer := o, valid := v, pass := ?_ }
  rw [officerStep_passed v rfl]
  exact p

/-- A command of an entry that won its conflicts for the next bell. -/
def wonCmd (sp : CmdSpec) (e : CmdEntry) (s : State) : Cmd := { e, op := sp.op, stage := .won (s.dev.bel.seq + 1) }

/-- The same state with its clock running and one command due at the next bell. -/
def withDue (sp : CmdSpec) (e : CmdEntry) (s : State) : State :=
  { s with dev := (s.dev.bootM fun b => { b with clockOn := true }).hifM fun h => { h with inflight := [wonCmd sp e s] } }

/-- The module as the bell of `withDue` finds it at the command's place. -/
def dueDev (sp : CmdSpec) (e : CmdEntry) (s : State) : Dev := bellUpTo (bellStart (withDue sp e s) 5) {} (.ofRank sp.rank)

/-- A commit can be taken up, and a bell can come to it. -/
theorem commit_met {sp : CmdSpec} {H : Cmd → Dev → Prop} (e : CmdEntry) (s : State) (r : readyB s 1 sp e = true)
    (b : Rings (withDue sp e s) 5 ∧ (dueDev sp e s).hif.inflight.filter (dueDev sp e s).isDue = [wonCmd sp e s])
    (h : H (wonCmd sp e s) (dueDev sp e s)) :
    ∃ (e : CmdEntry) (s : State), Ready s 1 sp e ∧ ∃ (t : State) (i : BellInput) (c : Cmd) (d : Dev), c.op = sp.op ∧ H c d ∧ DueAt t 5 i sp c d :=
  ⟨e, s, ready_of r, withDue sp e s, {}, wonCmd sp e s, dueDev sp e s, rfl, h, b.1, rfl, b.2⟩

/-- A command of ring 0 in flight. -/
def standing (op body : Nat) (st : CmdStage) : Cmd := { e := { tag := 5, body }, op, stage := st }

/-- A module in service with its clock running and one command in flight. -/
def holds (c : Cmd) (f : Dev → Dev) : State := desk fun d => f ((d.bootM fun b => { b with clockOn := true }).hifM fun h => { h with inflight := [c] })

/-- The sixteen positions of the buddy link are held by lanes in SYNC. -/
def wholeLink (d : Dev) : Dev :=
  { d with lne := { d.lne with lanes := (List.range 16).map fun k => (buddyIx k, { state := .up }) }
           zbn := { d.zbn with lanes := (List.range 16).map fun k => (buddyIx k, { align := .sync }) } }

/-! ### Well-formedness: an ill-formed term for each check, which the check refuses -/

theorem test_ill_formed_entries : ([{ ring := 32 }, { tag := 4096 }, { cookie := 2 ^ 32 }, { extBytes := [256] }, { mem := [256] },
    { ext := true, extBytes := [1] }] : List CmdEntry).all (fun e => !e.wf) = true := by decide

theorem test_ill_formed_body (v : Nat) (h : 2 ^ 384 ≤ v) : ({ body := v } : CmdEntry).wf = false := by
  simp only [CmdEntry.wf, Bool.and_eq_false_iff, decide_eq_false_iff_not]
  exact .inl (.inl (.inl (.inr (Nat.not_lt.2 h))))

theorem test_ill_formed_register_writes : ([{ off := 16 }, { len := 0 }, { off := 13, len := 4 }, { len := 1, data := 256 }] : List RegWrite).all
    (fun w => !w.wf) = true := by decide

theorem test_ill_formed_frames : octets [256] = false ∧ ({ hdr := 4 } : Block).wf = false ∧ ({ content := 2 ^ 64 } : Block).wf = false ∧
    ({ head := [{}] } : ZFrame).wf = false ∧ ({ head := List.replicate 4 { hdr := 4 } } : ZFrame).wf = false ∧
    ({ head := List.replicate 4 {}, payload := [{ hdr := 4 }] } : ZFrame).wf = false ∧ ({ group := 2 ^ 20 } : FlexeOh).wf = false ∧
    ({ phy := 256 } : FlexeOh).wf = false ∧ ({ map := [256] } : FlexeOh).wf = false ∧ ({ calA := 2 ^ 20 } : FlexeOh).wf = false ∧
    ({ calB := 2 ^ 20 } : FlexeOh).wf = false ∧ ({ data := [256] } : FrameHead).wf = false ∧
    ({ blocks := [{ hdr := 4 }] } : BuddyContainer).wf = false ∧ ({ cond := 32 } : BuddyContainer).wf = false := by decide

theorem test_ill_formed_messages : ({ data := [256] } : TransitFrame).wf = false ∧ ({ dest := 1024 } : TransitFrame).wf = false ∧
    ({ dest := 16384, isGroup := true } : TransitFrame).wf = false ∧ ({ stream := some 4096 } : TransitFrame).wf = false ∧
    ({ ingress := 1024 } : TransitFrame).wf = false ∧ ({ domain := 256 } : SyncMsg).wf = false ∧ ({ data := [256] } : SyncMsg).wf = false ∧
    ({ domain := 256 } : DelayReq).wf = false ∧ ({ data := [256] } : DelayReq).wf = false ∧ ({ domain := 256 } : DelayResp).wf = false ∧
    ({ data := [256] } : DelayResp).wf = false ∧ (BuddyUpdate.learn (2 ^ 48) 0 0 0).wf = false ∧ (BuddyUpdate.learn 0 4096 0 0).wf = false ∧
    (BuddyUpdate.learn 0 0 1024 0).wf = false ∧ (BuddyUpdate.hit 0 4096).wf = false ∧ (BuddyUpdate.remove (2 ^ 48) 0).wf = false ∧
    (BuddyUpdate.remove 0 4096).wf = false ∧ (BuddyUpdate.shadow (2 ^ 16) 0).wf = false ∧ (BuddyUpdate.fate 0 false 0 (2 ^ 64)).wf = false := by
  decide

theorem test_ill_formed_update_body (v : Nat) (h : 2 ^ 384 ≤ v) : (BuddyUpdate.shadow 0 v).wf = false := by
  simp only [BuddyUpdate.wf, Bool.and_eq_false_iff, decide_eq_false_iff_not]
  exact .inr (Nat.not_lt.2 h)

theorem test_ill_formed_payload (z : ZFrame) (h : 20480 < z.payload.length) : z.wf = false := by
  simp only [ZFrame.wf, Bool.and_eq_false_iff, decide_eq_false_iff_not]
  exact .inl (.inr (by omega))

theorem test_ill_formed_others : ({ bank := 32 } : BurstAt).wf = false ∧ ({ row := 2 ^ 15 } : BurstAt).wf = false ∧ (EccOutcome.corrected 10).wf = false ∧
    ({ tag := 4096 } : JournalAck).wf = false ∧ ({ image := [256] } : FlashImage).wf = false ∧ ({ wrPass := 2 ^ 128 } : LaneTrain).wf = false ∧
    ({ rdPass := 2 ^ 128 } : LaneTrain).wf = false := by
  decide

theorem test_ill_formed_register_data (v : Nat) (h : 2 ^ 512 ≤ v) : (Instr.registerWrite 0 0 0 v false).wf = false := by
  simp only [Instr.wf, Bool.and_eq_false_iff, decide_eq_false_iff_not]
  exact .inr (Nat.not_lt.2 h)

theorem test_ill_formed_commands_1 : ([
    .belSetPeriod 0 { ring := 32 }, .belSetPassing 0 { ring := 32 }, .belSetBudget 0 { ring := 32 }, .belRealign 0 { ring := 32 },
    .belCtrlWrite 0 { off := 16 }, .timSetPort 0 { ring := 32 }, .timSelectSource 0 { ring := 32 }, .timSetHoldover 0 { ring := 32 },
    .timSetSynce 0 { ring := 32 }, .timSetTime 0 { ring := 32 }, .timFeedOffset 0 { ring := 32 }, .syncRx 0 { port := 1024 },
    .delayReqRx 0 { port := 1024 }, .delayRespRx 0 { port := 1024 }, .pdelayReqRx 0 { port := 1024 }, .pdelayRespRx 0 { port := 1024 },
    .syncTxTimer 0 1024, .delayReqTxTimer 0 1024, .pdelayReqTxTimer 0 1024, .todLineRx 0 [256], .lneFormPort 0 { ring := 32 },
    .lneDissolvePort 0 { ring := 32 }, .lnePinTaps 0 { ring := 32 }, .laneSignalDetected 0 1170] : List Instr).all (fun i => !i.wf) = true := by decide

theorem test_ill_formed_commands_2 : ([
    .anResolved 0 1170 false, .trainingComplete 0 1170, .trainingTimeout 0 1170, .adaptationComplete 0 1170, .adaptationTimeout 0 1170,
    .lockAchieved 0 1170, .lockTimeout 0 1170, .laneLinkLoss 0 1170, .eyeMeasurement 0 [{ lane := 1170 }],
    .macSetPortState 0 { ring := 32 }, .macSetFlowControl 0 { ring := 32 }, .macSetLpi 0 { ring := 32 }, .macSetFrame 0 { ring := 32 },
    .lanesPowered 0 1024, .portUpQualified 0 1024, .faultRx 0 1024 false false, .holdDownExpiry 0 1024, .portFlushEnd 0 1024,
    .portEmpty 0 1024, .powerDownComplete 0 1024, .portMismatchHeld 0 1024, .macControlFrameRx 0 1024 [], .macControlFrameRx 0 0 [256],
    .pauseTimerExpiry 0 1024] : List Instr).all (fun i => !i.wf) = true := by decide

theorem test_ill_formed_commands_3 : ([
    .flowControlFrameTx 0 1024, .flowControlRepeat 0 1024, .lpiIdleHoldExpiry 0 1024, .lpiPreBellWake 0 1024,
    .frameRxHead 0 { port := 1024 }, .frameRxEnd 0 { port := 1024 }, .egressSelect 0 1024, .frameTxEnd 0 1024, .shaperRefill 0 1024,
    .schSetQueue 0 { ring := 32 }, .schSetPort 0 { ring := 32 }, .schReadPort 0 { ring := 32 },
    .zubenFrameRx 0 1170 { head := List.replicate 4 {} }, .zubenFrameRx 0 0 {}, .zubenFrameTx 0 1024,
    .candidateCreated 0 1170 0 { head := List.replicate 4 {} }, .candidateCreated 0 0 0 {},
    .candidateCheck 0 1170 0 0 { head := List.replicate 4 {} }, .candidateCheck 0 0 0 0 {}, .syncLoss 0 1170, .bipWindowEnd 0 1170 false,
    .handshakeAckDeadline 0 1024, .nakSentThree 0 1024, .pageMismatchHeld 0 1024] : List Instr).all (fun i => !i.wf) = true := by decide

theorem test_ill_formed_commands_4 : ([
    .mgmtFrameRx 0 1024 [] false, .mgmtFrameRx 0 0 [256] false, .mgmtFrameSent 0 1024, .flexeCalendarSwitch 0 1024,
    .flexeAckTimeout 0 1024, .zbnSetLane 0 { ring := 32 }, .zbnSetSlotTrace 0 { ring := 32 }, .zbnReadPm 0 { ring := 32 },
    .zbnReadTrace 0 { ring := 32 }, .zbnSendMgmt 0 { ring := 32 }, .zbnSetFlexe 0 { ring := 32 }, .ttbWriteSlot 0 { ring := 32 },
    .ttbWriteSeats 0 { ring := 32 }, .ttbSwitchPage 0 { ring := 32 }, .ttbCopyPage 0 { ring := 32 }, .ttbSetProtection 0 { ring := 32 },
    .ttbProtectCommand 0 { ring := 32 }, .ttbReadPage 0 { ring := 32 }, .armTimeout 0 1024, .holdOffExpiry 0 2048 false,
    .wtrExpiry 0 2048, .protUnalignedTimer 0 2048, .protCopyFailedTimer 0 2048 false, .rxMismatchHeld 0 1024] : List Instr).all (fun i => !i.wf) = true := by decide

theorem test_ill_formed_commands_5 : ([
    .prsWriteProfile 0 { ring := 32 }, .prsWritePortMap 0 { ring := 32 }, .prsWriteEtypes 0 { ring := 32 },
    .prsWriteRule 0 { ring := 32 }, .prsSetMember 0 { ring := 32 }, .prsDiscardStaged 0 { ring := 32 }, .prsCommit 0 { ring := 32 },
    .prsSetMeter 0 { ring := 32 }, .prsReadRule 0 { ring := 32 }, .prsReadMeter 0 { ring := 32 }, .fwdWriteFdb 0 { ring := 32 },
    .fwdDeleteFdb 0 { ring := 32 }, .fwdFlushFdb 0 { ring := 32 }, .fdbFlushDone 0 32 0, .fdbFlushDone 0 0 4096,
    .fwdReadFdb 0 { ring := 32 }, .fwdSetVlan 0 { ring := 32 }, .fwdSetPort 0 { ring := 32 }, .fwdSetClassMap 0 { ring := 32 },
    .fwdSetGroup 0 { ring := 32 }, .fwdSetStream 0 { ring := 32 }, .fwdSetMirror 0 { ring := 32 }, .fwdSetRecorder 0 { ring := 32 },
    .fwdFreezeRecorder 0 { ring := 32 }] : List Instr).all (fun i => !i.wf) = true := by decide

theorem test_ill_formed_commands_6 : ([
    .fwdRearmRecorder 0 { ring := 32 }, .fwdReadRecorder 0 { ring := 32 }, .recorderReadDone 0 8, .recorderPostDone 0 8,
    .agerVisit 0 1048576, .frerResetTimer 0 4096, .bufSetAdmit 0 { ring := 32 }, .bufSetSpill 0 { ring := 32 },
    .bufRollCall 0 { ring := 32 }, .rollCallDone 0 [{ store := 2 }], .bufSetVoq 0 { ring := 32 }, .spillPageAck 0 16384,
    .recallPageReturn 0 16384, .dramReadReturn 0 { chan := 544 } .scrubber .clean, .dramReadReturn 0 {} .scrubber (.corrected 10),
    .refreshDue 0 544 0 false, .refreshDue 0 0 32 false, .scrubRead 0 { chan := 544 } .clean, .scrubRead 0 {} (.corrected 10),
    .stackTemperatureChange 0 16 0, .stackTemperatureChange 0 0 256, .drcTrainingDone 0 [{ lane := 2720 }], .channelRetrainDone 0 16 0 [],
    .channelRetrainDone 0 0 32 []] : List Instr).all (fun i => !i.wf) = true := by decide

theorem test_ill_formed_commands_7 : ([
    .channelRetrainDone 0 0 0 [{ lane := 2720 }], .pprDone 0 544 0 0, .pprDone 0 0 32 0, .pprDone 0 0 0 (2 ^ 15),
    .drcRetrainChannel 0 { ring := 32 }, .drcQuarantinePage 0 { ring := 32 }, .drcReadEyes 0 { ring := 32 },
    .govSetPolicy 0 { ring := 32 }, .govSetVbound 0 { ring := 32 }, .thermalTrip 0 64, .railCurrentLimit 0 4 0, .avsTransactionFail 0 4,
    .govRailLimitWrite 0 4 {}, .govRailLimitWrite 0 0 { off := 16 }, .doorbellWrite 0 200 0 [], .doorbellWrite 0 0 (2 ^ 32) [],
    .doorbellWrite 0 0 0 [(2 ^ 64, 0)], .ringCtrlWrite 0 200 {}, .ringCtrlWrite 0 0 { off := 16 }, .ringStopped 0 200,
    .ringReadError 0 200 (.entry 0) false, .commandFetch 0 32 [] {}, .commandFetch 0 0 [256] {}, .commandFetch 0 0 [] { ring := 32 }] : List Instr).all (fun i => !i.wf) = true := by decide

theorem test_ill_formed_commands_8 : ([
    .commandAccept 0 32, .txDescriptorFetch 0 64 [] [], .txDescriptorFetch 0 0 [256] [], .txDescriptorFetch 0 0 [] [256],
    .txDispatch 0 64, .eventsLostRecord 0 8, .msixRaise 0 200, .longOpInterim 0 32 0 0, .longOpInterim 0 0 4096 0, .pcieLinkChanged 0 8 0,
    .pcieLinkChanged 0 0 17, .glbQuery 0 { ring := 32 }, .glbSnapshot 0 { ring := 32 }, .glbBarrier 0 { ring := 32 },
    .barrierRelease 0 32 0, .barrierRelease 0 0 4096, .glbHoldOp 0 { ring := 32 }, .glbAbort 0 { ring := 32 },
    .registerWrite 0 (2 ^ 24) 0 0 false, .registerWrite 0 0 65 0 false, .loRegisterRead 0 (2 ^ 24), .glbResetCtrlWrite 0 { off := 16 },
    .warmReset 0 6, .cntSetMonitor 0 { ring := 32 }] : List Instr).all (fun i => !i.wf) = true := by decide

theorem test_ill_formed_commands_9 : ([
    .cntSetEventCounter 0 { ring := 32 }, .cntSetWindow 0 { ring := 32 }, .cntReadCounters 0 { ring := 32 }, .wearEvaluation 0 8 0 0,
    .wearEvaluation 0 0 (2 ^ 16) 0, .autoSubstitutionStart 0 8 0, .autoSubstitutionStart 0 0 (2 ^ 16), .subSetThreshold 0 { ring := 32 },
    .subSetPolicy 0 { ring := 32 }, .subSubstitute 0 { ring := 32 }, .subCopyDone 0 8, .subLaneAgreed 0 8, .agreeTimeout 0 8,
    .lingerExpiry 0 1170, .bdyPair 0 { ring := 32 }, .bdyRejoin 0 { ring := 32 }, .bdyUnpair 0 { ring := 32 }, .buddyLinkDown 0 17,
    .journalRecordRx 0 { entry := { tag := 4096 } }, .journalAckRx 0 { ring := 32 }, .completionRecordAck 0 (2 ^ 64),
    .buddyFrameRx 0 { cls := 16 }, .buddyCreditRx 0 16 0, .prcGetTranscript 0 { ring := 32 }] : List Instr).all (fun i => !i.wf) = true := by decide

theorem test_ill_formed_commands_10 : ([
    .prcUpdateFirmware 0 { ring := 32 }, .prcZeroize 0 { ring := 32 }, .prcExportAudit 0 { ring := 32 }, .prcSealConfig 0 { ring := 32 },
    .prcGetRandom 0 { ring := 32 }, .officerKeyWrite 0 16 {}, .officerKeyWrite 0 0 { off := 16 }, .noiseHealthFail 0 7,
    .powerOn 0 false [{ bank := 3 }], .resetPin 0 false [{ bank := 3 }], .railOutOfTolerance 0 16, .firmwareVerified 0 2 false,
    .lpiWakeComplete 0 1024, .rxLpiChange 0 1024 false, .flexeOverheadRx 0 1024 {}, .flexeOverheadRx 0 0 { phy := 256 },
    .buddyUpdateRx 0 (.hit (2 ^ 48) 0), .buddyContainerRx 0 { index := 2048 }] : List Instr).all (fun i => !i.wf) = true := by decide

/-! ### Small steps -/

/-- The state after a command. -/
def after (i : Instr) (s : State) : State :=
  match exec i s with
  | .next t => t
  | _ => s

/-- BEL_CTRL holds slew 8 and guard 16, and step_en. -/
def belSet (slew guard : Nat) (en : Bool) : State := atWork fun d => d.belM fun b => { b with slew, guard, stepEn := en }

-- 14, "Example: aliases, widths and a lock", steps 1 to 6, 9 and 10.
theorem test_belCtrl_reset : (atWork id).dev.readDword 0x200000 = 0x11004 := by decide
theorem test_belCtrl_masked : (after (.registerWrite 4 0x20000C 4 0x00FF0008 false) (atWork id)).dev.readDword 0x200000 = 0x11008 := by decide
theorem test_belCtrl_clear : (after (.registerWrite 4 0x200008 4 0x10000 false) (belSet 8 16 true)).dev.readDword 0x200000 = 0x1008 := by decide
theorem test_belCtrl_byte : (after (.registerWrite 4 0x200001 1 0x20 false) (belSet 8 16 false)).dev.readDword 0x200000 = 0x1008 := by decide
theorem test_belCtrl_set : (after (.registerWrite 4 0x200004 4 0x100 false) (belSet 8 16 false)).dev.readDword 0x200000 = 0x1108 := by decide
theorem test_belCtrl_wide : (after (.registerWrite 4 0x200000 8 0x100011004 false) (belSet 8 17 false)).dev.readDword 0x200000 = 0x11005 := by decide
theorem test_drcBatch_clamp : (after (.registerWrite 4 0xC00010 4 0x1050 false) (atWork id)).dev.readDword 0xC00010 = 0x1040 := by decide
theorem test_railLimit_locks : let s := after (.govRailLimitWrite 4 2 { data := 0xFA }) (atWork id)
    s.dev.readDword 0xD10020 = 0xC8 ∧ s.dev.glb.railLocks = [2] := by decide
theorem test_railLimit_locked : (after (.registerWrite 4 0xD1002C 4 0x03FF0096 false)
    (atWork fun d => d.glbM fun g => { g with railLocks := [2] })).dev.quad 2 = (atWork id).dev.quad 2 := by decide

-- 00, "Example: locating port 520": the queue of class 13 on port 520 has index 8,333.
theorem test_queue_index : qIx 520 13 = 8333 := by decide

-- 07, "Example: recovering a stream over two paths": rows A 103, B 102 and the first of A 105.
theorem test_frer_ahead : let d := ((atWork fun d => d.streamM 7 fun x => { x with histM1 := 3, hist := 15, num := 101, takeAny := false }).dev.recoverSeq 7 103).2
    (d.stream 7).num = 103 ∧ (d.stream 7).hist = 0b1101 := by decide
theorem test_frer_behind : let r := (atWork fun d => d.streamM 7 fun x => { x with histM1 := 3, hist := 0b1101, num := 103, takeAny := false }).dev.recoverSeq 7 102
    r.1 = .pass ∧ (r.2.stream 7).num = 103 ∧ (r.2.stream 7).hist = 15 := by decide
theorem test_frer_again : ((atWork fun d => d.streamM 7 fun x => { x with histM1 := 3, hist := 15, num := 103, takeAny := false }).dev.recoverSeq 7 103).1 = .eliminate := by
  decide

-- 06, "Example: a burst through a two-rate meter": frames 1, 21 and 41.
theorem test_meter_colors : ({ mode := 1, tc := 20000 * 256, te := 40000 * 256 } : Meter).color 1000 false = 0 ∧
    ({ mode := 1, tc := 25 * 256, te := 20000 * 256 } : Meter).color 1000 false = 1 ∧
    ({ mode := 1, tc := 25 * 256, te := 40 * 256 } : Meter).color 1000 false = 2 := by decide

-- 02, "Example: deriving the passing window": D of 265.25 ns gives a reference delay of 412.0 ns.
theorem test_reference_delay : ((atWork fun d => d.timPortM 8 fun p => { p with asym := 8, ingLat := 386, egrLat := 193 }).dev.delaySample 8
    (2 * q16 1061)).refDelayNs 8 = 412 := by decide


-- 13, "Example: one period of mixed commands": BEL.SET_BUDGET with class 11 is rejected with result 0x1010.
theorem test_budget_class : (Dev.fetched (zub id).dev belSetBudget { body := fd 16 0 3 + fd 16 16 11 }).checks belSetBudget
    { body := fd 16 0 3 + fd 16 16 11 } = some (stRejected, 0x1010) := by decide

-- The row of the table with no bits, and the module that idles.
theorem test_no_word : decodeTableWord 0 0 = none := rfl
theorem test_idles : step State.reset = .next State.reset := rfl

/-! ### Hypotheses that are met -/

theorem witness_StepRunsTheFrontCommand_1 : ∃ s : State, s.pending = [] := ⟨State.reset, rfl⟩

theorem witness_OutOfServiceOnlyTimePasses_1 : ∃ (i : Instr) (s : State), ActsAlways i = false ∧ s.dev.inService = false :=
  ⟨.cyclicGuardEnd 1, State.reset, by decide, by decide⟩

theorem witness_EveryStepKeepsThePeaks_1 : ∃ s t : State, PeaksHold s.dev ∧ s.dev.cnt.monitors ≠ [] ∧ step s = .next t :=
  ⟨atWork fun d => { d with cnt := { d.cnt with monitors := [(0, { en := true, kind := 6 })] } }, _, fun _ p h _ => by
    obtain rfl := List.mem_singleton.1 h; decide, by decide, rfl⟩

theorem witness_ArrivalsAreDecidedFirst_1 : ∃ (i : Instr) (s : State), (∀ dt h, i ≠ .frameRxHead dt h) ∧ (∀ dt r, i ≠ .frameRxEnd dt r) ∧
    (∀ dt f, i ≠ .buddyFrameRx dt f) ∧ (∀ dt r, i ≠ .txDispatch dt r) ∧ s.dev.arrivals ≠ [] :=
  ⟨.cyclicGuardEnd 1, desk fun d => { d with arrivals := [.tx 0] }, by simp, by simp, by simp, by simp, by decide⟩

theorem witness_ArrivalsStandInTheirOrder_1 : ∃ (i : Instr) (dt : Nat) (a : Arrival) (s : State),
    (∃ r, i = .txDispatch dt r ∧ a = .tx r) ∧ InOrder s.dev.arrivals ∧ s.dev.arrivals.length = 2 ∧ s.dev.cycleEnds dt = false :=
  ⟨.txDispatch 0 3, 0, .tx 3, desk fun d => { d with arrivals := [.tx 0, .head { port := 4 }] }, ⟨3, rfl, rfl⟩, ⟨by decide, by decide, trivial⟩, by decide, by decide⟩

theorem witness_BellAndSchedulerCommits_1 : ∃ (e : CmdEntry) (s : State), Ready s 1 belSetPassing e ∧
    ∃ (t : State) (i : BellInput) (c : Cmd) (d : Dev), c.op = belSetPassing.op ∧ (fun _ _ => True) c d ∧ DueAt t 5 i belSetPassing c d :=
  commit_met (sp := belSetPassing) (H := fun _ _ => True) ({ body := fd 16 0 3 }) (zub id) (by decide) (by decide) (by decide)

theorem witness_BellAndSchedulerCommits_2 : ∃ (e : CmdEntry) (s : State), Ready s 1 belSetBudget e ∧
    ∃ (t : State) (i : BellInput) (c : Cmd) (d : Dev), c.op = belSetBudget.op ∧ (fun c _ => 12 ≤ classField c.e) c d ∧ DueAt t 5 i belSetBudget c d :=
  commit_met (sp := belSetBudget) (H := fun c _ => 12 ≤ classField c.e) ({ body := fd 16 0 3 + fd 16 16 12 }) (zub id) (by decide) (by decide) (by decide)

theorem witness_BellAndSchedulerCommits_3 : ∃ (e : CmdEntry) (s : State), Ready s 1 schSetQueue e ∧
    ∃ (t : State) (i : BellInput) (c : Cmd) (d : Dev), c.op = schSetQueue.op ∧ (fun _ _ => True) c d ∧ DueAt t 5 i schSetQueue c d :=
  commit_met (sp := schSetQueue) (H := fun _ _ => True) ({ body := fd 16 0 3 }) (zub id) (by decide) (by decide) (by decide)

theorem witness_BellAndSchedulerCommits_4 : ∃ (e : CmdEntry) (s : State), Ready s 1 schSetPort e ∧
    ∃ (t : State) (i : BellInput) (c : Cmd) (d : Dev), c.op = schSetPort.op ∧ (fun _ _ => True) c d ∧ DueAt t 5 i schSetPort c d :=
  commit_met (sp := schSetPort) (H := fun _ _ => True) ({ body := fd 16 0 3 }) (zub id) (by decide) (by decide) (by decide)

theorem witness_PortCommits_1 : ∃ (e : CmdEntry) (s : State), Ready s 1 lneFormPort e ∧
    ∃ (t : State) (i : BellInput) (c : Cmd) (d : Dev), c.op = lneFormPort.op ∧ (fun _ _ => True) c d ∧ DueAt t 5 i lneFormPort c d :=
  commit_met (sp := lneFormPort) (H := fun _ _ => True) ({ body := fd 16 0 8 + fd 16 20 1 + fd 16 26 1 }) (zub id) (by decide) (by decide) (by decide)

theorem witness_PortCommits_2 : ∃ (e : CmdEntry) (s : State), Ready s 1 lneDissolvePort e ∧
    ∃ (t : State) (i : BellInput) (c : Cmd) (d : Dev), c.op = lneDissolvePort.op ∧ (fun c d => d.mayDissolve (d.portField c.e) = true) c d ∧ DueAt t 5 i lneDissolvePort c d :=
  commit_met (sp := lneDissolvePort) (H := fun c d => d.mayDissolve (d.portField c.e) = true) ({ body := fd 16 0 3 }) (desk fun d => d.portM 3 fun p => { p with state := .disabled }) (by decide) (by decide) (by decide)

theorem witness_TimetableCommits_1 : ∃ (e : CmdEntry) (s : State), Ready s 1 ttbWriteSlot e ∧
    ∃ (t : State) (i : BellInput) (c : Cmd) (d : Dev), c.op = ttbWriteSlot.op ∧ (fun c d => d.isZuben (d.laneField c.e) = true ∧ d.armed (d.laneField c.e) = false ∧ d.badIndex c.e = false) c d ∧ DueAt t 5 i ttbWriteSlot c d :=
  commit_met (sp := ttbWriteSlot) (H := fun c d => d.isZuben (d.laneField c.e) = true ∧ d.armed (d.laneField c.e) = false ∧ d.badIndex c.e = false) ({ body := fd 16 0 3 }) (zub id) (by decide) (by decide) (by decide)

theorem witness_TimetableCommits_2 : ∃ (e : CmdEntry) (s : State), Ready s 1 ttbWriteSeats e ∧
    ∃ (t : State) (i : BellInput) (c : Cmd) (d : Dev), c.op = ttbWriteSeats.op ∧ (fun c d => d.isZuben (d.laneField c.e) = true ∧ d.armed (d.laneField c.e) = false) c d ∧ DueAt t 5 i ttbWriteSeats c d :=
  commit_met (sp := ttbWriteSeats) (H := fun c d => d.isZuben (d.laneField c.e) = true ∧ d.armed (d.laneField c.e) = false) ({ body := fd 16 0 3 }) (zub id) (by decide) (by decide) (by decide)

theorem witness_TimetableCommits_3 : ∃ (e : CmdEntry) (s : State), Ready s 1 ttbCopyPage e ∧
    ∃ (t : State) (i : BellInput) (c : Cmd) (d : Dev), c.op = ttbCopyPage.op ∧ (fun c d => d.isZuben (d.laneField c.e) = true ∧ d.armed (d.laneField c.e) = false) c d ∧ DueAt t 5 i ttbCopyPage c d :=
  commit_met (sp := ttbCopyPage) (H := fun c d => d.isZuben (d.laneField c.e) = true ∧ d.armed (d.laneField c.e) = false) ({ body := fd 16 0 3 }) (zub id) (by decide) (by decide) (by decide)

theorem witness_TimetableCommits_4 : ∃ (e : CmdEntry) (s : State), Ready s 1 ttbSetProtection e ∧
    ∃ (t : State) (i : BellInput) (c : Cmd) (d : Dev), c.op = ttbSetProtection.op ∧ (fun c d => c.e.b 16 16 = false ∧ d.protInUse (protField c.e) = false) c d ∧ DueAt t 5 i ttbSetProtection c d :=
  commit_met (sp := ttbSetProtection) (H := fun c d => c.e.b 16 16 = false ∧ d.protInUse (protField c.e) = false) ({ body := 0 }) (zub id) (by decide) (by decide) (by decide)

theorem witness_TimetableCommits_5 : ∃ (e : CmdEntry) (s : State), Ready s 1 ttbSetProtection e ∧
    ∃ (t : State) (i : BellInput) (c : Cmd) (d : Dev), c.op = ttbSetProtection.op ∧ (fun c d => c.e.b 16 16 = true ∧ c.noRoom = false ∧ d.protEntry (protField c.e) = none ∧ (d.prot (protField c.e)).wired = false) c d ∧ DueAt t 5 i ttbSetProtection c d :=
  commit_met (sp := ttbSetProtection) (H := fun c d => c.e.b 16 16 = true ∧ c.noRoom = false ∧ d.protEntry (protField c.e) = none ∧ (d.prot (protField c.e)).wired = false) ({ body := fd 16 16 1 + fd 20 0 7 }) (zub id) (by decide) (by decide) (by decide)

theorem witness_TimetableCommits_6 : ∃ (e : CmdEntry) (s : State), Ready s 1 ttbProtectCommand e ∧
    ∃ (t : State) (i : BellInput) (c : Cmd) (d : Dev), c.op = ttbProtectCommand.op ∧ (fun c d => d.protRefuses c.e = false) c d ∧ DueAt t 5 i ttbProtectCommand c d :=
  commit_met (sp := ttbProtectCommand) (H := fun c d => d.protRefuses c.e = false) ({ body := fd 20 0 2 }) (zub fun d => d.ttbM fun t => { t with prots := [(0, {})] }) (by decide) (by decide) (by decide)

theorem witness_ClassifierCommits_1 : ∃ (e : CmdEntry) (s : State), Ready s 1 prsWriteProfile e ∧
    ∃ (t : State) (i : BellInput) (c : Cmd) (d : Dev), c.op = prsWriteProfile.op ∧ (fun _ _ => True) c d ∧ DueAt t 5 i prsWriteProfile c d :=
  commit_met (sp := prsWriteProfile) (H := fun _ _ => True) ({ body := fd 24 0 0x0000000300000003000000030000000300000003000000030000000300000003 }) (zub id) (by decide) (by decide) (by decide)

theorem witness_ClassifierCommits_2 : ∃ (e : CmdEntry) (s : State), Ready s 1 prsWritePortMap e ∧
    ∃ (t : State) (i : BellInput) (c : Cmd) (d : Dev), c.op = prsWritePortMap.op ∧ (fun _ _ => True) c d ∧ DueAt t 5 i prsWritePortMap c d :=
  commit_met (sp := prsWritePortMap) (H := fun _ _ => True) ({ body := fd 16 0 3 }) (zub id) (by decide) (by decide) (by decide)

theorem witness_ClassifierCommits_3 : ∃ (e : CmdEntry) (s : State), Ready s 1 prsWriteEtypes e ∧
    ∃ (t : State) (i : BellInput) (c : Cmd) (d : Dev), c.op = prsWriteEtypes.op ∧ (fun _ _ => True) c d ∧ DueAt t 5 i prsWriteEtypes c d :=
  commit_met (sp := prsWriteEtypes) (H := fun _ _ => True) ({ body := fd 16 0 3 }) (zub id) (by decide) (by decide) (by decide)

theorem witness_ClassifierCommits_4 : ∃ (e : CmdEntry) (s : State), Ready s 1 prsWriteRule e ∧
    ∃ (t : State) (i : BellInput) (c : Cmd) (d : Dev), c.op = prsWriteRule.op ∧ (fun c d => ((d.rule (c.e.f 16 15 0)).valid && (d.rule (c.e.f 16 15 0)).member d.prs.parity) = false) c d ∧ DueAt t 5 i prsWriteRule c d :=
  commit_met (sp := prsWriteRule) (H := fun c d => ((d.rule (c.e.f 16 15 0)).valid && (d.rule (c.e.f 16 15 0)).member d.prs.parity) = false) ({ body := fd 24 0 4096 }) (zub id) (by decide) (by decide) (by decide)

theorem witness_ClassifierCommits_5 : ∃ (e : CmdEntry) (s : State), Ready s 1 prsSetMember e ∧
    ∃ (t : State) (i : BellInput) (c : Cmd) (d : Dev), c.op = prsSetMember.op ∧ (fun _ _ => True) c d ∧ DueAt t 5 i prsSetMember c d :=
  commit_met (sp := prsSetMember) (H := fun _ _ => True) ({ body := fd 16 0 3 }) (zub id) (by decide) (by decide) (by decide)

theorem witness_ClassifierCommits_6 : ∃ (e : CmdEntry) (s : State), Ready s 1 prsDiscardStaged e ∧
    ∃ (t : State) (i : BellInput) (c : Cmd) (d : Dev), c.op = prsDiscardStaged.op ∧ (fun _ _ => True) c d ∧ DueAt t 5 i prsDiscardStaged c d :=
  commit_met (sp := prsDiscardStaged) (H := fun _ _ => True) ({ body := fd 16 0 3 }) (zub id) (by decide) (by decide) (by decide)

theorem witness_ClassifierCommits_7 : ∃ (e : CmdEntry) (s : State), Ready s 1 prsCommit e ∧
    ∃ (t : State) (i : BellInput) (c : Cmd) (d : Dev), c.op = prsCommit.op ∧ (fun _ _ => True) c d ∧ DueAt t 5 i prsCommit c d :=
  commit_met (sp := prsCommit) (H := fun _ _ => True) ({ body := fd 16 0 3 }) (zub id) (by decide) (by decide) (by decide)

theorem witness_ClassifierCommits_8 : ∃ (e : CmdEntry) (s : State), Ready s 1 prsSetMeter e ∧
    ∃ (t : State) (i : BellInput) (c : Cmd) (d : Dev), c.op = prsSetMeter.op ∧ (fun _ _ => True) c d ∧ DueAt t 5 i prsSetMeter c d :=
  commit_met (sp := prsSetMeter) (H := fun _ _ => True) ({ body := fd 16 0 3 }) (zub id) (by decide) (by decide) (by decide)

theorem witness_ForwardingCommits_1 : ∃ (e : CmdEntry) (s : State), Ready s 1 fwdWriteFdb e ∧
    ∃ (t : State) (i : BellInput) (c : Cmd) (d : Dev), c.op = fwdWriteFdb.op ∧ (fun c d => d.keyTaken c.e = false ∧ (d.fdbWrite (fdbOf d c.e)).isSome = true) c d ∧ DueAt t 5 i fwdWriteFdb c d :=
  commit_met (sp := fwdWriteFdb) (H := fun c d => d.keyTaken c.e = false ∧ (d.fdbWrite (fdbOf d c.e)).isSome = true) ({ body := fd 16 0 3 }) (zub id) (by decide) (by decide) (by decide)

theorem witness_ForwardingCommits_2 : ∃ (e : CmdEntry) (s : State), Ready s 1 fwdSetPort e ∧
    ∃ (t : State) (i : BellInput) (c : Cmd) (d : Dev), c.op = fwdSetPort.op ∧ (fun c d => d.wrongSession c.e = false) c d ∧ DueAt t 5 i fwdSetPort c d :=
  commit_met (sp := fwdSetPort) (H := fun c d => d.wrongSession c.e = false) ({ body := fd 16 0 3 + fd 20 0 1 }) (zub id) (by decide) (by decide) (by decide)

theorem witness_ForwardingCommits_3 : ∃ (e : CmdEntry) (s : State), Ready s 1 fwdSetGroup e ∧
    ∃ (t : State) (i : BellInput) (c : Cmd) (d : Dev), c.op = fwdSetGroup.op ∧ (fun _ _ => True) c d ∧ DueAt t 5 i fwdSetGroup c d :=
  commit_met (sp := fwdSetGroup) (H := fun _ _ => True) ({ body := fd 16 0 3 + fd 24 0 4096 }) (zub id) (by decide) (by decide) (by decide)

theorem witness_ForwardingCommits_4 : ∃ (e : CmdEntry) (s : State), Ready s 1 fwdSetStream e ∧
    ∃ (t : State) (i : BellInput) (c : Cmd) (d : Dev), c.op = fwdSetStream.op ∧ (fun _ _ => True) c d ∧ DueAt t 5 i fwdSetStream c d :=
  commit_met (sp := fwdSetStream) (H := fun _ _ => True) ({ body := fd 16 0 3 }) (zub id) (by decide) (by decide) (by decide)

theorem witness_ForwardingCommits_5 : ∃ (e : CmdEntry) (s : State), Ready s 1 fwdSetMirror e ∧
    ∃ (t : State) (i : BellInput) (c : Cmd) (d : Dev), c.op = fwdSetMirror.op ∧ (fun c d => d.turnsSession c.e = false) c d ∧ DueAt t 5 i fwdSetMirror c d :=
  commit_met (sp := fwdSetMirror) (H := fun c d => d.turnsSession c.e = false) ({ body := fd 20 0 3 + fd 28 0 1 + fd 16 0 3 }) (zub id) (by decide) (by decide) (by decide)

theorem witness_ForwardingCommits_6 : ∃ (e : CmdEntry) (s : State), Ready s 1 fwdSetRecorder e ∧
    ∃ (t : State) (i : BellInput) (c : Cmd) (d : Dev), c.op = fwdSetRecorder.op ∧ (fun c d => c.e.b 16 8 = true ∧ d.buf.voq = false ∧ d.drc.ready = true ∧ (d.region (regionOf c.e)).state = .off ∧ d.farAvailable (pagesOf c.e) = true) c d ∧ DueAt t 5 i fwdSetRecorder c d :=
  commit_met (sp := fwdSetRecorder) (H := fun c d => c.e.b 16 8 = true ∧ d.buf.voq = false ∧ d.drc.ready = true ∧ (d.region (regionOf c.e)).state = .off ∧ d.farAvailable (pagesOf c.e) = true) ({ body := fd 16 8 1 + fd 20 0 2 }) (zub fun d => { d with drc := { d.drc with ready := true } }) (by decide) (by decide) (by decide)

theorem witness_StorePowerAndCounterCommits_1 : ∃ (e : CmdEntry) (s : State), Ready s 1 bufSetAdmit e ∧
    ∃ (t : State) (i : BellInput) (c : Cmd) (d : Dev), c.op = bufSetAdmit.op ∧ (fun c _ => c.noRoom = false) c d ∧ DueAt t 5 i bufSetAdmit c d :=
  commit_met (sp := bufSetAdmit) (H := fun c _ => c.noRoom = false) ({ body := fd 16 0 3 }) (zub id) (by decide) (by decide) (by decide)

theorem witness_StorePowerAndCounterCommits_2 : ∃ (e : CmdEntry) (s : State), Ready s 1 bufSetSpill e ∧
    ∃ (t : State) (i : BellInput) (c : Cmd) (d : Dev), c.op = bufSetSpill.op ∧ (fun _ _ => True) c d ∧ DueAt t 5 i bufSetSpill c d :=
  commit_met (sp := bufSetSpill) (H := fun _ _ => True) ({ body := fd 16 0 3 }) (zub id) (by decide) (by decide) (by decide)

theorem witness_StorePowerAndCounterCommits_3 : ∃ (e : CmdEntry) (s : State), Ready s 1 govSetPolicy e ∧
    ∃ (t : State) (i : BellInput) (c : Cmd) (d : Dev), c.op = govSetPolicy.op ∧ (fun c d => d.gov.step ≤ min 5 (c.e.f 16 26 24)) c d ∧ DueAt t 5 i govSetPolicy c d :=
  commit_met (sp := govSetPolicy) (H := fun c d => d.gov.step ≤ min 5 (c.e.f 16 26 24)) ({ body := fd 16 0 3 }) (zub id) (by decide) (by decide) (by decide)

theorem witness_StorePowerAndCounterCommits_4 : ∃ (e : CmdEntry) (s : State), Ready s 1 glbSnapshot e ∧
    ∃ (t : State) (i : BellInput) (c : Cmd) (d : Dev), c.op = glbSnapshot.op ∧ (fun _ _ => True) c d ∧ DueAt t 5 i glbSnapshot c d :=
  commit_met (sp := glbSnapshot) (H := fun _ _ => True) ({ body := 0 }) (zub id) (by decide) (by decide) (by decide)

theorem witness_StorePowerAndCounterCommits_5 : ∃ (e : CmdEntry) (s : State), Ready s 1 cntSetMonitor e ∧
    ∃ (t : State) (i : BellInput) (c : Cmd) (d : Dev), c.op = cntSetMonitor.op ∧ (fun _ _ => True) c d ∧ DueAt t 5 i cntSetMonitor c d :=
  commit_met (sp := cntSetMonitor) (H := fun _ _ => True) ({ body := fd 16 0 3 }) (zub id) (by decide) (by decide) (by decide)

theorem witness_StorePowerAndCounterCommits_6 : ∃ (e : CmdEntry) (s : State), Ready s 1 cntSetEvCounter e ∧
    ∃ (t : State) (i : BellInput) (c : Cmd) (d : Dev), c.op = cntSetEvCounter.op ∧ (fun _ _ => True) c d ∧ DueAt t 5 i cntSetEvCounter c d :=
  commit_met (sp := cntSetEvCounter) (H := fun _ _ => True) ({ body := fd 20 0 0x0301 }) (zub id) (by decide) (by decide) (by decide)

theorem witness_TimeMessages_1 : ∃ (_dt : Nat) (m : SyncMsg) (s : State), (Serving s) ∧ (s.dev.engineWith m.port (s.dev.timPortAt m.port m.rxRef) = true) ∧ ((s.dev.timPortAt m.port m.rxRef).role = 2) ∧ (m.domain = s.dev.tim.domain) ∧ (s.dev.tim.servo.srcKind = 1) ∧ (s.dev.tim.servo.srcPort = m.port) ∧ (s.dev.tim.servo.parentClock = m.clockId) ∧ (s.dev.tim.servo.parentPort = m.portNum) :=
  ⟨7, { port := 3, rxRef := 5000, t1 := 4000, clockId := 9 }, ptpPort 2, by decide⟩

theorem witness_TimeMessages_2 : ∃ (_dt : Nat) (m : DelayReq) (s : State), (Serving s) ∧ (s.dev.engineWith m.port (s.dev.timPortAt m.port m.rxRef) = true) ∧ (TakesCopies s.dev m.port) ∧ ((s.dev.timPortAt m.port m.rxRef).role = 1) ∧ (s.dev.otherDomain 1 m.domain = false) :=
  ⟨7, { port := 3, rxRef := 5000, seq := 12 }, ptpPort 1, by decide⟩

theorem witness_TimeMessages_3 : ∃ (_dt : Nat) (m : DelayReq) (s : State), (Serving s) ∧ (s.dev.engineWith m.port (s.dev.timPortAt m.port m.rxRef) = true) ∧ (TakesCopies s.dev m.port) ∧ ((s.dev.timPortAt m.port m.rxRef).role = 1 ∨ (s.dev.timPortAt m.port m.rxRef).role = 2) ∧ ((s.dev.timPortAt m.port m.rxRef).p2p = true) ∧ (s.dev.otherDomain 2 m.domain = false) :=
  ⟨7, { port := 3, rxRef := 5000, seq := 12 }, atWork fun d => (ptpPort 1).dev.timPortM 3 fun p => { p with p2p := true }, by decide⟩

theorem witness_TimeMessages_4 : ∃ (_dt n : Nat) (s : State), (Serving s) ∧ (SpeaksPtp s.dev n) ∧ ((s.dev.timPort n).role = 1) :=
  ⟨7, 3, ptpPort 1, by decide⟩

theorem witness_TimeMessages_5 : ∃ (_dt n : Nat) (s : State), (Serving s) ∧ (SpeaksPtp s.dev n) ∧ ((s.dev.timPort n).role = 2) ∧ ((s.dev.timPort n).p2p = false) :=
  ⟨7, 3, ptpPort 2, by decide⟩

theorem witness_TimeMessages_6 : ∃ (_dt n : Nat) (s : State), (Serving s) ∧ (SpeaksPtp s.dev n) ∧ ((s.dev.timPort n).role = 1 ∨ (s.dev.timPort n).role = 2) ∧ ((s.dev.timPort n).p2p = true) :=
  ⟨7, 3, atWork fun d => (ptpPort 2).dev.timPortM 3 fun p => { p with p2p := true }, by decide⟩

theorem witness_TimeMessages_7 : ∃ (_dt : Nat) (m : DelayResp) (t3 : Nat) (diff : Int) (s : State), (Serving s) ∧ (s.dev.engineWith m.port (s.dev.timPortAt m.port m.rxRef) = true) ∧ ((s.dev.timPortAt m.port m.rxRef).role = 2) ∧ ((s.dev.timPortAt m.port m.rxRef).p2p = false) ∧ (s.dev.otherDomain 9 m.domain = false) ∧ ((s.dev.timPort m.port).delayReq = some (m.seq, t3)) ∧ ((s.dev.timPort m.port).syncDiff = some diff) :=
  ⟨7, { port := 3, seq := 5, t4 := 900 }, 100, 77, atWork fun d => (ptpPort 2).dev.timPortM 3 fun p => { p with delayReq := some (5, 100), syncDiff := some 77 }, by decide⟩

theorem witness_TimeMessages_8 : ∃ (_dt : Nat) (m : DelayResp) (t1 : Nat) (s : State), (Serving s) ∧ (s.dev.engineWith m.port (s.dev.timPortAt m.port m.rxRef) = true) ∧ ((s.dev.timPortAt m.port m.rxRef).role ≠ 0 ∧ (s.dev.timPortAt m.port m.rxRef).role ≠ 3) ∧ ((s.dev.timPortAt m.port m.rxRef).p2p = true) ∧ (s.dev.otherDomain 3 m.domain = false) ∧ ((s.dev.timPort m.port).pdelayReq = some (m.seq, t1)) :=
  ⟨7, { port := 3, seq := 5, rxRef := 900 }, 100, atWork fun d => (ptpPort 2).dev.timPortM 3 fun p => { p with p2p := true, pdelayReq := some (5, 100) }, by decide⟩

theorem witness_TimeTimersAndPins_1 : ∃ (_dt : Nat) (s : State), (Serving s) ∧ (s.dev.tim.servo.srcKind ≠ 0) ∧ (s.dev.tim.servo.state = .locked) :=
  ⟨5, atWork fun d => d.servoM fun v => { v with srcKind := 2, state := .locked }, by decide⟩

theorem witness_TimeTimersAndPins_2 : ∃ (_dt : Nat) (s : State), (Serving s) ∧ (s.dev.tim.servo.state = .holdover) ∧ (s.dev.tim.holdoverLimit ≠ 0) :=
  ⟨5, atWork fun d => (d.timM fun t => { t with holdoverLimit := 3 }).servoM fun v => { v with state := .holdover }, by decide⟩

theorem witness_TimeTimersAndPins_3 : ∃ (_dt : Nat) (s : State), (Serving s) ∧ (s.dev.tim.ppsOutEn = true) :=
  ⟨5, atWork fun d => d.timM fun t => { t with ppsOutEn := true }, by decide⟩

theorem witness_TimeTimersAndPins_4 : ∃ (_dt : Nat) (s : State), (Serving s) ∧ (s.dev.pins.ppsOut = true) :=
  ⟨5, atWork fun d => d.pinsM fun p => { p with ppsOut := true }, by decide⟩

theorem witness_TimeTimersAndPins_5 : ∃ (_dt : Nat) (s : State), (Serving s) ∧ (s.dev.tim.ppsInEn = true) :=
  ⟨5, atWork fun d => d.timM fun t => { t with ppsInEn := true }, by decide⟩

theorem witness_TimeTimersAndPins_6 : ∃ (_dt : Nat) (s : State), (Serving s) ∧ (s.dev.tim.ppsInEn = true) ∧ (s.dev.tim.ppsInSeen = true) :=
  ⟨5, atWork fun d => d.timM fun t => { t with ppsInEn := true, ppsInSeen := true }, by decide⟩

theorem witness_TimeTimersAndPins_7 : ∃ (_dt : Nat) (s : State), (Serving s) ∧ (s.dev.tim.todTx = true) ∧ (s.dev.tim.ppsOutEn = true) :=
  ⟨5, atWork fun d => d.timM fun t => { t with ppsOutEn := true, todTx := true }, by decide⟩

theorem witness_TimeTimersAndPins_8 : ∃ (dt k : Nat) (line : List Byte) (s : State), (Serving s) ∧ (s.dev.tim.todRx = true) ∧ (s.dev.tim.ppsInSeen = true) ∧ (s.dev.now + dt ≤ s.dev.tim.ppsInAt + 900 * qPerMs) ∧ (todSecondsOf line = some k) :=
  ⟨5, 0, State.reset.dev.todLine, atWork fun d => d.timM fun t => { t with ppsInSeen := true, todRx := true }, by decide⟩

theorem witness_TimeTimersAndPins_9 : ∃ (_dt : Nat) (s : State), (Serving s) ∧ (s.dev.tim.syncEn = true) :=
  ⟨5, atWork fun d => d.timM fun t => { t with syncEn := true }, by decide⟩

theorem witness_TimeTimersAndPins_10 : ∃ (_dt : Nat) (s : State), (Serving s) ∧ (s.dev.tim.syncEn = true) ∧ (s.dev.tim.syncState = 0) :=
  ⟨5, atWork fun d => d.timM fun t => { t with syncEn := true }, by decide⟩

theorem witness_TimeSettings_1 : ∃ (dt : Nat) (e : CmdEntry) (s : State), (Ready s dt timSetPort e) ∧ (CanTell s e.ring) :=
  ⟨7, { tag := 5, body := fd 16 0 3 + fd 16 16 1 + fd 24 0 4294967290 }, desk id, ready_of (by decide), by decide⟩

theorem witness_TimeSettings_2 : ∃ (dt : Nat) (e : CmdEntry) (s : State) (n : Nat), (Ready s dt timSetPort e) ∧ (CanTell s e.ring) ∧ (n ≠ s.dev.portField e) :=
  ⟨7, { tag := 5, body := fd 16 0 3 + fd 16 16 1 }, desk id, 4, ready_of (by decide), by decide, by decide⟩

theorem witness_TimeSettings_3 : ∃ (dt : Nat) (e : CmdEntry) (s : State), (Ready s dt timSelectSource e) ∧ (CanTell s e.ring) :=
  ⟨7, { tag := 5, body := fd 16 0 2 }, desk id, ready_of (by decide), by decide⟩

theorem witness_TimeSettings_4 : ∃ (dt : Nat) (e : CmdEntry) (s : State), (Ready s dt timFeedOffset e) ∧ (CanTell s e.ring) :=
  ⟨7, { tag := 5, body := fd 16 0 4294967200 + fd 20 0 9 }, desk fun d => d.servoM fun v => { v with srcKind := 3 }, ready_of (by decide), by decide⟩

theorem witness_PortAndLaneSettings_1 : ∃ (dt : Nat) (e : CmdEntry) (s : State), (Ready s dt lnePinTaps e) ∧ (CanTell s e.ring) ∧ (s.dev.hasLane (satTo s.dev.topLane (e.f 16 10 0)) = true) :=
  ⟨7, { tag := 5, body := 3 + fd 16 16 1 + fd 20 0 250 + fd 22 0 60 }, desk id, ready_of (by decide), by decide, by decide⟩

theorem witness_PortAndLaneSettings_2 : ∃ (dt : Nat) (e : CmdEntry) (s : State), (Ready s dt macSetFlowControl e) ∧ (CanTell s e.ring) :=
  ⟨7, { tag := 5, body := 3 + fd 16 16 2 + fd 24 0 1 }, desk id, ready_of (by decide), by decide⟩

theorem witness_PortAndLaneSettings_3 : ∃ (dt : Nat) (e : CmdEntry) (s : State), (Ready s dt macSetLpi e) ∧ (CanTell s e.ring) :=
  ⟨7, { tag := 5, body := 3 }, desk id, ready_of (by decide), by decide⟩

theorem witness_PortAndLaneSettings_4 : ∃ (dt : Nat) (e : CmdEntry) (s : State) (_n : Nat), (Ready s dt macSetFrame e) ∧ (CanTell s e.ring) :=
  ⟨7, { tag := 5, body := 3 }, desk id, 2, ready_of (by decide), by decide⟩

theorem witness_PortAndLaneSettings_5 : ∃ (dt : Nat) (e : CmdEntry) (s : State), (Ready s dt zbnSetLane e) ∧ (CanTell s e.ring) :=
  ⟨7, { tag := 5, body := 3 + fd 16 16 0xF7 + fd 24 0 65 + fd 40 0 66 }, desk zubenPort, ready_of (by decide), by decide⟩

theorem witness_PortAndLaneSettings_6 : ∃ (dt : Nat) (e : CmdEntry) (s : State), (Ready s dt zbnSetSlotTrace e) ∧ (CanTell s e.ring) :=
  ⟨7, { tag := 5, body := 3 + fd 16 16 2 + fd 16 24 3 + fd 24 0 65 + fd 40 0 66 }, desk zubenPort, ready_of (by decide), by decide⟩

theorem witness_StoreCounterAndSubstituteSettings_1 : ∃ (dt : Nat) (e : CmdEntry) (s : State), (Ready s dt drcQuarantine e) ∧ (CanTell s e.ring) ∧ (s.dev.serving (s.dev.pageField e % s.dev.glb.part.stacks) (s.dev.pageField e / s.dev.glb.part.stacks % 32) = none) :=
  ⟨7, { tag := 5, body := 3 }, desk fun d => d.drcM fun r => { r with chans := (List.range 34).map fun i => (i, { state := .failed }) }, ready_of (by decide), by decide, by decide⟩

theorem witness_StoreCounterAndSubstituteSettings_2 : ∃ (dt i : Nat) (e : CmdEntry) (s : State), (Ready s dt drcQuarantine e) ∧ (s.dev.serving (s.dev.pageField e % s.dev.glb.part.stacks) (s.dev.pageField e / s.dev.glb.part.stacks % 32) = some i) :=
  ⟨7, 0, { tag := 5, body := 0 }, desk fun d => d.drcM fun r => { r with chans := [(0, { state := .service })] }, ready_of (by decide), by decide⟩

theorem witness_StoreCounterAndSubstituteSettings_3 : ∃ (dt : Nat) (e : CmdEntry) (t : Cmd) (s : State), (Ready s dt glbHoldOp e) ∧ (CanTell s e.ring) ∧ (s.dev.cmdAt (e.f 16 4 0) (e.f 16 27 16) = some t) :=
  ⟨7, { tag := 5, body := 1 + fd 16 16 9 + fd 20 0 1 }, longCmd, desk fun d => d.hifM fun h => { h with inflight := [longCmd] }, ready_of (by decide), by decide, by decide⟩

theorem witness_StoreCounterAndSubstituteSettings_4 : ∃ (dt : Nat) (e : CmdEntry) (s : State), (Ready s dt cntSetWindow e) ∧ (CanTell s e.ring) :=
  ⟨7, { tag := 5, body := 2 + fd 16 8 1 + fd 20 0 3 }, desk id, ready_of (by decide), by decide⟩

theorem witness_StoreCounterAndSubstituteSettings_5 : ∃ (dt : Nat) (e : CmdEntry) (s : State), (Ready s dt subSetThreshold e) ∧ (CanTell s e.ring) :=
  ⟨7, { tag := 5, body := 2 + fd 20 0 7 + fd 20 16 3 }, desk id, ready_of (by decide), by decide⟩

theorem witness_StoreCounterAndSubstituteSettings_6 : ∃ (dt : Nat) (e : CmdEntry) (s : State), (Ready s dt subSetPolicy e) ∧ (CanTell s e.ring) :=
  ⟨7, { tag := 5, body := 0x222 + fd 20 0 7 }, desk id, ready_of (by decide), by decide⟩

theorem witness_ReadsAnswerTheHost_1 : ∃ (dt : Nat) (e : CmdEntry) (s : State), (Ready s dt zbnReadPm e) ∧ (CanTell s e.ring) :=
  ⟨7, { tag := 5, body := 3 + fd 24 0 4096 }, desk zubenPort, ready_of (by decide), by decide⟩

theorem witness_ReadsAnswerTheHost_2 : ∃ (dt : Nat) (e : CmdEntry) (s : State), (Ready s dt zbnReadTrace e) ∧ (CanTell s e.ring) :=
  ⟨7, { tag := 5, body := 3 + fd 24 0 4096 }, desk zubenPort, ready_of (by decide), by decide⟩

theorem witness_ReadsAnswerTheHost_3 : ∃ (dt : Nat) (e : CmdEntry) (s : State), (Ready s dt ttbReadPage e) ∧ (CanTell s e.ring) :=
  ⟨7, { tag := 5, body := 3 + fd 24 0 4096 }, desk zubenPort, ready_of (by decide), by decide⟩

theorem witness_ReadsAnswerTheHost_4 : ∃ (dt : Nat) (e : CmdEntry) (s : State), (Ready s dt prsReadRule e) ∧ (CanTell s e.ring) :=
  ⟨7, { tag := 5, body := 3 + fd 24 0 4096 }, desk id, ready_of (by decide), by decide⟩

theorem witness_ReadsAnswerTheHost_5 : ∃ (dt : Nat) (e : CmdEntry) (s : State), (Ready s dt prsReadMeter e) ∧ (CanTell s e.ring) :=
  ⟨7, { tag := 5, body := 3 + fd 24 0 4096 }, desk id, ready_of (by decide), by decide⟩

theorem witness_ReadsAnswerTheHost_6 : ∃ (dt loc : Nat) (e : CmdEntry) (y : FdbEntry) (s : State), (Ready s dt fwdReadFdb e) ∧ (CanTell s e.ring) ∧ (s.dev.fdbFind (e.f 16 47 0) (e.f 16 59 48) = some (loc, y)) :=
  ⟨7, 0, { tag := 5, body := 5 + fd 16 48 3 + fd 24 0 4096 }, { mac := 5, fid := 3 }, desk fun d => d.fwdM fun w => { w with fdb := [(0, { mac := 5, fid := 3 })] }, ready_of (by decide), by decide, by decide⟩

theorem witness_ReadsAnswerTheHost_7 : ∃ (dt : Nat) (e : CmdEntry) (s : State), (Ready s dt fwdReadFdb e) ∧ (CanTell s e.ring) ∧ (s.dev.fdbFind (e.f 16 47 0) (e.f 16 59 48) = none) :=
  ⟨7, { tag := 5, body := 5 + fd 16 48 3 + fd 24 0 4096 }, desk id, ready_of (by decide), by decide, by decide⟩

theorem witness_ReadsAnswerTheHost_8 : ∃ (dt : Nat) (e : CmdEntry) (s : State), (Ready s dt schReadPort e) ∧ (CanTell s e.ring) :=
  ⟨7, { tag := 5, body := 3 + fd 24 0 4096 }, desk id, ready_of (by decide), by decide⟩

theorem witness_ReadsAnswerTheHost_9 : ∃ (dt : Nat) (e : CmdEntry) (s : State), (Ready s dt drcReadEyes e) ∧ (CanTell s e.ring) :=
  ⟨7, { tag := 5, body := 3 + fd 24 0 4096 }, desk id, ready_of (by decide), by decide⟩

theorem witness_ReadsAnswerTheHost_10 : ∃ (dt : Nat) (e : CmdEntry) (s : State), (Ready s dt cntReadCounters e) ∧ (CanTell s e.ring) ∧ (e.b 16 8 = false) :=
  ⟨7, { tag := 5, body := 16 + fd 32 0 4 + fd 24 0 4096 }, desk id, ready_of (by decide), by decide, by decide⟩

theorem witness_ReadsAnswerTheHost_11 : ∃ (dt : Nat) (e : CmdEntry) (s : State), (Ready s dt glbQuery e) ∧ (CanTell s e.ring) ∧ (e.f 16 1 0 = 0) :=
  ⟨7, { tag := 5, body := fd 24 0 4096 }, desk id, ready_of (by decide), by decide, by decide⟩

theorem witness_ProctorReadsAnswerTheHost_1 : ∃ (dt : Nat) (e : CmdEntry) (s : State), (Ready s dt prcGetTranscript e) ∧ (CanTell s e.ring) ∧ (e.f 16 0 0 = 1) :=
  ⟨7, { tag := 5, body := 1 + fd 24 0 4096 }, desk fun d => d.prcM fun p => { p with state := .operational }, ready_of (by decide), by decide, by decide⟩

theorem witness_ProctorReadsAnswerTheHost_2 : ∃ (dt : Nat) (e : CmdEntry) (s : State), (Ready s dt prcGetTranscript e) ∧ (CanTell s e.ring) ∧ (e.f 16 0 0 = 0) :=
  ⟨7, { tag := 5, body := fd 24 0 4096 }, desk fun d => d.prcM fun p => { p with state := .operational }, ready_of (by decide), by decide, by decide⟩

theorem witness_ProctorReadsAnswerTheHost_3 : ∃ (dt : Nat) (e : CmdEntry) (s : State), (Ready s dt prcGetRandom e) ∧ (CanTell s e.ring) ∧ (e.b 16 16 = false) :=
  ⟨7, { tag := 5, body := 8 + fd 24 0 4096 }, desk fun d => d.prcM fun p => { p with state := .operational }, ready_of (by decide), by decide, by decide⟩

theorem witness_ProctorReadsAnswerTheHost_4 : ∃ (dt : Nat) (e : CmdEntry) (s : State), (Ready s dt prcGetRandom e) ∧ (CanTell s e.ring) ∧ (e.b 16 16 = true) :=
  ⟨7, { tag := 5, body := 8 + fd 16 16 1 + fd 24 0 4096 }, desk fun d => d.prcM fun p => { p with state := .operational }, ready_of (by decide), by decide, by decide⟩

theorem witness_ProctorReadsAnswerTheHost_5 : ∃ (dt : Nat) (e : CmdEntry) (s : State), (Ready s dt prcExportAudit e) ∧ (CanTell s e.ring) ∧ (s.dev.prc.identity = false) :=
  ⟨7, { tag := 5, body := fd 24 0 4096 }, desk fun d => d.prcM fun p => { p with state := .operational, identity := false }, ready_of (by decide), by decide, by decide⟩

theorem witness_BellCommandsWaitAndComplete_1 : ∃ (dt tai : Nat) (e : CmdEntry) (s : State), (Ready s dt belSetPeriod e) ∧ (s.dev.effectiveTai e = some tai) :=
  ⟨7, 20000, { tag := 5, body := fd 16 0 5000 }, desk id, ready_of (by decide), by decide⟩

set_option maxRecDepth 20000 in
theorem witness_BellCommandsWaitAndComplete_2 : ∃ (dt : Nat) (i : BellInput) (p : PendPeriod) (c : Cmd) (s : State), (Rings s dt) ∧ ((bellUpTo (bellStart s dt) i .period).bel.pend = some p) ∧ (2 * p.tai ≤ 2 * (bellUpTo (bellStart s dt) i .period).bel.lastTai + (bellUpTo (bellStart s dt) i .period).bel.period) ∧ ((bellUpTo (bellStart s dt) i .period).hif.inflight.find? (fun y => y.op == belSetPeriod.op && y.stage == .waiting) = some c) :=
  ⟨5, {}, { period := 5000, tai := 10000, tag := 5 }, standing 0x0301 0 .waiting, holds (standing 0x0301 0 .waiting) fun d => d.belM fun b => { b with pend := some { period := 5000, tai := 10000, tag := 5 } }, by decide⟩

theorem witness_BellCommandsWaitAndComplete_3 : ∃ (dt : Nat) (e : CmdEntry) (s : State), (Ready s dt belRealign e) :=
  ⟨7, { tag := 5 }, desk id, ready_of (by decide)⟩

set_option maxRecDepth 20000 in
theorem witness_BellCommandsWaitAndComplete_4 : ∃ (dt : Nat) (i : BellInput) (c : Cmd) (s : State), (Rings s dt) ∧ ((bellDone s dt i).bel.err ≠ 0) ∧ ((bellDone s dt i).realigns true = []) ∧ ((bellDone s dt i).realigns false = [c]) :=
  ⟨5, {}, standing 0x0304 0 .waiting, holds (standing 0x0304 0 .waiting) fun d => d.belM fun b => { b with nextAt := 40100 }, by decide⟩

set_option maxRecDepth 20000 in
theorem witness_BellCommandsWaitAndComplete_5 : ∃ (dt : Nat) (i : BellInput) (c : Cmd) (s : State), (Rings s dt) ∧ ((bellDone s dt i).bel.err = 0) ∧ ((bellDone s dt i).realigns true ++ (bellDone s dt i).realigns false = [c]) :=
  ⟨5, {}, { standing 0x0304 0 .waiting with pos := 1 }, holds { standing 0x0304 0 .waiting with pos := 1 } id, by decide⟩

theorem witness_BellCommandsWaitAndComplete_6 : ∃ (dt : Nat) (e : CmdEntry) (s : State), (Ready s dt timSetTime e) :=
  ⟨7, { tag := 5 }, desk id, ready_of (by decide)⟩

set_option maxRecDepth 20000 in
theorem witness_BellCommandsWaitAndComplete_7 : ∃ (dt : Nat) (_i : BellInput) (c : Cmd) (s : State), (Rings s dt) ∧ ((s.dev.elapse dt).bellRings.tim.servo.pendingStep = none) ∧ ((s.dev.elapse dt).bellRings.hif.inflight.filter (fun y => y.op == timSetTime.op && y.stage == .waiting && !y.mirrored) = [c]) :=
  ⟨5, {}, standing 0x0405 1 .waiting, holds (standing 0x0405 1 .waiting) id, by decide⟩

theorem witness_BellCommandsWaitAndComplete_8 : ∃ (dt : Nat) (e : CmdEntry) (s : State), (Ready s dt ttbSwitchPage e) :=
  ⟨7, { tag := 5, body := 3 + fd 24 0 20000 }, desk zubenPort, ready_of (by decide)⟩

set_option maxRecDepth 20000 in
theorem witness_BellCommandsWaitAndComplete_9 : ∃ (dt l : Nat) (a b : List Nat) (i : BellInput) (w : SwitchCmd) (c : Cmd) (s : State), (Rings s dt) ∧ ((bellUpTo (bellStart s dt) i .pages).zubenLanes = a ++ l :: b) ∧ ((((bellUpTo (bellStart s dt) i .pages).each a Dev.pageTurn).zlane l).hs = .agreed) ∧ (2 * (((bellUpTo (bellStart s dt) i .pages).each a Dev.pageTurn).zlane l).hsTai ≤ 2 * ((bellUpTo (bellStart s dt) i .pages).each a Dev.pageTurn).bel.lastTai + ((bellUpTo (bellStart s dt) i .pages).each a Dev.pageTurn).bel.period) ∧ ((((bellUpTo (bellStart s dt) i .pages).each a Dev.pageTurn).ttbLane l).switch = some w) ∧ (((bellUpTo (bellStart s dt) i .pages).each a Dev.pageTurn).cmdAt w.ring w.tag = some c) :=
  ⟨5, 3, [], [], {}, { tag := 5 }, standing 0x0803 3 .waiting, holds (standing 0x0803 3 .waiting) fun d => ((zubenPort d).zlaneM 3 fun z => { z with hs := .agreed, hsTai := 10000, hsTag := 4 }).ttbLaneM 3 fun t => { t with switch := some { tag := 5 } }, by decide⟩

theorem witness_PortAndLaneCommandsWaitAndComplete_1 : ∃ (dt : Nat) (e : CmdEntry) (s : State), (Ready s dt macSetPortState e) ∧ (CanTell s e.ring) ∧ ((s.dev.port (s.dev.portField e)).admin = e.b 16 16) ∧ ((s.dev.port (s.dev.portField e)).requests = []) :=
  ⟨7, { tag := 5, body := 3 + fd 16 16 1 }, desk fun d => d.portM 3 fun p => { p with admin := true }, ready_of (by decide), by decide, by decide, by decide⟩

theorem witness_PortAndLaneCommandsWaitAndComplete_2 : ∃ (dt : Nat) (e : CmdEntry) (s : State), (Ready s dt macSetPortState e) ∧ (e.b 16 16 = true) ∧ ((s.dev.port (s.dev.portField e)).admin = false) ∧ ((s.dev.port (s.dev.portField e)).requests = []) :=
  ⟨7, { tag := 5, body := 3 + fd 16 16 1 }, desk fun d => d.portM 3 fun p => { p with state := .disabled }, ready_of (by decide), by decide, by decide, by decide⟩

theorem witness_PortAndLaneCommandsWaitAndComplete_3 : ∃ (_dt n : Nat) (c : Cmd) (s : State), (Serving s) ∧ (Stands s c) ∧ (s.dev.bdy.state ≠ .paired) ∧ ((s.dev.port n).state = .disabled) ∧ ((s.dev.port n).admin = true) ∧ ((s.dev.port n).requests = [{ ring := c.e.ring, tag := c.e.tag, enable := true, applied := true }]) ∧ ((s.dev.flexe n).pend = []) ∧ (∀ l ∈ s.dev.portLanes n, (s.dev.zlane l).mgmt = [] ∧ (s.dev.ttbLane l).switch = none) :=
  ⟨7, 3, standing 0x0601 (3 + fd 16 16 1) .waiting, holds (standing 0x0601 (3 + fd 16 16 1) .waiting) fun d => d.portM 3 fun p => { p with state := .disabled, admin := true, requests := [{ ring := 0, tag := 5, enable := true, applied := true }] }, by decide⟩

theorem witness_PortAndLaneCommandsWaitAndComplete_4 : ∃ (dt : Nat) (e : CmdEntry) (s : State), (Ready s dt macSetPortState e) ∧ (e.b 16 16 = false) ∧ ((s.dev.port (s.dev.portField e)).admin = true) ∧ ((s.dev.port (s.dev.portField e)).requests = []) ∧ ((s.dev.port (s.dev.portField e)).state = .up) ∧ (s.dev.buf.holddown ≠ 0) :=
  ⟨7, { tag := 5, body := 3 }, desk fun d => d.portM 3 fun p => { p with admin := true }, ready_of (by decide), by decide, by decide, by decide, by decide, by decide⟩

theorem witness_PortAndLaneCommandsWaitAndComplete_5 : ∃ (_dt n : Nat) (c : Cmd) (s : State), (Serving s) ∧ (Stands s c) ∧ (s.dev.bdy.state ≠ .paired) ∧ ((s.dev.port n).state = .poweringDown) ∧ ((s.dev.port n).requests = [{ ring := c.e.ring, tag := c.e.tag, enable := false, applied := true }]) ∧ ((s.dev.flexe n).pend = []) ∧ (∀ l ∈ s.dev.portLanes n, (s.dev.zlane l).mgmt = [] ∧ (s.dev.ttbLane l).switch = none) :=
  ⟨7, 3, standing 0x0601 3 .long, holds (standing 0x0601 3 .long) fun d => d.portM 3 fun p => { p with state := .poweringDown, requests := [{ ring := 0, tag := 5, applied := true }] }, by decide⟩

theorem witness_PortAndLaneCommandsWaitAndComplete_6 : ∃ (dt : Nat) (e : CmdEntry) (s : State), (Ready s dt zbnSendMgmt e) ∧ (s.dev.laneUp (s.dev.laneField e) = true) :=
  ⟨7, { tag := 5, body := 3 + fd 16 16 4 }, desk zubenPort, ready_of (by decide), by decide⟩

theorem witness_PortAndLaneCommandsWaitAndComplete_7 : ∃ (_dt l : Nat) (m : List Byte) (sent : Bool) (r : List (Nat × Nat × List Byte × Bool)) (c : Cmd) (s : State), (Serving s) ∧ (Stands s c) ∧ (s.dev.bdy.state ≠ .paired) ∧ ((s.dev.zlane l).mgmt = (c.e.ring, c.e.tag, m, sent) :: r) ∧ ((hdlcBytes m).length ≤ (s.dev.zlane l).mgmtPos) :=
  ⟨5, 3, [4, 5], true, [], standing 0x0705 3 .waiting, holds (standing 0x0705 3 .waiting) fun d => (zubenPort d).zlaneM 3 fun y => { y with mgmt := [(0, 5, [4, 5], true)], mgmtPos := 60 }, by decide⟩

theorem witness_PortAndLaneCommandsWaitAndComplete_8 : ∃ (dt : Nat) (e : CmdEntry) (s : State), (Ready s dt zbnSetFlexe e) ∧ (e.b 16 16 = true) :=
  ⟨7, { tag := 5, body := 3 + fd 16 16 1 + fd 28 0 3 }, desk fun d => d.portM 3 fun p => { p with framing := 2 }, ready_of (by decide), by decide⟩

theorem witness_PortAndLaneCommandsWaitAndComplete_9 : ∃ (dt : Nat) (e : CmdEntry) (s : State), (Ready s dt zbnSetFlexe e) ∧ (CanTell s e.ring) ∧ (e.b 16 16 = false) :=
  ⟨7, { tag := 5, body := 3 + fd 28 0 3 }, desk fun d => d.portM 3 fun p => { p with framing := 2 }, ready_of (by decide), by decide, by decide⟩

theorem witness_StoreAndHostCommandsWaitOrLast_1 : ∃ (dt : Nat) (e : CmdEntry) (s : State), (Ready s dt fwdFlushFdb e) :=
  ⟨7, { tag := 5, body := fd 16 16 1 }, desk id, ready_of (by decide)⟩

theorem witness_StoreAndHostCommandsWaitOrLast_2 : ∃ (_dt : Nat) (c : Cmd) (s : State), (Serving s) ∧ (Stands s c) ∧ (s.dev.bdy.state = .off) ∧ (c.op = fwdFlushFdb.op) ∧ (c.stage = .long) ∧ (c.held = false) ∧ (s.dev.bgPaused = false) :=
  ⟨7, standing 0x0A03 (fd 16 16 1) .long, holds (standing 0x0A03 (fd 16 16 1) .long) fun d => d.fwdM fun w => { w with fdb := [(7, { mac := 5 })] }, by decide⟩

theorem witness_StoreAndHostCommandsWaitOrLast_3 : ∃ (dt : Nat) (e : CmdEntry) (s : State), (Ready s dt fwdFreezeRecorder e) ∧ ((s.dev.region (regionOf e)).state = .recording) ∧ ((s.dev.region (regionOf e)).postPages ≠ 0) :=
  ⟨7, { tag := 5 }, desk fun d => d.regionM 0 fun x => { x with state := .recording, postPages := 4, trigger := 9 }, ready_of (by decide), by decide, by decide⟩

theorem witness_StoreAndHostCommandsWaitOrLast_4 : ∃ (dt : Nat) (e : CmdEntry) (s : State), (Ready s dt fwdFreezeRecorder e) ∧ (CanTell s e.ring) ∧ ((s.dev.region (regionOf e)).state = .frozen) :=
  ⟨7, { tag := 5 }, desk fun d => d.regionM 0 fun x => { x with state := .frozen }, ready_of (by decide), by decide, by decide⟩

theorem witness_StoreAndHostCommandsWaitOrLast_5 : ∃ (dt : Nat) (e : CmdEntry) (s : State), (Ready s dt fwdRearmRecorder e) ∧ (CanTell s e.ring) ∧ ((s.dev.region (regionOf e)).state = .frozen) ∧ ((s.dev.region (regionOf e)).rearmWait = []) :=
  ⟨7, { tag := 5 }, desk fun d => d.regionM 0 fun x => { x with state := .frozen, pageSeq := 4 }, ready_of (by decide), by decide, by decide, by decide⟩

theorem witness_StoreAndHostCommandsWaitOrLast_6 : ∃ (dt : Nat) (e : CmdEntry) (s : State), (Ready s dt fwdReadRecorder e) :=
  ⟨7, { tag := 5, body := fd 32 0 4096 }, desk fun d => d.regionM 0 fun x => { x with state := .frozen, pageSeq := 4 }, ready_of (by decide)⟩

theorem witness_StoreAndHostCommandsWaitOrLast_7 : ∃ (_dt r : Nat) (c : Cmd) (s : State), (Serving s) ∧ (Stands s c) ∧ (s.dev.bdy.state ≠ .paired) ∧ ((s.dev.region r).reader = some (c.e.ring, c.e.tag)) ∧ (c.held = false) ∧ ((s.dev.region r).rearmWait = [] ∧ (s.dev.region r).disableWait = []) :=
  ⟨5, 2, { standing 0x0A0E (fd 16 0 2) .long with total := 1 }, holds { standing 0x0A0E (fd 16 0 2) .long with total := 1 } fun d => d.regionM 2 fun g => { g with state := .reading, reader := some (0, 5), pages := 4 }, by decide⟩

theorem witness_StoreAndHostCommandsWaitOrLast_8 : ∃ (dt : Nat) (e : CmdEntry) (s : State), (Ready s dt bufRollCall e) :=
  ⟨7, { tag := 5, body := 1 + fd 24 0 4096 }, desk id, ready_of (by decide)⟩

theorem witness_StoreAndHostCommandsWaitOrLast_9 : ∃ (_dt : Nat) (g : RollCall) (_fs : List RollFinding) (c : Cmd) (s : State), (Serving s) ∧ (Stands s c) ∧ (s.dev.bdy.state ≠ .paired) ∧ (s.dev.buf.roll = some g) ∧ (g.ring = c.e.ring ∧ g.tag = c.e.tag) ∧ (g.startSeq ≤ s.dev.bel.seq) ∧ (s.dev.rollHeld g = false) :=
  ⟨5, { ring := 0, tag := 5, near := true, addr := 4096 }, [], standing 0x0B03 1 .long, holds (standing 0x0B03 1 .long) fun d => d.bufM fun b => { b with roll := some { ring := 0, tag := 5, near := true, addr := 4096 } }, by decide⟩

theorem witness_StoreAndHostCommandsWaitOrLast_10 : ∃ (dt slot : Nat) (e : CmdEntry) (s : State), (Ready s dt drcRetrain e) ∧ (s.dev.slotWhere (s.dev.stackField e) (fun r => r.phase == 0) = some slot) :=
  ⟨7, 0, { tag := 5 }, desk fun d => d.drcM fun r => { r with chans := [(0, { state := .service })] }, ready_of (by decide), by decide⟩

set_option maxRecDepth 20000 in
theorem witness_StoreAndHostCommandsWaitOrLast_11 : ∃ (dt j : Nat) (a b : AMap Retrain) (i : BellInput) (r : Retrain) (c : Cmd) (s : State), (Rings s dt) ∧ ((bellUpTo (bellStart s dt) i .pairs).bellPair.channelsDue = a ++ (j, r) :: b) ∧ (((bellUpTo (bellStart s dt) i .pairs).bellPair.each a Dev.channelTurn).retrain (j / 2) (j % 2) = r) ∧ (r.phase = 5) ∧ (r.permanent = false) ∧ (r.command = some (c.e.ring, c.e.tag)) ∧ (((bellUpTo (bellStart s dt) i .pairs).bellPair.each a Dev.channelTurn).cmdAt c.e.ring c.e.tag = some c) :=
  ⟨5, 2, [], [], {}, { phase := 5, source := 4, target := 32, logical := 4, copied := true, command := some (0, 5) }, standing 0x0D01 1 .long, holds (standing 0x0D01 1 .long) fun d => d.retrainM 1 0 fun _ => { phase := 5, source := 4, target := 32, logical := 4, copied := true, command := some (0, 5) }, by decide⟩

theorem witness_StoreAndHostCommandsWaitOrLast_12 : ∃ (dt : Nat) (e : CmdEntry) (s : State), (Ready s dt glbBarrier e) ∧ (CanTell s e.ring) ∧ (∀ c ∈ s.dev.hif.inflight, c.mirrored = true) :=
  ⟨7, { tag := 5 }, desk id, ready_of (by decide), by decide, by decide⟩

theorem witness_StoreAndHostCommandsWaitOrLast_13 : ∃ (dt : Nat) (e : CmdEntry) (c : Cmd) (s : State), (Ready s dt glbBarrier e) ∧ (e.b 16 0 = true) ∧ (e.b 16 1 = false) ∧ (c ∈ s.dev.hif.inflight) ∧ (c.mirrored = false) ∧ (c.stage ≠ .fetched) ∧ (c.stage ≠ .journalled) :=
  ⟨7, { tag := 5, body := 1 }, longCmd, desk fun d => d.hifM fun h => { h with inflight := [longCmd] }, ready_of (by decide), by decide, by decide, by decide, by decide, by decide, by decide⟩

theorem witness_StoreAndHostCommandsWaitOrLast_14 : ∃ (dt : Nat) (e : CmdEntry) (t : Cmd) (s : State), (Ready s dt (glbAbort specOf0) e) ∧ (CanTell s e.ring) ∧ (s.dev.cmdAt (e.f 16 4 0) (e.f 16 27 16) = some t) ∧ (t.stage = .fetched) ∧ (t.cring ≠ (s.dev.ring e.ring).lCring) :=
  ⟨7, { tag := 5, body := 1 + fd 16 16 9 }, { longCmd with stage := .fetched, cring := 3 }, desk fun d => d.hifM fun h => { h with inflight := [{ longCmd with stage := .fetched, cring := 3 }] }, ready_of (by decide), by decide, by decide, by decide, by decide⟩

theorem witness_StoreAndHostCommandsWaitOrLast_15 : ∃ (dt k : Nat) (e : CmdEntry) (s : State), (Ready s dt subSubstitute e) ∧ (s.dev.freeSlot = some k) :=
  ⟨7, 0, { tag := 5, body := 3 }, desk id, ready_of (by decide), by decide⟩

set_option maxRecDepth 20000 in
theorem witness_StoreAndHostCommandsWaitOrLast_16 : ∃ (dt k : Nat) (a b : AMap SubSlot) (i : BellInput) (r : SubSlot) (c : Cmd) (s : State), (Rings s dt) ∧ ((bellUpTo (bellStart s dt) i .pairs).bellPair.channelCuts.subsAtBell = a ++ (k, r) :: b) ∧ (AMap.find? ((bellUpTo (bellStart s dt) i .pairs).bellPair.channelCuts.each a Dev.subTurn).sub.slots k = some r) ∧ (r.kind = 3 ∨ r.kind = 5 ∨ r.kind = 6) ∧ (r.step = 6) ∧ (r.command = some (c.e.ring, c.e.tag)) ∧ (((bellUpTo (bellStart s dt) i .pairs).bellPair.channelCuts.each a Dev.subTurn).cmdAt c.e.ring c.e.tag = some c) :=
  ⟨5, 0, [], [], {}, { claimed := true, kind := 3, step := 6, unit := 4, spare := 64, total := 65536, command := some (0, 5) }, standing 0x1003 3 .long, holds (standing 0x1003 3 .long) fun d => d.slotM 0 fun _ => { claimed := true, kind := 3, step := 6, unit := 4, spare := 64, total := 65536, command := some (0, 5) }, by decide⟩

set_option maxRecDepth 20000 in
theorem witness_StoreAndHostCommandsWaitOrLast_17 : ∃ (dt k : Nat) (a b : AMap SubSlot) (i : BellInput) (r : SubSlot) (c : Cmd) (s : State), (Rings s dt) ∧ ((bellUpTo (bellStart s dt) i .pairs).bellPair.channelCuts.subsAtBell = a ++ (k, r) :: b) ∧ (AMap.find? ((bellUpTo (bellStart s dt) i .pairs).bellPair.channelCuts.each a Dev.subTurn).sub.slots k = some r) ∧ (r.kind = 1) ∧ (r.laneDue ((bellUpTo (bellStart s dt) i .pairs).bellPair.channelCuts.each a Dev.subTurn).now = true) ∧ ((((bellUpTo (bellStart s dt) i .pairs).bellPair.channelCuts.each a Dev.subTurn).zlane (1024 + r.spare)).align = .sync) ∧ (r.command = some (c.e.ring, c.e.tag)) ∧ (((bellUpTo (bellStart s dt) i .pairs).bellPair.channelCuts.each a Dev.subTurn).cmdAt c.e.ring c.e.tag = some c) :=
  ⟨5, 0, [], [], {}, { claimed := true, kind := 1, step := 3, unit := 3, spare := 0, total := 4, command := some (0, 5) }, standing 0x1003 1 .long, holds (standing 0x1003 1 .long) fun d => (((zubenPort d).zlaneM 1024 fun z => { z with align := .sync }).slotM 0 fun _ => { claimed := true, kind := 1, step := 3, unit := 3, spare := 0, total := 4, command := some (0, 5) }).belM fun b => { b with nextAt := 4040000 }, by decide⟩

theorem witness_PairCommandsWaitOrLast_1 : ∃ (dt : Nat) (e : CmdEntry) (s : State), (Ready s dt bdyPair e) :=
  ⟨7, { tag := 5, body := 1 }, desk id, ready_of (by decide)⟩

theorem witness_PairCommandsWaitOrLast_2 : ∃ (_dt : Nat) (b : BuddyId) (p : Pairing) (c : Cmd) (s : State), (Serving s) ∧ (Stands s c) ∧ (s.dev.bdy.linkUp = false) ∧ (s.dev.bdy.state = .linking) ∧ (s.dev.linkWhole = true) ∧ (s.dev.bdy.pairing = some p) ∧ (p.ring = c.e.ring ∧ p.tag = c.e.tag) ∧ (s.dev.pairFails p b = none) ∧ (s.dev.bdy.txq = []) :=
  ⟨5, { index := 1, period := 10240 }, { ring := 0, tag := 5 }, standing 0x1101 0 .waiting, holds (standing 0x1101 0 .waiting) fun d => wholeLink { d with bel := { d.bel with period := 10240, epoch := 0 }, glb := { d.glb with fwVersion := 0 }, drc := { d.drc with ready := true }, bdy := { d.bdy with state := .linking, pairing := some { ring := 0, tag := 5 }, shadowReserved := true } }, by decide⟩

theorem witness_PairCommandsWaitOrLast_3 : ∃ (dt : Nat) (e : CmdEntry) (s : State), (Ready s dt bdyRejoin e) :=
  ⟨7, { tag := 5, body := 1 }, desk fun d => d.bdyM fun b => { b with state := .linked, authority := true }, ready_of (by decide)⟩

theorem witness_PairCommandsWaitOrLast_4 : ∃ (dt : Nat) (r : Rejoin) (c : Cmd) (s : State), (Serving s) ∧ (s.dev.bdy.state = .syncing) ∧ (s.dev.bdy.rejoin = some r) ∧ (r.started = true) ∧ (r.source = true) ∧ ((s.dev.elapse dt).atBell = true) ∧ (s.dev.rejoinHeld r = false) ∧ (s.dev.cmdAt r.ring r.tag = some c) ∧ (s.dev.bdy.txq = []) :=
  ⟨5, { ring := 0, tag := 5, started := true }, standing 0x1102 0 .long, holds (standing 0x1102 0 .long) fun d => (d.belM fun b => { b with lastAt := 5 }).bdyM fun b => { b with state := .syncing, rejoin := some { ring := 0, tag := 5, started := true } }, by decide⟩

theorem witness_PairCommandsWaitOrLast_6 : ∃ (c : Cmd) (_d : Dev), (c.mirrored = false) :=
  ⟨longCmd, State.reset.dev, by decide⟩

theorem witness_PairCommandsWaitOrLast_7 : ∃ (_dt : Nat) (c : Cmd) (s : State), (Serving s) ∧ (Stands s c) ∧ (s.dev.bdy.unpairDraining = true) ∧ (s.dev.bdy.unpairing = some (c.e.ring, c.e.tag)) ∧ (s.dev.bdy.txq = []) ∧ (s.dev.bdy.pairing = none ∧ s.dev.bdy.rejoin = none) ∧ (s.dev.hif.inflight = [c]) ∧ (c.stage = .waiting) ∧ (s.dev.bdy.own = []) ∧ (∀ f ∈ s.dev.buf.frames, f.2.away = 0) :=
  ⟨5, standing 0x1103 0 .waiting, holds (standing 0x1103 0 .waiting) fun d => d.bdyM fun b => { b with state := .paired, unpairDraining := true, unpairing := some (0, 5) }, by decide⟩

theorem witness_OfficerCommandsTakeUpAndComplete_5 : ∃ (_dt : Nat) (y : SealPending) (c : Cmd) (s : State), (Serving s) ∧ (Stands s c) ∧ (s.dev.bdy.state ≠ .paired) ∧ (c.op = prcSealConfig.op) ∧ (c.stage = .waiting) ∧ (y.ring = c.e.ring ∧ y.tag = c.e.tag) ∧ (s.dev.prc.sealing = [y]) ∧ (y.computed = some y.payload) :=
  ⟨5, { ring := 0, tag := 5, scope := 3, payload := [4, 5], computed := some [4, 5] }, standing 0x1205 0 .waiting, holds (standing 0x1205 0 .waiting) fun d => d.prcM fun p => { p with sealing := [{ ring := 0, tag := 5, scope := 3, payload := [4, 5], computed := some [4, 5] }] }, by decide⟩

theorem witness_OfficerCommandsTakeUpAndComplete_6 : ∃ (_dt : Nat) (z : Zeroizing) (c : Cmd) (s : State), (Quiet s) ∧ (Stands s c) ∧ (s.dev.prc.zeroizing = some z) ∧ (z.attempts < 3) ∧ (z.commands = [(c.e.ring, c.e.tag)]) ∧ (z.began = 2 ∨ z.began = 5) ∧ (c.op = prcZeroize.op) ∧ (c.stage = .waiting) :=
  ⟨5, { commands := [(0, 5)], began := 2 }, standing 0x1203 0 .waiting, holds (standing 0x1203 0 .waiting) fun d => d.prcM fun p => { p with zeroizing := some { commands := [(0, 5)], began := 2 }, state := .zeroizing, keyLocks := 7 }, by decide⟩

theorem witness_OfficerCommandsTakeUpAndComplete_1 : ∃ (dt : Nat) (e : CmdEntry) (s : State), Signed s dt prcUpdateFirmware e :=
  ⟨1, signedBy 0x1202 { body := fd 16 0 512 + fd 24 0 4096 }, vault, signed_of ⟨by decide, by decide, by decide, by decide, by decide, by decide, by decide, by decide, by decide, by decide, by decide, by decide, by decide, by decide⟩ rfl rfl rfl⟩

theorem witness_OfficerCommandsTakeUpAndComplete_2 : ∃ (dt : Nat) (e : CmdEntry) (s : State), Signed s dt prcSealConfig e ∧ sealScope e ≠ 0 :=
  ⟨1, signedBy 0x1205 { body := fd 16 0 1 }, vault, signed_of ⟨by decide, by decide, by decide, by decide, by decide, by decide, by decide, by decide, by decide, by decide, by decide, by decide, by decide, by decide⟩ rfl rfl rfl, by decide⟩

theorem witness_OfficerCommandsTakeUpAndComplete_3 : ∃ (dt : Nat) (e : CmdEntry) (s : State), Signed s dt prcZeroize e ∧
    s.dev.prc.zeroizing = none ∧ s.dev.prc.sealing = [] ∧ s.dev.prc.update = none :=
  ⟨1, signedBy 0x1203 {}, vault, signed_of ⟨by decide, by decide, by decide, by decide, by decide, by decide, by decide, by decide, by decide, by decide, by decide, by decide, by decide, by decide⟩ rfl rfl rfl, by decide⟩

theorem witness_LaneBringUp_1 : ∃ (_dt l : Nat) (s : State), (Serving s) ∧ ((s.dev.lane l).state = .waitSignal) :=
  ⟨7, 3, atWork fun d => (oneUp 3 d).laneM 3 fun y => { y with state := .waitSignal }, by decide⟩

theorem witness_LaneBringUp_2 : ∃ (_dt l : Nat) (s : State), (Serving s) ∧ ((s.dev.lane l).state = .an) :=
  ⟨7, 3, atWork fun d => (oneUp 3 d).laneM 3 fun y => { y with state := .an }, by decide⟩

theorem witness_LaneBringUp_3 : ∃ (_dt l : Nat) (s : State), (Serving s) ∧ ((s.dev.lane l).state = .train) :=
  ⟨7, 3, atWork fun d => (oneUp 3 d).laneM 3 fun y => { y with state := .train }, by decide⟩

theorem witness_LaneBringUp_4 : ∃ (_dt l : Nat) (s : State), (Serving s) ∧ ((s.dev.lane l).state = .train) :=
  ⟨7, 3, atWork fun d => (oneUp 3 d).laneM 3 fun y => { y with state := .train }, by decide⟩

theorem witness_LaneBringUp_5 : ∃ (_dt l : Nat) (s : State), (Serving s) ∧ ((s.dev.lane l).state = .adapt) :=
  ⟨7, 3, atWork fun d => (oneUp 3 d).laneM 3 fun y => { y with state := .adapt }, by decide⟩

theorem witness_LaneBringUp_6 : ∃ (_dt l : Nat) (s : State), (Serving s) ∧ ((s.dev.lane l).state = .adapt) :=
  ⟨7, 3, atWork fun d => (oneUp 3 d).laneM 3 fun y => { y with state := .adapt }, by decide⟩

theorem witness_LaneBringUp_7 : ∃ (_dt l : Nat) (s : State), (Serving s) ∧ ((s.dev.lane l).state = .lock) :=
  ⟨7, 3, atWork fun d => (oneUp 3 d).laneM 3 fun y => { y with state := .lock }, by decide⟩

theorem witness_LaneBringUp_8 : ∃ (_dt l : Nat) (s : State), (Serving s) ∧ ((s.dev.lane l).state = .lock) :=
  ⟨7, 3, atWork fun d => (oneUp 3 d).laneM 3 fun y => { y with state := .lock }, by decide⟩

theorem witness_LaneBringUp_9 : ∃ (_dt l : Nat) (s : State), (Serving s) ∧ ((s.dev.lane l).state = .an) :=
  ⟨7, 3, atWork fun d => (oneUp 3 d).laneM 3 fun y => { y with state := .an }, by decide⟩

theorem witness_LaneBringUp_10 : ∃ (_dt l m : Nat) (s : State), (Serving s) ∧ ((s.dev.lane l).state = .up) ∧ (s.dev.carried l = some m) ∧ (l < 1024) ∧ ((s.dev.port (s.dev.lane m).port).state = .up) ∧ (s.dev.buf.holddown ≠ 0) :=
  ⟨7, 3, 3, desk fun d => d.bufM fun b => { b with holddown := 4 }, by decide⟩

theorem witness_LaneBringUp_11 : ∃ (_dt : Nat) (r : EyeReading) (s : State), (Serving s) ∧ ((s.dev.lane r.lane).state = .up) :=
  ⟨7, { lane := 3, vert := 5, horiz := 6 }, desk id, by decide⟩

theorem witness_PortLifeCycle_1 : ∃ (_dt n : Nat) (s : State), (Serving s) ∧ ((s.dev.port n).state = .disabled) ∧ ((s.dev.port n).admin = true) ∧ ((s.dev.port n).requests.length ≤ 1) :=
  ⟨7, 3, desk fun d => d.portM 3 fun p => { p with state := .disabled, admin := true }, by decide⟩

theorem witness_PortLifeCycle_2 : ∃ (_dt n : Nat) (s : State), (Serving s) ∧ ((s.dev.port n).state = .training ∨ (s.dev.port n).state = .hold) ∧ (s.dev.upCondition n = true) :=
  ⟨7, 3, desk fun d => d.portM 3 fun p => { p with state := .hold }, by decide⟩

theorem witness_PortLifeCycle_3 : ∃ (_dt n : Nat) (_lf _rf : Bool) (s : State), (Serving s) ∧ (s.dev.portExists n = true) :=
  ⟨7, 3, true, false, desk id, by decide⟩

theorem witness_PortLifeCycle_4 : ∃ (_dt n : Nat) (lf rf : Bool) (s : State), (Serving s) ∧ ((s.dev.port n).state = .up) ∧ (lf = true ∨ rf = true) ∧ (s.dev.buf.holddown ≠ 0) :=
  ⟨7, 3, false, true, desk fun d => d.bufM fun b => { b with holddown := 4 }, by decide⟩

theorem witness_PortLifeCycle_5 : ∃ (_dt n : Nat) (h : HoldDown) (s : State), (Serving s) ∧ (AMap.find? s.dev.buf.holds n = some h) :=
  ⟨7, 3, { expires := 90 }, desk fun d => d.bufM fun b => { b with holds := [(3, { expires := 90 })] }, by decide⟩

theorem witness_PortLifeCycle_6 : ∃ (_dt n : Nat) (s : State), (Serving s) ∧ ((s.dev.port n).state = .flushing) :=
  ⟨7, 3, desk fun d => d.portM 3 fun p => { p with state := .flushing, admin := true, flushFromHold := true }, by decide⟩

theorem witness_PortLifeCycle_7 : ∃ (_dt n : Nat) (s : State), (Serving s) ∧ ((s.dev.port n).state = .draining) ∧ (s.dev.portIsEmpty n = true) :=
  ⟨7, 3, desk fun d => d.portM 3 fun p => { p with state := .draining }, by decide⟩

theorem witness_PortLifeCycle_8 : ∃ (_dt n : Nat) (s : State), (Serving s) ∧ ((s.dev.port n).state = .poweringDown) ∧ ((s.dev.port n).requests.length ≤ 1) :=
  ⟨7, 3, desk fun d => d.portM 3 fun p => { p with state := .poweringDown }, by decide⟩

theorem witness_PortLifeCycle_9 : ∃ (dt n : Nat) (s : State), (Serving s) ∧ (s.dev.portExists n = true) ∧ (3 ≤ (s.dev.port n).mmBells) ∧ ((s.dev.port n).mmPosted = false) ∧ ((s.dev.elapse dt).atBell = true) :=
  ⟨7, 3, desk fun d => (d.portM 3 fun p => { p with mmBells := 3 }).belM fun b => { b with lastAt := 7 }, by decide⟩

theorem witness_FlowControlAndLpi_1 : ∃ (_dt n : Nat) (data : List Byte) (s : State), (Serving s) ∧ (s.dev.portExists n = true) ∧ ((s.dev.port n).fcMode = 1) ∧ (natBE (subBytes data 14 2) = 1) :=
  ⟨7, 3, [0, 0, 0, 0, 0, 0, 0, 0, 0, 0, 0, 0, 0x88, 8, 0, 1, 0, 9], desk fun d => d.portM 3 fun p => { p with fcMode := 1 }, by decide⟩

theorem witness_FlowControlAndLpi_2 : ∃ (_dt n : Nat) (data : List Byte) (s : State), (Serving s) ∧ (s.dev.portExists n = true) ∧ ((s.dev.port n).fcMode ≠ 2) ∧ (natBE (subBytes data 14 2) = 0x0101) :=
  ⟨7, 3, [0, 0, 0, 0, 0, 0, 0, 0, 0, 0, 0, 0, 0x88, 8, 1, 1, 0, 9], desk fun d => d.portM 3 fun p => { p with fcMode := 1 }, by decide⟩

theorem witness_FlowControlAndLpi_3 : ∃ (dt n t : Nat) (s : State), (Serving s) ∧ (s.dev.portExists n = true) ∧ ((s.dev.elapse dt).nextPauseEnd n = some t) :=
  ⟨7, 3, 80, desk fun d => d.portM 3 fun p => { p with pauseUntil := 80 }, by decide⟩

theorem witness_FlowControlAndLpi_4 : ∃ (_dt n : Nat) (s : State), (Serving s) ∧ ((s.dev.port n).flowDue = true) ∧ ((s.dev.port n).state = .up ∨ (s.dev.port n).state = .draining) ∧ ((s.dev.port n).fcMode = 1) ∧ (s.dev.xoffAny n = true ∨ (s.dev.port n).prioSent ≠ 0) ∧ ((s.dev.schPort n).line = none) ∧ ((s.dev.port n).lpiTx = false) :=
  ⟨7, 3, desk fun d => d.portM 3 fun p => { p with fcMode := 1, flowDue := true, prioSent := 1 }, by decide⟩

theorem witness_FlowControlAndLpi_5 : ∃ (_dt n : Nat) (s : State), (Serving s) ∧ ((s.dev.port n).flowDue = true) ∧ ((s.dev.port n).state = .up ∨ (s.dev.port n).state = .draining) ∧ ((s.dev.port n).fcMode = 2) ∧ (s.dev.xoffPrios n ||| (s.dev.port n).prioSent ≠ 0) ∧ ((s.dev.schPort n).line = none) ∧ ((s.dev.port n).lpiTx = false) :=
  ⟨7, 3, desk fun d => d.portM 3 fun p => { p with fcMode := 2, flowDue := true, prioSent := 5 }, by decide⟩

theorem witness_FlowControlAndLpi_6 : ∃ (_dt n : Nat) (s : State), (Serving s) ∧ ((s.dev.port n).prioSent ≠ 0) ∧ ((s.dev.port n).state = .up ∨ (s.dev.port n).state = .draining) ∧ ((s.dev.port n).fcMode = 1) ∧ ((s.dev.schPort n).line = none) ∧ ((s.dev.port n).lpiTx = false) :=
  ⟨7, 3, desk fun d => d.portM 3 fun p => { p with fcMode := 1, prioSent := 1 }, by decide⟩

theorem witness_FlowControlAndLpi_7 : ∃ (_dt n : Nat) (s : State), (Serving s) ∧ ((s.dev.port n).prioSent ≠ 0) ∧ ((s.dev.schPort n).line.isSome = true) :=
  ⟨7, 3, desk fun d => (d.portM 3 fun p => { p with fcMode := 1, prioSent := 1 }).schPortM 3 fun x => { x with line := some {} }, by decide⟩

theorem witness_FlowControlAndLpi_8 : ∃ (_dt n : Nat) (s : State), (Serving s) ∧ ((s.dev.port n).state = .up) ∧ ((s.dev.port n).lpiEn = true) ∧ ((s.dev.port n).lpiTx = false) ∧ (s.dev.portIsEmpty n = true) :=
  ⟨7, 3, desk fun d => d.portM 3 fun p => { p with lpiEn := true }, by decide⟩

theorem witness_FlowControlAndLpi_9 : ∃ (_dt n : Nat) (s : State), (Serving s) ∧ ((s.dev.port n).lpiTx = true) ∧ ((s.dev.port n).lpiWaking = false) ∧ ((s.dev.belPort n).commit + (s.dev.belPort n).b15 ≠ 0) :=
  ⟨7, 3, desk fun d => (d.portM 3 fun p => { p with lpiTx := true }).belPortM 3 fun b => { b with b12 := 5 }, by decide⟩

theorem witness_FlowControlAndLpi_10 : ∃ (_dt n : Nat) (_enter : Bool) (s : State), (Serving s) ∧ (s.dev.portExists n = true) ∧ ((s.dev.port n).hasLpi = true) :=
  ⟨7, 3, true, desk fun d => d.portM 3 fun p => { p with speed := 1, fec := 1 }, by decide⟩

theorem witness_FramesArrive_1 : ∃ (_dt : Nat) (h : FrameHead) (s : State), (Serving s) ∧ ((s.dev.port h.port).state = .up ∨ (s.dev.port h.port).state = .draining) :=
  ⟨7, { port := 3, sof := 40, data := List.replicate 80 9 }, desk id, by decide⟩

theorem witness_FramesArrive_2 : ∃ (_dt : Nat) (h : FrameHead) (s : State), (Serving s) ∧ ((s.dev.port h.port).state = .up ∨ (s.dev.port h.port).state = .draining) ∧ (s.dev.prs.etherType h.data = 0x8808) :=
  ⟨7, { port := 3, sof := 40, data := List.replicate 12 9 ++ [0x88, 8] ++ List.replicate 50 0 }, desk id, by decide⟩

theorem witness_FramesArrive_3 : ∃ (_dt o : Nat) (h : FrameHead) (s : State), (Serving s) ∧ ((s.dev.port h.port).state = .up ∨ (s.dev.port h.port).state = .draining) ∧ (s.dev.prs.etherType h.data ≠ 0x8808) ∧ (s.dev.ptpTerminated h.port h.data = some o) ∧ (s.dev.engineTakes h.port (byteAt h.data o % 16) (byteAt h.data (o + 4)) = false) :=
  ⟨7, 14, { port := 3, sof := 40, data := [1, 128, 194, 0, 0, 14, 2, 0, 0, 0, 0, 1, 136, 247] ++ List.replicate 60 0 }, desk fun d => d.timPortM 3 fun p => { p with role := 1 }, by decide⟩

theorem witness_FramesArrive_4 : ∃ (_dt : Nat) (r : FrameEnd) (y : RxFrame) (s : State), (Serving s) ∧ (AMap.find? s.dev.fwd.rx r.port = some y) :=
  ⟨7, { port := 3 }, {}, desk fun d => d.fwdM fun w => { w with rx := [(3, {})] }, by decide⟩

theorem witness_FramesArrive_5 : ∃ (d : Dev) (n mac vid p : Nat), (p ∈ (d.copySet n mac vid).ports) :=
  ⟨(desk fun d => d.fwdM fun w => { w with fdb := [(0, { mac := 5, dest := 3 })], vlans := [(1, { fid := 0 })] }).dev, 2, 5, 1, 3, by decide⟩

theorem witness_FramesArrive_6 : ∃ (_dt k t : Nat) (s : State), (Serving s) ∧ ((s.dev.stream k).passedAt = some t) ∧ ((s.dev.stream k).rcvEn = true) :=
  ⟨7, 3, 9, atWork fun d => d.streamM 3 fun x => { x with passedAt := some 9, rcvEn := true }, by decide⟩

theorem witness_FramesLeave_1 : ∃ (dt n : Nat) (p : Pick) (s : State), (Serving s) ∧ ((s.dev.port n).state = .up ∨ (s.dev.port n).state = .draining) ∧ ((s.dev.port n).flowDue = false) ∧ ((s.dev.port n).lpiTx = false) ∧ ((s.dev.schPort n).line = none) ∧ ((s.dev.schPort n).lineEnd ≤ s.dev.now + dt) ∧ ((s.dev.elapse dt).choose n = some p) :=
  ⟨7, 3, .head 15 { frame := 0, cells := 1, len := 64, cutThrough := false }, { desk id with dev := ((desk id).dev.queuePtp 3 { kind := .sync }) }, by decide⟩

theorem witness_FramesLeave_2 : ∃ (_dt n : Nat) (l : OnLine) (s : State), (Serving s) ∧ ((s.dev.schPort n).line = some l) ∧ ((s.dev.frameAt l.copy.frame).complete = true) :=
  ⟨7, 3, { finish := 90 }, desk fun d => d.schPortM 3 fun p => { p with line := some { finish := 90 } }, by decide⟩

theorem witness_FramesLeave_3 : ∃ (_dt n : Nat) (l : OnLine) (s : State), (Serving s) ∧ ((s.dev.schPort n).line = some l) ∧ ((s.dev.frameAt l.copy.frame).complete = true) ∧ ((s.dev.frameAt l.copy.frame).ptp = none) :=
  ⟨7, 3, { finish := 90 }, desk fun d => d.schPortM 3 fun p => { p with line := some { finish := 90 } }, by decide⟩

theorem witness_FramesLeave_4 : ∃ (_dt n : Nat) (l : OnLine) (f : Frame) (s : State), (Serving s) ∧ ((s.dev.schPort n).line = some l) ∧ (AMap.find? s.dev.buf.frames l.copy.frame = some f) ∧ (f.complete = false) ∧ (f.ptp = none) ∧ (s.dev.cutShort l.copy.frame = true) :=
  ⟨7, 3, { finish := 90 }, { complete := false }, desk fun d => ((d.schPortM 3 fun p => { p with line := some { finish := 90 } }).bufM fun b => { b with frames := [(0, { complete := false })] }).fwdM fun w => { w with rx := [(5, { limit := 3, frame := some 0 })] }, by decide⟩

theorem witness_FramesLeave_5 : ∃ (_dt n : Nat) (l : OnLine) (m : PtpMsg) (s : State), (Serving s) ∧ ((s.dev.schPort n).line = some l) ∧ ((s.dev.frameAt l.copy.frame).complete = true) ∧ ((s.dev.frameAt l.copy.frame).ptp = some m) ∧ (l.copy.mirror = none) ∧ (m.kind = .delayReq) :=
  ⟨7, 3, { start := 40, finish := 90 }, { kind := .delayReq, seq := 6 }, desk fun d => (d.schPortM 3 fun p => { p with line := some { start := 40, finish := 90 } }).bufM fun b => { b with frames := [(0, { ptp := some { kind := .delayReq, seq := 6 }, txTime := 77 })] }, by decide⟩

theorem witness_FramesLeave_6 : ∃ (_dt n : Nat) (s : State), (Serving s) ∧ (s.dev.portExists n = true) ∧ (s.dev.refillDue n < s.dev.bel.nextAt) :=
  ⟨7, 3, desk id, by decide⟩

theorem witness_FramesLeave_7 : ∃ (_dt : Nat) (s : State), (Serving s) :=
  ⟨7, desk id, by decide⟩

theorem witness_FramesLeave_8 : ∃ (dt n : Nat) (s : State), (Serving s) ∧ ((s.dev.port n).lpiTx = true) ∧ ((s.dev.port n).lpiWaking = true) ∧ ((s.dev.schPort n).lineEnd ≤ s.dev.now + dt) :=
  ⟨7, 3, desk fun d => d.portM 3 fun p => { p with lpiTx := true, lpiWaking := true }, by decide⟩

set_option maxRecDepth 20000 in
theorem witness_ZubenFramesReceived_1 : ∃ (_dt i l : Nat) (_z : ZFrame) (s : State), (Serving s) ∧ (s.dev.carried i = some l) ∧ (s.dev.isZuben l = true) ∧ (s.dev.laneUp l = true) ∧ ((s.dev.zlane l).align = .sync) :=
  ⟨5, 3, 3, goodZ, zub fun d => d.zlaneM 3 fun y => { y with align := .sync, badRun := 2 }, by decide⟩

theorem witness_ZubenFramesReceived_2 : ∃ (_dt l : Nat) (raw _m : List Byte) (r : List (List Byte)) (s : State), (Serving s) ∧ (s.dev.isZuben l = true) ∧ ((s.dev.zlane l).mgmtIn = raw :: r) ∧ (mgmtContent raw = none) :=
  ⟨5, 3, [1, 2, 3, 4], [], [], zub fun d => d.zlaneM 3 fun z => { z with mgmtIn := [[1, 2, 3, 4]] }, by decide⟩

set_option maxRecDepth 20000 in
theorem witness_ZubenFramesReceived_3 : ∃ (_dt l : Nat) (raw m : List Byte) (r : List (List Byte)) (s : State), (Serving s) ∧ (s.dev.isZuben l = true) ∧ ((s.dev.zlane l).mgmtIn = raw :: r) ∧ (mgmtContent raw = some m) ∧ (s.dev.rxTakes s.dev.zbn.mgmtRing (s.dev.rxPlan s.dev.zbn.mgmtRing m) = true) :=
  ⟨5, 3, ((hdlcBytes [4]).drop 1).dropLast, [4], [], zub fun d => (d.zlaneM 3 fun z => { z with mgmtIn := [((hdlcBytes [4]).drop 1).dropLast] }).ringM 128 fun r => { r with state := .running, hostIdx := 5, lSize := 8 }, by decide, by decide, by decide, by decide, by decide⟩

theorem witness_ZubenFramesSent_1 : ∃ (_dt n : Nat) (s : State), (Serving s) ∧ ((s.dev.port n).state ≠ .absent) ∧ ((s.dev.port n).framing = 1) :=
  ⟨5, 3, zub id, by decide⟩

set_option maxRecDepth 20000 in
theorem witness_ZubenAlignment_1 : ∃ (_dt i l _b : Nat) (z : ZFrame) (s : State), (Serving s) ∧ (s.dev.huntKey i = some l) ∧ ((s.dev.lane i).state = .up) ∧ ((s.dev.zlane l).align ≠ .sync) ∧ (z.wordOk = true) ∧ ((s.dev.zlane l).candidates.length < 4) :=
  ⟨5, 3, 3, 77, goodZ, zub id, by decide⟩

set_option maxRecDepth 20000 in
theorem witness_ZubenAlignment_2 : ∃ (_dt i l _b : Nat) (_z : ZFrame) (s : State), (Serving s) ∧ (s.dev.huntKey i = some l) ∧ (4 ≤ (s.dev.zlane l).candidates.length) :=
  ⟨5, 3, 3, 77, goodZ, zub fun d => d.zlaneM 3 fun y => { y with candidates := [{ block := 1 }, { block := 2 }, { block := 3 }, { block := 4 }] }, by decide⟩

theorem witness_ZubenAlignment_3 : ∃ (_dt i l h b : Nat) (z : ZFrame) (c : Candidate) (s : State), (Serving s) ∧ (s.dev.huntKey i = some l) ∧ ((s.dev.zlane l).candidates.find? (fun y => y.block == h && y.next == b) = some c) ∧ (z.good = false) :=
  ⟨5, 3, 3, 77, 20561, {}, { block := 77 }, zub fun d => d.zlaneM 3 fun y => { y with align := .presync, candidates := [{ block := 77 }] }, by decide⟩

set_option maxRecDepth 20000 in
theorem witness_ZubenAlignment_4 : ∃ (_dt i l h b : Nat) (z : ZFrame) (c : Candidate) (s : State), (Serving s) ∧ (s.dev.huntKey i = some l) ∧ (l < 1024) ∧ ((s.dev.zlane l).candidates.find? (fun y => y.block == h && y.next == b) = some c) ∧ (z.good = true) ∧ (2 ≤ c.count) :=
  ⟨5, 3, 3, 77, 41045, goodZ, { block := 77, count := 2, mfc := 6 }, zub fun d => d.zlaneM 3 fun y => { y with align := .presync, candidates := [{ block := 77, count := 2, mfc := 6 }] }, by decide⟩

theorem witness_ZubenAlignment_5 : ∃ (_dt i l : Nat) (s : State), (Serving s) ∧ (s.dev.carried i = some l) ∧ (s.dev.isZuben l = true) ∧ ((s.dev.zlane l).align = .sync) ∧ (5 ≤ (s.dev.zlane l).badRun) :=
  ⟨5, 3, 3, zub fun d => d.zlaneM 3 fun y => { y with align := .sync, badRun := 5 }, by decide⟩

theorem witness_ZubenAlignment_6 : ∃ (_dt i l : Nat) (s : State), (Serving s) ∧ (s.dev.carried i = some l) ∧ (s.dev.isZuben l = true) ∧ (windowFrames (s.dev.zlane l).sf.exp ≤ (s.dev.zlane l).sf.frames) :=
  ⟨5, 3, 3, zub fun d => d.zlaneM 3 fun y => { y with sf := { exp := 3, frames := 1250, errors := 4, raised := true } }, by decide⟩

theorem witness_ZubenAlignment_7 : ∃ (_dt i l : Nat) (s : State), (Serving s) ∧ (s.dev.carried i = some l) ∧ (s.dev.isZuben l = true) ∧ (windowFrames (s.dev.zlane l).sd.exp ≤ (s.dev.zlane l).sd.frames) :=
  ⟨5, 3, 3, zub fun d => d.zlaneM 3 fun y => { y with sd := { exp := 3, frames := 1250, errors := 1, raised := true } }, by decide⟩

theorem witness_ZubenHandshakeAndTimes_1 : ∃ (_dt l : Nat) (w : SwitchCmd) (s : State), (Serving s) ∧ ((s.dev.zlane l).hs = .requesting) ∧ ((s.dev.zlane l).reqSent = true) ∧ ((s.dev.ttbLane l).switch = some w) :=
  ⟨5, 3, { ring := 1, tag := 9 }, zub fun d => (((d.zlaneM 3 fun y => { y with hs := .requesting, reqSent := true, hsTai := 90000 }).ttbLaneM 3 fun t => { t with switch := some { ring := 1, tag := 9 } }).hifM fun h => { h with inflight := [longCmd] }), by decide⟩

theorem witness_ZubenHandshakeAndTimes_2 : ∃ (_dt l : Nat) (s : State), (Serving s) ∧ ((s.dev.zlane l).hs = .naking) ∧ ((s.dev.zlane l).naksLeft = 0) ∧ ((s.dev.ttbLane l).switch = none) :=
  ⟨5, 3, zub fun d => d.zlaneM 3 fun y => { y with hs := .naking }, by decide⟩

theorem witness_ZubenHandshakeAndTimes_3 : ∃ (dt l : Nat) (s : State), (Serving s) ∧ (s.dev.isZuben l = true) ∧ (3 ≤ (s.dev.zlane l).pageBells) ∧ ((s.dev.zlane l).pagePosted = false) ∧ ((s.dev.elapse dt).atBell = true) :=
  ⟨5, 3, zub fun d => (d.zlaneM 3 fun y => { y with pageBells := 3 }).belM fun b => { b with lastAt := 5 }, by decide⟩

theorem witness_ZubenHandshakeAndTimes_4 : ∃ (_dt : Nat) (s : State), (Serving s) :=
  ⟨4000000000, zub fun d => d.zlaneM 3 fun y => { y with pm := { y.pm with errored := [(0, 6)] } }, by decide⟩

theorem witness_ZubenHandshakeAndTimes_5 : ∃ (_dt : Nat) (s : State), (Serving s) ∧ (s.dev.zubenLanes.Nodup) :=
  ⟨4000000000000, zub fun d => (d.zlaneM 3 fun y => { y with pm := { y.pm with cur15 := { valid := true } } }).belM fun b => { b with lastAt := 4000000000000 }, by decide⟩

theorem witness_ZubenHandshakeAndTimes_6 : ∃ (_dt : Nat) (s : State), (Serving s) ∧ (s.dev.zubenLanes.Nodup) :=
  ⟨400000000000000, zub fun d => (d.zlaneM 3 fun y => { y with pm := { y.pm with cur24 := { valid := true } } }).belM fun b => { b with lastAt := 400000000000000 }, by decide⟩

theorem witness_ZubenHandshakeAndTimes_7 : ∃ (_dt n ring tag b : Nat) (r : List (Nat × Nat × Nat)) (s : State), (Serving s) ∧ ((s.dev.flexe n).pend = (ring, tag, b) :: r) ∧ ((s.dev.flexe n).acked = true) :=
  ⟨5, 3, 1, 9, 4, [], desk fun d => (d.flexeM 3 fun f => { f with pend := [(1, 9, 4)], acked := true, crAt := some 0 }).hifM fun h => { h with inflight := [longCmd] }, by decide⟩

theorem witness_ZubenHandshakeAndTimes_8 : ∃ (_dt n ring tag b t : Nat) (r : List (Nat × Nat × Nat)) (s : State), (Serving s) ∧ ((s.dev.flexe n).pend = (ring, tag, b) :: r) ∧ ((s.dev.flexe n).crAt = some t) ∧ ((s.dev.flexe n).acked = false) :=
  ⟨5, 3, 1, 9, 4, 30, [], desk fun d => (d.flexeM 3 fun f => { f with pend := [(1, 9, 4)], crAt := some 30 }).hifM fun h => { h with inflight := [longCmd] }, by decide⟩

theorem witness_ZubenHandshakeAndTimes_9 : ∃ (_dt n : Nat) (f : FlexeOh) (s : State), (Serving s) ∧ ((s.dev.port n).state ≠ .absent) ∧ ((s.dev.port n).framing = 2) ∧ (f.lock = true) :=
  ⟨5, 3, { lock := true, cr := true, ca := true }, desk fun d => (d.portM 3 fun p => { p with framing := 2 }).flexeM 3 fun f => { f with crAt := some 30 }, by decide⟩

theorem witness_ZubenHandshakeAndTimes_10 : ∃ (_dt n : Nat) (f : FlexeOh) (s : State), (Serving s) ∧ ((s.dev.port n).state ≠ .absent) ∧ ((s.dev.port n).framing = 2) ∧ (f.lock = false) :=
  ⟨5, 3, { lock := false }, desk fun d => (d.portM 3 fun p => { p with framing := 2 }).flexeM 3 fun f => { f with ohLock := true }, by decide⟩

theorem witness_ProtectionRows_1 : ∃ (_dt l : Nat) (w : SwitchCmd) (s : State), (Serving s) ∧ ((s.dev.ttbLane l).switch = some w) ∧ (w.armed = true) ∧ (w.initiate = false) ∧ ((s.dev.zlane l).hs ≠ .agreed) :=
  ⟨5, 3, { ring := 1, tag := 9, armed := true, deadline := 44 }, zub fun d => (d.ttbLaneM 3 fun t => { t with switch := some { ring := 1, tag := 9, armed := true, deadline := 44 } }).hifM fun h => { h with inflight := [longCmd] }, by decide⟩

theorem witness_ProtectionRows_2 : ∃ (_dt i : Nat) (p : Prot) (s : State), (Serving s) ∧ (AMap.find? s.dev.ttb.prots i = some p) ∧ (p.sfW = true) ∧ (p.sfWReq = false) :=
  ⟨5, 2, { sfW := true }, zub fun d => d.ttbM fun t => { t with prots := [(2, { sfW := true })] }, by decide⟩

theorem witness_ProtectionRows_3 : ∃ (_dt i : Nat) (p : Prot) (s : State), (Serving s) ∧ (AMap.find? s.dev.ttb.prots i = some p) ∧ (p.sdW = true) ∧ (p.sdWReq = false) :=
  ⟨5, 2, { sdW := true }, zub fun d => d.ttbM fun t => { t with prots := [(2, { sdW := true })] }, by decide⟩

theorem witness_ProtectionRows_4 : ∃ (_dt i : Nat) (p : Prot) (s : State), (Serving s) ∧ (AMap.find? s.dev.ttb.prots i = some p) ∧ (p.wtrRunning = true) ∧ (p.request = 2) ∧ (p.highest = 0) ∧ (p.revertive = true) :=
  ⟨5, 2, { wtrRunning := true, request := 2, selected := true, revertive := true }, zub fun d => d.ttbM fun t => { t with prots := [(2, { wtrRunning := true, request := 2, selected := true, revertive := true })] }, by decide⟩

theorem witness_ProtectionRows_5 : ∃ (_dt i : Nat) (s : State), (Serving s) ∧ ((s.dev.prot i).align = .acquiring) ∧ ((s.dev.prot i).unalignedPosted = false) :=
  ⟨5, 2, zub fun d => d.ttbM fun t => { t with prots := [(2, { align := .acquiring })] }, by decide⟩

theorem witness_ProtectionRows_6 : ∃ (_dt i : Nat) (side : Bool) (s : State), (Serving s) ∧ ((s.dev.prot i).align = .aligned) ∧ ((if side then (s.dev.prot i).sfP else (s.dev.prot i).sfW) = true) :=
  ⟨5, 2, true, zub fun d => d.ttbM fun t => { t with prots := [(2, { align := .aligned, sfP := true })] }, by decide⟩

theorem witness_ProtectionRows_7 : ∃ (dt l : Nat) (s : State), (Serving s) ∧ (s.dev.isZuben l = true) ∧ (3 ≤ (s.dev.ttbLane l).mmBells) ∧ ((s.dev.ttbLane l).mmPosted = false) ∧ ((s.dev.elapse dt).atBell = true) :=
  ⟨5, 3, zub fun d => (d.ttbLaneM 3 fun t => { t with mmBells := 4, rxMismatch := 2 }).belM fun b => { b with lastAt := 5 }, by decide⟩

theorem witness_ProtectionRows_8 : ∃ (_dt : Nat) (k : BuddyContainer) (p : Prot) (s : State), (Serving s) ∧ (AMap.find? s.dev.ttb.prots k.index = some p) ∧ (p.wired = true) ∧ (p.buddy = true) ∧ (s.dev.bdy.linkUp = true) :=
  ⟨5, { index := 2, blocks := [{ hdr := 1, content := 4 }] }, { wired := true, buddy := true }, zub fun d => (d.ttbM fun t => { t with prots := [(2, { wired := true, buddy := true })] }).bdyM fun b => { b with linkUp := true }, by decide⟩

theorem witness_TablesAndRecorders_1 : ∃ (_dt k : Nat) (e : FdbEntry) (s : State), (Serving s) ∧ (s.dev.bgPaused = false) ∧ (k < 1048576) ∧ (AMap.rising s.dev.fwd.fdb = true) ∧ (AMap.find? s.dev.fwd.fdb k = some e) ∧ (e.static = false) ∧ (e.hit = true) :=
  ⟨5, 7, { mac := 5, hit := true, age := 3 }, desk fun d => d.fwdM fun w => { w with fdb := [(7, { mac := 5, hit := true, age := 3 })] }, by decide⟩

theorem witness_TablesAndRecorders_2 : ∃ (_dt k : Nat) (e : FdbEntry) (s : State), (Serving s) ∧ (s.dev.bgPaused = false) ∧ (k < 1048576) ∧ (AMap.rising s.dev.fwd.fdb = true) ∧ (AMap.find? s.dev.fwd.fdb k = some e) ∧ (e.static = false) ∧ (e.hit = false) ∧ (e.age + 1 < 8) :=
  ⟨5, 7, { mac := 5, age := 3 }, desk fun d => d.fwdM fun w => { w with fdb := [(7, { mac := 5, age := 3 })] }, by decide⟩

theorem witness_TablesAndRecorders_3 : ∃ (_dt k : Nat) (e : FdbEntry) (s : State), (Serving s) ∧ (k < 1048576) ∧ (AMap.rising s.dev.fwd.fdb = true) ∧ (AMap.find? s.dev.fwd.fdb k = some e) ∧ (e.static = true) :=
  ⟨5, 7, { mac := 5, static := true }, desk fun d => d.fwdM fun w => { w with fdb := [(7, { mac := 5, static := true })] }, by decide⟩

theorem witness_TablesAndRecorders_4 : ∃ (_dt ring tag : Nat) (c : Cmd) (s : State), (Serving s) ∧ (s.dev.bgPaused = false) ∧ (s.dev.cmdAt ring tag = some c) ∧ (c.op = 0x0A03) ∧ (c.stage = .long) ∧ (c.held = false) ∧ (c.mirrored = false) :=
  ⟨5, 1, 9, { e := { ring := 1, tag := 9, body := fd 16 16 1 }, op := 0x0A03, stage := .long }, desk fun d => (d.fwdM fun w => { w with fdb := [(7, { mac := 5 })] }).hifM fun h => { h with inflight := [{ e := { ring := 1, tag := 9, body := fd 16 16 1 }, op := 0x0A03, stage := .long }] }, by decide⟩

theorem witness_TablesAndRecorders_5 : ∃ (_dt r : Nat) (s : State), (Serving s) ∧ ((s.dev.region r).state = .post) ∧ ((s.dev.region r).postLeft = 0) ∧ ((s.dev.region r).freezeWait = [] ∧ (s.dev.region r).rearmWait = [] ∧ (s.dev.region r).disableWait = []) :=
  ⟨5, 2, desk fun d => d.regionM 2 fun g => { g with state := .post, pages := 4, cur := [1, 2, 3] }, by decide⟩

theorem witness_TablesAndRecorders_6 : ∃ (_dt r ring tag : Nat) (c : Cmd) (s : State), (Serving s) ∧ ((s.dev.region r).reader = some (ring, tag)) ∧ (s.dev.cmdAt ring tag = some c) ∧ (c.held = false) ∧ ((s.dev.region r).rearmWait = [] ∧ (s.dev.region r).disableWait = []) :=
  ⟨5, 2, 1, 9, { e := { ring := 1, tag := 9, body := fd 16 0 2 }, op := 0x0A0E, stage := .long, total := 1 }, desk fun d => (d.regionM 2 fun g => { g with state := .reading, reader := some (1, 9), pages := 4 }).hifM fun h => { h with inflight := [{ e := { ring := 1, tag := 9, body := fd 16 0 2 }, op := 0x0A0E, stage := .long, total := 1 }] }, by decide⟩

theorem witness_PagesMove_1 : ∃ (_dt q : Nat) (a r : List FarPage) (p : FarPage) (s : State), (Serving s) ∧ ((s.dev.queue q).f = a ++ p :: r) ∧ (∀ y ∈ a, y.acked = true) ∧ (p.acked = false) :=
  ⟨5, 48, [{ page := 3, acked := true }], [{ page := 9 }], { page := 7 }, desk fun d => d.queueM 48 fun y => { y with f := [{ page := 3, acked := true }, { page := 7 }, { page := 9 }] }, by decide⟩

theorem witness_PagesMove_2 : ∃ (_dt q : Nat) (p : FarPage) (r : List FarPage) (s : State), (Serving s) ∧ ((s.dev.queue q).f = p :: r) ∧ (p.asked = true) ∧ (p.acked = true) ∧ (s.dev.buf.spillStopped = false) ∧ ((s.dev.queue q).t = []) :=
  ⟨5, 48, { page := 3, acked := true, asked := true }, [{ page := 9 }], desk fun d => (d.queueM 48 fun y => { y with f := [{ page := 3, acked := true, asked := true }, { page := 9 }] }).bufM fun b => { b with farUsed := 2 }, by decide⟩

theorem witness_PagesMove_3 : ∃ (_dt : Nat) (g : RollCall) (_fs : List RollFinding) (s : State), (Serving s) ∧ (s.dev.buf.roll = some g) ∧ (g.startSeq ≤ s.dev.bel.seq) ∧ (s.dev.rollHeld g = false) :=
  ⟨5, { ring := 1, tag := 9, near := true, addr := 4096 }, [], desk fun d => (d.bufM fun b => { b with roll := some { ring := 1, tag := 9, near := true, addr := 4096 } }).hifM fun h => { h with inflight := [longCmd] }, by decide⟩

theorem witness_FarStoreController_1 : ∃ (_dt _n : Nat) (b : BurstAt) (s : State), (Serving s) ∧ (s.dev.chanLive b.chan = true) ∧ (s.dev.drc.pprEn = false) ∧ ((s.dev.stack (b.chan / 34)).panic = false) ∧ ((s.dev.chan b.chan).poison.contains (burstKey b) = false) :=
  ⟨5, 2, { chan := 4, bank := 1, row := 7 }, desk fun d => (d.drcM fun r => { r with ready := true, pprEn := false }).chanM 4 fun c => { c with state := .service, logical := 4 }, by decide⟩

theorem witness_FarStoreController_2 : ∃ (_dt : Nat) (b : BurstAt) (s : State), (Serving s) ∧ (s.dev.chanLive b.chan = true) :=
  ⟨5, { chan := 4, bank := 1, row := 7 }, desk fun d => (d.drcM fun r => { r with ready := true }).chanM 4 fun c => { c with state := .service, logical := 4 }, by decide⟩

theorem witness_FarStoreController_3 : ∃ (_dt : Nat) (b : BurstAt) (s : State), (Serving s) ∧ (s.dev.chanLive b.chan = true) ∧ ((s.dev.chan b.chan).state ≠ .retraining) ∧ ((s.dev.stack (b.chan / 34)).panic = false) ∧ (s.dev.bgPaused = false) ∧ (burstKey b = (s.dev.chan b.chan).scrubbed) ∧ ((s.dev.chan b.chan).poison.contains (burstKey b) = false) :=
  ⟨5, { chan := 4, bank := 31, row := 32767, burst := 63 }, desk fun d => (d.drcM fun r => { r with ready := true }).chanM 4 fun c => { c with state := .service, logical := 4, scrubbed := 67108863, ceNow := 3 }, by decide⟩

theorem witness_FarStoreController_4 : ∃ (_dt i b : Nat) (_pend : Bool) (s : State), (Serving s) ∧ (s.dev.chanLive i = true) ∧ (b < 32) ∧ (AMap.getD (s.dev.chan i).owed b 8 ≤ 16) :=
  ⟨5, 4, 3, true, desk fun d => (d.drcM fun r => { r with ready := true }).chanM 4 fun c => { c with state := .service, logical := 4, owed := [(3, 16)] }, by decide⟩

theorem witness_FarStoreController_5 : ∃ (_dt k _c : Nat) (s : State), (Serving s) ∧ (k < s.dev.glb.part.stacks) :=
  ⟨5, 2, 90, desk id, by decide⟩

theorem witness_FarStoreController_6 : ∃ (_dt i b r : Nat) (s : State), (Serving s) ∧ ((s.dev.chan i).quarantined.contains (rowKey b r) = true) ∧ ((s.dev.chan i).state = .spare) :=
  ⟨5, 4, 3, 8, desk fun d => d.chanM 4 fun c => { c with quarantined := [rowKey 3 8] }, by decide⟩

theorem witness_FarStoreController_7 : ∃ (_dt k slot : Nat) (s : State), (Serving s) ∧ ((s.dev.retrain k slot).phase = 4) ∧ (slot < 2) ∧ ((s.dev.retrain k slot).aborted = false) ∧ (s.dev.chanFailed (34 * k + (s.dev.retrain k slot).source) = false) ∧ ((s.dev.retrain k slot).source ≠ (s.dev.retrain k slot).target) :=
  ⟨5, 1, 0, desk fun d => d.retrainM 1 0 fun _ => { phase := 4, source := 4, target := 32, logical := 4 }, by decide⟩

theorem witness_FarStoreController_8 : ∃ (_dt k slot : Nat) (s : State), (Serving s) ∧ ((s.dev.retrain k slot).phase = 4) ∧ (slot < 2) ∧ (s.dev.chanFailed (34 * k + (s.dev.retrain k slot).source) = true) :=
  ⟨5, 1, 0, desk fun d => (d.retrainM 1 0 fun _ => { phase := 4, source := 4, target := 32, logical := 4 }).drcM fun r => { r with lanes := [(5 * 38, { failed := true })] }, by decide⟩

theorem witness_GovernorRows_1 : ∃ (dt : Nat) (s : State), (Serving s) ∧ (s.dev.gov.step ≠ 0) ∧ (s.dev.gov.holdBells ≤ s.dev.gov.lowBells) ∧ (s.dev.gov.hwThermal = false) ∧ ((s.dev.elapse dt).atBell = true) :=
  ⟨5, desk fun d => (d.govM fun g => { g with step := 3, lowBells := 16, beHold := true }).belM fun b => { b with lastAt := 5 }, by decide⟩

theorem witness_GovernorRows_2 : ∃ (dt : Nat) (s : State), (Serving s) ∧ (3 ≤ s.dev.gov.mmBells) ∧ (s.dev.gov.mmPosted = false) ∧ ((s.dev.elapse dt).atBell = true) :=
  ⟨5, desk fun d => (d.govM fun g => { g with mmBells := 3 }).belM fun b => { b with lastAt := 5 }, by decide⟩

theorem witness_GovernorRows_3 : ∃ (_dt _k : Nat) (s : State), (s.dev.boot.stopped = .no) ∧ (Quiet s) :=
  ⟨5, 3, desk id, by decide⟩

theorem witness_GovernorRows_4 : ∃ (_dt q a : Nat) (s : State), (Serving s) ∧ (q < s.dev.glb.part.quads) ∧ ((s.dev.quad q).limit ≤ a) :=
  ⟨5, 1, 170, desk id, by decide⟩

theorem witness_GovernorRows_5 : ∃ (_dt : Nat) (_ts : List Nat) (s : State), (Serving s) :=
  ⟨5, [700, 760], desk id, by decide⟩

theorem witness_GovernorRows_6 : ∃ (_dt q : Nat) (s : State), (Serving s) ∧ (q < s.dev.glb.part.quads) :=
  ⟨5, 1, desk id, by decide⟩

theorem witness_RingRows_1 : ∃ (_dt g v : Nat) (_w : List (Nat × Nat)) (s : State), (Serving s) ∧ (g < 32) ∧ (s.dev.hif.flr = false) ∧ ((s.dev.ring g).state = .running) ∧ ((v % 2 ^ 17 % (2 * (s.dev.ring g).n) + 2 * (s.dev.ring g).n - (s.dev.ring g).devIdx) % (2 * (s.dev.ring g).n) ≤ (s.dev.ring g).n) :=
  ⟨5, 0, 17, [], desk id, by decide⟩

theorem witness_RingRows_2 : ∃ (_dt g _v : Nat) (_w : List (Nat × Nat)) (s : State), (Serving s) ∧ (g < 200) ∧ (s.dev.hif.flr = false) ∧ ((s.dev.ring g).state ≠ .running) :=
  ⟨5, 4, 17, [(64, 256)], desk id, by decide⟩

theorem witness_RingRows_3 : ∃ (_dt g v : Nat) (_p : Nat × Nat) (s : State), (Serving s) ∧ (128 ≤ g ∧ g < 192) ∧ (s.dev.hif.flr = false) ∧ ((s.dev.ring g).state = .running) ∧ ((v % 2 ^ 17 % (2 * (s.dev.ring g).n) + 2 * (s.dev.ring g).n - (s.dev.ring g).devIdx) % (2 * (s.dev.ring g).n) ≤ (s.dev.ring g).n) ∧ ((v % 2 ^ 17 % (2 * (s.dev.ring g).n) + 2 * (s.dev.ring g).n - (s.dev.ring g).hostIdx) % (2 * (s.dev.ring g).n) = 1) :=
  ⟨5, 128, 6, (64, 1000), desk fun d => d.ringM 128 fun r => { r with state := .running, hostIdx := 5, lSize := 8 }, by decide⟩

theorem witness_RingRows_4 : ∃ (_dt g : Nat) (w : RegWrite) (s : State), (s.dev.busUp = true) ∧ (s.dev.regsUp = true) ∧ (g < 32) ∧ ((s.dev.ring g).state = .off) ∧ (w.off = 0 ∧ w.len = 4 ∧ w.poisoned = false ∧ w.data % 2 = 1) ∧ (Quiet s) :=
  ⟨5, 4, { data := 1 }, desk id, by decide⟩

theorem witness_RingRows_5 : ∃ (_dt g : Nat) (s : State), (Serving s) ∧ ((s.dev.ring g).state = .stopping) ∧ (s.dev.mayOff g = true) ∧ ((s.dev.ring g).en = false) :=
  ⟨5, 4, desk fun d => d.ringM 4 fun r => { r with state := .stopping }, by decide⟩

theorem witness_RingRows_6 : ∃ (_dt g _k : Nat) (_p : Bool) (s : State), (Serving s) ∧ (g < 32) ∧ ((s.dev.ring g).state = .running) :=
  ⟨5, 0, 6, true, desk id, by decide⟩

theorem witness_RingRows_7 : ∃ (_dt k : Nat) (s : State), (Serving s) ∧ (k < 8) ∧ ((s.dev.ring (192 + k)).state = .running) ∧ ((s.dev.ring (192 + k)).lost ≠ 0) ∧ ((s.dev.ring (192 + k)).room = true) :=
  ⟨5, 1, desk fun d => d.ringM 193 fun r => { r with state := .running, lost := 4 }, by decide⟩

theorem witness_RingRows_8 : ∃ (_dt g : Nat) (s : State), (Serving s) ∧ ((s.dev.ring g).armed = true) ∧ ((s.dev.ring g).unsignalled ≠ 0) ∧ ((s.dev.ring g).state ≠ .off) ∧ ((s.dev.ring g).modCount ≤ (s.dev.ring g).unsignalled) ∧ (bit (s.dev.msixEntry (s.dev.ring g).vector) 96 = false) :=
  ⟨5, 33, desk fun d => (d.ringM 33 fun r => { r with state := .running, armed := true, unsignalled := 2 }).hifM fun h => { h with msixTable := [(0, 0)] }, by decide⟩

theorem witness_CommandRows_1 : ∃ (_dt g : Nat) (raw : List Byte) (e : CmdEntry) (s : State), (Serving s) ∧ (s.dev.mayFetch g = true) ∧ ((s.dev.ring g).waiting ≠ 0) ∧ ((s.dev.ring g).state = .running) ∧ ((specOf (natLE (raw.take 2))).isSome = true) ∧ (s.dev.cmdAt g (entryOf g raw e).tag = none) ∧ (s.dev.unwritten (fun x => x.kind == 0 && x.ring == g && x.tag == (entryOf g raw e).tag) = 0) :=
  ⟨5, 0, [3, 1, 7, 0], {}, desk fun d => d.ringM 0 fun r => { r with hostIdx := 3 }, by decide⟩

theorem witness_CommandRows_2 : ∃ (_dt g : Nat) (c : Cmd) (s : State), (Serving s) ∧ (s.dev.turn g = some c) ∧ (c.op = 0x0102) ∧ ((s.dev.ring c.e.ring).user = false) ∧ (s.dev.bdy.state = .off) :=
  ⟨5, 1, { e := { ring := 1, tag := 9 }, op := 0x0102 }, desk fun d => d.hifM fun h => { h with inflight := [{ e := { ring := 1, tag := 9 }, op := 0x0102 }] }, by decide⟩

theorem witness_CommandRows_3 : ∃ (_dt g tag : Nat) (c : Cmd) (s : State), (Serving s) ∧ (s.dev.cmdAt g tag = some c) ∧ (c.op = 0x0103) ∧ (c.stage = .waiting) ∧ (c.waits = []) ∧ (g < 32) ∧ (c.cring = (s.dev.ring g).lCring) ∧ (s.dev.bdy.state ≠ .paired) ∧ (CanTell s g) :=
  ⟨5, 1, 9, { e := { ring := 1, tag := 9 }, op := 0x0103, stage := .waiting, waited := 3 }, desk fun d => d.hifM fun h => { h with inflight := [{ e := { ring := 1, tag := 9 }, op := 0x0103, stage := .waiting, waited := 3 }] }, by decide⟩

theorem witness_CommandRows_4 : ∃ (_dt g tag _pos : Nat) (c : Cmd) (s : State), (Serving s) ∧ (s.dev.cmdAt g tag = some c) ∧ (c.op = 0x0B03) ∧ (c.stage = .long) ∧ (c.held = false) ∧ (s.dev.bgPaused = false) :=
  ⟨5, 1, 9, 30, { e := { ring := 1, tag := 9 }, op := 0x0B03, stage := .long, total := 80 }, desk fun d => d.hifM fun h => { h with inflight := [{ e := { ring := 1, tag := 9 }, op := 0x0B03, stage := .long, total := 80 }] }, by decide⟩

theorem witness_CommandRows_5 : ∃ (dt : Nat) (s : State), (Serving s) ∧ (s.dev.autoFlip (s.dev.bel.seq + 1) = true) ∧ (s.dev.bel.nextAt ≤ s.dev.now + dt) ∧ (s.dev.cnt.flippedFor ≠ s.dev.bel.seq + 1) :=
  ⟨50000000, desk fun d => d.cntM fun c => { c with autoBells := 1, live := [(4, 7)] }, by decide⟩

theorem witness_HostFramesAndResets_1 : ∃ (_dt r : Nat) (raw bytes : List Byte) (s : State), (Serving s) ∧ (s.dev.mayFetchTx r = true) ∧ (s.dev.bdy.state ≠ .paired) ∧ (s.dev.descBad (s.dev.descOf r raw bytes) = false) ∧ (s.dev.flushedEntry (s.dev.descOf r raw bytes) = false) ∧ (s.dev.xoffNow (ptTx r) (s.dev.descOf r raw bytes).cls = false) :=
  ⟨5, 1, bytesLE 32 (60 * 2 ^ 64 + 3 * 2 ^ 96), [1, 2, 3], desk fun d => d.ringM 65 fun r => { r with state := .running, hostIdx := 3 }, by decide⟩

theorem witness_HostFramesAndResets_2 : ∃ (_dt r : Nat) (t : TxDesc) (s : State), (Serving s) ∧ ((s.dev.txRead r).head? = some t) ∧ (s.dev.txHalted t = false) ∧ ((s.dev.sourceFor (ptTx r) t.cls (cellsOf (t.data.length + 4))).1.isSome = true) ∧ (t.mode = 0) ∧ (t.module = false) :=
  ⟨5, 1, { ring := 1, port := 3, data := List.replicate 60 7 }, desk fun d => d.hifM fun h => { h with tx := [{ ring := 1, port := 3, data := List.replicate 60 7 }] }, by decide⟩

theorem witness_HostFramesAndResets_3 : ∃ (_dt : Nat) (s : State), (Serving s) ∧ (s.dev.prc.zeroizing = none) ∧ (s.dev.hif.inflight.filter flrEnds = []) :=
  ⟨5, desk fun d => d.hifM fun h => { h with owed := [(0, { tag := 5 })] }, by decide⟩

theorem witness_HostFramesAndResets_4 : ∃ (_dt : Nat) (s : State), (Serving s) ∧ (s.dev.prc.zeroizing = none) ∧ (s.dev.hif.inflight.filter flrEnds = []) :=
  ⟨5, desk fun d => d.hifM fun h => { h with inflight := [{ e := { ring := 0, tag := 9 }, op := 0x0102, stage := .accepted 0 }] }, by decide⟩

theorem witness_HostFramesAndResets_5 : ∃ (_dt : Nat) (s : State), (Serving s) ∧ (s.dev.hif.flr = true) :=
  ⟨5, desk fun d => d.hifM fun h => { h with flr := true }, by decide⟩

theorem witness_HostFramesAndResets_6 : ∃ (_dt : Nat) (c : Compl) (s : State), (Serving s) ∧ (s.dev.hif.ledger = [c]) ∧ (c.kind = 0 ∧ c.status ≠ 1) ∧ ((s.dev.ring (32 + s.dev.hif.ledgerRing)).state = .running) ∧ ((s.dev.ring (32 + s.dev.hif.ledgerRing)).room = true) :=
  ⟨5, { tag := 5 }, desk fun d => d.hifM fun h => { h with ledger := [{ tag := 5 }] }, by decide⟩

theorem witness_HostFramesAndResets_7 : ∃ (_dt gen width : Nat) (s : State), ((s.dev.hif.linkGen, s.dev.hif.linkWidth) ≠ (gen, width)) ∧ (gen < 8 ∧ width < 32) ∧ (Quiet s) :=
  ⟨5, 5, 16, desk id, by decide⟩

theorem witness_SubstituteRows_1 : ∃ (_dt k u _v : Nat) (s : State), (Serving s) ∧ (3 ≤ k ∧ k < 7) ∧ (s.dev.monitored k u = true) :=
  ⟨5, 3, 7, 900, desk fun d => d.subM fun s => { s with persist := 1 }, by decide⟩

theorem witness_SubstituteRows_2 : ∃ (_dt k u _v : Nat) (s : State), (Serving s) ∧ (k < 3) ∧ (s.dev.monitored k u = true) ∧ ((s.dev.wear k u).fresh = true) :=
  ⟨5, 2, 7, 0, desk fun d => (d.subM fun s => { s with persist := 1, wear := AMap.set s.wear (wearKey 2 7) { fresh := true } }).chanM 7 fun c => { c with ceLast := 900 }, by decide⟩

theorem witness_SubstituteRows_3 : ∃ (dt k u sp : Nat) (s : State), (Serving s) ∧ (s.dev.sub.autoDue.contains (3, u) = true) ∧ (s.dev.bel.nextAt ≤ s.dev.now + dt) ∧ (s.dev.freeSlot = some k) ∧ (s.dev.substituting 3 u = false) ∧ (s.dev.unitInService 3 u = true) ∧ (s.dev.spareFor 3 u = some sp) :=
  ⟨50000000, 0, 7, 64, desk fun d => d.subM fun s => { s with autoDue := [(3, 7)] }, by decide⟩

theorem witness_SubstituteRows_4 : ∃ (_dt k : Nat) (s : State), (Serving s) ∧ ((s.dev.slotOf k).claimed = true) ∧ ((s.dev.slotOf k).kind = 1) ∧ ((s.dev.slotOf k).step = 2) ∧ (3 ≤ (s.dev.slotOf k).matched) :=
  ⟨5, 2, desk fun d => d.slotM 2 fun y => { y with claimed := true, kind := 1, step := 2, matched := 3 }, by decide⟩

theorem witness_SubstituteRows_5 : ∃ (_dt k : Nat) (s : State), (Serving s) ∧ ((AMap.find? s.dev.sub.slots k).isSome = true) ∧ ((s.dev.slotOf k).kind = 2) ∧ ((s.dev.slotOf k).step < 3) :=
  ⟨5, 2, desk fun d => d.slotM 2 fun y => { y with claimed := true, kind := 2, step := 2, deadline := 80 }, by decide⟩

theorem witness_SubstituteRows_6 : ∃ (_dt k : Nat) (s : State), (Serving s) ∧ ((s.dev.slotOf k).claimed = true) ∧ ((s.dev.slotOf k).step = 5) ∧ ((s.dev.slotOf k).kind ≠ 4) ∧ (s.dev.bgPaused = false) ∧ (s.dev.subHeld (s.dev.slotOf k) = false) :=
  ⟨5, 2, desk fun d => d.slotM 2 fun y => { y with claimed := true, kind := 3, step := 5, total := 65536 }, by decide⟩

theorem witness_SubstituteRows_7 : ∃ (_dt l t : Nat) (s : State), (Serving s) ∧ (AMap.find? s.dev.sub.linger l = some t) :=
  ⟨5, 3, 99, desk fun d => d.subM fun s => { s with linger := [(3, 99)] }, by decide⟩

theorem witness_RegisterAccess_1 : ∃ (_dt _v : Nat) (s : State), (s.dev.busUp = true) ∧ (Quiet s) :=
  ⟨5, 0x1234, desk id, by decide⟩

theorem witness_RegisterAccess_2 : ∃ (_dt _v : Nat) (s : State), (s.dev.busUp = true) ∧ (Quiet s) :=
  ⟨5, 0x1234, desk fun d => d.glbM fun g => { g with scratch := 0xF00 }, by decide⟩

theorem witness_RegisterAccess_3 : ∃ (_dt _v : Nat) (s : State), (s.dev.busUp = true) ∧ (Quiet s) :=
  ⟨5, 0x1234, desk fun d => d.glbM fun g => { g with scratch := 0xF30 }, by decide⟩

theorem witness_RegisterAccess_4 : ∃ (_dt _v : Nat) (s : State), (s.dev.busUp = true) ∧ (Quiet s) :=
  ⟨5, 0xF01234, desk fun d => d.glbM fun g => { g with scratch := 0xABCD0F3A }, by decide⟩

theorem witness_RegisterAccess_5 : ∃ (_dt _a _n _v : Nat) (s : State), (Quiet s) :=
  ⟨5, 0x90, 4, 7, desk id, by decide⟩

theorem witness_RegisterAccess_6 : ∃ (_dt a n _v : Nat) (s : State), (n < 4) ∧ (a % 4 + n ≤ 4) ∧ (Quiet s) :=
  ⟨5, 0x92, 2, 7, desk id, by decide⟩

theorem witness_RegisterAccess_7 : ∃ (_dt _a : Nat) (s : State), (s.dev.busUp = true) ∧ (Quiet s) :=
  ⟨5, 0x90, desk id, by decide⟩

theorem witness_RegisterAccess_8 : ∃ (_dt : Nat) (w : RegWrite) (s : State), (s.dev.busUp = true) ∧ (w.off = 0 ∧ w.len = 4 ∧ w.poisoned = false) ∧ (resetCtrlKey (w.data % 2 ^ 32) = true) ∧ (s.dev.mayWarm = true) ∧ (Quiet s) :=
  ⟨5, { data := 0xA5C30001 }, desk id, by decide⟩

theorem witness_RegisterAccess_9 : ∃ (_dt : Nat) (w : RegWrite) (s : State), (s.dev.busUp = true) ∧ (w.off = 0 ∧ w.len = 4 ∧ w.poisoned = false) ∧ (resetCtrlKey (w.data % 2 ^ 32) = false) ∧ (Quiet s) :=
  ⟨5, { data := 0xA5C20001 }, desk id, by decide⟩

theorem witness_RegisterAccess_10 : ∃ (_dt : Nat) (w : RegWrite) (s : State), (s.dev.busUp = true ∧ s.dev.regsUp = true) ∧ (w.off = 0 ∧ w.len = 4 ∧ w.poisoned = false) ∧ (bit s.dev.sealScopes 0 = false) ∧ (s.dev.overfilledPort (bits w.data 7 0) (bits w.data 15 8) = none) ∧ (Quiet s) :=
  ⟨5, { data := 0x10A05 }, atWork id, by decide⟩

theorem witness_RegisterAccess_11 : ∃ (_dt : Nat) (w : RegWrite) (s : State), (s.dev.busUp = true ∧ s.dev.regsUp = true) ∧ (w.off = 0 ∧ w.len = 4 ∧ w.poisoned = false) ∧ (bit s.dev.sealScopes 0 = true) ∧ (Quiet s) :=
  ⟨5, { data := 0x10A05 }, desk fun d => d.prcM fun p => { p with sealed := 1 }, by decide⟩

theorem witness_RegisterAccess_12 : ∃ (_dt q : Nat) (w : RegWrite) (s : State), (s.dev.busUp = true ∧ s.dev.regsUp = true) ∧ (w.off = 0 ∧ w.len = 4 ∧ w.poisoned = false) ∧ (q < s.dev.glb.part.quads) ∧ (s.dev.glb.railLocks.contains q = false) ∧ (Quiet s) :=
  ⟨5, 2, { data := 0x10A05 }, desk id, by decide⟩

theorem witness_RegisterAccess_13 : ∃ (_dt q : Nat) (w : RegWrite) (s : State), (s.dev.glb.railLocks.contains q = true) ∧ (w.off % 16 + w.len ≤ 16) ∧ (Quiet s) :=
  ⟨5, 2, { data := 0x10A05 }, desk fun d => d.glbM fun g => { g with railLocks := [2] }, by decide⟩

theorem witness_RegisterAccess_14 : ∃ (_dt k : Nat) (w : RegWrite) (s : State), (s.dev.busUp = true ∧ s.dev.regsUp = true) ∧ (w.off = 0 ∧ w.len = 4 ∧ w.poisoned = false) ∧ (k < 16) ∧ (bit s.dev.prc.keyLocks k = false) ∧ (setBit s.dev.prc.keyLocks k true ≠ 65535) ∧ (Quiet s) :=
  ⟨5, 2, { data := 0x10A05 }, desk id, by decide⟩

theorem witness_RegisterAccess_15 : ∃ (_dt k : Nat) (w : RegWrite) (s : State), (bit s.dev.prc.keyLocks k = true) ∧ (w.off % 16 + w.len ≤ 16) ∧ (Quiet s) :=
  ⟨5, 2, { data := 0x10A05 }, desk fun d => d.prcM fun p => { p with keyLocks := 4 }, by decide⟩

theorem witness_BuddyLink_1 : ∃ (_dt : Nat) (p : Pairing) (s : State), (Serving s) ∧ (s.dev.bdy.pairing = some p) :=
  ⟨5, { ring := 1, tag := 9, deadline := 70 }, mate .linking fun b => { b with pairing := some { ring := 1, tag := 9, deadline := 70 }, index := 1 }, by decide⟩

theorem witness_BuddyLink_2 : ∃ (_dt : Nat) (_b : BuddyId) (s : State), (Serving s) ∧ (s.dev.bdy.linkUp = false) ∧ (s.dev.linkWhole = true) ∧ (s.dev.bdy.state = .isolated) ∧ (s.dev.bdy.txq = []) :=
  ⟨5, {}, desk fun d => wholeLink { d with bdy := { d.bdy with state := .isolated } }, by decide⟩

theorem witness_BuddyLink_3 : ∃ (_dt : Nat) (b : BuddyId) (p : Pairing) (s : State), (Serving s) ∧ (s.dev.bdy.linkUp = false) ∧ (s.dev.linkWhole = true) ∧ (s.dev.bdy.state = .linking) ∧ (s.dev.bdy.pairing = some p) ∧ (s.dev.pairFails p b = none) ∧ (s.dev.bdy.shadowReserved = true ∨ s.dev.ttb.prots = []) ∧ (s.dev.bdy.txq = []) :=
  ⟨5, { index := 1, period := 10240 }, { ring := 1, tag := 9 }, desk fun d => wholeLink { d with bel := { d.bel with period := 10240, epoch := 0 }, glb := { d.glb with fwVersion := 0 }, drc := { d.drc with ready := true }, bdy := { d.bdy with state := .linking, pairing := some { ring := 1, tag := 9 }, shadowReserved := true } }, by decide⟩

theorem witness_BuddyLink_4 : ∃ (_dt p : Nat) (s : State), (Serving s) ∧ (s.dev.bdy.linkUp = true) ∧ (s.dev.bdy.state = .linked) ∧ (s.dev.bdy.rejoin = none) ∧ (16 ≤ p ∨ s.dev.positionHeld p = false) :=
  ⟨5, 3, mate .linked fun b => { b with linkUp := true }, by decide⟩

theorem witness_BuddyLink_5 : ∃ (_dt : Nat) (_h : Heartbeat) (s : State), (Serving s) ∧ (s.dev.bdy.state ≠ .off) :=
  ⟨5, { writtenMark := 4 }, mate .paired fun b => { b with stored := [(3, {}), (5, {})] }, by decide⟩

theorem witness_BuddyLink_6 : ∃ (_dt : Nat) (s : State), (Serving s) :=
  ⟨5, mate .paired id, by decide⟩

theorem witness_BuddyLink_7 : ∃ (_dt _c _n : Nat) (s : State), (Serving s) ∧ (s.dev.bdy.linkUp = true) ∧ (s.dev.bdy.txq = []) :=
  ⟨5, 4, 80, mate .paired fun b => { b with credit := fullCredit, linkUp := true }, by decide⟩

theorem witness_BuddyLink_8 : ∃ (dt : Nat) (f : TransitFrame) (o : Origin) (s : State), (Serving s) ∧ (s.dev.bdy.linkUp = true) ∧ (f.stream = none) ∧ (f.isGroup = false) ∧ (s.dev.portExists f.dest = true) ∧ (o = { point := ptBuddy, ingress := f.ingress, sof := f.sof, period := if f.periodTai = s.dev.bel.lastTai then s.dev.bel.seq else s.dev.bel.seq - 1, fate := f.home, onestep := f.onestep }) ∧ (((s.dev.elapse dt).place o f.cls f.data f.data [f.dest] none none).1.isSome = true) :=
  ⟨5, { dest := 3, ingress := 7, data := List.replicate 60 1 }, { point := ptBuddy, ingress := 7 }, mate .paired fun b => { b with linkUp := true }, by decide⟩

theorem witness_BuddyLink_9 : ∃ (dt : Nat) (s : State), (Serving s) ∧ (3 ≤ s.dev.bdy.skewBells) ∧ (s.dev.bdy.skewPosted = false) ∧ (s.dev.now + dt = s.dev.bel.lastAt) :=
  ⟨0, mate .paired fun b => { b with skewBells := 3 }, by decide⟩

theorem witness_BuddyLink_10 : ∃ (dt : Nat) (s : State), (Serving s) ∧ (3 ≤ s.dev.bdy.cfgBells) ∧ (s.dev.bdy.cfgPosted = false) ∧ (s.dev.now + dt = s.dev.bel.lastAt) :=
  ⟨0, mate .paired fun b => { b with cfgBells := 3 }, by decide⟩

theorem witness_BuddyRecords_1 : ∃ (_dt : Nat) (r : JournalRecord) (s : State), (Serving s) ∧ (s.dev.bdy.state = .paired) ∧ ((specOf r.opcode).map (fun sp => sp.pairWide) = some false) ∧ (r.opcode ≠ 0x0105 ∧ r.opcode ≠ 0x1003) :=
  ⟨5, { opcode := 0x0402, seq := 8 }, mate .paired id, by decide⟩

theorem witness_BuddyRecords_2 : ∃ (_dt : Nat) (a : JournalAck) (c : Cmd) (s : State), (Serving s) ∧ (s.dev.cmdAt a.ring a.tag = some c) ∧ (c.stage = .journalled) ∧ (a.refused = true) :=
  ⟨5, { ring := 1, tag := 9, refused := true }, { e := { ring := 1, tag := 9 }, op := 0x0102, stage := .journalled }, desk fun d => d.hifM fun h => { h with inflight := [{ e := { ring := 1, tag := 9 }, op := 0x0102, stage := .journalled }] }, by decide⟩

theorem witness_BuddyRecords_3 : ∃ (_dt : Nat) (a : JournalAck) (c : Cmd) (s : State), (Serving s) ∧ (s.dev.cmdAt a.ring a.tag = some c) ∧ (c.stage = .journalled) ∧ (c.op = 0x0102) ∧ (a.refused = false) :=
  ⟨5, { ring := 1, tag := 9 }, { e := { ring := 1, tag := 9 }, op := 0x0102, stage := .journalled }, desk fun d => d.hifM fun h => { h with inflight := [{ e := { ring := 1, tag := 9 }, op := 0x0102, stage := .journalled }] }, by decide⟩

theorem witness_BuddyRecords_4 : ∃ (_dt _op _tag _st _ring _res _ck _v _ix _n : Nat) (s : State), (Serving s) ∧ (s.dev.bdy.state = .paired) :=
  ⟨5, 1, 9, 0, 1, 4, 0, 0, 0, 6, mate .paired fun b => { b with held := [{ entry := { ring := 1, tag := 9 } }] }, by decide⟩

theorem witness_BuddyRecords_5 : ∃ (_dt n k : Nat) (c : Compl) (s : State), (Serving s) ∧ (s.dev.bdy.own = [.completion n k c]) ∧ (k < 32) ∧ ((s.dev.ring (32 + k)).state = .running) ∧ ((s.dev.ring (32 + k)).room = true) ∧ (∀ p ∈ s.dev.hif.owed, p.1 ≠ k) :=
  ⟨5, 6, 0, { tag := 4 }, mate .paired fun b => { b with own := [.completion 6 0 { tag := 4 }] }, by decide⟩

theorem witness_BuddyRecords_6 : ∃ (_dt k : Nat) (c : Cmd) (s : State), (Serving s) ∧ (s.dev.bdy.state = .paired) ∧ (s.dev.hif.inflight = [c]) ∧ (c.stage = .accepted k) ∧ (k ≤ s.dev.bel.seq - 1) ∧ (c.op = 0x0102) :=
  ⟨5, 4, { e := { ring := 1, tag := 9 }, op := 0x0102, stage := .accepted 4 }, desk fun d => { d with bdy := { d.bdy with state := .paired }, bel := { d.bel with seq := 5 }, hif := { d.hif with inflight := [{ e := { ring := 1, tag := 9 }, op := 0x0102, stage := .accepted 4 }] } }, by decide⟩

theorem witness_BuddyRecords_7 : ∃ (_dt mac fid loc : Nat) (e : FdbEntry) (s : State), (Serving s) ∧ (s.dev.bdy.state = .paired) ∧ (s.dev.fdbFind mac fid = some (loc, e)) :=
  ⟨5, 6, 1, 40, { mac := 6, fid := 1 }, desk fun d => { d with bdy := { d.bdy with state := .paired }, fwd := { d.fwd with fdb := [(40, { mac := 6, fid := 1 })] } }, by decide⟩

theorem witness_BuddyRecords_8 : ∃ (_dt _mac _fid : Nat) (s : State), (Serving s) ∧ (s.dev.bdy.state = .paired) :=
  ⟨5, 6, 1, desk fun d => { d with bdy := { d.bdy with state := .paired }, fwd := { d.fwd with fdb := [(40, { mac := 6, fid := 1 })] } }, by decide⟩

theorem witness_BuddyRecords_9 : ∃ (_dt _vid _fid _flood : Nat) (_learn : Bool) (r : Rejoin) (s : State), (Serving s) ∧ (s.dev.bdy.rejoin = some r) ∧ (r.source = false) ∧ (r.started = true) :=
  ⟨5, 6, 1, 4, true, { source := false, started := true }, mate .syncing fun b => { b with rejoin := some { source := false, started := true } }, by decide⟩

theorem witness_PairLife_1 : ∃ (dt : Nat) (s : State), (Serving s) ∧ (s.dev.bdy.state = .paired) ∧ (3 ≤ s.dev.bdy.linkMissed) ∧ (s.dev.bdy.missed < 3) ∧ (s.dev.hif.inflight = []) ∧ (s.dev.now + dt = s.dev.bel.lastAt) :=
  ⟨0, mate .paired fun b => { b with linkMissed := 3 }, by decide⟩

theorem witness_PairLife_2 : ∃ (dt : Nat) (s : State), (Serving s) ∧ (s.dev.bdy.state = .paired ∨ s.dev.bdy.state = .isolated) ∧ (2 ≤ s.dev.bdy.missed) ∧ (s.dev.bdy.linkSeen = false) ∧ (s.dev.bdy.beatSeen = false) ∧ (s.dev.bdy.countedFor ≠ some (s.dev.bel.seq + 1)) ∧ (s.dev.bel.nextAt ≤ s.dev.now + dt) ∧ (s.dev.hif.inflight = []) :=
  ⟨50000000, mate .paired fun b => { b with missed := 2 }, by decide⟩

theorem witness_PairLife_3 : ∃ (_dt : Nat) (s : State), (Serving s) ∧ (s.dev.bdy.reportPending = true) ∧ (s.dev.bdy.report = []) :=
  ⟨5, mate .solo fun b => { b with reportPending := true, held := [{}] }, by decide⟩

theorem witness_PairLife_4 : ∃ (dt : Nat) (s : State), (Serving s) ∧ (s.dev.bdy.state = .isolated) ∧ (3 ≤ s.dev.bdy.backBells) ∧ (s.dev.now + dt = s.dev.bel.lastAt) :=
  ⟨0, mate .isolated fun b => { b with backBells := 3 }, by decide⟩

theorem witness_PairLife_5 : ∃ (_dt : Nat) (s : State), (Serving s) ∧ (s.dev.bdy.holdUntil ≠ 0) ∧ (s.dev.bdy.state ≠ .paired) :=
  ⟨5, mate .isolated fun b => { b with holdUntil := 300 }, by decide⟩

theorem witness_PairLife_6 : ∃ (dt : Nat) (r : Rejoin) (s : State), (Serving s) ∧ (s.dev.bdy.state = .syncing) ∧ (s.dev.bdy.rejoin = some r) ∧ (r.started = true) ∧ (r.source = true) ∧ (s.dev.rejoinHeld r = false) ∧ (s.dev.bdy.txq = []) ∧ (s.dev.now + dt = s.dev.bel.lastAt) :=
  ⟨0, { ring := 1, tag := 9, started := true }, mate .syncing fun b => { b with rejoin := some { ring := 1, tag := 9, started := true } }, by decide⟩

theorem witness_PairLife_7 : ∃ (_dt : Nat) (s : State), (Serving s) ∧ (s.dev.bdy.unpairDraining = true) ∧ (s.dev.bdy.txq = []) ∧ (s.dev.bdy.pairing = none ∧ s.dev.bdy.rejoin = none) ∧ (s.dev.hif.inflight = []) :=
  ⟨5, mate .paired fun b => { b with unpairDraining := true, shadowReserved := true, shadow := [(2, 3)] }, by decide⟩

theorem witness_ProctorRows_1 : ∃ (_dt : Nat) (u : FwUpdate) (c : Cmd) (s : State), (Serving s) ∧ (s.dev.prc.update = some u) ∧ (s.dev.cmdAt u.ring u.tag = some c) ∧ (c.held = false) :=
  ⟨5, { ring := 1, tag := 9, image := [4] }, { e := { ring := 1, tag := 9 }, op := 0x1202, stage := .long }, desk fun d => (d.prcM fun p => { p with update := some { ring := 1, tag := 9, image := [4] } }).hifM fun h => { h with inflight := [{ e := { ring := 1, tag := 9 }, op := 0x1202, stage := .long }] }, by decide⟩

theorem witness_ProctorRows_2 : ∃ (_dt : Nat) (y : SealPending) (s : State), (Serving s) ∧ (s.dev.prc.sealing = [y]) ∧ (y.computed = some y.payload) :=
  ⟨5, { ring := 1, tag := 9, scope := 3, payload := [4, 5], computed := some [4, 5] }, desk fun d => d.prcM fun p => { p with sealing := [{ ring := 1, tag := 9, scope := 3, payload := [4, 5], computed := some [4, 5] }] }, by decide⟩

theorem witness_ProctorRows_3 : ∃ (_dt _t : Nat) (s : State), (Serving s) ∧ (s.dev.serves = true) :=
  ⟨5, 8, desk fun d => d.prcM fun p => { p with state := .operational }, by decide⟩

theorem witness_ProctorRows_4 : ∃ (_dt : Nat) (low : Bool) (s : State), (s.dev.prc.zeroizeLow ≠ low) ∧ (Quiet s) :=
  ⟨5, true, starting 0 id, by decide⟩

theorem witness_ProctorRows_5 : ∃ (_dt : Nat) (s : State), (s.dev.prc.zeroizeLow = true) ∧ (s.dev.prc.zeroizeArmed = true) ∧ (s.dev.prc.zeroizing = none) ∧ (Quiet s) :=
  ⟨5, starting 0 fun d => d.prcM fun p => { p with zeroizeLow := true }, by decide⟩

theorem witness_ProctorRows_6 : ∃ (_dt : Nat) (z : Zeroizing) (s : State), (s.dev.prc.zeroizing = some z) ∧ (z.attempts < 3) ∧ (Quiet s) :=
  ⟨5, { contact := true }, desk fun d => d.prcM fun p => { p with zeroizing := some { contact := true }, state := .zeroizing, keyLocks := 7 }, by decide⟩

theorem witness_ProctorRows_7 : ∃ (_dt : Nat) (z : Zeroizing) (s : State), (s.dev.prc.zeroizing = some z) ∧ (z.attempts < 2) ∧ (Quiet s) :=
  ⟨5, { contact := true }, desk fun d => d.prcM fun p => { p with zeroizing := some { contact := true }, state := .zeroizing, keyLocks := 7 }, by decide⟩

theorem witness_ProctorRows_8 : ∃ (_dt : Nat) (z : Zeroizing) (s : State), (s.dev.prc.zeroizing = some z) ∧ (z.attempts = 2) ∧ (Quiet s) :=
  ⟨5, { attempts := 2 }, desk fun d => d.prcM fun p => { p with zeroizing := some { attempts := 2 }, state := .zeroizing, keyLocks := 7 }, by decide⟩

theorem witness_ColdResets_1 : ∃ (_dt : Nat) (s : State), (s.dev.prc.zeroizing = none) ∧ (s.dev.prc.update = none) ∧ (s.dev.boot.railsOut = [] ∨ 0 ∈ s.dev.boot.railsOut) ∧ (Quiet s) :=
  ⟨5, desk id, by decide⟩

theorem witness_ColdResets_2 : ∃ (_dt : Nat) (s : State), (s.dev.prc.zeroizing = none) ∧ (s.dev.boot.stopped ≠ .supply) ∧ (Quiet s) :=
  ⟨5, desk id, by decide⟩

theorem witness_ColdResets_3 : ∃ (_dt : Nat) (s : State), (s.dev.prc.zeroizing = none) ∧ (s.dev.boot.stopped = .clock) ∧ (Quiet s) :=
  ⟨5, desk fun d => d.bootM fun b => { b with stopped := .clock }, by decide⟩

theorem witness_ColdResets_4 : ∃ (_dt r : Nat) (s : State), (s.dev.glb.part.hasRail r = true) ∧ (s.dev.boot.stopped = .no) ∧ (Quiet s) :=
  ⟨5, 4, desk id, by decide⟩

theorem witness_ColdResets_5 : ∃ (_dt : Nat) (_aux : Bool) (s : State), (s.dev.boot.clockOn = true) ∧ (s.dev.boot.stopped = .no) ∧ (Quiet s) :=
  ⟨5, true, desk fun d => d.bootM fun b => { b with clockOn := true }, by decide⟩

theorem witness_ColdResets_6 : ∃ (_dt : Nat) (s : State), (Serving s) ∧ (s.dev.prc.zeroizing = none) ∧ (s.dev.hif.inflight.filter flrEnds = []) :=
  ⟨5, desk id, by decide⟩

theorem witness_ColdResets_7 : ∃ (_dt : Nat) (s : State), (Serving s) ∧ (s.dev.prc.zeroizing = none) ∧ (s.dev.hif.inflight.filter flrEnds = []) :=
  ⟨5, desk id, by decide⟩

theorem witness_WarmResetsAndStartUp_1 : ∃ (_dt : Nat) (s : State), (Serving s) ∧ (s.dev.prc.zeroizing = none) :=
  ⟨5, desk id, by decide⟩

theorem witness_WarmResetsAndStartUp_2 : ∃ (_dt v w t : Nat) (s : State), (Serving s) ∧ (s.dev.prc.zeroizing = none) ∧ (s.dev.prc.activateAt = some t) ∧ (s.dev.prc.staged = some (v, w)) ∧ (v / 2 ^ 24 = s.dev.glb.fwVersion / 2 ^ 24) :=
  ⟨5, 0x2000004, 1, 90, desk fun d => { d with glb := { d.glb with fwVersion := 0x2000001 }, prc := { d.prc with activateAt := some 90, staged := some (0x2000004, 1) } }, by decide⟩

theorem witness_WarmResetsAndStartUp_3 : ∃ (_dt k : Nat) (s : State), (s.dev.boot.warmDue = some k) ∧ (s.dev.boot.stopped = .no) ∧ (s.dev.glb.phase ≠ 15) ∧ (s.dev.prc.zeroizing = none) ∧ (s.dev.hif.inflight = []) ∧ (Quiet s) :=
  ⟨5, 2, desk fun d => d.bootM fun b => { b with warmDue := some 2 }, by decide⟩

theorem witness_WarmResetsAndStartUp_4 : ∃ (_dt : Nat) (s : State), (s.dev.inPhase 0 = true) ∧ (s.dev.boot.clockOn = false) ∧ (s.dev.pins.flashSelHeld = false) ∧ (0 < s.dev.bel.period) ∧ (Quiet s) :=
  ⟨5, starting 0 id, by decide⟩

theorem witness_WarmResetsAndStartUp_5 : ∃ (_dt : Nat) (s : State), (s.dev.inPhase 0 = true) ∧ (Quiet s) :=
  ⟨5, starting 0 id, by decide⟩

theorem witness_WarmResetsAndStartUp_6 : ∃ (_dt : Nat) (s : State), (s.dev.inPhase 0 = true) ∧ (s.dev.boot.clockOn = true) ∧ (s.dev.pins.flashSelHeld = true) ∧ (Quiet s) :=
  ⟨5, starting 0 fun d => (d.bootM fun b => { b with clockOn := true }).pinsM fun p => { p with flashSelHeld := true }, by decide⟩

theorem witness_WarmResetsAndStartUp_7 : ∃ (_dt k : Nat) (s : State), (s.dev.inPhase 1 = true) ∧ (s.dev.prc.bootBank = some k) ∧ (Quiet s) :=
  ⟨5, 0, starting 1 fun d => d.prcM fun p => { p with bankA := {}, rollback := 0 }, by decide⟩

theorem witness_WarmResetsAndStartUp_8 : ∃ (_dt _k : Nat) (s : State), (s.dev.inPhase 1 = true) ∧ (s.dev.prc.bootBank = none) ∧ (Quiet s) :=
  ⟨5, 0, starting 1 fun d => d.prcM fun p => { p with bankA := { valid := false }, bankB := { valid := false } }, by decide⟩

theorem witness_WarmResetsAndStartUp_9 : ∃ (_dt _ms : Nat) (s : State), (s.dev.inPhase 2 = true) ∧ (s.dev.prc.identity = true) ∧ (Quiet s) :=
  ⟨5, 90, starting 2 fun d => d.prcM fun p => { p with rollback := 0 }, by decide⟩

theorem witness_WarmResetsAndStartUp_10 : ∃ (_dt : Nat) (s : State), (s.dev.inPhase 3 = true) ∧ (s.dev.boot.warm = false) ∧ (Quiet s) :=
  ⟨5, starting 3 id, by decide⟩

theorem witness_WarmResetsAndStartUp_11 : ∃ (_dt : Nat) (_ts : List LaneTrain) (s : State), (s.dev.inPhase 4 = true) ∧ (s.dev.boot.warm = false) ∧ (Quiet s) :=
  ⟨5, [], starting 4 id, by decide⟩

theorem witness_BellsRing_1 : ∃ (_dt : Nat) (_b : BellInput) (s : State), (s.dev.boot.clockOn = true) ∧ (s.dev.boot.stopped = .no) ∧ (s.dev.inService = false) ∧ (s.dev.tim.servo.pendingStep = none) ∧ (s.dev.hif.inflight = []) ∧ (Quiet s) :=
  ⟨5, {}, starting 2 fun d => d.bootM fun b => { b with clockOn := true }, by decide⟩

theorem witness_BellsRing_2 : ∃ (_dt : Nat) (_b : BellInput) (s : State), (s.dev.boot.clockOn = true) ∧ (Serving s) :=
  ⟨5, {}, desk fun d => d.bootM fun b => { b with clockOn := true }, by decide⟩

theorem witness_HoldoverAndSynceSettings_1 : ∃ (dt : Nat) (e : CmdEntry) (s : State), (Ready s dt timSetHoldover e) ∧ (CanTell s e.ring) :=
  ⟨7, { tag := 5, body := 1 }, desk id, ready_of (by decide), by decide⟩

theorem witness_HoldoverAndSynceSettings_2 : ∃ (dt : Nat) (e : CmdEntry) (s : State), (Ready s dt timSetSynce e) ∧ (CanTell s e.ring) :=
  ⟨7, { tag := 5, body := 3 + fd 16 16 3 }, desk fun d => d.timM fun t => { t with syncState := 2 }, ready_of (by decide), by decide⟩

theorem witness_VoltageBoundsAndVoqMode_2 : ∃ (e : CmdEntry) (s : State), Ready s 1 govSetVbound e ∧
    ∃ (t : State) (i : BellInput) (c : Cmd) (d : Dev), c.op = govSetVbound.op ∧ (fun _ _ => True) c d ∧ DueAt t 5 i govSetVbound c d :=
  commit_met (sp := govSetVbound) (H := fun _ _ => True) ({ body := fd 16 0 3 }) (zub id) (by decide) (by decide) (by decide)

theorem witness_VoltageBoundsAndVoqMode_3 : ∃ (e : CmdEntry) (s : State), Ready s 1 bufSetVoq e ∧
    ∃ (t : State) (i : BellInput) (c : Cmd) (d : Dev), c.op = bufSetVoq.op ∧ (fun _ d => d.voqFree = true) c d ∧ DueAt t 5 i bufSetVoq c d :=
  commit_met (sp := bufSetVoq) (H := fun _ d => d.voqFree = true) ({ body := fd 16 0 1 }) (atWork withRings) (by decide) (by decide) (by decide)

theorem witness_ForwardingEntriesByCommand_2 : ∃ (e : CmdEntry) (s : State), Ready s 1 fwdDeleteFdb e ∧
    ∃ (t : State) (i : BellInput) (c : Cmd) (d : Dev), c.op = fwdDeleteFdb.op ∧ (fun c d => d.keyTaken c.e = false ∧ (d.fdbFind (c.e.f 16 47 0) (c.e.f 16 59 48)).isSome = true) c d ∧ DueAt t 5 i fwdDeleteFdb c d :=
  commit_met (sp := fwdDeleteFdb) (H := fun c d => d.keyTaken c.e = false ∧ (d.fdbFind (c.e.f 16 47 0) (c.e.f 16 59 48)).isSome = true) ({ body := fd 16 0 3 }) (zub fun d => (d.fdbWrite (fdbOf d { body := fd 16 0 3 })).getD d) (by decide) (by decide) (by decide)

theorem witness_ForwardingEntriesByCommand_3 : ∃ (e : CmdEntry) (s : State), Ready s 1 fwdDeleteFdb e ∧
    ∃ (t : State) (i : BellInput) (c : Cmd) (d : Dev), c.op = fwdDeleteFdb.op ∧ (fun c d => d.keyTaken c.e = false ∧ d.fdbFind (c.e.f 16 47 0) (c.e.f 16 59 48) = none) c d ∧ DueAt t 5 i fwdDeleteFdb c d :=
  commit_met (sp := fwdDeleteFdb) (H := fun c d => d.keyTaken c.e = false ∧ d.fdbFind (c.e.f 16 47 0) (c.e.f 16 59 48) = none) ({ body := fd 16 0 3 }) (zub id) (by decide) (by decide) (by decide)

theorem witness_ForwardingEntriesByCommand_4 : ∃ (e : CmdEntry) (s : State), Ready s 1 fwdSetVlan e ∧
    ∃ (t : State) (i : BellInput) (c : Cmd) (d : Dev), c.op = fwdSetVlan.op ∧ (fun _ _ => True) c d ∧ DueAt t 5 i fwdSetVlan c d :=
  commit_met (sp := fwdSetVlan) (H := fun _ _ => True) ({ body := fd 16 0 3 }) (zub id) (by decide) (by decide) (by decide)

theorem witness_ForwardingEntriesByCommand_5 : ∃ (e : CmdEntry) (s : State), Ready s 1 fwdSetClassMap e ∧
    ∃ (t : State) (i : BellInput) (c : Cmd) (d : Dev), c.op = fwdSetClassMap.op ∧ (fun _ _ => True) c d ∧ DueAt t 5 i fwdSetClassMap c d :=
  commit_met (sp := fwdSetClassMap) (H := fun _ _ => True) ({ body := fd 16 0 3 }) (zub id) (by decide) (by decide) (by decide)

theorem witness_EventRecords_1 : ∃ (d : Dev) (ev k : Nat), ev < 65536 ∧ k < 8 ∧ (d.ring (192 + k)).state = .running ∧
    bit (d.route k) (ev / 256 - 1) = true ∧ (d.ring (192 + k)).room = true ∧ (d.ring (192 + k)).lost = 0 :=
  ⟨(desk fun d => d.ringM 192 fun r => { r with state := .running }).dev, 0x0301, 0, by decide⟩

theorem witness_EventRecords_2 : ∃ (d : Dev) (ev k : Nat), k < 8 ∧ (d.ring (192 + k)).state = .running ∧
    bit (d.route k) (ev / 256 - 1) = true ∧ (d.ring (192 + k)).room = false :=
  ⟨(desk fun d => d.ringM 192 fun r => { r with state := .running, devIdx := r.n }).dev, 0x0301, 0, by decide⟩

theorem witness_EventRecords_3 : ∃ (d : Dev) (ev : Nat), ∀ k, k < 8 → (d.ring (192 + k)).state = .running → bit (d.route k) (ev / 256 - 1) = false :=
  ⟨(desk id).dev, 0x0301, by decide⟩

theorem witness_PairedCommandsAreJournalled_1 : ∃ (d : Dev) (sp : CmdSpec) (c : Cmd), d.bdy.state = .paired ∧ sp.journal = true ∧
    d.pairRefuses sp = false ∧ c ∈ d.hif.inflight :=
  ⟨(mate .paired id).dev.hifM fun h => { h with inflight := [longCmd] }, timSetHoldover, longCmd, by decide⟩

end
end

namespace Sys2Proof

open Sys2Proof.Machine

/-! ### Changes confined to areas: an equivalence -/

theorem Area.Same.symm {a : Area} {d e : Dev} (h : a.Same d e) : a.Same e d := by cases a <;> exact Eq.symm h

/-- A change inside the areas named neither makes nor breaks a confinement to them. -/
theorem Only.iff {l m : List Area} {d e f : Dev} (h : Only m e f) (s : m ⊆ l) : Only l d f ↔ Only l d e :=
  ⟨fun k a q => (k a q).trans (h.mono s a q).symm, fun k => k.trans (h.mono s)⟩

theorem Only.each_iff {α : Type} {l : List Area} {xs : List α} {f : α → Dev → Dev} {d e : Dev} (h : ∀ a x, Only l x (f a x)) :
    Only l d (e.each xs f) ↔ Only l d e := (Only.each xs h e).iff (List.Subset.refl l)

theorem Only.when_iff {l : List Area} {c : Bool} {f : Dev → Dev} {d e : Dev} :
    Only l d (e.when c f) ↔ (c = true → Only l d (f e)) ∧ (c = false → Only l d e) := by cases c <;> simp [Dev.when]

theorem Only.ite_iff {l : List Area} {c : Prop} {_ : Decidable c} {d e f : Dev} :
    Only l d (if c then e else f) ↔ (c → Only l d e) ∧ (¬c → Only l d f) := by split <;> simp [*]

/-! ### What the host is told, with the areas written out -/

theorem Only.writeEntryIn (d : Dev) (g b : Nat) : Only [.out, .cnt, .hif] d (d.writeEntry g b) := (Only.writeEntry d g b).mono (by decide)

theorem Only.postAsIn (d : Dev) (ev : Nat) (items : List Item) (m b : Nat) : Only [.out, .cnt, .hif] d (d.postAs ev items m b) :=
  (Only.postAs d ev items m b).mono (by decide)

theorem Only.postIn (d : Dev) (ev : Nat) (items : List Item) : Only [.out, .cnt, .hif] d (d.post ev items) :=
  (Only.post d ev items).mono (by decide)

theorem Only.deliverIn (d : Dev) (k : Nat) (c : Compl) : Only [.out, .cnt, .hif] d (d.deliver k c) := (Only.deliver d k c).mono (by decide)

theorem Only.completeIn (d : Dev) (k : Nat) (c : Compl) : Only [.out, .cnt, .hif, .bdy] d (d.complete k c) :=
  (Only.complete d k c).mono (by decide)

theorem Only.finishIn (d : Dev) (c : Cmd) (st r : Nat) : Only [.out, .cnt, .hif, .bdy] d (d.finish c st r) :=
  (Only.finish d c st r).mono (by decide)

theorem Only.finishAtIn (d : Dev) (g t st r : Nat) : Only [.out, .cnt, .hif, .bdy] d (d.finishAt g t st r) :=
  (Only.finishAt d g t st r).mono (by decide)

theorem Only.readOutIn (d : Dev) (c : Cmd) (a : Nat) (b : List Byte) (r : Nat) : Only [.out, .cnt, .hif, .bdy] d (d.readOut c a b r) :=
  (Only.readOut d c a b r).mono (by decide)

theorem Only.auditIn (d : Dev) (code a b : Nat) : Only [.out, .cnt, .hif, .prc] d (d.audit code a b) := (Only.audit d code a b).mono (by decide)

end Sys2Proof


namespace Sys2Proof

open Sys2Proof.Machine

/-! ## What each of the model's functions may change

For every function that a bell, an arriving frame or its end comes to and that leaves the bell block alone: the areas it may write. A proof
follows the function's own branches, and each step of a branch neither makes nor breaks a confinement to areas that hold its own. -/

/-! ### Random bits -/

theorem Only.fresh (d : Dev) : Only [.free] d d.fresh.2 := by
  intro x k
  cases x
  case free => exact absurd (by decide) k
  all_goals rfl

/-! ### What ends a command -/

theorem Only.abortPlain (c : Cmd) (d : Dev) {x : Dev} (h : Machine.abortPlain c d = some x) : Only [.out, .cnt, .hif, .bdy] d x := by
  cases h; exact Only.finishIn d c _ _

theorem Only.okAfter (c : Cmd) (d : Dev) : Only [.out, .cnt, .hif, .bdy] d (Machine.okAfter c d) := by
  simp [Machine.okAfter, (Only.finishIn _ _ _ _).iff, Only.refl]

/-! ### Lanes of the timetable and FlexE groups -/

theorem Only.ttbLaneM (d : Dev) (l : Nat) (f : TtbLane → TtbLane) : Only [.ttb] d (d.ttbLaneM l f) := by
  simp [Dev.ttbLaneM, (Only.ttbM _ _).iff, Only.refl]

theorem Only.flexeM (d : Dev) (n : Nat) (f : FlexE → FlexE) : Only [.zbn] d (d.flexeM n f) := by
  simp [Dev.flexeM, (Only.zbnM _ _).iff, Only.refl]

/-! ### Channels of the far store (10) -/

theorem Only.chanM (d : Dev) (i : Nat) (f : Chan → Chan) : Only [.drc] d (d.chanM i f) := by
  simp [Dev.chanM, (Only.drcM _ _).iff, Only.refl]

theorem Only.serveChan (d : Dev) (i : Nat) (stop : Chan → Bool) : Only [.cnt, .drc] d (d.serveChan i stop) := by
  simp [Dev.serveChan, (Only.count _ _ _).iff, (Only.chanM _ _ _).iff, Only.when_iff, Only.refl]

theorem Only.askChan (d : Dev) (i : Nat) (r : DramReq) : Only [.cnt, .drc] d (d.askChan i r) := by
  simp [Dev.askChan, (Only.chanM _ _ _).iff, (Only.serveChan _ _ _).iff, (Only.drcM _ _).iff, Only.refl]

theorem Only.serveNow (d : Dev) (i : Nat) (r : DramReq) : Only [.cnt, .drc] d (d.serveNow i r) := by
  simp [Dev.serveNow, (Only.askChan _ _ _).iff, (Only.serveChan _ _ _).iff, Only.refl]

theorem Only.askPage (d : Dev) (p rank : Nat) (write : Bool) (first n : Nat) : Only [.cnt, .drc] d (d.askPage p rank write first n) := by
  simp [Dev.askPage, (Only.askChan _ _ _).iff, Only.each_iff, Only.refl]

theorem Only.pageNow (d : Dev) (p rank : Nat) (write : Bool) (first n : Nat) : Only [.cnt, .drc] d (d.pageNow p rank write first n) := by
  simp [Dev.pageNow, (Only.serveNow _ _ _).iff, Only.each_iff, Only.refl]

/-! ### Cells, queues and stored frames (08) -/

theorem Only.setXoff (d : Dev) (point cls : Nat) (on : Bool) : Only [.cnt, .mac, .buf] d (d.setXoff point cls on) := by
  simp [Dev.setXoff, (Only.portM _ _ _).iff, (Only.count _ _ _).iff, (Only.acctM _ _ _ _).iff, Only.when_iff, Only.refl]

theorem Only.takeCells (d : Dev) (point cls n : Nat) : Only [.out, .cnt, .hif, .mac, .buf] d (d.takeCells point cls n).1 := by
  unfold Dev.takeCells
  split
  next src failed2 step4 _ =>
    have tried : Only [.out, .cnt, .hif, .mac, .buf] d (d.when (failed2 && !(d.acct point cls).xoff) fun d => d.setXoff point cls true) := by
      simp [(Only.setXoff _ _ _ _).iff, Only.when_iff, Only.refl]
    generalize d.when (failed2 && !(d.acct point cls).xoff) (fun d => d.setXoff point cls true) = e at tried ⊢
    dsimp only
    split <;> cases step4 <;> dsimp only [Dev.when] <;> repeat' split
    all_goals simp [(Only.acctM _ _ _ _).iff, (Only.bufM _ _).iff, (Only.occur _ _ _).iff, (Only.postIn _ _ _).iff, (Only.count _ _ _).iff, tried]

theorem Only.returnCredit (d : Dev) (cls : Nat) : Only [.out, .bdy] d (d.returnCredit cls) := by
  simp [Dev.returnCredit, (Only.bdyM _ _).iff, (Only.emit _ _).iff, Only.ite_iff, Only.refl]

theorem Only.xoffScan (d : Dev) : Only [.out, .cnt, .mac, .buf, .bdy] d d.xoffScan := by
  simp [Dev.xoffScan, (Only.returnCredit _ _).iff, (Only.setXoff _ _ _ _).iff, Only.each_iff, Only.when_iff, Only.ite_iff, Only.refl]

theorem Only.uncharge (d : Dev) (point cls : Nat) (src : CellSource) (n : Nat) :
    Only [.out, .cnt, .mac, .buf, .bdy] d (d.uncharge point cls src n) := by
  simp [Dev.uncharge, (Only.xoffScan _).iff, (Only.bdyM _ _).iff, (Only.acctM _ _ _ _).iff, Only.when_iff, Only.ite_iff, Only.refl]

theorem Only.frameM (d : Dev) (f : Nat) (g : Frame → Frame) : Only [.buf] d (d.frameM f g) := by
  simp [Dev.frameM, (Only.bufM _ _).iff, Only.refl]

theorem Only.store (d : Dev) (fr : Frame) : Only [.buf] d (d.store fr).2 := by
  simp [Dev.store, (Only.bufM _ _).iff, Only.refl]

theorem Only.txEnded (d : Dev) (fr : Frame) : Only [.out, .cnt, .hif, .bdy] d (d.txEnded fr) := by
  unfold Dev.txEnded
  dsimp only
  (repeat' split) <;> simp [(Only.completeIn _ _ _).iff, (Only.hifM _ _).iff, (Only.emit _ _).iff, Only.refl]

theorem Only.mirrorM (d : Dev) (s : Nat) (f : Mirror → Mirror) : Only [.fwd] d (d.mirrorM s f) := by
  simp [Dev.mirrorM, (Only.fwdM _ _).iff, Only.refl]

theorem Only.chargeMirrors (d : Dev) (f : Nat) : Only [.out, .cnt, .mac, .fwd, .buf, .bdy] d (d.chargeMirrors f) := by
  unfold Dev.chargeMirrors
  dsimp only
  (repeat' split) <;> simp [(Only.frameM _ _ _).iff, (Only.xoffScan _).iff, (Only.mirrorM _ _ _).iff, Only.refl]

theorem Only.settleFrame (d : Dev) (f : Nat) : Only [.out, .cnt, .hif, .mac, .fwd, .buf, .bdy] d (d.settleFrame f) := by
  simp [Dev.settleFrame, (Only.bufM _ _).iff, (Only.txEnded _ _).iff, (Only.frameM _ _ _).iff, (Only.uncharge _ _ _ _ _).iff,
    (Only.chargeMirrors _ _).iff, Only.ite_iff, Only.refl]

theorem Only.dropCopy (d : Dev) (c : Copy) (left : Bool) : Only [.out, .cnt, .hif, .mac, .fwd, .buf, .bdy] d (d.dropCopy c left) := by
  simp [Dev.dropCopy, (Only.frameM _ _ _).iff, (Only.settleFrame _ _).iff, Only.refl]

theorem Only.endWait (d : Dev) (f : Nat) : Only [.out, .cnt, .hif, .mac, .fwd, .buf, .bdy] d (d.endWait f) := by
  simp [Dev.endWait, (Only.frameM _ _ _).iff, (Only.settleFrame _ _).iff, Only.refl]

theorem Only.sendAway (d : Dev) (f : Nat) : Only [.out, .cnt, .hif, .mac, .fwd, .buf, .bdy] d (d.sendAway f) := by
  simp [Dev.sendAway, (Only.frameM _ _ _).iff, (Only.settleFrame _ _).iff, Only.refl]

theorem Only.loseAway (d : Dev) : Only [.out, .cnt, .hif, .mac, .fwd, .buf, .bdy] d d.loseAway := by
  simp [Dev.loseAway, (Only.frameM _ _ _).iff, (Only.settleFrame _ _).iff, Only.each_iff, Only.refl]

theorem Only.dropMirror (d : Dev) (c : Copy) (t : MirrorTag) : Only [.out, .cnt, .hif, .mac, .fwd, .buf, .bdy] d (d.dropMirror c t) := by
  simp [Dev.dropMirror, (Only.mirrorM _ _ _).iff, (Only.frameM _ _ _).iff, (Only.settleFrame _ _).iff, Only.refl]

theorem Only.pickPage (d : Dev) (avoid : Option Nat) : Only [.free] d (d.pickPage avoid).2 := by
  simp [Dev.pickPage, (Only.fresh _).iff, Only.refl]

theorem Only.allocPage (d : Dev) (q : Nat) : Only [.free, .buf] d (d.allocPage q).2 := by
  simp [Dev.allocPage, (Only.bufM _ _).iff, (Only.queueM _ _ _).iff, (Only.pickPage _ _).iff, Only.when_iff, Only.refl]

theorem Only.schPortM (d : Dev) (n : Nat) (f : SchPort → SchPort) : Only [.sch] d (d.schPortM n f) := by
  simp [Dev.schPortM, (Only.schM _ _).iff, Only.refl]

theorem Only.wake (d : Dev) (q : Nat) : Only [.cnt, .buf] d (d.wake q) := by
  simp [Dev.wake, (Only.queueM _ _ _).iff, (Only.count _ _ _).iff, Only.ite_iff, Only.refl]

theorem Only.joinTail (d : Dev) (q : Nat) : Only [.cnt, .buf] d (d.joinTail q) := by
  simp [Dev.joinTail, (Only.wake _ _).iff, (Only.queueM _ _ _).iff, Only.when_iff, Only.ite_iff, Only.refl]

theorem Only.tailWords (d : Dev) (q : Nat) : Only [.cnt, .drc] d (d.tailWords q) := by
  simp [Dev.tailWords, (Only.pageNow _ _ _ _ _ _).iff, Only.each_iff, Only.ite_iff, Only.refl]

theorem Only.spillLimit (d : Dev) : Only [.out, .cnt, .hif, .buf] d d.spillLimit := by
  simp [Dev.spillLimit, (Only.bufM _ _).iff, (Only.postIn _ _ _).iff, Only.ite_iff, Only.refl]

theorem Only.writePages (n q : Nat) (d : Dev) : Only [.free, .out, .cnt, .hif, .buf, .drc] d (Dev.writePages n q d) := by
  induction n generalizing d with
  | zero => exact Only.refl _ d
  | succ n ih =>
    unfold Dev.writePages
    dsimp only
    split
    · exact Only.refl _ d
    · rw [(ih _).iff (List.Subset.refl _)]
      simp [(Only.spillLimit _).iff, (Only.count _ _ _).iff, (Only.drcM _ _).iff, (Only.askPage _ _ _ _ _ _).iff, (Only.tailWords _ _).iff,
        (Only.queueM _ _ _).iff, (Only.allocPage _ _).iff, Only.refl]

theorem Only.spillState (d : Dev) (q : Nat) : Only [.cnt, .buf] d (d.spillState q) := by
  unfold Dev.spillState
  dsimp only
  split <;> simp [(Only.joinTail _ _).iff, (Only.queueM _ _ _).iff, (Only.count _ _ _).iff, Only.ite_iff, Only.refl]

theorem Only.stackM (d : Dev) (k : Nat) (f : Stack → Stack) : Only [.drc] d (d.stackM k f) := by
  simp [Dev.stackM, (Only.drcM _ _).iff, Only.refl]

theorem Only.panicLook (d : Dev) (k : Nat) : Only [.drc] d (d.panicLook k) := by
  simp [Dev.panicLook, (Only.stackM _ _ _).iff, Only.ite_iff, Only.refl]

theorem Only.askPages (n q : Nat) (d : Dev) : Only [.cnt, .buf, .drc] d (Dev.askPages n q d) := by
  induction n generalizing d with
  | zero => exact Only.refl _ d
  | succ n ih =>
    unfold Dev.askPages
    dsimp only
    split
    · split
      · rw [(ih _).iff (List.Subset.refl _)]
        simp [(Only.panicLook _ _).iff, (Only.drcM _ _).iff, (Only.queueM _ _ _).iff, (Only.askPage _ _ _ _ _ _).iff, Only.refl]
      · exact Only.refl _ d
    · exact Only.refl _ d

theorem Only.askRecall (d : Dev) (q : Nat) : Only [.cnt, .buf, .drc] d (d.askRecall q) := by
  simp [Dev.askRecall, (Only.askPages _ _ _).iff, Only.refl]

theorem Only.spillStep (d : Dev) (q : Nat) : Only [.free, .out, .cnt, .hif, .buf, .drc] d (d.spillStep q) := by
  simp [Dev.spillStep, (Only.spillLimit _).iff, (Only.writePages _ _ _).iff, (Only.spillState _ _).iff, (Only.askRecall _ _).iff, Only.ite_iff,
    Only.refl]

theorem Only.keptFreed (d : Dev) : Only [.free, .drc] d d.keptFreed := by
  simp [Dev.keptFreed, (Only.fresh _).iff, (Only.drcM _ _).iff, Only.ite_iff, Only.refl]

theorem Only.farFreed (d : Dev) : Only [.free, .out, .cnt, .hif, .buf, .drc] d d.farFreed := by
  simp [Dev.farFreed, (Only.spillStep _ _).iff, (Only.spillLimit _).iff, Only.each_iff, Only.when_iff, Only.refl]

theorem Only.flushCopy (d : Dev) (q : Nat) (c : Copy) : Only [.out, .cnt, .hif, .mac, .fwd, .buf, .bdy] d (d.flushCopy q c) := by
  simp [Dev.flushCopy, (Only.count _ _ _).iff, (Only.dropCopy _ _ _).iff, Only.refl]

theorem Only.join (d : Dev) (n cls : Nat) (c : Copy) : Only [.free, .out, .cnt, .hif, .mac, .buf, .drc, .bdy] d (d.join n cls c) := by
  simp [Dev.join, (Only.spillStep _ _).iff, (Only.count _ _ _).iff, (Only.queueM _ _ _).iff, (Only.wake _ _).iff, (Only.xoffScan _).iff,
    (Only.bufM _ _).iff, Only.when_iff, Only.ite_iff, Only.refl]

theorem Only.enqueue (d : Dev) (n cls : Nat) (c : Copy) : Only [.free, .out, .cnt, .hif, .mac, .fwd, .buf, .drc, .bdy] d (d.enqueue n cls c) := by
  simp [Dev.enqueue, (Only.flushCopy _ _ _).iff, (Only.join _ _ _ _).iff, Only.ite_iff, Only.refl]

theorem Only.emptyCredit (d : Dev) (q : Nat) : Only [.buf, .sch] d (d.emptyCredit q) := by
  simp [Dev.emptyCredit, (Only.schPortM _ _ _).iff, (Only.queueM _ _ _).iff, Only.ite_iff, Only.refl]

theorem Only.flushQueue (d : Dev) (q : Nat) : Only [.free, .out, .cnt, .hif, .mac, .fwd, .buf, .sch, .drc, .bdy] d (d.flushQueue q) := by
  simp [Dev.flushQueue, (Only.xoffScan _).iff, (Only.flushCopy _ _ _).iff, (Only.emptyCredit _ _).iff, (Only.farFreed _).iff, (Only.bufM _ _).iff,
    (Only.queueM _ _ _).iff, Only.each_iff, Only.when_iff, Only.refl]

theorem Only.flushMirrors (d : Dev) (n : Nat) : Only [.out, .cnt, .hif, .mac, .fwd, .buf, .sch, .bdy] d (d.flushMirrors n) := by
  unfold Dev.flushMirrors
  rw [Only.each_iff fun c x => by
    split
    · simp [(Only.dropMirror _ _ _).iff, (Only.count _ _ _).iff, Only.refl]
    · exact Only.refl _ x]
  simp [(Only.emptyCredit _ _).iff, (Only.schPortM _ _ _).iff, Only.refl]

/-! ### Egress schedules (09) -/

theorem Only.wakeFreed (d was : Dev) (n : Nat) : Only [.cnt, .buf] d (d.wakeFreed was n) := by
  simp [Dev.wakeFreed, (Only.wake _ _).iff, Only.each_iff, Only.when_iff, Only.refl]

theorem Only.refillQueue (d : Dev) (n cls dt : Nat) (serving : Bool) : Only [.buf] d (d.refillQueue n cls dt serving) := by
  simp [Dev.refillQueue, (Only.queueM _ _ _).iff, Only.ite_iff, Only.refl]

theorem Only.refill (d : Dev) (n : Nat) : Only [.cnt, .buf, .sch] d (d.refill n) := by
  simp [Dev.refill, (Only.schPortM _ _ _).iff, (Only.wakeFreed _ _ _).iff, (Only.refillQueue _ _ _ _ _).iff, Only.each_iff, Only.refl]

theorem Only.refillAll (d : Dev) : Only [.cnt, .buf, .sch] d d.refillAll := by
  simp [Dev.refillAll, (Only.refill _ _).iff, Only.each_iff, Only.refl]

theorem Only.rateChanged (d : Dev) (n was : Nat) : Only [.out, .cnt, .hif] d (d.rateChanged n was) := by
  simp [Dev.rateChanged, (Only.postIn _ _ _).iff, Only.when_iff, Only.refl]

theorem Only.applySetQueue (c : Cmd) (d : Dev) : Only [.out, .cnt, .hif, .buf, .bdy] d (Machine.applySetQueue c d) := by
  simp [Machine.applySetQueue, (Only.wakeFreed _ _ _).iff, (Only.okAfter _ _).iff, (Only.queueM _ _ _).iff, Only.refl]

theorem Only.applySetPort (c : Cmd) (d : Dev) : Only [.out, .cnt, .hif, .buf, .sch, .bdy] d (Machine.applySetPort c d) := by
  simp [Machine.applySetPort, (Only.wakeFreed _ _ _).iff, (Only.okAfter _ _).iff, (Only.schPortM _ _ _).iff, Only.refl]

/-! ### Buffer settings and roll call (08) -/

theorem Only.admitSet (d : Dev) (e : CmdEntry) : Only [.buf] d (d.admitSet e) := by
  simp [Dev.admitSet, (Only.acctM _ _ _ _).iff, Only.refl]

theorem Only.applySetAdmit (c : Cmd) (d : Dev) : Only [.out, .cnt, .hif, .mac, .buf, .bdy] d (Machine.applySetAdmit c d) := by
  simp [Machine.applySetAdmit, (Only.admitSet _ _).iff, (Only.xoffScan _).iff, (Only.okAfter _ _).iff, (Only.finishIn _ _ _ _).iff, Only.ite_iff,
    Only.refl]

theorem Only.applySetSpill (c : Cmd) (d : Dev) : Only [.free, .out, .cnt, .hif, .buf, .drc, .bdy] d (Machine.applySetSpill c d) := by
  simp [Machine.applySetSpill, (Only.spillStep _ _).iff, (Only.okAfter _ _).iff, (Only.queueM _ _ _).iff, Only.refl]

theorem Only.acceptRollCall (c : Cmd) (d : Dev) : Only [.hif, .buf] d (Machine.acceptRollCall c d) := by
  simp [Machine.acceptRollCall, (Only.bufM _ _).iff, (Only.cmdM _ _ _).iff, Only.refl]

theorem Only.applySetVoq (c : Cmd) (d : Dev) : Only [.out, .cnt, .hif, .buf, .bdy] d (Machine.applySetVoq c d) := by
  simp [Machine.applySetVoq, (Only.finishIn _ _ _ _).iff, (Only.bufM _ _).iff, (Only.okAfter _ _).iff, Only.ite_iff, Only.refl]

theorem Only.rollStart (d : Dev) : Only [.buf] d d.rollStart := by
  unfold Dev.rollStart
  (repeat' split) <;> simp [(Only.bufM _ _).iff, Only.when_iff, Only.refl]

/-! ### Frames for the host (12) -/

theorem Only.rxWrite (d : Dev) (r : Nat) (x : RxInfo) (data : List Byte) : Only [.out, .cnt, .hif] d (d.rxWrite r x data) := by
  simp [Dev.rxWrite, (Only.count _ _ _).iff, (Only.writeEntryIn _ _ _).iff, (Only.emit _ _).iff, Only.each_iff, Only.refl]

theorem Only.deliverRx (d : Dev) (r : Nat) (x : RxInfo) (data : List Byte) : Only [.out, .cnt, .hif] d (d.deliverRx r x data) := by
  simp [Dev.deliverRx, (Only.count _ _ _).iff, (Only.rxWrite _ _ _ _).iff, Only.ite_iff, Only.refl]

/-! ### The servo and the time engines (02) -/

theorem Only.servoApply (d : Dev) (e : Int) : Only [.tim] d (d.servoApply e) := by
  simp [Dev.servoApply, (Only.servoM _ _).iff, Only.ite_iff, Only.refl]

theorem Only.delayReport (d : Dev) (n : Nat) : Only [.out, .cnt, .hif, .tim] d (d.delayReport n) := by
  unfold Dev.delayReport
  dsimp only
  split <;> simp [(Only.timPortM _ _ _).iff, (Only.postIn _ _ _).iff, Only.when_iff, Only.refl]

theorem Only.eecTo (d : Dev) (new : Nat) : Only [.out, .cnt, .hif, .tim] d (d.eecTo new) := by
  simp [Dev.eecTo, (Only.postIn _ _ _).iff, (Only.timM _ _).iff, Only.ite_iff, Only.refl]

theorem Only.acceptSetPort (c : Cmd) (d : Dev) : Only [.out, .cnt, .hif, .tim, .bdy] d (Machine.acceptSetPort c d) := by
  simp [Machine.acceptSetPort, (Only.delayReport _ _).iff, (Only.okAfter _ _).iff, (Only.timPortM _ _ _).iff, Only.refl]

theorem Only.acceptSetSynce (c : Cmd) (d : Dev) : Only [.out, .cnt, .hif, .tim, .bdy] d (Machine.acceptSetSynce c d) := by
  simp [Machine.acceptSetSynce, (Only.eecTo _ _).iff, (Only.okAfter _ _).iff, (Only.timM _ _).iff, Only.refl]

/-! ### The forwarding database (07) -/

theorem Only.fdbSet (d : Dev) (loc : Nat) (e : FdbEntry) : Only [.fwd] d (d.fdbSet loc e) := by
  simp [Dev.fdbSet, (Only.fwdM _ _).iff, Only.refl]

theorem Only.postOnce (d : Dev) (posted : Bool) (ev : Nat) (items : List Item) : Only [.out, .cnt, .hif] d (d.postOnce posted ev items) := by
  simp [Dev.postOnce, (Only.postIn _ _ _).iff, (Only.occur _ _ _).iff, Only.ite_iff, Only.refl]

theorem Only.fdbFull (d : Dev) (mac fid : Nat) : Only [.out, .cnt, .hif, .fwd] d (d.fdbFull mac fid) := by
  simp [Dev.fdbFull, (Only.postOnce _ _ _ _).iff, (Only.fwdM _ _).iff, Only.refl]

theorem Only.fdbTell (d : Dev) (kind mac fid port sof : Nat) : Only [.out] d (d.fdbTell kind mac fid port sof) := by
  simp [Dev.fdbTell, (Only.emit _ _).iff, Only.when_iff, Only.refl]

theorem Only.fdbWrite (d : Dev) (e : FdbEntry) {x : Dev} (h : d.fdbWrite e = some x) : Only [.fwd] d x := by
  unfold Dev.fdbWrite at h
  split at h
  · cases h; exact Only.fdbSet d _ e
  · obtain ⟨loc, -, rfl⟩ := Option.map_eq_some_iff.1 h
    exact Only.fdbSet d loc e

theorem Only.learnNew (d : Dev) (mac fid port sof : Nat) : Only [.out, .cnt, .hif, .fwd] d (d.learnNew mac fid port sof) := by
  unfold Dev.learnNew
  split
  · simp [(Only.count _ _ _).iff, Only.refl]
  · split
    · next written =>
      simpa [(Only.fdbTell _ _ _ _ _ _).iff, (Only.fwdM _ _).iff] using (Only.fdbWrite d _ written).mono (by decide)
    · simp [(Only.fdbFull _ _ _).iff, (Only.count _ _ _).iff, Only.refl]

theorem Only.learnSource (d : Dev) (mac fid port sof : Nat) : Only [.out, .cnt, .hif, .fwd] d (d.learnSource mac fid port sof) := by
  unfold Dev.learnSource
  dsimp only
  split <;> simp [(Only.fwdM _ _).iff, (Only.postOnce _ _ _ _).iff, (Only.fdbTell _ _ _ _ _ _).iff, (Only.fdbSet _ _ _).iff,
    (Only.count _ _ _).iff, (Only.learnNew _ _ _ _ _).iff, Only.when_iff, Only.ite_iff, Only.refl]

theorem Only.fdbRemove (d : Dev) (fault : Bool) (p : FdbEntry → Bool) : Only [.out, .fwd] d (d.fdbRemove fault p) := by
  simp [Dev.fdbRemove, (Only.fdbTell _ _ _ _ _ _).iff, (Only.fwdM _ _).iff, Only.each_iff, Only.refl]

theorem Only.sweepPause (d : Dev) : Only [.fwd] d d.sweepPause := by
  unfold Dev.sweepPause
  (repeat' split) <;> simp [(Only.fwdM _ _).iff, Only.refl]

/-! ### Recorder regions and mirrors (07) -/

theorem Only.regionM (d : Dev) (r : Nat) (f : Region → Region) : Only [.fwd] d (d.regionM r f) := by
  simp [Dev.regionM, (Only.fwdM _ _).iff, Only.refl]

theorem Only.writeRecPage (d : Dev) (r : Nat) : Only [.cnt, .fwd, .drc] d (d.writeRecPage r) := by
  simp [Dev.writeRecPage, (Only.regionM _ _ _).iff, (Only.count _ _ _).iff, (Only.pageNow _ _ _ _ _ _).iff, Only.refl]

theorem Only.appendRec (n r : Nat) (bs : List Byte) (d : Dev) : Only [.cnt, .fwd, .drc] d (Dev.appendRec n r bs d) := by
  induction n generalizing bs d with
  | zero => exact Only.refl _ d
  | succ n ih =>
    unfold Dev.appendRec
    dsimp only
    split
    · exact Only.refl _ d
    · split
      · simp [(Only.regionM _ _ _).iff, Only.refl]
      · rw [(ih _ _).iff (List.Subset.refl _)]
        simp [(Only.writeRecPage _ _).iff, (Only.regionM _ _ _).iff, Only.refl]

theorem Only.finishAll (d : Dev) (l : List (Nat × Nat)) (status : Nat) : Only [.out, .cnt, .hif, .bdy] d (d.finishAll l status) := by
  simp [Dev.finishAll, (Only.finishAtIn _ _ _ _ _).iff, Only.each_iff, Only.refl]

theorem Only.rearmRegion (d : Dev) (r : Nat) : Only [.out, .cnt, .hif, .fwd, .bdy] d (d.rearmRegion r) := by
  simp [Dev.rearmRegion, (Only.finishAll _ _ _).iff, (Only.regionM _ _ _).iff, Only.refl]

theorem Only.disableRegion (d : Dev) (r : Nat) : Only [.free, .out, .cnt, .hif, .fwd, .buf, .drc, .bdy] d (d.disableRegion r) := by
  simp [Dev.disableRegion, (Only.finishAll _ _ _).iff, (Only.regionM _ _ _).iff, (Only.bufM _ _).iff, (Only.keptFreed _).iff,
    (Only.farFreed _).iff, Only.refl]

theorem Only.afterFrozen (d : Dev) (r : Nat) : Only [.free, .out, .cnt, .hif, .fwd, .buf, .drc, .bdy] d (d.afterFrozen r) := by
  simp [Dev.afterFrozen, (Only.disableRegion _ _).iff, (Only.rearmRegion _ _).iff, Only.ite_iff, Only.refl]

theorem Only.toFrozen (d : Dev) (r : Nat) : Only [.free, .out, .cnt, .hif, .fwd] d (d.toFrozen r) := by
  simp [Dev.toFrozen, (Only.postIn _ _ _).iff, (Only.fresh _).iff, (Only.regionM _ _ _).iff, Only.ite_iff, Only.refl]

theorem Only.freeze (d : Dev) (r : Nat) : Only [.free, .out, .cnt, .hif, .fwd, .buf, .drc, .bdy] d (d.freeze r) := by
  simp [Dev.freeze, (Only.finishAll _ _ _).iff, (Only.afterFrozen _ _).iff, (Only.regionM _ _ _).iff, (Only.toFrozen _ _).iff,
    (Only.writeRecPage _ _).iff, Only.ite_iff, Only.refl]

theorem Only.fireRegion (d : Dev) (r code : Nat) : Only [.free, .out, .cnt, .hif, .fwd, .buf, .drc, .bdy] d (d.fireRegion r code) := by
  simp [Dev.fireRegion, (Only.freeze _ _).iff, (Only.postIn _ _ _).iff, (Only.regionM _ _ _).iff, Only.ite_iff, Only.refl]

theorem Only.triggerRegion (d : Dev) (r code : Nat) : Only [.free, .out, .cnt, .hif, .fwd, .buf, .drc, .bdy] d (d.triggerRegion r code) := by
  unfold Dev.triggerRegion
  (repeat' split) <;> simp [(Only.count _ _ _).iff, (Only.fireRegion _ _ _).iff, Only.refl]

theorem Only.trigger (d : Dev) (code : Nat) : Only [.free, .out, .cnt, .hif, .fwd, .buf, .drc, .bdy] d (d.trigger code) := by
  simp [Dev.trigger, (Only.triggerRegion _ _ _).iff, Only.each_iff, Only.when_iff, Only.refl]

theorem Only.discardMirror (d : Dev) (s : Nat) : Only [.cnt] d (d.discardMirror s) := by
  simp [Dev.discardMirror, (Only.count _ _ _).iff, Only.refl]

theorem Only.fcsBytes (d : Dev) (data : List Byte) (bad : Bool) : Only [.free] d (d.fcsBytes data bad).2 := by
  unfold Dev.fcsBytes
  dsimp only
  split <;> simp [(Only.fresh _).iff, Only.refl]

theorem Only.writeMirror (d : Dev) (m : MirrorOut) (sof : Nat) (bad : Bool) :
    Only [.free, .out, .cnt, .hif, .fwd, .drc] d (d.writeMirror m sof bad) := by
  simp [Dev.writeMirror, (Only.appendRec _ _ _ _).iff, (Only.regionM _ _ _).iff, (Only.discardMirror _ _).iff, (Only.rxWrite _ _ _ _).iff,
    (Only.count _ _ _).iff, (Only.fcsBytes _ _ _).iff, Only.ite_iff, Only.refl]

theorem Only.sampled (d : Dev) (s n : Nat) : Only [.fwd] d (d.sampled s n).2 := by
  simp [Dev.sampled, (Only.mirrorM _ _ _).iff, Only.refl]

theorem Only.mirrorToPort (d : Dev) (s : Nat) (x : Mirror) (f : Nat) (data : List Byte) :
    Only [.out, .cnt, .hif, .mac, .fwd, .buf, .sch, .bdy] d (d.mirrorToPort s x f data) := by
  simp [Dev.mirrorToPort, (Only.schPortM _ _ _).iff, (Only.count _ _ _).iff, (Only.frameM _ _ _).iff, (Only.settleFrame _ _).iff,
    (Only.mirrorM _ _ _).iff, (Only.discardMirror _ _).iff, Only.ite_iff, Only.refl]

/-! ### Protection and supervision of lanes (03, 04, 05) -/

theorem Only.forwardSlot (d : Dev) (l s : Nat) (blocks : List Block) (bad : Bool) : Only [.out] d (d.forwardSlot l s blocks bad) := by
  simp [Dev.forwardSlot, (Only.emit _ _).iff, Only.when_iff, Only.refl]

theorem Only.protM (d : Dev) (i : Nat) (f : Prot → Prot) : Only [.ttb] d (d.protM i f) := by
  unfold Dev.protM
  (repeat' split) <;> simp [(Only.ttbM _ _).iff, Only.refl]

theorem Only.protDecide (d : Dev) (i : Nat) : Only [.free, .out, .cnt, .hif, .ttb, .fwd, .buf, .drc, .bdy] d (d.protDecide i) := by
  simp [Dev.protDecide, (Only.postIn _ _ _).iff, (Only.trigger _ _).iff, (Only.count _ _ _).iff, (Only.protM _ _ _).iff, Only.when_iff, Only.refl]

theorem Only.protRefresh (d : Dev) (i : Nat) : Only [.free, .out, .cnt, .hif, .ttb, .fwd, .buf, .drc, .bdy] d (d.protRefresh i) := by
  simp [Dev.protRefresh, (Only.protM _ _ _).iff, (Only.protDecide _ _).iff, Only.refl]

theorem Only.protScan (d : Dev) : Only [.free, .out, .cnt, .hif, .ttb, .fwd, .buf, .drc, .bdy] d d.protScan := by
  simp [Dev.protScan, (Only.protRefresh _ _).iff, Only.each_iff, Only.refl]

theorem Only.pmNote (d : Dev) (l : Nat) : Only [.zbn] d (d.pmNote l) := by
  simp [Dev.pmNote, (Only.zlaneM _ _ _).iff, Only.refl]

theorem Only.superviseLane (d : Dev) (l : Nat) : Only [.free, .out, .cnt, .hif, .zbn, .ttb, .fwd, .buf, .drc, .bdy] d (d.superviseLane l) := by
  simp [Dev.superviseLane, (Only.protScan _).iff, (Only.forwardSlot _ _ _ _ _).iff, (Only.zslotM _ _ _ _).iff, (Only.trigger _ _).iff,
    (Only.zlaneM _ _ _).iff, (Only.postIn _ _ _).iff, (Only.pmNote _ _).iff, Only.each_iff, Only.when_iff, Only.ite_iff, Only.refl]

theorem Only.postHs (d : Dev) (l tag outcome : Nat) : Only [.out, .cnt, .hif] d (d.postHs l tag outcome) := by
  simp [Dev.postHs, (Only.postIn _ _ _).iff, Only.refl]

theorem Only.switchFail (d : Dev) (l reason : Nat) : Only [.out, .cnt, .hif, .ttb, .bdy] d (d.switchFail l reason) := by
  unfold Dev.switchFail
  dsimp only
  split <;> simp [(Only.finishAtIn _ _ _ _ _).iff, (Only.ttbLaneM _ _ _).iff, (Only.postIn _ _ _).iff, Only.refl]

theorem Only.hsFail (d : Dev) (l reason : Nat) : Only [.out, .cnt, .hif, .zbn, .ttb, .bdy] d (d.hsFail l reason) := by
  simp [Dev.hsFail, (Only.switchFail _ _ _).iff, (Only.count _ _ _).iff, (Only.postHs _ _ _ _).iff, (Only.zlaneM _ _ _).iff, Only.when_iff,
    Only.refl]

theorem Only.huntLane (d : Dev) (l : Nat) : Only [.zbn] d (d.huntLane l) := by
  simp [Dev.huntLane, (Only.zlaneM _ _ _).iff, (Only.zbnM _ _).iff, Only.refl]

theorem Only.subStep (d : Dev) (i step : Nat) : Only [.sub] d (d.subStep i step) := by
  simp [Dev.subStep, (Only.subM _ _).iff, Only.refl]

theorem Only.countLane (d : Dev) (i pos : Nat) : Only [.cnt] d (d.countLane i pos) := by
  simp [Dev.countLane, (Only.count _ _ _).iff, Only.when_iff, Only.refl]

theorem Only.buddyLosesSync (d : Dev) (i : Nat) : Only [.cnt, .zbn] d (d.buddyLosesSync i) := by
  simp [Dev.buddyLosesSync, (Only.huntLane _ _).iff, (Only.count _ _ _).iff, Only.refl]

theorem Only.leaveSync (d : Dev) (l : Nat) : Only [.free, .out, .cnt, .hif, .zbn, .ttb, .fwd, .buf, .drc, .bdy] d (d.leaveSync l) := by
  simp [Dev.leaveSync, (Only.superviseLane _ _).iff, (Only.huntLane _ _).iff, (Only.count _ _ _).iff, (Only.hsFail _ _ _).iff, Only.refl]

theorem Only.failMgmt (d : Dev) (l : Nat) : Only [.out, .cnt, .hif, .zbn, .bdy] d (d.failMgmt l) := by
  simp [Dev.failMgmt, (Only.zlaneM _ _ _).iff, (Only.finishAll _ _ _).iff, Only.refl]

theorem Only.zubenLaneChange (d : Dev) (i : Nat) (wasUp : Bool) :
    Only [.free, .out, .cnt, .hif, .zbn, .ttb, .fwd, .buf, .drc, .sub, .bdy] d (d.zubenLaneChange i wasUp) := by
  unfold Dev.zubenLaneChange
  dsimp only
  (repeat' split) <;> simp [(Only.buddyLosesSync _ _).iff, (Only.subStep _ _ _).iff, (Only.leaveSync _ _).iff, (Only.failMgmt _ _).iff,
    (Only.huntLane _ _).iff, (Only.superviseLane _ _).iff, Only.refl]

theorem Only.laneTo (d : Dev) (i : Nat) (new : LaneState) (f : Lane → Lane) :
    Only [.free, .out, .cnt, .hif, .lne, .zbn, .ttb, .fwd, .buf, .drc, .sub, .bdy] d (d.laneTo i new f) := by
  simp [Dev.laneTo, (Only.zubenLaneChange _ _ _).iff, (Only.postIn _ _ _).iff, (Only.countLane _ _ _).iff, (Only.laneM _ _ _).iff, Only.when_iff,
    Only.refl]

theorem Only.clusterM (d : Dev) (c : Nat) (f : Cluster → Cluster) : Only [.sub] d (d.clusterM c f) := by
  simp [Dev.clusterM, (Only.subM _ _).iff, Only.refl]

theorem Only.subEnd (d : Dev) (k status result : Nat) : Only [.out, .cnt, .hif, .sub, .bdy] d (d.subEnd k status result) := by
  unfold Dev.subEnd
  dsimp only
  (repeat' split) <;> simp [(Only.finishIn _ _ _ _).iff, (Only.postIn _ _ _).iff, (Only.count _ _ _).iff, (Only.subM _ _).iff, Only.refl]

theorem Only.spareBack (d : Dev) (c : Nat) : Only [.free, .out, .cnt, .hif, .lne, .zbn, .ttb, .fwd, .buf, .drc, .sub, .bdy] d (d.spareBack c) := by
  simp [Dev.spareBack, (Only.clusterM _ _ _).iff, (Only.laneTo _ _ _ _).iff, (Only.zbnM _ _).iff, Only.refl]

theorem Only.laneSubsFail (d : Dev) (p : Nat → Bool) (status reason : Nat) :
    Only [.free, .out, .cnt, .hif, .lne, .zbn, .ttb, .fwd, .buf, .drc, .sub, .bdy] d (d.laneSubsFail p status reason) := by
  simp [Dev.laneSubsFail, (Only.subEnd _ _ _ _).iff, (Only.spareBack _ _).iff, Only.each_iff, Only.when_iff, Only.refl]

theorem Only.portLeftUp (d : Dev) (n : Nat) : Only [.free, .out, .cnt, .hif, .lne, .zbn, .ttb, .fwd, .buf, .drc, .sub,
    .bdy] d (d.portLeftUp n) := by
  simp [Dev.portLeftUp, (Only.laneSubsFail _ _ _ _).iff, Only.refl]

theorem Only.postFlexe (d : Dev) (n : Nat) (cal : Bool) (outcome : Nat) : Only [.out, .cnt, .hif] d (d.postFlexe n cal outcome) := by
  simp [Dev.postFlexe, (Only.postIn _ _ _).iff, Only.refl]

theorem Only.failFlexe (d : Dev) (n : Nat) : Only [.out, .cnt, .hif, .zbn, .bdy] d (d.failFlexe n) := by
  simp [Dev.failFlexe, (Only.flexeM _ _ _).iff, (Only.postFlexe _ _ _ _).iff, (Only.finishAtIn _ _ _ _ _).iff, Only.each_iff, Only.refl]

theorem Only.lanesLeavePort (d : Dev) (n : Nat) : Only [.free, .out, .cnt, .hif, .lne, .zbn, .ttb, .fwd, .buf, .drc, .sub,
    .bdy] d (d.lanesLeavePort n) := by
  simp [Dev.lanesLeavePort, (Only.subM _ _).iff, (Only.spareBack _ _).iff, (Only.failFlexe _ _).iff, (Only.portLeftUp _ _).iff,
    (Only.hsFail _ _ _).iff, (Only.failMgmt _ _).iff, Only.each_iff, Only.refl]

/-! ### States of a port and its settings (03) -/

theorem Only.quadM (d : Dev) (q : Nat) (f : Quadrant → Quadrant) : Only [.gov] d (d.quadM q f) := by
  simp [Dev.quadM, (Only.govM _ _).iff, Only.refl]

theorem Only.pauseUpdate (d : Dev) (n : Nat) : Only [.free, .out, .cnt, .hif, .buf, .drc] d (d.pauseUpdate n) := by
  simp [Dev.pauseUpdate, (Only.spillStep _ _).iff, (Only.wake _ _).iff, (Only.queueM _ _ _).iff, Only.each_iff, Only.when_iff, Only.ite_iff,
    Only.refl]

theorem Only.portMatch (d : Dev) (n : Nat) : Only [.out, .cnt, .hif, .mac] d (d.portMatch n) := by
  simp [Dev.portMatch, (Only.portM _ _ _).iff, (Only.postIn _ _ _).iff, Only.when_iff, Only.refl]

theorem Only.setPortState (d : Dev) (n : Nat) (new : PortState) :
    Only [.free, .out, .cnt, .hif, .lne, .mac, .zbn, .ttb, .fwd, .buf, .drc, .sub, .bdy] d (d.setPortState n new) := by
  simp [Dev.setPortState, (Only.trigger _ _).iff, (Only.portLeftUp _ _).iff, (Only.portMatch _ _).iff, (Only.postIn _ _ _).iff,
    (Only.portM _ _ _).iff, Only.when_iff, Only.refl]

theorem Only.endHold (d : Dev) (n : Nat) : Only [.buf] d (d.endHold n) := by
  simp [Dev.endHold, (Only.bufM _ _).iff, Only.refl]

theorem Only.flushDescriptors (d : Dev) (n : Nat) : Only [.out, .cnt, .hif, .bdy] d (d.flushDescriptors n) := by
  simp [Dev.flushDescriptors, (Only.completeIn _ _ _).iff, (Only.hifM _ _).iff, Only.each_iff, Only.refl]

theorem Only.toFlushing (d : Dev) (n : Nat) (fromHold : Bool) :
    Only [.free, .out, .cnt, .hif, .lne, .mac, .zbn, .ttb, .fwd, .buf, .sch, .drc, .sub, .bdy] d (d.toFlushing n fromHold) := by
  simp [Dev.toFlushing, (Only.flushMirrors _ _).iff, (Only.flushDescriptors _ _).iff, (Only.fdbRemove _ _ _).iff, (Only.flushQueue _ _).iff,
    (Only.portM _ _ _).iff, (Only.endHold _ _).iff, (Only.setPortState _ _ _).iff, Only.each_iff, Only.refl]

theorem Only.startHold (d : Dev) (n : Nat) : Only [.buf] d (d.startHold n) := by
  simp [Dev.startHold, (Only.bufM _ _).iff, Only.refl]

theorem Only.toDraining (d : Dev) (n : Nat) : Only [.free, .out, .cnt, .hif, .lne, .mac, .zbn, .ttb, .fwd, .buf, .sch, .drc, .sub,
    .bdy] d (d.toDraining n) := by
  simp [Dev.toDraining, (Only.toFlushing _ _ _).iff, (Only.setPortState _ _ _).iff, (Only.startHold _ _).iff, Only.ite_iff, Only.refl]

theorem Only.requestDone (d : Dev) (n : Nat) : Only [.out, .cnt, .hif, .mac, .bdy] d (d.requestDone n) := by
  unfold Dev.requestDone
  dsimp only
  (repeat' split) <;> simp [(Only.finishIn _ _ _ _).iff, (Only.portM _ _ _).iff, Only.refl]

theorem Only.applyDisable (d : Dev) (n : Nat) : Only [.free, .out, .cnt, .hif, .lne, .mac, .zbn, .ttb, .fwd, .buf, .sch, .drc, .sub,
    .bdy] d (d.applyDisable n) := by
  unfold Dev.applyDisable
  dsimp only
  (repeat' split) <;> simp [(Only.setPortState _ _ _).iff, (Only.toFlushing _ _ _).iff, (Only.toDraining _ _).iff, (Only.cmdM _ _ _).iff,
    (Only.portM _ _ _).iff, Only.refl]

theorem Only.runRequests (n p : Nat) (d : Dev) :
    Only [.free, .out, .cnt, .hif, .lne, .mac, .zbn, .ttb, .fwd, .buf, .sch, .drc, .sub, .bdy] d (Dev.runRequests n p d) := by
  induction n generalizing d with
  | zero => exact Only.refl _ d
  | succ n ih =>
    unfold Dev.runRequests
    split
    · exact Only.refl _ d
    · split
      · exact Only.refl _ d
      · split
        · rw [(ih _).iff (List.Subset.refl _)]
          simp [(Only.requestDone _ _).iff, Only.refl]
        · simp [(Only.applyDisable _ _).iff, (Only.portM _ _ _).iff, Only.ite_iff, Only.refl]

theorem Only.acceptPinTaps (c : Cmd) (d : Dev) : Only [.out, .cnt, .hif, .lne, .bdy] d (Machine.acceptPinTaps c d) := by
  simp [Machine.acceptPinTaps, (Only.laneM _ _ _).iff, (Only.okAfter _ _).iff, Only.refl]

theorem Only.acceptPortState (c : Cmd) (d : Dev) : Only [.free, .out, .cnt, .hif, .lne, .mac, .zbn, .ttb, .fwd, .buf, .sch, .drc, .sub,
    .bdy] d (Machine.acceptPortState c d) := by
  simp [Machine.acceptPortState, (Only.runRequests _ _ _).iff, (Only.portM _ _ _).iff, Only.refl]

theorem Only.acceptFlowControl (c : Cmd) (d : Dev) : Only [.out, .cnt, .hif, .mac, .bdy] d (Machine.acceptFlowControl c d) := by
  simp [Machine.acceptFlowControl, (Only.okAfter _ _).iff, (Only.portM _ _ _).iff, Only.refl]

theorem Only.acceptLpi (c : Cmd) (d : Dev) : Only [.out, .cnt, .hif, .mac, .bdy] d (Machine.acceptLpi c d) := by
  simp [Machine.acceptLpi, (Only.okAfter _ _).iff, (Only.portM _ _ _).iff, Only.refl]

theorem Only.pauseRx (d : Dev) (n quanta : Nat) : Only [.free, .out, .cnt, .hif, .mac, .buf, .drc] d (d.pauseRx n quanta) := by
  simp [Dev.pauseRx, (Only.portM _ _ _).iff, (Only.count _ _ _).iff, (Only.pauseUpdate _ _).iff, Only.refl]

theorem Only.pfcRx (d : Dev) (n vec : Nat) (times : List Nat) : Only [.free, .out, .cnt, .hif, .mac, .buf, .drc] d (d.pfcRx n vec times) := by
  simp [Dev.pfcRx, (Only.pauseUpdate _ _).iff, (Only.count _ _ _).iff, (Only.portM _ _ _).iff, Only.each_iff, Only.when_iff, Only.refl]

theorem Only.macControl (d : Dev) (port off sof : Nat) (data : List Byte) :
    Only [.free, .out, .cnt, .hif, .mac, .buf, .drc] d (d.macControl port off sof data) := by
  simp [Dev.macControl, (Only.deliverRx _ _ _ _).iff, (Only.count _ _ _).iff, (Only.portM _ _ _).iff, (Only.pfcRx _ _ _ _).iff,
    (Only.pauseRx _ _ _).iff, Only.when_iff, Only.ite_iff, Only.refl]

/-! ### Classification and metering (06) -/

theorem Only.meterM (d : Dev) (m : Nat) (f : Meter → Meter) : Only [.prs] d (d.meterM m f) := by
  simp [Dev.meterM, (Only.prsM _ _).iff, Only.refl]

theorem Only.meterFrame (d : Dev) (m len : Nat) (preYellow : Bool) : Only [.cnt, .prs] d (d.meterFrame m len preYellow).2.2 := by
  simp [Dev.meterFrame, (Only.meterM _ _ _).iff, (Only.count _ _ _).iff, Only.refl]

theorem Only.countColor (d : Dev) (port color : Nat) : Only [.cnt] d (d.countColor port color) := by
  simp [Dev.countColor, (Only.count _ _ _).iff, Only.ite_iff, Only.refl]

theorem Only.genRetire (d : Dev) : Only [.out, .cnt, .hif, .prs] d d.genRetire := by
  simp [Dev.genRetire, (Only.prsM _ _).iff, (Only.postIn _ _ _).iff, Only.ite_iff, Only.refl]

theorem Only.applyWriteRule (c : Cmd) (d : Dev) : Only [.out, .cnt, .hif, .prs, .bdy] d (Machine.applyWriteRule c d) := by
  simp [Machine.applyWriteRule, (Only.prsM _ _).iff, (Only.okAfter _ _).iff, (Only.finishIn _ _ _ _).iff, Only.ite_iff, Only.refl]

theorem Only.applySetMember (c : Cmd) (d : Dev) : Only [.out, .cnt, .hif, .prs, .bdy] d (Machine.applySetMember c d) := by
  simp [Machine.applySetMember, (Only.prsM _ _).iff, (Only.finishIn _ _ _ _).iff, Only.refl]

theorem Only.applyCommit (c : Cmd) (d : Dev) : Only [.out, .cnt, .hif, .prs, .bdy] d (Machine.applyCommit c d) := by
  simp [Machine.applyCommit, (Only.postIn _ _ _).iff, (Only.finishIn _ _ _ _).iff, (Only.prsM _ _).iff, Only.refl]

/-! ### A frame from its head to its end (06, 07, 08) -/

theorem Only.streamM (d : Dev) (h : Nat) (f : Stream → Stream) : Only [.fwd] d (d.streamM h f) := by
  simp [Dev.streamM, (Only.fwdM _ _).iff, Only.refl]

theorem Only.sendTransit (d : Dev) (c : BuddyCopy) : Only [.out, .cnt, .hif, .mac, .fwd, .buf, .bdy] d (d.sendTransit c) := by
  simp [Dev.sendTransit, (Only.dropCopy _ _ _).iff, (Only.sendAway _ _).iff, (Only.emit _ _).iff, (Only.bdyM _ _).iff, Only.ite_iff, Only.refl]

theorem Only.buddySend (n : Nat) (d : Dev) : Only [.out, .cnt, .hif, .mac, .fwd, .buf, .bdy] d (Dev.buddySend n d) := by
  induction n generalizing d with
  | zero => exact Only.refl _ d
  | succ n ih =>
    unfold Dev.buddySend
    split
    · split
      · rw [(ih _).iff (List.Subset.refl _)]
        simp [(Only.sendTransit _ _).iff, Only.refl]
      · exact Only.refl _ d
    · exact Only.refl _ d

theorem Only.buddyDrain (d : Dev) : Only [.out, .cnt, .hif, .mac, .fwd, .buf, .bdy] d d.buddyDrain := by
  simp [Dev.buddyDrain, (Only.buddySend _ _).iff, Only.refl]

theorem Only.streamPass (d : Dev) (h : Nat) : Only [.cnt, .fwd] d (d.streamPass h) := by
  simp [Dev.streamPass, (Only.streamM _ _ _).iff, (Only.count _ _ _).iff, Only.refl]

theorem Only.recoverSeq (d : Dev) (h seq : Nat) : Only [.cnt, .fwd] d (d.recoverSeq h seq).2 := by
  unfold Dev.recoverSeq
  dsimp only
  (repeat' split) <;> simp [(Only.count _ _ _).iff, (Only.streamM _ _ _).iff, (Only.streamPass _ _).iff, Only.refl]

theorem Only.recover (d : Dev) (h : Nat) (x : Stream) (data : List Byte) : Only [.cnt, .fwd] d (d.recover h x data).2 := by
  unfold Dev.recover
  (repeat' split) <;> simp [(Only.count _ _ _).iff, (Only.streamPass _ _).iff, (Only.recoverSeq _ _ _).iff, Only.refl]

theorem Only.retag (d : Dev) (h : Nat) (x : Stream) (data : List Byte) : Only [.cnt, .fwd] d (d.retag h x data).2 := by
  unfold Dev.retag
  dsimp only
  (repeat' split) <;> simp [(Only.streamM _ _ _).iff, (Only.count _ _ _).iff, Only.refl]

theorem Only.rxM (d : Dev) (n : Nat) (f : RxFrame → RxFrame) : Only [.fwd] d (d.rxM n f) := by
  simp [Dev.rxM, (Only.fwdM _ _).iff, Only.refl]

theorem Only.mirrorFrame (d : Dev) (s : Nat) (set : Mirror) (f port : Nat) (egress : Bool) (cls : Nat) (data : List Byte) (rx : Option Nat) :
    Only [.free, .out, .cnt, .hif, .mac, .fwd, .buf, .sch, .drc, .bdy] d (d.mirrorFrame s set f port egress cls data rx) := by
  unfold Dev.mirrorFrame
  dsimp only
  (repeat' split) <;> simp [(Only.writeMirror _ _ _ _).iff, (Only.rxM _ _ _).iff, (Only.mirrorToPort _ _ _ _ _).iff, (Only.sampled _ _ _).iff,
    Only.refl]

theorem Only.ingressMirror (d : Dev) (n s : Nat) (set : Mirror) (h : FrameHead) (cls : Nat) (frame : Option Nat) :
    Only [.free, .out, .cnt, .hif, .mac, .fwd, .buf, .sch, .drc, .bdy] d (d.ingressMirror n s set h cls frame) := by
  simp [Dev.ingressMirror, (Only.mirrorFrame _ _ _ _ _ _ _ _ _).iff, (Only.rxM _ _ _).iff, (Only.endWait _ _).iff,
    (Only.mirrorToPort _ _ _ _ _).iff, (Only.store _ _).iff, (Only.sampled _ _ _).iff, Only.ite_iff, Only.refl]

theorem Only.queueCopy (d : Dev) (n cls f period : Nat) (data : List Byte) (cut : Bool) (egr : Option (Nat × Mirror)) (rx : Option Nat) :
    Only [.free, .out, .cnt, .hif, .mac, .fwd, .buf, .sch, .drc, .bdy] d (d.queueCopy n cls f period data cut egr rx) := by
  unfold Dev.queueCopy
  dsimp only
  split <;> simp [(Only.mirrorFrame _ _ _ _ _ _ _ _ _).iff, (Only.enqueue _ _ _ _).iff, Only.when_iff, Only.refl]

theorem Only.govCount (d : Dev) (cls len : Nat) : Only [.mac, .gov] d (d.govCount cls len) := by
  unfold Dev.govCount
  dsimp only
  (repeat' split) <;> simp [(Only.portM _ _ _).iff, (Only.govM _ _).iff, Only.each_iff, Only.when_iff, Only.refl]

theorem Only.admitFor (d : Dev) (point cls n len : Nat) : Only [.out, .cnt, .hif, .mac, .buf, .gov] d (d.admitFor point cls n len).1 := by
  unfold Dev.admitFor
  dsimp only
  (repeat' split) <;> simp [(Only.govCount _ _ _).iff, (Only.takeCells _ _ _ _).iff, (Only.acctM _ _ _ _).iff, Only.refl]

theorem Only.noCell (d : Dev) (point cls : Nat) : Only [.out, .cnt, .hif, .buf] d (d.noCell point cls) := by
  simp [Dev.noCell, (Only.bufM _ _).iff, (Only.count _ _ _).iff, (Only.postOnce _ _ _ _).iff, Only.refl]

theorem Only.takeFrame (d : Dev) (o : Origin) (cls len : Nat) (data : List Byte) :
    Only [.out, .cnt, .hif, .mac, .buf, .gov] d (d.takeFrame o cls len data).2 := by
  have admitted := Only.admitFor d o.point cls (cellsOf len) len
  unfold Dev.takeFrame
  split <;> next e =>
    rw [e] at admitted
    simpa [(Only.noCell _ _ _).iff, (Only.store _ _).iff] using admitted

theorem Only.fan (d : Dev) (f : Nat) (o : Origin) (cls : Nat) (data bdata : List Byte) (ports : List Nat) (egr : AMap (Nat × Mirror))
    (buddy : Option (Nat × Bool)) (stream : Option Nat) :
    Only [.free, .out, .cnt, .hif, .mac, .fwd, .buf, .sch, .drc, .bdy] d (d.fan f o cls data bdata ports egr buddy stream) := by
  unfold Dev.fan
  dsimp only
  split <;> simp [(Only.endWait _ _).iff, (Only.bdyM _ _).iff, (Only.buddyDrain _).iff, (Only.queueCopy _ _ _ _ _ _ _ _ _).iff,
    (Only.frameM _ _ _).iff, Only.each_iff, Only.refl]

theorem Only.puntLater (d : Dev) (n ring reason aux : Nat) (data : List Byte) : Only [.fwd] d (d.puntLater n ring reason aux data) := by
  simp [Dev.puntLater, (Only.rxM _ _ _).iff, Only.refl]

theorem Only.release (d : Dev) (n : Nat) (h : FrameHead) (p : FwdPlan) (complete : Bool) :
    Only [.free, .out, .cnt, .hif, .mac, .fwd, .buf, .sch, .drc, .bdy] d (d.release n h p complete) := by
  unfold Dev.release
  dsimp only
  split
  · exact Only.refl _ d
  · split
    · next s _ =>
      have kept := Only.retag d s p.strm p.data
      split
      · simp [(Only.fan _ _ _ _ _ _ _ _ _ _).iff, Only.refl]
      · split <;> next tagged =>
          rw [tagged] at kept
          simpa [(Only.fan _ _ _ _ _ _ _ _ _ _).iff, (Only.puntLater _ _ _ _ _ _).iff] using kept.mono (by decide)
    · simp [(Only.fan _ _ _ _ _ _ _ _ _ _).iff, Only.refl]

theorem Only.takePlace (d : Dev) (n : Nat) (h : FrameHead) (p : FwdPlan) (complete : Bool) :
    Only [.out, .cnt, .hif, .mac, .fwd, .buf, .gov] d (d.takePlace n h p complete).2 := by
  unfold Dev.takePlace
  dsimp only
  split <;> simp [(Only.rxM _ _ _).iff, (Only.takeFrame _ _ _ _ _).iff, Only.refl]

theorem Only.colored (d : Dev) (n : Nat) (x : RxFrame) (p : FwdPlan) (color mark pcp : Nat) (complete : Bool) :
    Only [.free, .out, .cnt, .hif, .mac, .fwd, .buf, .sch, .drc, .gov, .bdy] d (d.colored n x p color mark pcp complete) := by
  unfold Dev.colored
  dsimp only
  (repeat' split) <;> simp [(Only.release _ _ _ _ _).iff, (Only.puntLater _ _ _ _ _ _).iff, (Only.ingressMirror _ _ _ _ _ _ _).iff,
    (Only.takePlace _ _ _ _ _).iff, (Only.count _ _ _).iff, (Only.countColor _ _ _).iff, (Only.rxM _ _ _).iff, Only.when_iff, Only.refl]

theorem Only.classify (d : Dev) (n : Nat) (h : FrameHead) : Only [.free, .out, .cnt, .hif, .mac, .prs, .fwd, .buf, .sch, .drc, .gov,
    .bdy] d (d.classify n h) := by
  unfold Dev.classify
  dsimp only
  (repeat' split) <;> simp [(Only.meterFrame _ _ _ _).iff, (Only.colored _ _ _ _ _ _ _ _).iff, (Only.rxM _ _ _).iff, (Only.count _ _ _).iff,
    (Only.puntLater _ _ _ _ _ _).iff, Only.when_iff, Only.refl]

theorem Only.rxHead (d : Dev) (h : FrameHead) : Only [.free, .out, .cnt, .hif, .mac, .prs, .fwd, .buf, .sch, .drc, .gov, .bdy] d (d.rxHead h) := by
  unfold Dev.rxHead
  dsimp only
  (repeat' split) <;> simp [(Only.classify _ _ _).iff, (Only.puntLater _ _ _ _ _ _).iff, (Only.count _ _ _).iff, (Only.rxM _ _ _).iff,
    Only.when_iff, Only.refl]

theorem Only.purgeFrame (d : Dev) (f : Nat) : Only [.out, .cnt, .hif, .mac, .fwd, .buf, .sch, .bdy] d (d.purgeFrame f) := by
  simp [Dev.purgeFrame, (Only.dropCopy _ _ _).iff, (Only.bdyM _ _).iff, (Only.emptyCredit _ _).iff, (Only.bufM _ _).iff, Only.each_iff, Only.refl]

theorem Only.rxPunts (d : Dev) (n : Nat) (x : RxFrame) : Only [.out, .cnt, .hif] d (d.rxPunts n x) := by
  simp [Dev.rxPunts, (Only.deliverRx _ _ _ _).iff, (Only.count _ _ _).iff, Only.each_iff, Only.when_iff, Only.refl]

theorem Only.recovered (d : Dev) (n : Nat) (h : FrameHead) (p : FwdPlan) :
    Only [.free, .out, .cnt, .hif, .mac, .fwd, .buf, .sch, .drc, .bdy] d (d.recovered n h p) := by
  unfold Dev.recovered
  split
  · exact Only.release d n h p true
  · next s _ =>
    have judged := Only.recover d s p.strm p.data
    split <;> next e =>
      rw [e] at judged
      simpa [(Only.release _ _ _ _ _).iff, (Only.puntLater _ _ _ _ _ _).iff] using judged.mono (by decide)

theorem Only.meterEnd (d : Dev) (n len : Nat) (x : RxFrame) : Only [.cnt, .prs, .fwd] d (d.meterEnd n len x) := by
  unfold Dev.meterEnd
  dsimp only
  split <;> simp [(Only.rxM _ _ _).iff, (Only.meterFrame _ _ _ _).iff, (Only.meterM _ _ _).iff, (Only.count _ _ _).iff, Only.refl]

theorem Only.rxBad (d : Dev) (n : Nat) : Only [.free, .out, .cnt, .hif, .mac, .fwd, .buf, .sch, .drc, .bdy] d (d.rxBad n) := by
  unfold Dev.rxBad
  dsimp only
  (repeat' split) <;> simp [(Only.writeMirror _ _ _ _).iff, (Only.endWait _ _).iff, (Only.purgeFrame _ _).iff, (Only.frameM _ _ _).iff,
    (Only.count _ _ _).iff, Only.each_iff, Only.refl]

theorem Only.rxGood (d : Dev) (n : Nat) (x0 : RxFrame) : Only [.free, .out, .cnt, .hif, .mac, .fwd, .buf, .sch, .drc, .gov,
    .bdy] d (d.rxGood n x0) := by
  unfold Dev.rxGood
  dsimp only
  (repeat' split) <;> simp [(Only.rxPunts _ _ _).iff, (Only.buddyDrain _).iff, (Only.writeMirror _ _ _ _).iff, (Only.learnSource _ _ _ _ _).iff,
    (Only.frameM _ _ _).iff, (Only.rxBad _ _).iff, (Only.recovered _ _ _ _).iff, (Only.colored _ _ _ _ _ _ _ _).iff, Only.each_iff, Only.refl]

theorem Only.rxEnd (d : Dev) (r : FrameEnd) : Only [.free, .out, .cnt, .hif, .mac, .prs, .fwd, .buf, .sch, .drc, .gov, .bdy] d (d.rxEnd r) := by
  unfold Dev.rxEnd
  dsimp only
  (repeat' split) <;> simp [(Only.fwdM _ _).iff, (Only.rxGood _ _ _).iff, (Only.macControl _ _ _ _ _).iff, (Only.rxBad _ _).iff,
    (Only.meterEnd _ _ _ _).iff, (Only.count _ _ _).iff, Only.refl]

/-! ### Commands on forwarding (07) -/

theorem Only.applyWriteFdb (c : Cmd) (d : Dev) : Only [.out, .cnt, .hif, .fwd, .bdy] d (Machine.applyWriteFdb c d) := by
  unfold Machine.applyWriteFdb
  split
  · simp [(Only.finishIn _ _ _ _).iff, Only.refl]
  · split
    · next written => simpa [(Only.okAfter _ _).iff] using (Only.fdbWrite d _ written).mono (by decide)
    · simp [(Only.finishIn _ _ _ _).iff, (Only.fdbFull _ _ _).iff, Only.refl]

theorem Only.applyDeleteFdb (c : Cmd) (d : Dev) : Only [.out, .cnt, .hif, .fwd, .bdy] d (Machine.applyDeleteFdb c d) := by
  unfold Machine.applyDeleteFdb
  (repeat' split) <;> simp [(Only.fwdM _ _).iff, (Only.finishIn _ _ _ _).iff, Only.refl]

theorem Only.applyFwdPort (c : Cmd) (d : Dev) : Only [.out, .cnt, .hif, .fwd, .bdy] d (Machine.applyFwdPort c d) := by
  simp [Machine.applyFwdPort, (Only.fwdM _ _).iff, (Only.okAfter _ _).iff, (Only.finishIn _ _ _ _).iff, Only.ite_iff, Only.refl]

theorem Only.applySetStream (c : Cmd) (d : Dev) : Only [.out, .cnt, .hif, .fwd, .bdy] d (Machine.applySetStream c d) := by
  simp [Machine.applySetStream, (Only.streamM _ _ _).iff, (Only.okAfter _ _).iff, Only.refl]

theorem Only.applySetMirror (c : Cmd) (d : Dev) : Only [.out, .cnt, .hif, .fwd, .bdy] d (Machine.applySetMirror c d) := by
  simp [Machine.applySetMirror, (Only.mirrorM _ _ _).iff, (Only.okAfter _ _).iff, (Only.finishIn _ _ _ _).iff, Only.ite_iff, Only.refl]

theorem Only.applySetRecorder (c : Cmd) (d : Dev) : Only [.free, .out, .cnt, .hif, .fwd, .buf, .drc, .bdy] d (Machine.applySetRecorder c d) := by
  simp [Machine.applySetRecorder, (Only.disableRegion _ _).iff, (Only.cmdM _ _ _).iff, (Only.bufM _ _).iff, (Only.regionM _ _ _).iff,
    (Only.okAfter _ _).iff, (Only.finishIn _ _ _ _).iff, Only.ite_iff, Only.refl]

theorem Only.acceptFreeze (c : Cmd) (d : Dev) : Only [.free, .out, .cnt, .hif, .fwd, .buf, .drc, .bdy] d (Machine.acceptFreeze c d) := by
  simp [Machine.acceptFreeze, (Only.regionM _ _ _).iff, (Only.okAfter _ _).iff, (Only.triggerRegion _ _ _).iff, Only.ite_iff, Only.refl]

theorem Only.acceptRearm (c : Cmd) (d : Dev) : Only [.out, .cnt, .hif, .fwd, .bdy] d (Machine.acceptRearm c d) := by
  unfold Machine.acceptRearm
  dsimp only
  split <;> simp [(Only.regionM _ _ _).iff, (Only.rearmRegion _ _).iff, (Only.okAfter _ _).iff, Only.refl]

theorem Only.readEnded (d : Dev) (r : Nat) : Only [.free, .out, .cnt, .hif, .fwd, .buf, .drc, .bdy] d (d.readEnded r) := by
  simp [Dev.readEnded, (Only.regionM _ _ _).iff, (Only.toFrozen _ _).iff, (Only.afterFrozen _ _).iff, Only.refl]

theorem Only.acceptReadRecorder (c : Cmd) (d : Dev) : Only [.hif, .fwd, .drc] d (Machine.acceptReadRecorder c d) := by
  simp [Machine.acceptReadRecorder, (Only.cmdM _ _ _).iff, (Only.drcM _ _).iff, (Only.regionM _ _ _).iff, Only.refl]

/-! ### Zuben slots received (04) -/

theorem Only.startRequest (d : Dev) (l : Nat) : Only [.zbn] d (d.startRequest l) := by
  unfold Dev.startRequest
  dsimp only
  split <;> simp [(Only.zlaneM _ _ _).iff, Only.when_iff, Only.refl]

/-! ### Zuben slots sent (04) -/

theorem Only.restartFlows (d : Dev) (l s : Nat) (old new : Page) : Only [.ttb] d (d.restartFlows l s old new) := by
  simp [Dev.restartFlows, (Only.ttbM _ _).iff, Only.refl]

/-! ### Commands on Zuben lanes (04) -/

theorem Only.acceptSetLane (c : Cmd) (d : Dev) : Only [.free, .out, .cnt, .hif, .zbn, .ttb, .fwd, .buf, .drc,
    .bdy] d (Machine.acceptSetLane c d) := by
  simp [Machine.acceptSetLane, (Only.superviseLane _ _).iff, (Only.okAfter _ _).iff, (Only.zlaneM _ _ _).iff, Only.refl]

theorem Only.acceptSlotTrace (c : Cmd) (d : Dev) : Only [.free, .out, .cnt, .hif, .zbn, .ttb, .fwd, .buf, .drc,
    .bdy] d (Machine.acceptSlotTrace c d) := by
  simp [Machine.acceptSlotTrace, (Only.superviseLane _ _).iff, (Only.okAfter _ _).iff, (Only.zslotM _ _ _ _).iff, Only.refl]

theorem Only.acceptSendMgmt (c : Cmd) (d : Dev) : Only [.out, .cnt, .hif, .zbn, .bdy] d (Machine.acceptSendMgmt c d) := by
  simp [Machine.acceptSendMgmt, (Only.finishIn _ _ _ _).iff, (Only.zlaneM _ _ _).iff, Only.ite_iff, Only.refl]

theorem Only.abortSendMgmt (c : Cmd) (d : Dev) {x : Dev} (h : Machine.abortSendMgmt c d = some x) : Only [.out, .cnt, .hif, .zbn, .bdy] d x := by
  unfold Machine.abortSendMgmt at h
  dsimp only at h
  split at h
  · cases h; simp [(Only.finishIn _ _ _ _).iff, (Only.zlaneM _ _ _).iff, Only.refl]
  · cases h

theorem Only.sendFlexe (d : Dev) (n : Nat) : Only [.out] d (d.sendFlexe n) := by
  simp [Dev.sendFlexe, (Only.emit _ _).iff, Only.refl]

theorem Only.flexeTell (d : Dev) (n : Nat) (f : FlexE → FlexE) : Only [.out, .zbn] d (d.flexeTell n f) := by
  simp [Dev.flexeTell, (Only.flexeM _ _ _).iff, (Only.sendFlexe _ _).iff, Only.refl]

theorem Only.acceptSetFlexe (c : Cmd) (d : Dev) : Only [.out, .cnt, .hif, .zbn, .bdy] d (Machine.acceptSetFlexe c d) := by
  simp [Machine.acceptSetFlexe, (Only.okAfter _ _).iff, (Only.flexeM _ _ _).iff, (Only.flexeTell _ _ _).iff, Only.ite_iff, Only.refl]

theorem Only.abortSetFlexe (c : Cmd) (d : Dev) {x : Dev} (h : Machine.abortSetFlexe c d = some x) : Only [.out, .cnt, .hif, .zbn, .bdy] d x := by
  unfold Machine.abortSetFlexe at h
  dsimp only at h
  split at h
  · cases h
  · cases h; simp [(Only.finishIn _ _ _ _).iff, (Only.flexeM _ _ _).iff, Only.refl]

/-! ### Pages of the timetable (05) -/

theorem Only.protReset (d : Dev) (i : Nat) (f : Prot → Prot) : Only [.free, .out, .cnt, .hif, .ttb, .fwd, .buf, .drc,
    .bdy] d (d.protReset i f) := by
  simp [Dev.protReset, (Only.count _ _ _).iff, (Only.postIn _ _ _).iff, (Only.trigger _ _).iff, (Only.protM _ _ _).iff, Only.when_iff, Only.refl]

theorem Only.rewire (d : Dev) (i : Nat) : Only [.free, .out, .cnt, .hif, .ttb, .fwd, .buf, .drc, .bdy] d (d.rewire i) := by
  unfold Dev.rewire
  dsimp only
  split <;> simp [(Only.protReset _ _ _).iff, (Only.protRefresh _ _).iff, (Only.protM _ _ _).iff, Only.ite_iff, Only.refl]

theorem Only.rewireAll (d : Dev) : Only [.free, .out, .cnt, .hif, .ttb, .fwd, .buf, .drc, .bdy] d d.rewireAll := by
  simp [Dev.rewireAll, (Only.rewire _ _).iff, Only.each_iff, Only.refl]

theorem Only.applyWriteSlot (c : Cmd) (d : Dev) : Only [.out, .cnt, .hif, .ttb, .bdy] d (Machine.applyWriteSlot c d) := by
  simp [Machine.applyWriteSlot, (Only.ttbLaneM _ _ _).iff, (Only.okAfter _ _).iff, (Only.finishIn _ _ _ _).iff, Only.ite_iff, Only.refl]

theorem Only.applyWriteSeats (c : Cmd) (d : Dev) : Only [.out, .cnt, .hif, .ttb, .bdy] d (Machine.applyWriteSeats c d) := by
  simp [Machine.applyWriteSeats, (Only.ttbLaneM _ _ _).iff, (Only.okAfter _ _).iff, (Only.finishIn _ _ _ _).iff, Only.ite_iff, Only.refl]

theorem Only.applyCopyPage (c : Cmd) (d : Dev) : Only [.out, .cnt, .hif, .ttb, .bdy] d (Machine.applyCopyPage c d) := by
  simp [Machine.applyCopyPage, (Only.ttbLaneM _ _ _).iff, (Only.okAfter _ _).iff, (Only.finishIn _ _ _ _).iff, Only.ite_iff, Only.refl]

theorem Only.acceptSwitchPage (c : Cmd) (d : Dev) : Only [.ttb] d (Machine.acceptSwitchPage c d) := by
  simp [Machine.acceptSwitchPage, (Only.ttbLaneM _ _ _).iff, Only.refl]

theorem Only.abortSwitchPage (c : Cmd) (d : Dev) {x : Dev} (h : Machine.abortSwitchPage c d = some x) :
    Only [.out, .cnt, .hif, .zbn, .ttb, .bdy] d x := by
  unfold Machine.abortSwitchPage at h
  dsimp only at h
  split at h
  · cases h
  · cases h; simp [(Only.finishIn _ _ _ _).iff, (Only.ttbLaneM _ _ _).iff, (Only.zlaneM _ _ _).iff, Only.when_iff, Only.refl]

theorem Only.armPage (d : Dev) (l : Nat) : Only [.zbn, .ttb] d (d.armPage l) := by
  unfold Dev.armPage
  dsimp only
  split <;> simp [(Only.startRequest _ _).iff, (Only.ttbLaneM _ _ _).iff, Only.ite_iff, Only.refl]

theorem Only.armPages (d : Dev) : Only [.zbn, .ttb] d d.armPages := by
  simp [Dev.armPages, (Only.armPage _ _).iff, Only.each_iff, Only.refl]

theorem Only.restartSlots (d : Dev) (l : Nat) (old new : Page) : Only [.zbn, .ttb] d (d.restartSlots l old new) := by
  simp [Dev.restartSlots, (Only.zslotM _ _ _ _).iff, (Only.restartFlows _ _ _ _ _).iff, Only.each_iff, Only.when_iff, Only.refl]

theorem Only.switchPage (d : Dev) (l : Nat) : Only [.free, .out, .cnt, .hif, .zbn, .ttb, .fwd, .buf, .drc, .bdy] d (d.switchPage l) := by
  unfold Dev.switchPage
  dsimp only
  split <;> simp [(Only.finishAtIn _ _ _ _ _).iff, (Only.rewireAll _).iff, (Only.protScan _).iff, (Only.count _ _ _).iff, (Only.postIn _ _ _).iff,
    (Only.zlaneM _ _ _).iff, (Only.ttbLaneM _ _ _).iff, (Only.restartSlots _ _ _ _).iff, Only.when_iff, Only.refl]

theorem Only.pageTurn (l : Nat) (d : Dev) : Only [.free, .out, .cnt, .hif, .zbn, .ttb, .fwd, .buf, .drc, .bdy] d (Dev.pageTurn l d) := by
  simp [Dev.pageTurn, (Only.switchPage _ _).iff, Only.when_iff, Only.refl]

theorem Only.ratesSince (d was : Dev) : Only [.out, .cnt, .hif] d (d.ratesSince was) := by
  simp [Dev.ratesSince, Only.each_iff, (Only.rateChanged _ _ _).iff, Only.refl]

theorem Only.switchPages (d : Dev) : Only [.free, .out, .cnt, .hif, .zbn, .ttb, .fwd, .buf, .drc, .bdy] d d.switchPages := by
  simp [Dev.switchPages, (Only.pageTurn _ _).iff, (Only.ratesSince _ _).iff, Only.each_iff, Only.refl]

theorem Only.setProt (d : Dev) (e : CmdEntry) : Only [.ttb] d (d.setProt e) := by
  simp [Dev.setProt, (Only.ttbM _ _).iff, Only.refl]

theorem Only.dropProt (d : Dev) (e : CmdEntry) : Only [.ttb] d (d.dropProt e) := by
  simp [Dev.dropProt, (Only.ttbM _ _).iff, Only.refl]

theorem Only.applySetProtection (c : Cmd) (d : Dev) : Only [.free, .out, .cnt, .hif, .mac, .ttb, .fwd, .buf, .drc,
    .bdy] d (Machine.applySetProtection c d) := by
  simp [Machine.applySetProtection, (Only.dropProt _ _).iff, (Only.setProt _ _).iff, (Only.rewire _ _).iff, (Only.xoffScan _).iff,
    (Only.okAfter _ _).iff, (Only.finishIn _ _ _ _).iff, Only.ite_iff, Only.refl]

theorem Only.applyProtectCommand (c : Cmd) (d : Dev) : Only [.free, .out, .cnt, .hif, .ttb, .fwd, .buf, .drc,
    .bdy] d (Machine.applyProtectCommand c d) := by
  simp [Machine.applyProtectCommand, (Only.protM _ _ _).iff, (Only.protDecide _ _).iff, (Only.okAfter _ _).iff, (Only.finishIn _ _ _ _).iff,
    Only.ite_iff, Only.refl]

/-! ### Training and pages of the far store (10) -/

theorem Only.pageFreeNow (d : Dev) (p : Nat) : Only [.free, .drc] d (d.pageFreeNow p).2 := by
  unfold Dev.pageFreeNow
  dsimp only
  (repeat' split) <;> simp [(Only.drcM _ _).iff, (Only.fresh _).iff, Only.refl]

theorem Only.quarantine (d : Dev) (i bank row : Nat) : Only [.free, .out, .cnt, .hif, .drc] d (d.quarantine i bank row).1 := by
  unfold Dev.quarantine
  dsimp only
  (repeat' split) <;> simp [(Only.postIn _ _ _).iff, (Only.stackM _ _ _).iff, (Only.chanM _ _ _).iff, (Only.pageFreeNow _ _).iff, Only.refl]

theorem Only.retrainM (d : Dev) (k slot : Nat) (f : Retrain → Retrain) : Only [.drc] d (d.retrainM k slot f) := by
  simp [Dev.retrainM, (Only.drcM _ _).iff, Only.refl]

theorem Only.startCopy (d : Dev) (k slot src tgt logical : Nat) : Only [.drc] d (d.startCopy k slot src tgt logical) := by
  simp [Dev.startCopy, (Only.retrainM _ _ _ _).iff, (Only.chanM _ _ _).iff, Only.refl]

theorem Only.moveReads (d : Dev) (src dst logical : Nat) : Only [.cnt, .drc] d (d.moveReads src dst logical) := by
  simp [Dev.moveReads, (Only.serveChan _ _ _).iff, (Only.chanM _ _ _).iff, Only.refl]

theorem Only.cutChannel (d : Dev) (k slot : Nat) : Only [.out, .cnt, .hif, .drc, .bdy] d (d.cutChannel k slot) := by
  unfold Dev.cutChannel
  dsimp only
  (repeat' split) <;> simp [(Only.finishAtIn _ _ _ _ _).iff, (Only.retrainM _ _ _ _).iff, (Only.postIn _ _ _).iff, (Only.moveReads _ _ _ _).iff,
    (Only.chanM _ _ _).iff, Only.refl]

theorem Only.channelTurn (x : Nat × Retrain) (d : Dev) : Only [.out, .cnt, .hif, .drc, .bdy] d (Dev.channelTurn x d) := by
  simp [Dev.channelTurn, (Only.cutChannel _ _ _).iff, Only.refl]

theorem Only.channelCuts (d : Dev) : Only [.out, .cnt, .hif, .drc, .bdy] d d.channelCuts := by
  simp [Dev.channelCuts, (Only.channelTurn _ _).iff, Only.each_iff, Only.refl]

theorem Only.claimChannel (d : Dev) (k logical : Nat) (permanent : Bool) (command : Option (Nat × Nat)) {x : Dev}
    (h : d.claimChannel k logical permanent command = some x) : Only [.drc] d x := by
  unfold Dev.claimChannel at h
  split at h
  · split at h
    · cases h; simp [(Only.retrainM _ _ _ _).iff, (Only.startCopy _ _ _ _ _ _).iff, Only.refl]
    · cases h
  · cases h

theorem Only.claimRetrain (d : Dev) (c : Cmd) : Only [.out, .cnt, .hif, .drc, .bdy] d (d.claimRetrain c) := by
  unfold Dev.claimRetrain
  dsimp only
  split
  · next claimed => exact (Only.claimChannel d _ _ _ _ claimed).mono (by decide)
  · simp [(Only.finishIn _ _ _ _).iff, (Only.drcM _ _).iff, Only.refl]

theorem Only.dropCopySlot (d : Dev) (k slot : Nat) : Only [.drc] d (d.dropCopySlot k slot) := by
  simp [Dev.dropCopySlot, (Only.retrainM _ _ _ _).iff, (Only.chanM _ _ _).iff, Only.ite_iff, Only.refl]

theorem Only.abortRetrain (c : Cmd) (d : Dev) {x : Dev} (h : Machine.abortRetrain c d = some x) : Only [.out, .cnt, .hif, .drc, .bdy] d x := by
  unfold Machine.abortRetrain at h
  split at h
  · cases h; simp [(Only.finishIn _ _ _ _).iff, Only.refl]
  · split at h
    · cases h; simp [(Only.finishIn _ _ _ _).iff, (Only.retrainM _ _ _ _).iff, Only.refl]
    · cases h; simp [(Only.finishIn _ _ _ _).iff, (Only.dropCopySlot _ _ _).iff, Only.refl]

theorem Only.acceptRetrain (c : Cmd) (d : Dev) : Only [.hif, .drc] d (Machine.acceptRetrain c d) := by
  unfold Machine.acceptRetrain
  dsimp only
  split <;> simp [(Only.retrainM _ _ _ _).iff, (Only.cmdM _ _ _).iff, Only.refl]

theorem Only.acceptQuarantine (c : Cmd) (d : Dev) : Only [.free, .out, .cnt, .hif, .drc, .bdy] d (Machine.acceptQuarantine c d) := by
  unfold Machine.acceptQuarantine
  dsimp only
  split <;> simp [(Only.finishIn _ _ _ _).iff, (Only.quarantine _ _ _ _).iff, Only.refl]

/-! ### Energy and its conflicts (14) -/

theorem Only.conflict (d : Dev) (c : Nat) : Only [.cnt, .gov] d (d.conflict c) := by
  simp [Dev.conflict, (Only.govM _ _).iff, (Only.count _ _ _).iff, Only.refl]

theorem Only.flowAgain (d : Dev) (p : Nat → Bool) : Only [.mac] d (d.flowAgain p) := by
  simp [Dev.flowAgain, (Only.portM _ _ _).iff, Only.each_iff, Only.when_iff, Only.refl]

theorem Only.setBeHold (d : Dev) (on : Bool) : Only [.out, .cnt, .mac, .buf, .gov, .bdy] d (d.setBeHold on) := by
  simp [Dev.setBeHold, (Only.govM _ _).iff, (Only.flowAgain _ _).iff, (Only.xoffScan _).iff, Only.ite_iff, Only.refl]

theorem Only.setStep (d : Dev) (k cause : Nat) : Only [.out, .cnt, .hif, .fwd, .gov] d (d.setStep k cause) := by
  simp [Dev.setStep, (Only.govM _ _).iff, (Only.postIn _ _ _).iff, (Only.sweepPause _).iff, Only.ite_iff, Only.refl]

theorem Only.setLevers (d : Dev) (i : BellInput) : Only [.out, .cnt, .mac, .buf, .drc, .gov, .bdy] d (d.setLevers i) := by
  simp [Dev.setLevers, (Only.govM _ _).iff, (Only.setBeHold _ _).iff, (Only.drcM _ _).iff, Only.refl]

theorem Only.junction (d : Dev) (i : BellInput) : Only [.out, .cnt, .hif, .fwd, .gov] d (d.junction i) := by
  simp [Dev.junction, (Only.conflict _ _).iff, (Only.setStep _ _ _).iff, (Only.count _ _ _).iff, (Only.postIn _ _ _).iff, (Only.govM _ _).iff,
    Only.when_iff, Only.refl]

theorem Only.floorLook (d : Dev) : Only [.out, .cnt, .hif, .gov] d d.floorLook := by
  simp [Dev.floorLook, (Only.postIn _ _ _).iff, (Only.govM _ _).iff, Only.when_iff, Only.ite_iff, Only.refl]

theorem Only.railLook (d : Dev) (q amps : Nat) : Only [.out, .cnt, .hif, .mac, .gov] d (d.railLook q amps) := by
  simp [Dev.railLook, (Only.conflict _ _).iff, (Only.postIn _ _ _).iff, (Only.flowAgain _ _).iff, (Only.quadM _ _ _).iff, Only.when_iff, Only.refl]

theorem Only.climb (d : Dev) (a e : Nat) : Only [.out, .cnt, .hif, .fwd, .gov] d (d.climb a e) := by
  simp [Dev.climb, (Only.conflict _ _).iff, (Only.setStep _ _ _).iff, (Only.govM _ _).iff, Only.ite_iff, Only.refl]

theorem Only.settleEnergy (d : Dev) (i : BellInput) (pOld : Nat) :
    Only [.out, .cnt, .hif, .mac, .fwd, .buf, .drc, .gov, .bdy] d (d.settleEnergy i pOld) := by
  simp [Dev.settleEnergy, (Only.setLevers _ _).iff, (Only.floorLook _).iff, (Only.railLook _ _ _).iff, (Only.climb _ _ _).iff,
    (Only.count _ _ _).iff, (Only.junction _ _).iff, (Only.govM _ _).iff, Only.each_iff, Only.when_iff, Only.refl]

theorem Only.closeConflicts (d : Dev) : Only [.out, .cnt, .hif, .gov] d d.closeConflicts := by
  simp [Dev.closeConflicts, (Only.govM _ _).iff, (Only.postIn _ _ _).iff, Only.when_iff, Only.refl]

theorem Only.applyPolicy (c : Cmd) (d : Dev) : Only [.out, .cnt, .hif, .fwd, .gov, .bdy] d (Machine.applyPolicy c d) := by
  simp [Machine.applyPolicy, (Only.okAfter _ _).iff, (Only.setStep _ _ _).iff, (Only.govM _ _).iff, Only.when_iff, Only.refl]

/-! ### Counters, monitors and snapshots (15) -/

theorem Only.restartPeaks (d : Dev) : Only [.cnt] d d.restartPeaks := by
  simp [Dev.restartPeaks, (Only.setLive _ _ _).iff, Only.each_iff, Only.when_iff, Only.refl]

theorem Only.flip (d : Dev) (seq cause : Nat) : Only [.out, .cnt, .hif] d (d.flip seq cause) := by
  simp [Dev.flip, (Only.restartPeaks _).iff, (Only.postIn _ _ _).iff, (Only.cntM _ _).iff, Only.refl]

theorem Only.flipAt (d : Dev) (seq : Nat) : Only [.out, .cnt, .hif] d (d.flipAt seq) := by
  simp [Dev.flipAt, (Only.flip _ _ _).iff, Only.ite_iff, Only.refl]

theorem Only.clearLive (d : Dev) (key : Nat) : Only [.cnt] d (d.clearLive key) := by
  simp [Dev.clearLive, (Only.cntM _ _).iff, Only.refl]

theorem Only.applyMonitor (c : Cmd) (d : Dev) : Only [.out, .cnt, .hif, .bdy] d (Machine.applyMonitor c d) := by
  simp [Machine.applyMonitor, (Only.okAfter _ _).iff, (Only.clearLive _ _).iff, (Only.setLive _ _ _).iff, (Only.cntM _ _).iff, Only.ite_iff,
    Only.refl]

theorem Only.applyEvCounter (c : Cmd) (d : Dev) : Only [.out, .cnt, .hif, .bdy] d (Machine.applyEvCounter c d) := by
  simp [Machine.applyEvCounter, (Only.clearLive _ _).iff, (Only.okAfter _ _).iff, (Only.cntM _ _).iff, Only.ite_iff, Only.refl]

theorem Only.acceptReadCounters (c : Cmd) (d : Dev) : Only [.out, .cnt, .hif, .bdy] d (Machine.acceptReadCounters c d) := by
  simp [Machine.acceptReadCounters, (Only.readOutIn _ _ _ _ _).iff, Only.refl]

/-! ### Commands on the whole module (12) -/

theorem Only.acceptQuery (c : Cmd) (d : Dev) : Only [.out, .cnt, .hif, .bdy] d (Machine.acceptQuery c d) := by
  unfold Machine.acceptQuery
  dsimp only
  (repeat' split) <;> simp [(Only.finishIn _ _ _ _).iff, (Only.readOutIn _ _ _ _ _).iff, Only.refl]

theorem Only.acceptBarrier (c : Cmd) (d : Dev) : Only [.out, .cnt, .hif, .bdy] d (Machine.acceptBarrier c d) := by
  simp [Machine.acceptBarrier, (Only.cmdM _ _ _).iff, (Only.finishIn _ _ _ _).iff, Only.ite_iff, Only.refl]

theorem Only.acceptHold (c : Cmd) (d : Dev) : Only [.out, .cnt, .hif, .bdy] d (Machine.acceptHold c d) := by
  unfold Machine.acceptHold
  (repeat' split) <;> simp [(Only.cmdM _ _ _).iff, (Only.okAfter _ _).iff, Only.refl]

/-! ### Lane substitution (16) -/

theorem Only.setUnit (d : Dev) (kind u : Nat) (x : SpareUnit) : Only [.sub] d (d.setUnit kind u x) := by
  simp [Dev.setUnit, (Only.subM _ _).iff, Only.refl]

theorem Only.buddyLaneM (d : Dev) (k : Nat) (f : BuddyLane → BuddyLane) : Only [.bdy] d (d.buddyLaneM k f) := by
  simp [Dev.buddyLaneM, (Only.bdyM _ _).iff, Only.refl]

theorem Only.slotM (d : Dev) (k : Nat) (f : SubSlot → SubSlot) : Only [.sub] d (d.slotM k f) := by
  simp [Dev.slotM, (Only.subM _ _).iff, Only.refl]

theorem Only.beginCopy (d : Dev) (k kind u spare : Nat) {x : Dev} (h : d.beginCopy k kind u spare = some x) :
    Only [.free, .out, .cnt, .hif, .lne, .zbn, .ttb, .fwd, .buf, .drc, .sub, .bdy] d x := by
  unfold Dev.beginCopy at h
  split at h
  · cases h
    simp [(Only.slotM _ _ _).iff, (Only.laneTo _ _ _ _).iff, (Only.clusterM _ _ _).iff, Only.ite_iff, Only.refl]
  · cases h; simp [(Only.laneTo _ _ _ _).iff, Only.refl]
  · obtain ⟨e, claimed, rfl⟩ := Option.map_eq_some_iff.1 h
    rw [(Only.slotM _ _ _).iff (by decide)]
    exact (Only.claimChannel d _ _ _ _ claimed).mono (by decide)
  · cases h; simp [(Only.slotM _ _ _).iff, (Only.setUnit _ _ _ _).iff, Only.refl]

theorem Only.subClaim (d : Dev) (k : Nat) {x : Dev} (h : d.subClaim k = some x) :
    Only [.free, .out, .cnt, .hif, .lne, .zbn, .ttb, .fwd, .buf, .drc, .sub, .bdy] d x := by
  unfold Dev.subClaim at h
  dsimp only at h
  split at h
  · cases h
  · obtain ⟨e, begun, rfl⟩ := Option.map_eq_some_iff.1 h
    have copied := Only.beginCopy d k _ _ _ begun
    simp [(Only.postIn _ _ _).iff, (Only.slotM _ _ _).iff, (Only.count _ _ _).iff, Only.when_iff, copied]

theorem Only.claimSub (d : Dev) (c : Cmd) :
    Only [.free, .out, .cnt, .hif, .lne, .zbn, .ttb, .fwd, .buf, .drc, .sub, .bdy] d (d.claimSub c) := by
  unfold Dev.claimSub
  split
  · exact Only.refl _ d
  · split
    · next claimed => exact Only.subClaim d _ claimed
    · simp [(Only.finishIn _ _ _ _).iff, (Only.subM _ _).iff, Only.refl]

theorem Only.autoStart (d : Dev) (kind unit : Nat) :
    Only [.free, .out, .cnt, .hif, .lne, .zbn, .ttb, .fwd, .buf, .drc, .sub, .bdy] d (d.autoStart kind unit) := by
  unfold Dev.autoStart
  dsimp only
  split
  · exact Only.refl _ d
  · split
    · simp [(Only.subM _ _).iff, Only.refl]
    · split
      · next claimed =>
        refine Only.trans ?_ (Only.subClaim _ _ claimed)
        simp [(Only.slotM _ _ _).iff, (Only.subM _ _).iff, (Only.emit _ _).iff, Only.when_iff, Only.refl]
      · simp [(Only.postIn _ _ _).iff, (Only.count _ _ _).iff, (Only.subM _ _).iff, Only.refl]

theorem Only.undoSub (d : Dev) (x : SubSlot) : Only [.free, .out, .cnt, .hif, .lne, .zbn, .ttb, .fwd, .buf, .drc, .sub, .bdy] d (d.undoSub x) := by
  unfold Dev.undoSub
  dsimp only
  (repeat' split) <;> simp [(Only.setUnit _ _ _ _).iff, (Only.dropCopySlot _ _ _).iff, (Only.laneTo _ _ _ _).iff, (Only.spareBack _ _).iff,
    Only.refl]

theorem Only.subDone (d : Dev) (k worn spare : Nat) : Only [.out, .cnt, .hif, .sub, .bdy] d (d.subDone k worn spare) := by
  simp [Dev.subDone, (Only.postIn _ _ _).iff, (Only.subEnd _ _ _ _).iff, Only.refl]

theorem Only.cutLane (d : Dev) (k : Nat) (x : SubSlot) : Only [.free, .out, .cnt, .hif, .lne, .zbn, .ttb, .fwd, .buf, .drc, .sub,
    .bdy] d (d.cutLane k x) := by
  simp [Dev.cutLane, (Only.superviseLane _ _).iff, (Only.subDone _ _ _ _).iff, (Only.count _ _ _).iff, (Only.slotM _ _ _).iff, (Only.subM _ _).iff,
    (Only.laneM _ _ _).iff, (Only.clusterM _ _ _).iff, (Only.subEnd _ _ _ _).iff, Only.ite_iff, Only.refl]

theorem Only.cutBuddyLane (d : Dev) (k : Nat) (x : SubSlot) : Only [.out, .cnt, .hif, .sub, .bdy] d (d.cutBuddyLane k x) := by
  simp [Dev.cutBuddyLane, (Only.slotM _ _ _).iff, (Only.subDone _ _ _ _).iff, (Only.subM _ _).iff, (Only.buddyLaneM _ _ _).iff,
    (Only.subEnd _ _ _ _).iff, Only.ite_iff, Only.refl]

theorem Only.cutUnit (d : Dev) (k : Nat) (x : SubSlot) : Only [.out, .cnt, .hif, .sub, .bdy] d (d.cutUnit k x) := by
  simp [Dev.cutUnit, (Only.slotM _ _ _).iff, (Only.subDone _ _ _ _).iff, (Only.setUnit _ _ _ _).iff, Only.refl]

theorem Only.subTurn (s : Nat × SubSlot) (d : Dev) : Only [.free, .out, .cnt, .hif, .lne, .zbn, .ttb, .fwd, .buf, .drc, .sub,
    .bdy] d (Dev.subTurn s d) := by
  unfold Dev.subTurn
  dsimp only
  (repeat' split) <;> simp [(Only.cutUnit _ _ _).iff, (Only.cutChannel _ _ _).iff, (Only.subDone _ _ _ _).iff, (Only.cutBuddyLane _ _ _).iff,
    (Only.cutLane _ _ _).iff, Only.refl]

theorem Only.subCuts (d : Dev) : Only [.free, .out, .cnt, .hif, .lne, .zbn, .ttb, .fwd, .buf, .drc, .sub, .bdy] d d.subCuts := by
  simp [Dev.subCuts, (Only.subTurn _ _).iff, Only.each_iff, Only.refl]

theorem Only.acceptThreshold (c : Cmd) (d : Dev) : Only [.out, .cnt, .hif, .sub, .bdy] d (Machine.acceptThreshold c d) := by
  simp [Machine.acceptThreshold, (Only.subM _ _).iff, (Only.okAfter _ _).iff, Only.refl]

theorem Only.dueAuto (d : Dev) (kind u : Nat) : Only [.sub] d (d.dueAuto kind u) := by
  unfold Dev.dueAuto
  (repeat' split) <;> simp [(Only.subM _ _).iff, Only.refl]

theorem Only.acceptPolicy (c : Cmd) (d : Dev) : Only [.out, .cnt, .hif, .sub, .bdy] d (Machine.acceptPolicy c d) := by
  have due (k : Nat) (x : Dev) : Only [.out, .cnt, .hif, .sub, .bdy] x (x.each (x.wornUnits k) fun u d => d.dueAuto u.1 u.2) := by
    simp [Only.each_iff, (Only.dueAuto _ _ _).iff, Only.refl]
  simp [Machine.acceptPolicy, (Only.okAfter _ _).iff, Only.each_iff due, (Only.subM _ _).iff, Only.refl]

theorem Only.acceptSubstitute (c : Cmd) (d : Dev) : Only [.hif, .sub] d (Machine.acceptSubstitute c d) := by
  unfold Machine.acceptSubstitute
  dsimp only
  split <;> simp [(Only.slotM _ _ _).iff, (Only.cmdM _ _ _).iff, Only.refl]

theorem Only.abortSubstitute (c : Cmd) (d : Dev) {x : Dev} (h : Machine.abortSubstitute c d = some x) :
    Only [.free, .out, .cnt, .hif, .lne, .zbn, .ttb, .fwd, .buf, .drc, .sub, .bdy] d x := by
  unfold Machine.abortSubstitute at h
  split at h
  · cases h
  · split at h
    · cases h
    · cases h; simp [(Only.subEnd _ _ _ _).iff, (Only.undoSub _ _).iff, Only.refl]

/-! ### The buddy module (17) -/

theorem Only.setPair (d : Dev) (new : PairState) : Only [.out, .cnt, .hif, .bdy] d (d.setPair new) := by
  simp [Dev.setPair, (Only.bdyM _ _).iff, (Only.postIn _ _ _).iff, Only.ite_iff, Only.refl]

theorem Only.buddyLaneTo (d : Dev) (k : Nat) (new : LaneState) :
    Only [.free, .out, .cnt, .hif, .lne, .zbn, .ttb, .fwd, .buf, .drc, .sub, .bdy] d (d.buddyLaneTo k new) := by
  simp [Dev.buddyLaneTo, (Only.laneTo _ _ _ _).iff, Only.refl]

theorem Only.linkOff (d : Dev) : Only [.free, .out, .cnt, .hif, .lne, .zbn, .ttb, .fwd, .buf, .drc, .sub, .bdy] d d.linkOff := by
  simp [Dev.linkOff, (Only.buddyLaneTo _ _ _).iff, (Only.bdyM _ _).iff, Only.each_iff, Only.refl]

theorem Only.dropOtherModule (d : Dev) (fault : Bool) : Only [.out, .fwd] d (d.dropOtherModule fault) := by
  simp [Dev.dropOtherModule, (Only.fdbRemove _ _ _).iff, Only.refl]

theorem Only.flushBuddyTx (d : Dev) : Only [.out, .cnt, .hif, .mac, .fwd, .buf, .bdy] d d.flushBuddyTx := by
  simp [Dev.flushBuddyTx, (Only.count _ _ _).iff, (Only.dropCopy _ _ _).iff, (Only.bdyM _ _).iff, Only.each_iff, Only.refl]

theorem Only.releaseOwn (d : Dev) : Only [.out, .cnt, .hif, .bdy] d d.releaseOwn := by
  unfold Dev.releaseOwn
  rw [Only.each_iff fun o x => by
    split
    · simp [(Only.deliverIn _ _ _).iff, Only.refl]
    · exact Only.refl _ x]
  simp [(Only.bdyM _ _).iff, Only.refl]

theorem Only.cfgLook (d : Dev) : Only [.out, .cnt, .hif, .bdy] d d.cfgLook := by
  simp [Dev.cfgLook, (Only.postIn _ _ _).iff, (Only.bdyM _ _).iff, Only.ite_iff, Only.refl]

theorem Only.heartbeatCounts (d : Dev) : Only [.bdy] d d.heartbeatCounts := by
  simp [Dev.heartbeatCounts, (Only.bdyM _ _).iff, Only.refl]

theorem Only.sendHeartbeat (d : Dev) : Only [.out, .bdy, .pins] d d.sendHeartbeat := by
  simp [Dev.sendHeartbeat, (Only.emit _ _).iff, (Only.bdyM _ _).iff, (Only.pinsM _ _).iff, Only.ite_iff, Only.refl]

theorem Only.pairUndo (d : Dev) (p : Pairing) : Only [.free, .out, .cnt, .hif, .lne, .zbn, .ttb, .fwd, .buf, .drc, .sub,
    .bdy] d (d.pairUndo p) := by
  simp [Dev.pairUndo, (Only.linkOff _).iff, (Only.setPair _ _).iff, (Only.cfgLook _).iff, (Only.bdyM _ _).iff, Only.refl]

theorem Only.rejoinStart (d : Dev) : Only [.out, .cnt, .hif, .bdy] d d.rejoinStart := by
  unfold Dev.rejoinStart
  dsimp only
  split <;> simp [(Only.emit _ _).iff, (Only.bdyM _ _).iff, (Only.setPair _ _).iff, Only.each_iff, Only.ite_iff, Only.refl]

theorem Only.acceptPair (c : Cmd) (d : Dev) : Only [.free, .out, .cnt, .hif, .lne, .zbn, .ttb, .fwd, .buf, .drc, .sub,
    .bdy] d (Machine.acceptPair c d) := by
  simp [Machine.acceptPair, (Only.setPair _ _).iff, (Only.buddyLaneTo _ _ _).iff, (Only.bdyM _ _).iff, Only.each_iff, Only.refl]

theorem Only.abortPair (c : Cmd) (d : Dev) {x : Dev} (h : Machine.abortPair c d = some x) :
    Only [.free, .out, .cnt, .hif, .lne, .zbn, .ttb, .fwd, .buf, .drc, .sub, .bdy] d x := by
  obtain ⟨p, -, rfl⟩ := Option.map_eq_some_iff.1 h
  simp [(Only.finishIn _ _ _ _).iff, (Only.pairUndo _ _).iff, Only.refl]

theorem Only.acceptRejoin (c : Cmd) (d : Dev) : Only [.out, .hif, .bdy] d (Machine.acceptRejoin c d) := by
  simp [Machine.acceptRejoin, (Only.cmdM _ _ _).iff, (Only.emit _ _).iff, (Only.bdyM _ _).iff, Only.refl]

theorem Only.abortRejoin (c : Cmd) (d : Dev) {x : Dev} (h : Machine.abortRejoin c d = some x) : Only [.out, .cnt, .hif, .bdy] d x := by
  cases h
  simp [(Only.finishIn _ _ _ _).iff, (Only.setPair _ _).iff, (Only.emit _ _).iff, (Only.bdyM _ _).iff, Only.ite_iff, Only.refl]

theorem Only.applyUnpair (c : Cmd) (d : Dev) : Only [.out, .cnt, .hif, .fwd, .bdy] d (Machine.applyUnpair c d) := by
  simp [Machine.applyUnpair, (Only.cmdM _ _ _).iff, (Only.finishIn _ _ _ _).iff, (Only.dropOtherModule _ _).iff, (Only.bdyM _ _).iff, Only.ite_iff,
    Only.refl]

/-! ### Keys, seals and updates (18) -/

theorem Only.setPrc (d : Dev) (new : PrcState) : Only [.out, .cnt, .hif, .prc] d (d.setPrc new) := by
  simp [Dev.setPrc, (Only.prcM _ _).iff, (Only.postIn _ _ _).iff, Only.ite_iff, Only.refl]

theorem Only.sign (d : Dev) (msg : List Byte) : Only [.free] d (d.sign msg).2 := by
  simp [Dev.sign, (Only.fresh _).iff, Only.refl]

theorem Only.acceptTranscript (c : Cmd) (d : Dev) : Only [.free, .out, .cnt, .hif, .bdy] d (Machine.acceptTranscript c d) := by
  simp [Machine.acceptTranscript, (Only.count _ _ _).iff, (Only.readOutIn _ _ _ _ _).iff, (Only.sign _ _).iff, Only.ite_iff, Only.refl]

theorem Only.acceptRandom (c : Cmd) (d : Dev) : Only [.free, .out, .cnt, .hif, .bdy, .prc] d (Machine.acceptRandom c d) := by
  simp [Machine.acceptRandom, (Only.prcM _ _).iff, (Only.count _ _ _).iff, (Only.readOutIn _ _ _ _ _).iff, (Only.fresh _).iff, Only.ite_iff,
    Only.refl]

theorem Only.acceptExport (c : Cmd) (d : Dev) : Only [.free, .out, .cnt, .hif, .bdy] d (Machine.acceptExport c d) := by
  simp [Machine.acceptExport, (Only.readOutIn _ _ _ _ _).iff, (Only.sign _ _).iff, Only.ite_iff, Only.refl]

theorem Only.acceptUpdate (c : Cmd) (d : Dev) : Only [.hif, .prc] d (Machine.acceptUpdate c d) := by
  simp [Machine.acceptUpdate, (Only.cmdM _ _ _).iff, (Only.prcM _ _).iff, Only.refl]

theorem Only.updateEnds (d : Dev) (status result : Nat) : Only [.out, .cnt, .hif, .bdy, .prc] d (d.updateEnds status result) := by
  unfold Dev.updateEnds
  (repeat' split) <;> simp [(Only.prcM _ _).iff, (Only.finishAtIn _ _ _ _ _).iff, Only.refl]

theorem Only.bankSpoilt (d : Dev) : Only [.prc] d d.bankSpoilt := by
  simp [Dev.bankSpoilt, (Only.prcM _ _).iff, Only.refl]

theorem Only.updateCut (d : Dev) : Only [.prc] d d.updateCut := by
  unfold Dev.updateCut
  (repeat' split) <;> simp [(Only.bankSpoilt _).iff, Only.when_iff, Only.refl]

theorem Only.abortUpdate (c : Cmd) (d : Dev) {x : Dev} (h : Machine.abortUpdate c d = some x) : Only [.out, .cnt, .hif, .bdy, .prc] d x := by
  cases h; simp [(Only.updateEnds _ _ _).iff, (Only.bankSpoilt _).iff, Only.when_iff, Only.refl]

theorem Only.computeSeals (d : Dev) : Only [.prc] d d.computeSeals := by
  simp [Dev.computeSeals, (Only.prcM _ _).iff, Only.refl]

theorem Only.acceptSeal (c : Cmd) (d : Dev) : Only [.out, .cnt, .hif, .bdy, .prc] d (Machine.acceptSeal c d) := by
  simp [Machine.acceptSeal, (Only.prcM _ _).iff, (Only.auditIn _ _ _ _).iff, (Only.finishIn _ _ _ _).iff, Only.ite_iff, Only.refl]

theorem Only.abortSeal (c : Cmd) (d : Dev) {x : Dev} (h : Machine.abortSeal c d = some x) : Only [.out, .cnt, .hif, .bdy, .prc] d x := by
  unfold Machine.abortSeal at h
  split at h
  · split at h
    · cases h
    · cases h; simp [(Only.finishIn _ _ _ _).iff, (Only.prcM _ _).iff, Only.refl]
  · cases h

theorem Only.prcStops (d : Dev) (status : Nat) : Only [.out, .cnt, .hif, .bdy, .prc] d (d.prcStops status) := by
  simp [Dev.prcStops, (Only.prcM _ _).iff, (Only.finishAll _ _ _).iff, (Only.updateCut _).iff, (Only.updateEnds _ _ _).iff, Only.refl]

theorem Only.zeroize (d : Dev) (contact : Bool) : Only [.out, .cnt, .hif, .bdy, .prc] d (d.zeroize contact) := by
  simp [Dev.zeroize, (Only.prcStops _ _).iff, (Only.prcM _ _).iff, (Only.setPrc _ _).iff, Only.ite_iff, Only.refl]

theorem Only.acceptZeroize (c : Cmd) (d : Dev) : Only [.out, .cnt, .hif, .bdy, .prc] d (Machine.acceptZeroize c d) := by
  simp [Machine.acceptZeroize, (Only.zeroize _ _).iff, (Only.prcM _ _).iff, Only.refl]

/-! ### What a take-over counts (17) -/

theorem Only.countLost (d : Dev) : Only [.cnt] d d.countLost.2 := by
  simp [Dev.countLost, (Only.count _ _ _).iff, Only.each_iff, Only.refl]

/-! ### A step of device time (02) -/

theorem Only.pmStep (d : Dev) (old new : Nat) : Only [.zbn] d (d.pmStep old new) := by
  simp [Dev.pmStep, (Only.zbnM _ _).iff, Only.refl]

/-! ### The bell (01) -/

theorem Only.bellConflicts (d : Dev) : Only [.cnt, .lne, .gov] d d.bellConflicts := by
  simp [Dev.bellConflicts, (Only.laneM _ _ _).iff, (Only.conflict _ _).iff, Only.each_iff, Only.when_iff, Only.refl]

theorem Only.countMismatch (d : Dev) : Only [.out, .cnt, .hif, .mac, .zbn, .ttb] d d.countMismatch := by
  simp [Dev.countMismatch, (Only.ttbM _ _).iff, (Only.zbnM _ _).iff, (Only.portMatch _ _).iff, (Only.portM _ _ _).iff, Only.each_iff, Only.refl]

theorem Only.bellDram (d : Dev) (limit drained : Nat) : Only [.free, .out, .cnt, .hif, .buf, .drc] d (d.bellDram limit drained) := by
  simp [Dev.bellDram, (Only.spillStep _ _).iff, (Only.askRecall _ _).iff, (Only.drcM _ _).iff, (Only.count _ _ _).iff, Only.each_iff,
    Only.when_iff, Only.refl]

theorem Only.bellReclaim (d : Dev) : Only [.free, .out, .cnt, .hif, .mac, .buf, .drc, .bdy] d d.bellReclaim := by
  simp [Dev.bellReclaim, (Only.farFreed _).iff, (Only.xoffScan _).iff, (Only.bufM _ _).iff, Only.when_iff, Only.refl]

theorem Only.clearPosted (d : Dev) : Only [.fwd, .buf] d d.clearPosted := by
  simp [Dev.clearPosted, (Only.fwdM _ _).iff, (Only.bufM _ _).iff, Only.refl]

theorem Only.clearPeriodMarks (d : Dev) : Only [.glb, .fwd, .bdy, .prc] d d.clearPeriodMarks := by
  simp [Dev.clearPeriodMarks, (Only.bdyM _ _).iff, (Only.prcM _ _).iff, (Only.glbM _ _).iff, (Only.fwdM _ _).iff, Only.refl]

theorem Only.bellClaims (d : Dev) : Only [.free, .out, .cnt, .hif, .lne, .zbn, .ttb, .fwd, .buf, .drc, .sub, .bdy] d d.bellClaims := by
  unfold Dev.bellClaims
  dsimp only
  rw [Only.each_iff fun x e => by
      cases claimed : e.subClaim x.1
      · simp [(Only.subM _ _).iff, Only.refl]
      · exact Only.subClaim e _ claimed,
    Only.each_iff fun c e => by simp [(Only.claimRetrain _ _).iff, (Only.claimSub _ _).iff, Only.ite_iff, Only.refl]]
  simp [Only.each_iff, (Only.autoStart _ _ _).iff, Only.refl]

theorem Only.bellFlexe (d : Dev) : Only [.out, .zbn] d d.bellFlexe := by
  unfold Dev.bellFlexe
  refine Only.each _ (fun n e => ?_) d
  dsimp only
  split
  · simp [(Only.sendFlexe _ _).iff, (Only.flexeM _ _ _).iff, Only.ite_iff, Only.refl]
  · exact Only.refl _ e

theorem Only.grantReserves (d : Dev) : Only [.hif] d d.grantReserves := by
  simp [Dev.grantReserves, (Only.cmdM _ _ _).iff, Only.each_iff, Only.refl]

end Sys2Proof


namespace Sys2Proof

open Sys2Proof.Machine

/-! ### The number of the bell -/

/-- What leaves the bell block alone leaves the number of the bell. -/
theorem Only.seq {l : List Area} {d e : Dev} (h : Only l d e) (k : Area.bel ∉ l) : e.bel.seq = d.bel.seq := congrArg Bel.seq (h.bel k)

theorem each_seq {α : Type} {xs : List α} {f : α → Dev → Dev} (h : ∀ a x, (f a x).bel.seq = x.bel.seq) (d : Dev) :
    (d.each xs f).bel.seq = d.bel.seq := by
  induction xs generalizing d with
  | nil => rfl
  | cons a as ih => exact (ih (f a d)).trans (h a d)

theorem when_seq {c : Bool} {f : Dev → Dev} {d : Dev} (h : (f d).bel.seq = d.bel.seq) : (d.when c f).bel.seq = d.bel.seq := by
  cases c
  · rfl
  · exact h

theorem post_seq (d : Dev) (ev : Nat) (items : List Item) : (d.post ev items).bel.seq = d.bel.seq := by simp

theorem okAfter_seq (c : Cmd) (d : Dev) : (okAfter c d).bel.seq = d.bel.seq := by simp [okAfter]

theorem clearPort_seq (d : Dev) (n k : Nat) : (d.clearPort n k).bel.seq = d.bel.seq := rfl

theorem dissolve_seq (d : Dev) (n : Nat) : (d.dissolve n).bel.seq = d.bel.seq := by
  unfold Dev.dissolve
  dsimp only
  simp only [(Only.protScan _).seq (by decide), (Only.xoffScan _).seq (by decide), post_seq, Dev.macM, clearPort_seq]
  rw [each_seq (f := fun l d => d.laneM l _) (fun _ _ => rfl)]
  simp only [(Only.fdbRemove _ _ _).seq (by decide), (Only.lanesLeavePort _ _).seq (by decide)]

theorem applyDissolve_seq (c : Cmd) (d : Dev) : (applyDissolve c d).bel.seq = d.bel.seq := by
  unfold applyDissolve
  dsimp only
  split <;> simp [okAfter, dissolve_seq]

theorem applyFormPort_seq (c : Cmd) (d : Dev) : (applyFormPort c d).bel.seq = d.bel.seq := by
  unfold applyFormPort
  dsimp only
  rw [okAfter_seq, each_seq fun l x => (Only.superviseLane x l).seq (by decide),
    when_seq (each_seq (f := fun l d => d.zlaneM l _) (fun _ _ => rfl) _), post_seq, each_seq (f := fun l d => d.laneM l _) (fun _ _ => rfl)]
  rfl

theorem servoTo_seq (d : Dev) (new : ServoState) (e : Int) : (d.servoTo new e).bel.seq = d.bel.seq := by
  unfold Dev.servoTo
  dsimp only
  repeat' split
  all_goals simp

theorem servoM_seq (d : Dev) (f : Servo → Servo) : (d.servoM f).bel.seq = d.bel.seq := rfl

theorem servoApply_seq (d : Dev) (e : Int) : (d.servoApply e).bel.seq = d.bel.seq := (Only.servoApply d e).seq (by decide)

theorem servoSample_seq (d : Dev) (e : Int) : (d.servoSample e).bel.seq = d.bel.seq := by
  unfold Dev.servoSample
  dsimp only
  split
  · rfl
  · split <;> repeat' split
    all_goals simp only [servoTo_seq, servoApply_seq, servoM_seq]

theorem acceptFeedOffset_seq (c : Cmd) (d : Dev) : (acceptFeedOffset c d).bel.seq = d.bel.seq := by
  simp [acceptFeedOffset, okAfter, servoSample_seq]

theorem acceptSetHoldover_seq (c : Cmd) (d : Dev) : (acceptSetHoldover c d).bel.seq = d.bel.seq := by
  unfold acceptSetHoldover
  dsimp only
  repeat' split
  all_goals simp [okAfter, servoTo_seq]

theorem acceptSelectSource_seq (c : Cmd) (d : Dev) : (acceptSelectSource c d).bel.seq = d.bel.seq := by
  unfold acceptSelectSource
  dsimp only
  repeat' split
  all_goals simp [okAfter, servoTo_seq]

theorem abortSetPeriod_seq (c : Cmd) (d : Dev) {x : Dev} (h : abortSetPeriod c d = some x) : x.bel.seq = d.bel.seq := by
  cases h; simp

theorem acceptSetPeriod_seq (c : Cmd) (d : Dev) : (acceptSetPeriod c d).bel.seq = d.bel.seq := by
  unfold acceptSetPeriod
  dsimp only
  repeat' split
  all_goals simp

/-- The effects of a command leave the number of the bell. -/
structure KeepsSeq (sp : CmdSpec) : Prop where
  accept : ∀ c d, (sp.accept c d).bel.seq = d.bel.seq := by intro _ _; rfl
  apply : ∀ c d, (sp.apply c d).bel.seq = d.bel.seq := by intro _ _; rfl
  abort : ∀ c d x, sp.abort c d = some x → x.bel.seq = d.bel.seq := by intro _ _ x h; exact absurd (show none = some x from h) nofun

theorem abortPlain_seq (c : Cmd) (d x : Dev) (h : abortPlain c d = some x) : x.bel.seq = d.bel.seq := (Only.abortPlain c d h).seq (by decide)

end Sys2Proof


namespace Sys2Proof

open Sys2Proof.Machine

/-! ### No command writes the number of the bell -/

theorem glbSpecs_keepsSeq : ∀ sp ∈ glbSpecs, KeepsSeq sp := by
  simp only [glbSpecs, List.forall_mem_cons]
  exact ⟨{ accept := fun c d => (Only.acceptQuery c d).seq (by decide) },
    { apply := fun c d => (Only.finishIn d c _ _).seq (by decide), abort := abortPlain_seq },
    { accept := fun c d => (Only.acceptBarrier c d).seq (by decide), abort := abortPlain_seq },
    { accept := fun c d => (Only.acceptHold c d).seq (by decide) },
    by nofun⟩

theorem belSpecs_keepsSeq : ∀ sp ∈ belSpecs, KeepsSeq sp := by
  simp only [belSpecs, List.forall_mem_cons]
  exact ⟨{ accept := acceptSetPeriod_seq, abort := abortSetPeriod_seq },
    { apply := fun c _ => okAfter_seq c _, abort := abortPlain_seq },
    { apply := fun c _ => okAfter_seq c _, abort := abortPlain_seq },
    { abort := fun c d x h => abortPlain_seq c d x (Option.ite_none_right_eq_some.1 h).2 },
    by nofun⟩

theorem timSpecs_keepsSeq : ∀ sp ∈ timSpecs, KeepsSeq sp := by
  simp only [timSpecs, List.forall_mem_cons]
  exact ⟨{ accept := fun c d => (Only.acceptSetPort c d).seq (by decide) },
    { accept := acceptSelectSource_seq },
    { accept := acceptSetHoldover_seq },
    { accept := fun c d => (Only.acceptSetSynce c d).seq (by decide) },
    { abort := abortPlain_seq },
    { accept := acceptFeedOffset_seq },
    by nofun⟩

theorem portSpecs_keepsSeq : ∀ sp ∈ portSpecs, KeepsSeq sp := by
  simp only [portSpecs, List.forall_mem_cons]
  exact ⟨{ apply := applyFormPort_seq, abort := abortPlain_seq },
    { apply := applyDissolve_seq, abort := abortPlain_seq },
    { accept := fun c d => (Only.acceptPinTaps c d).seq (by decide) },
    { accept := fun c d => (Only.acceptPortState c d).seq (by decide) },
    { accept := fun c d => (Only.acceptFlowControl c d).seq (by decide) },
    { accept := fun c d => (Only.acceptLpi c d).seq (by decide) },
    { accept := fun c _ => okAfter_seq c _ },
    by nofun⟩

theorem zbnSpecs_keepsSeq : ∀ sp ∈ zbnSpecs, KeepsSeq sp := by
  simp only [zbnSpecs, List.forall_mem_cons]
  exact ⟨{ accept := fun c d => (Only.acceptSetLane c d).seq (by decide) },
    { accept := fun c d => (Only.acceptSlotTrace c d).seq (by decide) },
    { accept := fun c d => (Only.readOutIn d c _ _ _).seq (by decide) },
    { accept := fun c d => (Only.readOutIn d c _ _ _).seq (by decide) },
    { accept := fun c d => (Only.acceptSendMgmt c d).seq (by decide), abort := fun c d _ h => (Only.abortSendMgmt c d h).seq (by decide) },
    { accept := fun c d => (Only.acceptSetFlexe c d).seq (by decide), abort := fun c d _ h => (Only.abortSetFlexe c d h).seq (by decide) },
    by nofun⟩

theorem ttbSpecs_keepsSeq : ∀ sp ∈ ttbSpecs, KeepsSeq sp := by
  simp only [ttbSpecs, List.forall_mem_cons]
  exact ⟨{ apply := fun c d => (Only.applyWriteSlot c d).seq (by decide), abort := abortPlain_seq },
    { apply := fun c d => (Only.applyWriteSeats c d).seq (by decide), abort := abortPlain_seq },
    { accept := fun c d => (Only.acceptSwitchPage c d).seq (by decide), abort := fun c d _ h => (Only.abortSwitchPage c d h).seq (by decide) },
    { apply := fun c d => (Only.applyCopyPage c d).seq (by decide), abort := abortPlain_seq },
    { apply := fun c d => (Only.applySetProtection c d).seq (by decide), abort := abortPlain_seq },
    { apply := fun c d => (Only.applyProtectCommand c d).seq (by decide), abort := abortPlain_seq },
    { accept := fun c d => (Only.readOutIn d c _ _ _).seq (by decide) },
    by nofun⟩

theorem prsSpecs_keepsSeq : ∀ sp ∈ prsSpecs, KeepsSeq sp := by
  simp only [prsSpecs, List.forall_mem_cons]
  exact ⟨{ apply := fun c _ => okAfter_seq c _, abort := abortPlain_seq },
    { apply := fun c _ => okAfter_seq c _, abort := abortPlain_seq },
    { apply := fun c _ => okAfter_seq c _, abort := abortPlain_seq },
    { apply := fun c d => (Only.applyWriteRule c d).seq (by decide), abort := abortPlain_seq },
    { apply := fun c d => (Only.applySetMember c d).seq (by decide), abort := abortPlain_seq },
    { apply := fun c _ => okAfter_seq c _, abort := abortPlain_seq },
    { apply := fun c d => (Only.applyCommit c d).seq (by decide), abort := abortPlain_seq },
    { apply := fun c _ => okAfter_seq c _, abort := abortPlain_seq },
    { accept := fun c d => (Only.readOutIn d c _ _ _).seq (by decide) },
    { accept := fun c d => (Only.readOutIn d c _ _ _).seq (by decide) },
    by nofun⟩

theorem fwdSetRecorder_keepsSeq : KeepsSeq fwdSetRecorder where
  apply := fun c d => (Only.applySetRecorder c d).seq (by decide)
  abort := fun c d x h => by
    simp only [fwdSetRecorder] at h
    split at h
    · cases h
    · exact abortPlain_seq c d x h

theorem fwdSpecs_keepsSeq : ∀ sp ∈ fwdSpecs, KeepsSeq sp := by
  simp only [fwdSpecs, List.forall_mem_cons]
  exact ⟨{ apply := fun c d => (Only.applyWriteFdb c d).seq (by decide), abort := abortPlain_seq },
    { apply := fun c d => (Only.applyDeleteFdb c d).seq (by decide), abort := abortPlain_seq },
    { abort := fun c d _ h => by cases h; simp },
    { accept := fun c d => (Only.readOutIn d c _ _ _).seq (by decide) },
    { apply := fun c _ => okAfter_seq c _, abort := abortPlain_seq },
    { apply := fun c d => (Only.applyFwdPort c d).seq (by decide), abort := abortPlain_seq },
    { apply := fun c _ => okAfter_seq c _, abort := abortPlain_seq },
    { apply := fun c _ => okAfter_seq c _, abort := abortPlain_seq },
    { apply := fun c d => (Only.applySetStream c d).seq (by decide), abort := abortPlain_seq },
    { apply := fun c d => (Only.applySetMirror c d).seq (by decide), abort := abortPlain_seq },
    fwdSetRecorder_keepsSeq,
    { accept := fun c d => (Only.acceptFreeze c d).seq (by decide) },
    { accept := fun c d => (Only.acceptRearm c d).seq (by decide) },
    { accept := fun c d => (Only.acceptReadRecorder c d).seq (by decide),
      abort := fun c d _ h => by cases h; simp [(Only.readEnded _ _).seq (by decide)] },
    by nofun⟩

theorem bufSpecs_keepsSeq : ∀ sp ∈ bufSpecs, KeepsSeq sp := by
  simp only [bufSpecs, List.forall_mem_cons]
  exact ⟨{ apply := fun c d => (Only.applySetAdmit c d).seq (by decide), abort := abortPlain_seq },
    { apply := fun c d => (Only.applySetSpill c d).seq (by decide), abort := abortPlain_seq },
    { accept := fun c d => (Only.acceptRollCall c d).seq (by decide),
      abort := fun c d _ h => by cases h; exact (Only.finishIn _ c _ _).seq (by decide) },
    { apply := fun c d => (Only.applySetVoq c d).seq (by decide), abort := abortPlain_seq },
    by nofun⟩

theorem schSpecs_keepsSeq : ∀ sp ∈ schSpecs, KeepsSeq sp := by
  simp only [schSpecs, List.forall_mem_cons]
  exact ⟨{ apply := fun c d => (Only.applySetQueue c d).seq (by decide), abort := abortPlain_seq },
    { apply := fun c d => (Only.applySetPort c d).seq (by decide), abort := abortPlain_seq },
    { accept := fun c d => (Only.readOutIn d c _ _ _).seq (by decide) },
    by nofun⟩

theorem drcSpecs_keepsSeq : ∀ sp ∈ drcSpecs, KeepsSeq sp := by
  simp only [drcSpecs, List.forall_mem_cons]
  exact ⟨{ accept := fun c d => (Only.acceptRetrain c d).seq (by decide), abort := fun c d _ h => (Only.abortRetrain c d h).seq (by decide) },
    { accept := fun c d => (Only.acceptQuarantine c d).seq (by decide) },
    { accept := fun c d => (Only.readOutIn d c _ _ _).seq (by decide) },
    by nofun⟩

theorem govSpecs_keepsSeq : ∀ sp ∈ govSpecs, KeepsSeq sp := by
  simp only [govSpecs, List.forall_mem_cons]
  exact ⟨{ apply := fun c d => (Only.applyPolicy c d).seq (by decide), abort := abortPlain_seq },
    { apply := fun c _ => okAfter_seq c _, abort := abortPlain_seq },
    by nofun⟩

theorem cntSpecs_keepsSeq : ∀ sp ∈ cntSpecs, KeepsSeq sp := by
  simp only [cntSpecs, List.forall_mem_cons]
  exact ⟨{ apply := fun c d => (Only.applyMonitor c d).seq (by decide), abort := abortPlain_seq },
    { apply := fun c d => (Only.applyEvCounter c d).seq (by decide), abort := abortPlain_seq },
    { accept := fun c _ => okAfter_seq c _ },
    { accept := fun c d => (Only.acceptReadCounters c d).seq (by decide) },
    by nofun⟩

theorem subSpecs_keepsSeq : ∀ sp ∈ subSpecs, KeepsSeq sp := by
  simp only [subSpecs, List.forall_mem_cons]
  exact ⟨{ accept := fun c d => (Only.acceptThreshold c d).seq (by decide) },
    { accept := fun c d => (Only.acceptPolicy c d).seq (by decide) },
    { accept := fun c d => (Only.acceptSubstitute c d).seq (by decide), abort := fun c d _ h => (Only.abortSubstitute c d h).seq (by decide) },
    by nofun⟩

theorem bdyUnpair_keepsSeq : KeepsSeq bdyUnpair where
  apply := fun c d => (Only.applyUnpair c d).seq (by decide)
  abort := fun c d x h => by
    simp only [bdyUnpair] at h
    split at h
    · cases h
    · exact abortPlain_seq c d x h

theorem bdySpecs_keepsSeq : ∀ sp ∈ bdySpecs, KeepsSeq sp := by
  simp only [bdySpecs, List.forall_mem_cons]
  exact ⟨{ accept := fun c d => (Only.acceptPair c d).seq (by decide), abort := fun c d _ h => (Only.abortPair c d h).seq (by decide) },
    { accept := fun c d => (Only.acceptRejoin c d).seq (by decide), abort := fun c d _ h => (Only.abortRejoin c d h).seq (by decide) },
    bdyUnpair_keepsSeq,
    by nofun⟩

theorem prcSpecs_keepsSeq : ∀ sp ∈ prcSpecs, KeepsSeq sp := by
  simp only [prcSpecs, List.forall_mem_cons]
  exact ⟨{ accept := fun c d => (Only.acceptTranscript c d).seq (by decide) },
    { accept := fun c d => (Only.acceptUpdate c d).seq (by decide), abort := fun c d _ h => (Only.abortUpdate c d h).seq (by decide) },
    { accept := fun c d => (Only.acceptZeroize c d).seq (by decide) },
    { accept := fun c d => (Only.acceptExport c d).seq (by decide) },
    { accept := fun c d => (Only.acceptSeal c d).seq (by decide), abort := fun c d _ h => (Only.abortSeal c d h).seq (by decide) },
    { accept := fun c d => (Only.acceptRandom c d).seq (by decide) },
    by nofun⟩

theorem commandSpecs_keepsSeq : ∀ sp ∈ commandSpecs, KeepsSeq sp := by
  simp only [commandSpecs, List.forall_mem_append, and_assoc]
  exact ⟨glbSpecs_keepsSeq, belSpecs_keepsSeq, timSpecs_keepsSeq, portSpecs_keepsSeq, zbnSpecs_keepsSeq, ttbSpecs_keepsSeq, prsSpecs_keepsSeq,
    fwdSpecs_keepsSeq, bufSpecs_keepsSeq, schSpecs_keepsSeq, drcSpecs_keepsSeq, govSpecs_keepsSeq, cntSpecs_keepsSeq, subSpecs_keepsSeq,
    bdySpecs_keepsSeq, prcSpecs_keepsSeq⟩

end Sys2Proof


namespace Sys2Proof

open Sys2Proof.Machine

/-! ### The bell's work and the number of the bell -/

theorem finish_seq (d : Dev) (c : Cmd) (st r : Nat) : (d.finish c st r).bel.seq = d.bel.seq := by simp

theorem specOf0_keepsSeq {op : Nat} {sp : CmdSpec} (h : specOf0 op = some sp) : KeepsSeq sp :=
  commandSpecs_keepsSeq sp (List.mem_of_find?_eq_some h)

theorem glbAbort_keepsSeq : KeepsSeq (glbAbort specOf0) where
  accept := fun c d => by
    unfold glbAbort
    dsimp only
    split
    case h_1 => exact finish_seq d c _ _
    case h_2 t _ =>
      repeat' split
      case h_1 x h =>
        obtain ⟨sp, hsp, ha⟩ := Option.bind_eq_some_iff.1 h
        exact (finish_seq x c _ _).trans ((specOf0_keepsSeq hsp).abort t d x ha)
      all_goals simp only [finish_seq]

theorem specOf_keepsSeq {op : Nat} {sp : CmdSpec} (h : specOf op = some sp) : KeepsSeq sp := by
  unfold specOf at h
  split at h
  · cases h
    exact glbAbort_keepsSeq
  · exact specOf0_keepsSeq h

theorem takeUp_seq {sp : CmdSpec} (k : KeepsSeq sp) (d : Dev) (c : Cmd) : (d.takeUp sp c).bel.seq = d.bel.seq := k.accept _ _

theorem applyWinner_seq (d : Dev) (c : Cmd) : (d.applyWinner c).bel.seq = d.bel.seq := by
  unfold Dev.applyWinner
  split
  case h_1 x sp _ h => exact (specOf_keepsSeq h).apply x d
  case h_2 => rfl

theorem applyRange_seq (d : Dev) (lo hi : Nat) : (d.applyRange lo hi).bel.seq = d.bel.seq := each_seq (fun c d => applyWinner_seq d c) d

theorem freeJournalled_seq (d : Dev) (alone : Bool) : (d.freeJournalled alone).bel.seq = d.bel.seq := by
  unfold Dev.freeJournalled
  refine each_seq (fun c x => ?_) d
  split
  case h_1 sp h =>
    split
    · exact finish_seq x c _ _
    · exact takeUp_seq (specOf_keepsSeq h) x c
  case h_2 => rfl

theorem takeOver_seq (d : Dev) : d.takeOver.bel.seq = d.bel.seq := by
  unfold Dev.takeOver
  dsimp only
  simp only [Dev.bdyM, (Only.postAsIn _ _ _ _ _).seq (by decide), (Only.countLost _).seq (by decide), (Only.protScan _).seq (by decide),
    (Only.trigger _ _).seq (by decide), freeJournalled_seq, (Only.releaseOwn _).seq (by decide), (Only.dropOtherModule _ _).seq (by decide),
    (Only.loseAway _).seq (by decide), (Only.flushBuddyTx _).seq (by decide), (Only.count _ _ _).seq (by decide), (Only.setPair _ _).seq (by decide)]

theorem bellPair_seq (d : Dev) : d.bellPair.bel.seq = d.bel.seq := by
  unfold Dev.bellPair
  dsimp only
  repeat' split
  all_goals simp only [takeOver_seq, (Only.heartbeatCounts _).seq (by decide)]

theorem periodChange_seq (d : Dev) : d.periodChange.bel.seq = d.bel.seq := by
  unfold Dev.periodChange
  dsimp only
  repeat' split
  all_goals simp

theorem bellToPairs_seq (d : Dev) (i : BellInput) : (d.bellToPairs i).bel.seq = d.bel.seq := by
  simp only [Dev.bellToPairs, Dev.bellToEnergy, Dev.bellToSnapshot, (Only.closeConflicts _).seq (by decide),
    (Only.settleEnergy _ _ _).seq (by decide), (Only.bellConflicts _).seq (by decide), applyRange_seq, (Only.flipAt _ _).seq (by decide),
    (Only.clearPosted _).seq (by decide)]

theorem bellSubstitutes_seq (d : Dev) : d.bellSubstitutes.bel.seq = d.bel.seq := by
  simp only [Dev.bellSubstitutes, (Only.bellClaims _).seq (by decide), (Only.subCuts _).seq (by decide), (Only.channelCuts _).seq (by decide),
    bellPair_seq]

theorem bellToCommits_seq (d : Dev) (i : BellInput) : (d.bellToCommits i).bel.seq = d.bel.seq := by
  simp only [Dev.bellToCommits, Dev.bellToForm, Dev.bellToGeneration, Dev.bellToPages, Dev.bellToPeriod, (Only.grantReserves _).seq (by decide),
    applyRange_seq, (Only.refillAll _).seq (by decide), (Only.genRetire _).seq (by decide), (Only.switchPages _).seq (by decide), periodChange_seq,
    bellSubstitutes_seq, bellToPairs_seq]

theorem take_seq (x : Settling) (period : Nat) (c : Cmd) : (x.take period c).d.bel.seq = x.d.bel.seq := by
  unfold Settling.take
  dsimp only
  repeat' split
  · rfl
  · exact finish_seq _ _ _ _
  · rfl

theorem settlePeriod_seq (d : Dev) (period : Nat) : (d.settlePeriod period).bel.seq = d.bel.seq := by
  have all : ∀ (cs : List Cmd) (x : Settling), (cs.foldl (fun y c => y.take period c) x).d.bel.seq = x.d.bel.seq := by
    intro cs
    induction cs with
    | nil => exact fun _ => rfl
    | cons c cs ih => exact fun x => (ih (x.take period c)).trans (take_seq x period c)
  exact all _ _

theorem bellSettle_seq (d : Dev) : d.bellSettle.bel.seq = d.bel.seq := each_seq (fun k x => settlePeriod_seq x k) d

theorem afterCommits_seq (d : Dev) : d.afterCommits.bel.seq = d.bel.seq := by
  simp only [Dev.afterCommits, Dev.belM, (Only.bellFlexe _).seq (by decide), (Only.armPages _).seq (by decide)]

theorem rotateBins_seq (d : Dev) : d.rotateBins.bel.seq = d.bel.seq := by
  have counted (x : Dev) (late : List (Nat × Nat)) : (x.each late fun y d => d.count (cQueue (qIx y.1 y.2) 1) 1).bel.seq = x.bel.seq :=
    each_seq (fun _ d => (Only.count d _ _).seq (by decide)) x
  unfold Dev.rotateBins
  dsimp only
  rw [each_seq fun n x => each_seq (f := fun c d => d.queueM (qIx n c) _) (fun _ _ => rfl) x]
  split
  · rw [(Only.trigger _ _).seq (by decide), post_seq]
    exact counted _ _
  · exact counted _ _

theorem bellBuddy_seq (d : Dev) : d.bellBuddy.bel.seq = d.bel.seq := by
  unfold Dev.bellBuddy
  dsimp only
  rw [(Only.sendHeartbeat _).seq (by decide), when_seq (servoSample_seq _ _), (Only.rejoinStart _).seq (by decide)]

theorem bellRest_seq (d : Dev) (limit drained : Nat) : (d.bellRest limit drained).bel.seq = d.bel.seq := by
  simp only [Dev.bellRest, (Only.clearPeriodMarks _).seq (by decide), (Only.rollStart _).seq (by decide), (Only.bellReclaim _).seq (by decide),
    (Only.bellDram _ _ _).seq (by decide), (Only.countMismatch _).seq (by decide), bellSettle_seq, bellBuddy_seq, rotateBins_seq,
    (Only.computeSeals _).seq (by decide), afterCommits_seq]

theorem bellItems_seq (d : Dev) (i : BellInput) : (d.bellItems i).bel.seq = d.bel.seq := by
  simp only [Dev.bellItems, bellRest_seq, applyRange_seq, bellToCommits_seq]

theorem shiftTimers_seq (d : Dev) (s : Int) : (d.shiftTimers s).bel.seq = d.bel.seq := rfl

theorem stepTime_seq (d : Dev) (s : Int) : (d.stepTime s).bel.seq = d.bel.seq := by
  simp only [Dev.stepTime, post_seq, shiftTimers_seq, (Only.pmStep _ _ _).seq (by decide)]

theorem timeSteps_seq (d : Dev) : d.timeSteps.bel.seq = d.bel.seq := by
  unfold Dev.timeSteps
  dsimp only
  rw [each_seq fun c x => (finish_seq _ c _ _).trans (stepTime_seq x _)]
  split
  · exact stepTime_seq _ _
  · rfl

theorem nextBell_seq (d : Dev) : d.nextBell.bel.seq = d.bel.seq := by
  have realigned (x : Dev) (cs : List Cmd) : (x.each cs fun c d => d.finish c stOk 0).bel.seq = x.bel.seq :=
    each_seq (fun c d => finish_seq d c _ _) x
  unfold Dev.nextBell
  dsimp only
  split
  · rw [post_seq]
    refine (each_seq (f := fun c d => d.cmdM c _) (fun _ _ => rfl) _).trans ?_
    exact realigned _ _
  · exact (realigned _ _).trans (realigned _ _)

end Sys2Proof


namespace Sys2Proof

open Sys2Proof.Machine

/-! ### A bell -/

/-- The bell of a running core clock: it rings, ordered steps of time are taken, a module in service does the bell's work, and the next
bell is fixed. -/
def bellTurn (b : BellInput) (d : Dev) : Dev := (d.bellRings.timeSteps.when d.bellRings.timeSteps.inService fun d => d.bellItems b).nextBell

theorem exec_bell (dt : Nat) (b : BellInput) (s : State) :
    exec (.bell dt b) s = s.act dt fun d => if d.boot.clockOn && d.boot.stopped == .no then bellTurn b d else d := rfl

theorem bellRings_seq (d : Dev) : d.bellRings.bel.seq = (d.bel.seq + 1) % 2 ^ 64 := by simp [Dev.bellRings, Dev.belM]

theorem bellTurn_seq (b : BellInput) (d : Dev) : (bellTurn b d).bel.seq = (d.bel.seq + 1) % 2 ^ 64 := by
  rw [bellTurn, nextBell_seq, when_seq (bellItems_seq _ b), timeSteps_seq, bellRings_seq]

theorem Only.bellRings (d : Dev) : Only [.time, .cnt, .bel] d d.bellRings := by
  simp [Dev.bellRings, (Only.belM _ _).iff, (Only.reach _ _).iff, Only.refl]

theorem timeSteps_idle {d : Dev} (hs : d.tim.servo.pendingStep = none) (hc : d.hif.inflight = []) : d.timeSteps = d := by
  unfold Dev.timeSteps
  simp only [hs, hc]
  rfl

theorem realigns_idle {d : Dev} (hc : d.hif.inflight = []) (b : Bool) : d.realigns b = [] := by simp [Dev.realigns, hc]

/-- With no command under way, a bell fixes only when the next one comes. -/
theorem nextBell_idle {d : Dev} (hc : d.hif.inflight = []) :
    Only [.out, .cnt, .hif, .bel] d d.nextBell ∧
      ∃ e r t, d.nextBell.bel = { d.bel with phaseErr := e, realigning := r, nextAt := t } := by
  have none_ordered (b : Bool) (f : Bel → Bel) : (d.belM f).realigns b = [] := realigns_idle hc b
  unfold Dev.nextBell
  simp only [none_ordered, Dev.each, List.foldl_nil]
  split
  · exact ⟨by simp [(Only.postIn _ _ _).iff, (Only.belM _ _).iff, Only.refl], _, _, _, (Only.postIn _ _ _).bel (by decide)⟩
  · exact ⟨by simp [(Only.belM _ _).iff, Only.refl], _, _, _, rfl⟩

/-- A bell out of service, with no step of time and no command under way, changes the bell block only: the next bell is numbered, at the
instant fixed for it. -/
theorem bellTurn_idle (b : BellInput) {d : Dev} (hs : d.inService = false) (hp : d.tim.servo.pendingStep = none) (hc : d.hif.inflight = []) :
    Only [.time, .out, .cnt, .hif, .bel] d (bellTurn b d) ∧ (bellTurn b d).now = max d.now d.bel.nextAt ∧
      (bellTurn b d).bel.lastAt = d.bel.nextAt ∧ (bellTurn b d).bel.lastTai = d.bel.nextAt / qPerNs ∧
      (bellTurn b d).bel.period = d.bel.period ∧ (bellTurn b d).bel.epoch = d.bel.epoch := by
  have rung := Only.bellRings d
  have still : bellTurn b d = d.bellRings.nextBell := by
    have idle : d.bellRings.timeSteps = d.bellRings := timeSteps_idle (by rw [rung.tim (by decide)]; exact hp) (by simp [Dev.bellRings, hc])
    have out : d.bellRings.inService = false := by simpa [Dev.bellRings, Dev.inService] using hs
    rw [bellTurn, idle, out]
    rfl
  obtain ⟨only, e, r, t, bel⟩ := nextBell_idle (d := d.bellRings) (by simp [Dev.bellRings, hc])
  rw [still]
  refine ⟨(rung.mono (by decide)).trans (only.mono (by decide)), ?_, ?_⟩
  · rw [only.now (by decide)]
    simp [Dev.bellRings]
  · rw [bel]
    simp [Dev.bellRings, Dev.belM]

/-- Settles O52: no part of the bell's work writes the number of the bell, and out of service only the ringing and the next bell are left. -/
theorem bellsRing : Obligations.BellsRing := by
  unfold Obligations.BellsRing
  constructor
  · intro dt b s on run off hp hc q
    have runs : ((s.dev.elapse dt).boot.clockOn && (s.dev.elapse dt).boot.stopped == .no) = true := by simp [on, run]
    obtain ⟨only, now, lastAt, lastTai, period, epoch⟩ :=
      bellTurn_idle b (d := s.dev.elapse dt) (by simpa using off) (by simpa using hp) (by simpa using hc)
    refine Does.act (exec_bell dt b s) q ?_ ?_
    · rw [if_pos runs]
      exact only.mono (by decide)
    · simp only [if_pos runs, Dev.settle_bel, Dev.settle_now]
      exact ⟨by simp [bellTurn_seq], by simpa using lastAt, by simpa using lastTai, by simpa using now, by simpa using period,
        by simpa using epoch⟩
  · intro dt b s on serving
    have run : s.dev.boot.stopped = .no := by
      have up := serving.1
      simp only [Dev.inService, Bool.and_eq_true, beq_iff_eq] at up
      exact up.2
    have runs : ((s.dev.elapse dt).boot.clockOn && (s.dev.elapse dt).boot.stopped == .no) = true := by simp [on, run]
    refine Gives.act (exec_bell dt b s) serving.2 ?_
    rw [if_pos runs]
    simp [bellTurn_seq]

end Sys2Proof


namespace Sys2Proof

open Sys2Proof.Machine

/-! ### What leaves the frames under way alone -/

/-- What leaves the forwarding area alone leaves the frames under way alone. -/
theorem Only.rx {l : List Area} {d e : Dev} (h : Only l d e) (k : Area.fwd ∉ l) : e.fwd.rx = d.fwd.rx := congrArg Fwd.rx (h.fwd k)

theorem mirrorM_rx (d : Dev) (s : Nat) (f : Mirror → Mirror) : (d.mirrorM s f).fwd.rx = d.fwd.rx := rfl

theorem regionM_rx (d : Dev) (r : Nat) (f : Region → Region) : (d.regionM r f).fwd.rx = d.fwd.rx := rfl

theorem chargeMirrors_rx (d : Dev) (f : Nat) : (d.chargeMirrors f).fwd.rx = d.fwd.rx := by
  unfold Dev.chargeMirrors
  dsimp only
  split
  · rfl
  · simp only [(Only.xoffScan _).rx (by decide), (Only.frameM _ _ _).rx (by decide)]
    repeat' split
    all_goals rfl

theorem settleFrame_rx (d : Dev) (f : Nat) : (d.settleFrame f).fwd.rx = d.fwd.rx := by
  have uncharged (x : Dev) (g : Frame → Frame) (p c n : Nat) (src : CellSource) : ((x.frameM f g).uncharge p c src n).fwd.rx = x.fwd.rx :=
    (Only.uncharge _ _ _ _ _).rx (by decide)
  have ended (x : Dev) (g : Frame → Frame) (fr : Frame) : ((x.frameM f g).txEnded fr).fwd.rx = x.fwd.rx := (Only.txEnded _ _).rx (by decide)
  unfold Dev.settleFrame
  dsimp only
  repeat' split
  all_goals simp only [Dev.bufM, ended, uncharged, chargeMirrors_rx]

theorem endWait_rx (d : Dev) (f : Nat) : (d.endWait f).fwd.rx = d.fwd.rx := settleFrame_rx _ f

theorem dropCopy_rx (d : Dev) (c : Copy) (left : Bool) : (d.dropCopy c left).fwd.rx = d.fwd.rx := settleFrame_rx _ _

theorem sendAway_rx (d : Dev) (f : Nat) : (d.sendAway f).fwd.rx = d.fwd.rx := settleFrame_rx _ f

theorem sendTransit_rx (d : Dev) (c : BuddyCopy) : (d.sendTransit c).fwd.rx = d.fwd.rx := by
  unfold Dev.sendTransit
  dsimp only
  split
  · rw [sendAway_rx]
    rfl
  · rw [dropCopy_rx]
    rfl

theorem buddySend_rx (n : Nat) (d : Dev) : (Dev.buddySend n d).fwd.rx = d.fwd.rx := by
  induction n generalizing d with
  | zero => rfl
  | succ n ih =>
    unfold Dev.buddySend
    repeat' split
    · rw [ih, sendTransit_rx]
    · rfl
    · rfl

theorem buddyDrain_rx (d : Dev) : d.buddyDrain.fwd.rx = d.fwd.rx := buddySend_rx _ d

theorem writeRecPage_rx (d : Dev) (r : Nat) : (d.writeRecPage r).fwd.rx = d.fwd.rx := by
  simp only [Dev.writeRecPage, (Only.count _ _ _).rx (by decide), regionM_rx, (Only.pageNow _ _ _ _ _ _).rx (by decide)]

theorem appendRec_rx (n r : Nat) (bs : List Byte) (d : Dev) : (Dev.appendRec n r bs d).fwd.rx = d.fwd.rx := by
  induction n generalizing bs d with
  | zero => rfl
  | succ n ih =>
    unfold Dev.appendRec
    dsimp only
    repeat' split
    · rfl
    · rfl
    · rw [ih, writeRecPage_rx, regionM_rx]

theorem writeMirror_rx (d : Dev) (m : MirrorOut) (sof : Nat) (bad : Bool) : (d.writeMirror m sof bad).fwd.rx = d.fwd.rx := by
  unfold Dev.writeMirror
  dsimp only
  repeat' split
  all_goals simp only [(Only.count _ _ _).rx (by decide), (Only.rxWrite _ _ _ _).rx (by decide), (Only.discardMirror _ _).rx (by decide),
    appendRec_rx, regionM_rx, (Only.fcsBytes _ _ _).rx (by decide)]

theorem mirrorToPort_rx (d : Dev) (s : Nat) (x : Mirror) (f : Nat) (data : List Byte) : (d.mirrorToPort s x f data).fwd.rx = d.fwd.rx := by
  unfold Dev.mirrorToPort
  dsimp only
  split
  · exact (Only.discardMirror _ _).rx (by decide)
  · simp only [(Only.count _ _ _).rx (by decide), (Only.schPortM _ _ _).rx (by decide), settleFrame_rx, (Only.frameM _ _ _).rx (by decide),
      mirrorM_rx]

theorem enqueue_rx (d : Dev) (n cls : Nat) (c : Copy) : (d.enqueue n cls c).fwd.rx = d.fwd.rx := by
  unfold Dev.enqueue
  split
  · exact (Only.join _ _ _ _).rx (by decide)
  · exact dropCopy_rx _ _ _

theorem retag_rx (d : Dev) (h : Nat) (x : Stream) (data : List Byte) : (d.retag h x data).2.fwd.rx = d.fwd.rx := by
  unfold Dev.retag
  dsimp only
  repeat' split
  all_goals rfl

/-! ### A frame under way -/

/-- A frame is under way at the port `n`, with the port and the start of its head. -/
def UnderWay (n : Nat) (v : Nat × Nat) (d : Dev) : Prop := (AMap.find? d.fwd.rx n).map (fun y => (y.head.port, y.head.sof)) = some v

namespace UnderWay

variable {n : Nat} {v : Nat × Nat} {d : Dev}

theorem of_rx {e : Dev} (h : UnderWay n v d) (q : e.fwd.rx = d.fwd.rx) : UnderWay n v e := by
  rw [UnderWay, q]
  exact h

theorem each {α : Type} {xs : List α} {f : α → Dev → Dev} (h : UnderWay n v d) (k : ∀ a x, UnderWay n v x → UnderWay n v (f a x)) :
    UnderWay n v (d.each xs f) := by
  induction xs generalizing d with
  | nil => exact h
  | cons a as ih => exact ih (k a d h)

theorem when {c : Bool} {f : Dev → Dev} (h : UnderWay n v d) (k : ∀ x, UnderWay n v x → UnderWay n v (f x)) : UnderWay n v (d.when c f) := by
  cases c
  · exact h
  · exact k d h

theorem rxM_set (d : Dev) (n : Nat) (x : RxFrame) : UnderWay n (x.head.port, x.head.sof) (d.rxM n fun _ => x) := by
  simp [UnderWay, Dev.rxM, Dev.fwdM, AMap.upd, AMap.find?_set]

/-- A change of what is noted of a frame leaves its head. -/
theorem rxM (h : UnderWay n v d) (m : Nat) {f : RxFrame → RxFrame} (k : ∀ x, (f x).head = x.head) : UnderWay n v (d.rxM m f) := by
  unfold UnderWay Dev.rxM Dev.fwdM AMap.upd
  rw [AMap.find?_set]
  split
  next q =>
    obtain ⟨y, hy, hv⟩ := Option.map_eq_some_iff.1 h
    subst q
    simp [AMap.getD, hy, k, hv]
  · exact h

theorem puntLater (h : UnderWay n v d) (m ring reason aux : Nat) (data : List Byte) : UnderWay n v (d.puntLater m ring reason aux data) :=
  h.rxM m fun _ => rfl

theorem mirrorFrame (h : UnderWay n v d) (s : Nat) (set : Mirror) (f port : Nat) (egress : Bool) (cls : Nat) (data : List Byte) (rx : Option Nat) :
    UnderWay n v (d.mirrorFrame s set f port egress cls data rx) := by
  have sampled : UnderWay n v (d.sampled s set.sample).2 := h
  unfold Dev.mirrorFrame
  dsimp only
  split
  · exact sampled
  · split
    · exact sampled.of_rx (mirrorToPort_rx _ _ _ _ _)
    · split
      · exact sampled.rxM _ fun _ => rfl
      · exact sampled.of_rx (writeMirror_rx _ _ _ _)

theorem ingressMirror (h : UnderWay n v d) (m s : Nat) (set : Mirror) (hd : FrameHead) (cls : Nat) (frame : Option Nat) :
    UnderWay n v (d.ingressMirror m s set hd cls frame) := by
  unfold Dev.ingressMirror
  split
  · dsimp only
    split
    · refine of_rx (rxM (of_rx (d := d) h ?_) m fun _ => ?_) (endWait_rx _ _)
      · exact mirrorToPort_rx _ _ _ _ _
      · rfl
    · exact h
  · exact h.mirrorFrame _ _ _ _ _ _ _ _

theorem queueCopy (h : UnderWay n v d) (m cls f period : Nat) (data : List Byte) (cut : Bool) (egr : Option (Nat × Mirror)) (rx : Option Nat) :
    UnderWay n v (d.queueCopy m cls f period data cut egr rx) := by
  have queued (c : Copy) : UnderWay n v (d.enqueue m cls c) := h.of_rx (enqueue_rx _ _ _ _)
  unfold Dev.queueCopy
  dsimp only
  split
  · exact (queued _).when fun x hx => hx.mirrorFrame _ _ _ _ _ _ _ _
  · exact queued _

theorem fan (h : UnderWay n v d) (f : Nat) (o : Origin) (cls : Nat) (data bdata : List Byte) (ports : List Nat) (egr : AMap (Nat × Mirror))
    (buddy : Option (Nat × Bool)) (stream : Option Nat) : UnderWay n v (d.fan f o cls data bdata ports egr buddy stream) := by
  have queued (g : Frame → Frame) (k : Nat → Dev → Dev) (hk : ∀ p x, UnderWay n v x → UnderWay n v (k p x)) :
      UnderWay n v ((d.frameM f g).each ports k) := each (of_rx h rfl) hk
  unfold Dev.fan
  dsimp only
  refine of_rx ?_ (endWait_rx _ _)
  split
  · refine of_rx ?_ (buddyDrain_rx _)
    exact of_rx (queued _ _ fun p x hx => hx.queueCopy _ _ _ _ _ _ _ _) rfl
  · exact queued _ _ fun p x hx => hx.queueCopy _ _ _ _ _ _ _ _

theorem release (h : UnderWay n v d) (m : Nat) (hd : FrameHead) (p : FwdPlan) (complete : Bool) : UnderWay n v (d.release m hd p complete) := by
  have retagged (s : Nat) : UnderWay n v (d.retag s p.strm p.data).2 := h.of_rx (retag_rx _ _ _ _)
  unfold Dev.release
  dsimp only
  repeat' split
  · exact h
  · exact h.fan _ _ _ _ _ _ _ _ _
  next q =>
    have tagged := retagged ‹_›
    rw [q] at tagged
    exact tagged.fan _ _ _ _ _ _ _ _ _
  next q =>
    have tagged := retagged ‹_›
    rw [q] at tagged
    exact (tagged.puntLater _ _ _ _ _).fan _ _ _ _ _ _ _ _ _
  · exact h.fan _ _ _ _ _ _ _ _ _

theorem takePlace (h : UnderWay n v d) (m : Nat) (hd : FrameHead) (p : FwdPlan) (complete : Bool) :
    UnderWay n v (d.takePlace m hd p complete).2 := by
  unfold Dev.takePlace
  split
  · exact h
  · exact (h.of_rx ((Only.takeFrame d _ _ _ _).rx (by decide))).rxM _ fun _ => rfl

/-- What is done with a frame whose place is settled: it stays, is punted, waits for its recovery, or goes on. -/
theorem onward (h : UnderWay n v d) (m : Nat) (hd : FrameHead) (p : FwdPlan) (complete : Bool) :
    UnderWay n v (if p.stay then d
      else if p.ports.isEmpty && p.buddy.isNone then (d.count (cPort m 50) 1).puntLater m p.emptyRing 6 0 p.data
      else if p.recover && p.frame.isSome then d.rxM m fun x => { x with plan := some p }
      else d.release m hd p complete) := by
  repeat' split
  · exact h
  · exact (h.of_rx ((Only.count _ _ _).rx (by decide))).puntLater _ _ _ _ _
  · exact h.rxM _ fun _ => rfl
  · exact h.release _ _ _ _

theorem colored (h : UnderWay n v d) (m : Nat) (x : RxFrame) (p : FwdPlan) (color mark pcp : Nat) (complete : Bool) :
    UnderWay n v (d.colored m x p color mark pcp complete) := by
  have counted (y : Dev) (hy : UnderWay n v y) (c : Bool) (k : Nat) : UnderWay n v (y.when c fun d => d.count k 1) :=
    hy.when fun z hz => hz.of_rx ((Only.count _ _ _).rx (by decide))
  unfold Dev.colored
  dsimp only
  split
  · refine rxM (of_rx (d := d.rxM m fun y => { y with color }) (h.rxM m fun _ => rfl) ((Only.countColor _ _ _).rx (by decide))) m fun _ => ?_
    rfl
  · generalize placing : Dev.takePlace _ _ _ _ _ = placed
    have hplaced : UnderWay n v placed.2 := by
      rw [← placing]
      refine takePlace (rxM (counted _ (rxM h _ ?_) _ _) _ ?_) _ _ _ _
      · exact fun _ => rfl
      · exact fun _ => rfl
    clear placing
    refine onward ?_ _ _ _ _
    split
    · exact hplaced.ingressMirror _ _ _ _ _ _
    · exact hplaced

theorem classify (h : UnderWay n v d) (hd : FrameHead) (q : (hd.port, hd.sof) = v) : UnderWay n v (d.classify n hd) := by
  unfold Dev.classify
  dsimp only
  split
  · exact puntLater (of_rx h ((Only.count _ _ _).rx (by decide))) _ _ _ _ _
  · generalize noting : Dev.rxM _ n (fun _ => _) = y
    have hy : UnderWay n v y := by
      rw [← noting, ← q]
      exact rxM_set _ n _
    clear noting
    split
    · exact hy.colored _ _ _ _ _ _ _
    · split
      · exact hy.rxM _ fun _ => rfl
      · refine colored (rxM (of_rx hy ((Only.meterFrame _ _ _ _).rx (by decide))) _ fun _ => ?_) _ _ _ _ _ _ _
        rfl

theorem rxHead (d : Dev) (h : FrameHead) (up : (d.port h.port).state = .up ∨ (d.port h.port).state = .draining) :
    UnderWay h.port (h.port, h.sof) (d.rxHead h) := by
  have counted (y : Dev) (hy : UnderWay h.port (h.port, h.sof) y) (c : Bool) (k : Nat) :
      UnderWay h.port (h.port, h.sof) (y.when c fun d => d.count k 1) := hy.when fun z hz => hz.of_rx ((Only.count _ _ _).rx (by decide))
  unfold Dev.rxHead
  dsimp only
  rw [if_neg (by rcases up with up | up <;> simp [up])]
  generalize noting : Dev.rxM d h.port _ = begun
  have hbegun : UnderWay h.port (h.port, h.sof) begun := noting ▸ rxM_set d h.port _
  split
  · exact hbegun
  · generalize counting : Dev.when begun _ _ = y
    have hy : UnderWay h.port (h.port, h.sof) y := counting ▸ counted _ hbegun _ _
    repeat' split
    · exact hy
    · exact (counted _ hy _ _).puntLater _ _ _ _ _
    · exact hy.puntLater _ _ _ _ _
    · exact hy.classify _ rfl

end UnderWay

end Sys2Proof


namespace Sys2Proof

open Sys2Proof.Machine

/-! ### The decision of one arrival -/

theorem exec_frameRxHead (dt : Nat) (h : FrameHead) (s : State) : exec (.frameRxHead dt h) s = s.arrive dt (.head h) := rfl

theorem exec_frameRxEnd (dt : Nat) (r : FrameEnd) (s : State) : exec (.frameRxEnd dt r) s = s.arrive dt (.ending r) := rfl

theorem exec_frerResetTimer (dt k : Nat) (s : State) : exec (.frerResetTimer dt k) s = execFrerResetTimer dt k s := rfl

theorem Only.atArrival (d : Dev) (dt : Nat) : Only [.time, .cnt] d (d.elapse dt).settle :=
  (Only.elapse d dt).trans ((Only.settle _).mono (by decide))

/-- A module in service with one arrival decides that one. -/
theorem decideAll_one {d : Dev} (q : d.arrivals = []) (u : d.inService = true) (a : Arrival) :
    ({ d with arrivals := [a] } : Dev).decideAll = { (d.decideOne a).settle with arrivals := [] } := by
  have still : ({ d with arrivals := [] } : Dev) = d := by rw [← q]
  have up : d.when d.inService (fun d => d.decideOne a) = d.decideOne a := by rw [u]; rfl
  change { (({ d with arrivals := [] } : Dev).when ({ d with arrivals := [] } : Dev).inService fun d => d.decideOne a).settle with
    arrivals := [] } = _
  rw [still, up]

/-- The row of an arrival brings what deciding it does. -/
theorem decides_one {i : Instr} {s : State} {as l : List Area} {P : Dev → Prop} {dt : Nat} {a : Arrival} (x : exec i s = s.arrive dt a)
    (u : Serving s) (o : Only l (s.dev.elapse dt).settle ((s.dev.elapse dt).settle.decideOne a)) (k : l ⊆ .time :: tells ++ as)
    (n : Area.arr ∉ l) (p : ∀ y : Dev, y.fwd = ((s.dev.elapse dt).settle.decideOne a).fwd → P y) : Decides i s as P := by
  refine ⟨_, x.trans (arrive_quiet u.2 dt a), rfl, by simp, ?_⟩
  have q : (s.dev.elapse dt).settle.arrivals = [] := by simpa using u.2
  have up : (s.dev.elapse dt).settle.inService = true := by simpa [Dev.inService] using u.1
  have decided : ({ (s.dev.elapse dt).settle with arrivals := [a] } : Dev).decideAll = ((s.dev.elapse dt).settle.decideOne a).settle := by
    rw [decideAll_one q up]
    have none_left : ((s.dev.elapse dt).settle.decideOne a).settle.arrivals = [] := by rw [Dev.settle_arrivals, o.arrivals n, q]
    rw [← none_left]
  change Only _ _ (Dev.decideAll _) ∧ P (Dev.decideAll _)
  rw [decided]
  refine ⟨?_, p _ (Dev.settle_fwd _)⟩
  exact ((Only.atArrival s.dev dt).mono (by simp [tells])).trans ((o.mono k).trans ((Only.settle _).mono (by simp [tells])))

/-! ### What an arriving frame is judged by does not pass with time -/

theorem port_atArrival (d : Dev) (dt n : Nat) : (d.elapse dt).settle.port n = d.port n := by simp [Dev.port]

theorem periodOf_atArrival (d : Dev) (dt n t : Nat) : (d.elapse dt).settle.periodOf n t = d.periodOf n t := by
  unfold Dev.periodOf Dev.belPort
  rw [Dev.settle_bel, Dev.elapse_bel]

theorem ptpTerminated_atArrival (d : Dev) (dt n : Nat) (data : List Byte) : (d.elapse dt).settle.ptpTerminated n data = d.ptpTerminated n data := by
  unfold Dev.ptpTerminated Dev.timPort
  rw [Dev.settle_tim, Dev.elapse_tim, Dev.settle_prs, Dev.elapse_prs]

theorem engineTakes_atArrival (d : Dev) (dt n t k : Nat) : (d.elapse dt).settle.engineTakes n t k = d.engineTakes n t k := by
  unfold Dev.engineTakes Dev.engine Dev.engineWith Dev.portExists Dev.otherDomain Dev.timPort
  rw [port_atArrival, Dev.settle_tim, Dev.elapse_tim]

/-! ### The head of a frame -/

/-- What is first noted of a frame whose head arrives. -/
def headNoted (d : Dev) (h : FrameHead) : RxFrame := { head := h, period := d.periodOf h.port h.sof, limit := (d.port h.port).limitFor h.sof }

/-- Of a MAC control frame only that is noted: it waits for its end. -/
theorem rxHead_control {d : Dev} {h : FrameHead} (up : (d.port h.port).state = .up ∨ (d.port h.port).state = .draining)
    (control : d.prs.etherType h.data = 0x8808) : d.rxHead h = d.rxM h.port fun _ => headNoted d h := by
  unfold Dev.rxHead
  dsimp only
  rw [if_neg (by rcases up with up | up <;> simp [up]), if_pos]
  · rfl
  · exact control

/-- A PTP frame that the port terminates and no engine takes waits to be punted. -/
theorem rxHead_punted {d : Dev} {h : FrameHead} {o : Nat} (up : (d.port h.port).state = .up ∨ (d.port h.port).state = .draining)
    (other : d.prs.etherType h.data ≠ 0x8808) (ends : d.ptpTerminated h.port h.data = some o)
    (free : d.engineTakes h.port (byteAt h.data o % 16) (byteAt h.data (o + 4)) = false) :
    d.rxHead h = ((d.rxM h.port fun _ => headNoted d h).when (ptpEvent (byteAt h.data o % 16)) fun d => d.count (cPort h.port 0) 1).puntLater
      h.port d.tim.puntRing 7 0 h.data := by
  have counted_ring (e : Dev) (c : Bool) : (e.when c fun d => d.count (cPort h.port 0) 1).tim.puntRing = e.tim.puntRing := by cases c <;> rfl
  unfold Dev.rxHead
  dsimp only
  rw [if_neg (by rcases up with up | up <;> simp [up]), if_neg (by exact other)]
  generalize noting : Dev.rxM d h.port _ = noted
  have noted_ends : noted.ptpTerminated h.port h.data = some o := by rw [← noting]; exact ends
  have noted_free : noted.engineTakes h.port (byteAt h.data o % 16) (byteAt h.data (o + 4)) = false := by rw [← noting]; exact free
  have noted_ring : noted.tim.puntRing = d.tim.puntRing := by rw [← noting]; rfl
  generalize counting : Dev.when noted _ _ = y
  have not_counted : y = noted := by
    rw [← counting, noted_ends]
    cases noted.prs.ptpAt h.data <;> simp [Dev.when]
  subst not_counted
  simp only [noted_ends, noted_free, counted_ring, noted_ring]
  rw [if_neg (by decide), ← noting]
  rfl

theorem puntLater_begun (d : Dev) (n : Nat) (x : RxFrame) (c : Bool) (k ring reason aux : Nat) (data : List Byte) :
    AMap.find? (((d.rxM n fun _ => x).when c fun d => d.count k 1).puntLater n ring reason aux data).fwd.rx n =
      some { x with punts := x.punts ++ [{ ring, reason, aux, data }] } := by
  have counted (e : Dev) : (e.when c fun d => d.count k 1).fwd.rx = e.fwd.rx := by cases c <;> rfl
  simp [Dev.puntLater, Dev.rxM, Dev.fwdM, AMap.upd, AMap.find?_set, AMap.getD, counted]

theorem Only.headNoted (d : Dev) (h : FrameHead) : Only [.fwd] d (d.rxM h.port fun _ => Sys2Proof.headNoted d h) := Only.rxM _ _ _

/-! ### Frames arrive -/

theorem stream_elapse (d : Dev) (dt k : Nat) : (d.elapse dt).stream k = d.stream k := by simp [Dev.stream]

theorem copySet_ports {d : Dev} {n mac vid p : Nat} (h : p ∈ (d.copySet n mac vid).ports) : p ≠ n ∧ d.portExists p = true := by
  simpa [Dev.copySet] using (List.mem_filter.1 h).2

theorem rxEnd_gone (d : Dev) (r : FrameEnd) : AMap.find? (d.rxEnd r).fwd.rx r.port = none := by
  unfold Dev.rxEnd
  dsimp only
  split
  · assumption
  · simp [Dev.fwdM, AMap.find?_erase]

/-- Settles O30: a head is noted at its port and nothing that its decision does afterwards takes the note away; its end does. -/
theorem framesArrive : Obligations.FramesArrive := by
  unfold Obligations.FramesArrive
  refine ⟨?_, ?_, ?_, ?_, fun d n mac vid p => copySet_ports, ?_⟩
  · intro dt h s u up
    refine decides_one (exec_frameRxHead dt h s) u (Only.rxHead _ h) (by decide) (by decide) fun y q => ?_
    rw [q]
    exact UnderWay.rxHead _ h (by rw [port_atArrival]; exact up)
  · intro dt h s u up control
    have head := rxHead_control (d := (s.dev.elapse dt).settle) (h := h) (by rw [port_atArrival]; exact up) (by simpa using control)
    refine decides_one (exec_frameRxHead dt h s) u (head ▸ Only.headNoted _ h) (by decide) (by decide) fun y q => ?_
    rw [q]
    change AMap.find? (Dev.rxHead _ h).fwd.rx h.port = _
    rw [head]
    simp [Dev.rxM, Dev.fwdM, AMap.upd, AMap.find?_set, headNoted, port_atArrival, periodOf_atArrival]
  · intro dt o h s u up other ends free
    have head := rxHead_punted (d := (s.dev.elapse dt).settle) (h := h) (o := o) (by rw [port_atArrival]; exact up) (by simpa using other)
      (by rw [ptpTerminated_atArrival]; exact ends) (by rw [engineTakes_atArrival]; exact free)
    have only : Only [.cnt, .fwd] (s.dev.elapse dt).settle ((s.dev.elapse dt).settle.rxHead h) := by
      rw [head]
      simp [(Only.puntLater _ _ _ _ _ _).iff, (Only.count _ _ _).iff, (Only.rxM _ _ _).iff, Only.when_iff, Only.refl]
    refine decides_one (exec_frameRxHead dt h s) u only (by decide) (by decide) fun y q => ?_
    rw [q]
    change AMap.find? (Dev.rxHead _ h).fwd.rx h.port = _
    rw [head, puntLater_begun]
    simp [headNoted, port_atArrival, periodOf_atArrival]
  · intro dt r y s u _
    refine decides_one (exec_frameRxEnd dt r s) u (Only.rxEnd _ r) (by decide) (by decide) fun y q => ?_
    rw [q]
    exact rxEnd_gone _ r
  · intro dt k t s u passed enabled
    refine Does.up (f := _) (exec_frerResetTimer dt k s) u ?_ ?_
    · simp only [stream_elapse, passed, enabled, if_true]
      simp [(Only.postIn _ _ _).iff, (Only.count _ _ _).iff, (Only.streamM _ _ _).iff, (Only.reach _ _).iff, tells, Only.refl]
    · simp only [stream_elapse, passed, enabled, if_true]
      simpa [Dev.stream, Dev.streamM, Dev.fwdM, AMap.getD_upd] using enabled

end Sys2Proof


namespace Sys2Proof

open Sys2Proof.Machine

/-! ### BEL.SET_PERIOD that replaces the buddy's change (01 R25, 17 R547) -/

/-- The buddy's BEL.SET_PERIOD, mirrored and still waiting for its bell. -/
def buddysChange : Cmd := { e := { ring := 1, tag := 9 }, op := 0x0301, mirrored := true, stage := .waiting }

/-- A module that has taken over and not yet reported: in SOLO, with rings running, the buddy's change pending and its record held with no
fate so far. -/
def afterTakeOver : State :=
  { State.reset with dev :=
    { State.reset.dev with
      glb := { State.reset.dev.glb with phase := 6 }
      bel := { State.reset.dev.bel with pend := some { period := 10000, tai := 20000, ring := 1, tag := 9 } }
      hif := { State.reset.dev.hif with rings := [(0, { state := .running }), (32, { state := .running })], inflight := [buddysChange] }
      bdy := { State.reset.dev.bdy with state := .solo, authority := true, held := [{ opcode := 0x0301, entry := buddysChange.e }] } } }

/-- The host's own BEL.SET_PERIOD of 5,000 ns. -/
def hostsChange : CmdEntry := { tag := 5, body := 5000 }

theorem ready_hostsChange : Ready afterTakeOver 7 belSetPeriod hostsChange where
  up := by decide
  quiet := by decide
  ring := by decide
  running := by decide
  still := by decide
  empty := by decide
  room := by decide
  few := by decide
  fresh := by decide
  alone := by decide
  user := by decide
  window := by decide
  mem := by decide
  pair := by decide
  officer := by decide
  pass := by decide

/-- The row of the host's change ends the buddy's, and keeps its fate with the record held for the take-over report. -/
theorem held_after_hostsChange :
    (belSetPeriod.accept (recordOf afterTakeOver 7 belSetPeriod hostsChange)
      (tookUp afterTakeOver 7 belSetPeriod hostsChange)).bdy.held.map (·.fate) = [stAborted + 1] := by decide

/-- Refutes O22: a BEL.SET_PERIOD that replaces a change mirrored from the buddy ends that one, and a mirrored command's end is kept with the
record held for the take-over report, in the buddy's area, which the statement says no such row changes. -/
theorem not_bellCommandsWaitAndComplete : ¬ Obligations.BellCommandsWaitAndComplete := by
  unfold Obligations.BellCommandsWaitAndComplete
  rintro ⟨setPeriod, -⟩
  have eff : afterTakeOver.dev.effectiveTai hostsChange = some 20000 := by decide
  obtain ⟨t, row, -, -, only, -⟩ := setPeriod 7 20000 hostsChange afterTakeOver ready_hostsChange eff
  have t_eq := Host.Outcome.next.inj (row.symm.trans (exec_ready ready_hostsChange))
  have kept : t.dev.bdy = afterTakeOver.dev.bdy := only.bdy (by decide)
  have fate : t.dev.bdy.held.map (·.fate) = [stAborted + 1] := by
    rw [t_eq, Dev.settle_bdy]
    exact held_after_hostsChange
  rw [kept] at fate
  exact absurd fate (by decide)

end Sys2Proof


namespace Sys2Proof

open Sys2Proof.Machine

/-! ## Network time -/

/-! ### Rows by the branch they take -/

/-- A row of a module in service whose effect comes to one state of the module. -/
theorem Does.upTo {i : Instr} {s : State} {as : List Area} {P : Dev → Prop} {dt : Nat} {f : Dev → Dev} {x : Dev}
    (row : exec i s = s.actUp dt f) (u : Serving s) (branch : f (s.dev.elapse dt) = x) (o : Only (.time :: tells ++ as) (s.dev.elapse dt) x)
    (p : P x.settle) : Does i s as P := by
  subst branch
  exact Does.up row u o p

/-! ### What a reading of time, of ports and of their settings does not see -/

@[simp] theorem timPort_elapse (d : Dev) (dt n : Nat) : (d.elapse dt).timPort n = d.timPort n := by simp [Dev.timPort]

@[simp] theorem timPort_settle (d : Dev) (n : Nat) : d.settle.timPort n = d.timPort n := by simp [Dev.timPort]

@[simp] theorem port_elapse (d : Dev) (dt n : Nat) : (d.elapse dt).port n = d.port n := by simp [Dev.port]

@[simp] theorem timPort_count (d : Dev) (k m n : Nat) : (d.count k m).timPort n = d.timPort n := rfl

@[simp] theorem timPort_servoM (d : Dev) (f : Servo → Servo) (n : Nat) : (d.servoM f).timPort n = d.timPort n := rfl

@[simp] theorem timPort_timPortM (d : Dev) (n m : Nat) (f : TimPort → TimPort) :
    (d.timPortM n f).timPort m = if m = n then f (d.timPort n) else d.timPort m := AMap.getD_upd _ _ _ _ _

/-- Settings apart, what is noted of a port is as it is at every instant. -/
@[simp] theorem asOf_delayReq (p : TimPort) (t : Nat) : (p.asOf t).delayReq = p.delayReq := rfl
@[simp] theorem asOf_pdelayReq (p : TimPort) (t : Nat) : (p.asOf t).pdelayReq = p.pdelayReq := rfl
@[simp] theorem asOf_syncDiff (p : TimPort) (t : Nat) : (p.asOf t).syncDiff = p.syncDiff := rfl

theorem engineWith_elapse (d : Dev) (dt n : Nat) (p : TimPort) : (d.elapse dt).engineWith n p = d.engineWith n p := by
  simp [Dev.engineWith, Dev.portExists]

theorem engine_elapse (d : Dev) (dt n : Nat) : (d.elapse dt).engine n = d.engine n := by
  rw [Dev.engine, timPort_elapse, engineWith_elapse, Dev.engine]

/-- A port with message engines exists. -/
theorem portExists_of_engineWith {d : Dev} {n : Nat} {p : TimPort} (h : d.engineWith n p = true) : d.portExists n = true := by
  simp only [Dev.engineWith, Bool.and_eq_true] at h
  exact h.1.1

/-! ### The servo (02 R64 to R68) -/

/-- Network time but for what the servo reckons: its state, its runs, its frequency and the step that it orders. -/
def steady (t : Tim) : Tim :=
  { t with servo := { t.servo with state := .freerun, everLocked := false, integ := 0, f := 0, history := [], lockRun := 0, unlockRun := 0
                                   regainRun := 0, holdSince := 0, pendingStep := none } }

/-- The servo has reckoned: besides that, and what it has told, the module stands. -/
structure Reckons (d x : Dev) : Prop where
  only : Only [.out, .cnt, .hif, .bel, .tim] d x
  host : HostKept d x
  steady : steady x.tim = steady d.tim

namespace Reckons

theorem refl (d : Dev) : Reckons d d := ⟨Only.refl _ d, HostKept.refl d, rfl⟩

theorem trans {d x y : Dev} (h : Reckons d x) (k : Reckons x y) : Reckons d y :=
  ⟨h.only.trans k.only, h.host.trans k.host, k.steady.trans h.steady⟩

variable {d x : Dev}

theorem ite {c : Prop} {_ : Decidable c} {y : Dev} (h : Reckons d x) (k : Reckons d y) : Reckons d (if c then x else y) := by
  split
  · exact h
  · exact k

theorem post (h : Reckons d x) (ev : Nat) (items : List Item) : Reckons d (x.post ev items) :=
  h.trans ⟨(Only.postIn x ev items).mono (by decide), HostKept.post x ev items, by rw [Dev.post_tim]⟩

theorem belM (h : Reckons d x) (f : Bel → Bel) : Reckons d (x.belM f) :=
  h.trans ⟨(Only.belM x f).mono (by decide), HostKept.of_hif rfl, rfl⟩

/-- A change of the servo that only reckons. -/
theorem servoM (h : Reckons d x) {f : Servo → Servo}
    (k : Sys2Proof.steady { x.tim with servo := f x.tim.servo } = Sys2Proof.steady x.tim := by rfl) : Reckons d (x.servoM f) :=
  h.trans ⟨(Only.servoM x f).mono (by decide), HostKept.of_hif rfl, k⟩

theorem servoTo (h : Reckons d x) (new : ServoState) (e : Int) : Reckons d (x.servoTo new e) := by
  have moved := h.servoM (f := fun s => { s with
    state := new
    f := if new = .holdover ∧ s.everLocked = true ∧ s.history ≠ [] then meanOf s.history else s.f
    holdSince := if new = .holdover then x.now else s.holdSince
    everLocked := s.everLocked || new == .locked
    lockRun := 0, unlockRun := 0, regainRun := 0 })
  have told := moved.post 0x0401 [.code x.tim.servo.state.code, .code new.code, .value (twos 32 (offsetQ e))]
  exact h.ite (told.ite ((told.belM _).post _ _))

theorem servoApply (h : Reckons d x) (e : Int) : Reckons d (x.servoApply e) := h.servoM.ite h.servoM

/-- A sample is noted, and the servo reckons with it as its state says. -/
theorem servoSample (d : Dev) (e : Int) :
    Reckons (d.servoM fun s => { s with offset := offsetQ e, since := d.now, sourceValid := true }) (d.servoSample e) := by
  unfold Dev.servoSample
  extract_lets mag noted
  have start := refl noted
  refine start.ite ?_
  cases noted.tim.servo.state with
  | freerun => exact (start.servoTo _ _).servoApply _
  | holdover => exact ((start.servoTo _ _).servoApply _).ite start.servoM
  | acquiring => exact ((start.servoApply e).servoM.servoTo _ _).ite (start.servoApply e).servoM
  | locked => exact ((start.servoApply e).servoM.servoM.servoTo _ _).ite (start.servoApply e).servoM.servoM

/-- What does not speak of the reckoning reads as before. -/
theorem reads {α : Type} (h : Reckons d x) (f : Tim → α) (k : ∀ t, f (Sys2Proof.steady t) = f t := by intro _; rfl) : f x.tim = f d.tim := by
  rw [← k x.tim, h.steady, k]

end Reckons

theorem servoTo_state (d : Dev) (new : ServoState) (e : Int) : (d.servoTo new e).tim.servo.state = new := by
  unfold Dev.servoTo
  by_cases same : d.tim.servo.state = new
  · simp [same]
  · simp [same, apply_ite Dev.tim]

end Sys2Proof


namespace Sys2Proof

open Sys2Proof.Machine

/-! ### Servo timers, pins and the EEC (02 R65, R68, R69, R72 to R74) -/

theorem servoTo_sourceValid (d : Dev) (new : ServoState) (e : Int) : (d.servoTo new e).tim.servo.sourceValid = d.tim.servo.sourceValid :=
  ((Reckons.refl d).servoTo new e).reads (·.servo.sourceValid)

theorem servoTo_now (d : Dev) (new : ServoState) (e : Int) : (d.servoTo new e).now = d.now :=
  ((Reckons.refl d).servoTo new e).only.now (by decide)

theorem Only.servoTo (d : Dev) (new : ServoState) (e : Int) : Only [.out, .cnt, .hif, .bel, .tim] d (d.servoTo new e) :=
  ((Reckons.refl d).servoTo new e).only

theorem Only.servoSample (d : Dev) (e : Int) : Only [.out, .cnt, .hif, .bel, .tim] d (d.servoSample e) :=
  ((Only.servoM d _).mono (by decide)).trans (Reckons.servoSample d e).only

/-! A sample leaves the stamps of PPS_IN. -/

theorem servoSample_ppsInTs (d : Dev) (e : Int) : (d.servoSample e).tim.ppsInTs = d.tim.ppsInTs :=
  (Reckons.servoSample d e).reads Tim.ppsInTs

theorem servoSample_ppsInAt (d : Dev) (e : Int) : (d.servoSample e).tim.ppsInAt = d.tim.ppsInAt :=
  (Reckons.servoSample d e).reads Tim.ppsInAt

theorem servoSample_ppsInSeen (d : Dev) (e : Int) : (d.servoSample e).tim.ppsInSeen = d.tim.ppsInSeen :=
  (Reckons.servoSample d e).reads Tim.ppsInSeen

/-- What a sample leaves noted (02 R64): its offset, that it is valid, and when it came. -/
theorem servoSample_noted (d : Dev) (e : Int) : (d.servoSample e).tim.servo.offset = offsetQ e ∧ (d.servoSample e).tim.servo.sourceValid = true ∧
    (d.servoSample e).tim.servo.since = d.now ∧ (d.servoSample e).tim.servo.meanDelay = d.tim.servo.meanDelay := by
  have reckons := Reckons.servoSample d e
  exact ⟨reckons.reads (·.servo.offset), reckons.reads (·.servo.sourceValid), reckons.reads (·.servo.since),
    reckons.reads (·.servo.meanDelay)⟩

/-- The EEC is in the state that it is sent to (02 R69). -/
theorem eecTo_syncState (d : Dev) (new : Nat) : (d.eecTo new).tim.syncState = new := by
  unfold Dev.eecTo
  by_cases same : d.tim.syncState = new
  · simp [same]
  · simp [same]

theorem exec_sampleTimeout (dt : Nat) (s : State) : exec (.sampleTimeout dt) s = execSampleTimeout dt s := rfl
theorem exec_holdoverLimit (dt : Nat) (s : State) : exec (.holdoverLimit dt) s = execHoldoverLimit dt s := rfl
theorem exec_ppsOutRise (dt : Nat) (s : State) : exec (.ppsOutRise dt) s = execPpsOutRise dt s := rfl
theorem exec_ppsOutFall (dt : Nat) (s : State) : exec (.ppsOutFall dt) s = execPpsOutFall dt s := rfl
theorem exec_ppsInEdge (dt : Nat) (s : State) : exec (.ppsInEdge dt) s = execPpsInEdge dt s := rfl
theorem exec_ppsInMissing (dt : Nat) (s : State) : exec (.ppsInMissing dt) s = execPpsInMissing dt s := rfl
theorem exec_todLineTx (dt : Nat) (s : State) : exec (.todLineTx dt) s = execTodLineTx dt s := rfl
theorem exec_todLineRx (dt : Nat) (line : List Byte) (s : State) : exec (.todLineRx dt line) s = execTodLineRx dt line s := rfl
theorem exec_synceLaneLoss (dt : Nat) (s : State) : exec (.synceLaneLoss dt) s = execSynceLaneLoss dt s := rfl
theorem exec_eecLocked (dt : Nat) (s : State) : exec (.eecLocked dt) s = execEecLocked dt s := rfl

/-- The sample noted missing, at the instant that the servo waited for. -/
def sampleMissed (d : Dev) : Dev :=
  let d := d.reach (d.tim.servo.since + d.tim.sampleTimeout * qPerMs)
  d.servoM fun s => { s with
    sourceValid := false, since := d.now, lockRun := 0, unlockRun := 0, regainRun := if s.regainRun < 1000 then 0 else s.regainRun }

/-- A locked servo whose source falls silent goes to holdover (02 R65). -/
theorem sampleTimeout_locked (dt : Nat) (s : State) (u : Serving s) (source : s.dev.tim.servo.srcKind ≠ 0)
    (locked : s.dev.tim.servo.state = .locked) : Does (.sampleTimeout dt) s [.tim, .bel] fun x =>
      x.tim.servo.state = .holdover ∧ x.tim.servo.sourceValid = false ∧
        x.now = max (s.dev.now + dt) (s.dev.tim.servo.since + s.dev.tim.sampleTimeout * qPerMs) := by
  refine Does.upTo (x := (sampleMissed (s.dev.elapse dt)).servoTo .holdover 0) (exec_sampleTimeout dt s) u ?_ ?_ ?_
  · simp [sampleMissed, source, locked]
  · simp [(Only.servoTo _ _ _).iff, sampleMissed, (Only.servoM _ _).iff, (Only.reach _ _).iff, tells, Only.refl]
  · simp [servoTo_state, servoTo_sourceValid, servoTo_now, sampleMissed]

/-- Holdover ends at its limit (02 R65, R68). -/
theorem holdoverLimit_ends (dt : Nat) (s : State) (u : Serving s) (held : s.dev.tim.servo.state = .holdover)
    (limited : s.dev.tim.holdoverLimit ≠ 0) : Does (.holdoverLimit dt) s [.tim, .bel] fun x =>
      x.tim.servo.state = .freerun ∧ x.now = max (s.dev.now + dt) (s.dev.tim.servo.holdSince + s.dev.tim.holdoverLimit * qPerS) := by
  refine Does.upTo (x := ((s.dev.elapse dt).reach (s.dev.tim.servo.holdSince + s.dev.tim.holdoverLimit * qPerS)).servoTo .freerun 0)
    (exec_holdoverLimit dt s) u ?_ ?_ ?_
  · simp [held, limited]
  · simp [(Only.servoTo _ _ _).iff, (Only.reach _ _).iff, tells, Only.refl]
  · simp [servoTo_state, servoTo_now]

theorem ppsOut_rises (dt : Nat) (s : State) (u : Serving s) (enabled : s.dev.tim.ppsOutEn = true) : Does (.ppsOutRise dt) s [.tim, .pins] fun x =>
    x.pins.ppsOut = true ∧ x.tim.ppsSecond = (s.dev.elapse dt).nextSecond ∧ x.tim.ppsRiseAt = x.now := by
  refine Does.up (f := _) (exec_ppsOutRise dt s) u ?_ ?_
  · simp [enabled, (Only.timM _ _).iff, (Only.pinsM _ _).iff, (Only.reach _ _).iff, tells, Only.refl]
  · simp [enabled]

theorem ppsOut_falls (dt : Nat) (s : State) (u : Serving s) (high : s.dev.pins.ppsOut = true) : Does (.ppsOutFall dt) s [.pins] fun x =>
    x.pins.ppsOut = false ∧ x.now = max (s.dev.now + dt) (s.dev.tim.ppsRiseAt + s.dev.tim.ppsWidth * qPerMs) := by
  refine Does.up (f := _) (exec_ppsOutFall dt s) u ?_ ?_
  · simp [high, (Only.pinsM _ _).iff, (Only.reach _ _).iff, tells, Only.refl]
  · simp [high]

/-- An edge of PPS_IN is stamped, and where PPS_IN is the source it is a sample too (02 R63, R73). -/
theorem ppsIn_stamped (dt : Nat) (s : State) (u : Serving s) (enabled : s.dev.tim.ppsInEn = true) : Does (.ppsInEdge dt) s [.tim, .bel] fun x =>
    x.tim.ppsInTs = s.dev.now + dt ∧ x.tim.ppsInAt = s.dev.now + dt ∧ x.tim.ppsInSeen = true ∧
      (s.dev.tim.servo.srcKind ≠ 2 → x.tim.servo = s.dev.tim.servo) := by
  refine Does.up (f := _) (exec_ppsInEdge dt s) u ?_ ?_
  · by_cases source : s.dev.tim.servo.srcKind = 2
    · simp [enabled, source, (Only.servoSample _ _).iff, (Only.timM _ _).iff, tells, Only.refl]
    · simp [enabled, source, (Only.timM _ _).iff, Only.refl]
  · by_cases source : s.dev.tim.servo.srcKind = 2
    · simp [enabled, source, servoSample_ppsInTs, servoSample_ppsInAt, servoSample_ppsInSeen]
    · simp [enabled, source]

theorem ppsIn_missing (dt : Nat) (s : State) (u : Serving s) (enabled : s.dev.tim.ppsInEn = true) (seen : s.dev.tim.ppsInSeen = true) :
    Does (.ppsInMissing dt) s [.tim] fun x =>
      x.tim = { s.dev.tim with ppsInSeen := false } ∧ x.now = max (s.dev.now + dt) (s.dev.tim.ppsInAt + 1500 * qPerMs) := by
  refine Does.up (f := _) (exec_ppsInMissing dt s) u ?_ ?_
  · simp [enabled, seen, (Only.postIn _ _ _).iff, (Only.timM _ _).iff, (Only.reach _ _).iff, tells, Only.refl]
  · simp [enabled, seen]

theorem todLine_sent (dt : Nat) (s : State) (u : Serving s) (sends : s.dev.tim.todTx = true) (enabled : s.dev.tim.ppsOutEn = true) :
    Does (.todLineTx dt) s [] fun x =>
      x.out = .todLine s.dev.todLine :: s.dev.out ∧ x.now = max (s.dev.now + dt) (s.dev.tim.ppsRiseAt + qPerMs) := by
  refine Does.up (f := _) (exec_todLineTx dt s) u ?_ ?_
  · simp [sends, enabled, (Only.emit _ _).iff, (Only.reach _ _).iff, tells, Only.refl]
  · simp [sends, enabled, Dev.todLine]

theorem todLine_taken (dt k : Nat) (line : List Byte) (s : State) (u : Serving s) (takes : s.dev.tim.todRx = true)
    (seen : s.dev.tim.ppsInSeen = true) (early : s.dev.now + dt ≤ s.dev.tim.ppsInAt + 900 * qPerMs) (good : todSecondsOf line = some k) :
    Does (.todLineRx dt line) s [.tim] fun x => x.tim = { s.dev.tim with todSeconds := some k } := by
  refine Does.up (f := _) (exec_todLineRx dt line s) u ?_ ?_
  · simp [takes, seen, early, good, (Only.timM _ _).iff, Only.refl]
  · simp [takes, seen, early, good]

theorem synceLane_lost (dt : Nat) (s : State) (u : Serving s) (enabled : s.dev.tim.syncEn = true) : Does (.synceLaneLoss dt) s [.tim] fun x =>
    x.tim.syncState = 2 := by
  refine Does.upTo (x := (s.dev.elapse dt).eecTo 2) (exec_synceLaneLoss dt s) u ?_ ?_ ?_
  · simp [enabled]
  · simp [(Only.eecTo _ _).iff, tells, Only.refl]
  · simp [eecTo_syncState]

theorem eec_locks (dt : Nat) (s : State) (u : Serving s) (enabled : s.dev.tim.syncEn = true) (free : s.dev.tim.syncState = 0) :
    Does (.eecLocked dt) s [.tim] fun x => x.tim.syncState = 1 := by
  refine Does.upTo (x := (s.dev.elapse dt).eecTo 1) (exec_eecLocked dt s) u ?_ ?_ ?_
  · simp [enabled, free]
  · simp [(Only.eecTo _ _).iff, tells, Only.refl]
  · simp [eecTo_syncState]

/-- Settles O16: each row takes the branch of its deadline, its pin or its line; a PPS_IN edge that is a sample leaves the stamps, which the
servo does not touch. -/
theorem timeTimersAndPins : Obligations.TimeTimersAndPins := by
  unfold Obligations.TimeTimersAndPins
  exact ⟨sampleTimeout_locked, holdoverLimit_ends, ppsOut_rises, ppsOut_falls, ppsIn_stamped, ppsIn_missing, todLine_sent, todLine_taken,
    synceLane_lost, eec_locks⟩

end Sys2Proof


namespace Sys2Proof

open Sys2Proof.Machine

/-! ### TIM commands that end at once (02 R76 to R79, R81) -/

/-- A command that ends at once with what it has done to network time, and what the host is told of it. -/
theorem completes_tim {i : Instr} {s : State} {dt : Nat} {sp : CmdSpec} {e : CmdEntry} {as : List Area} {P : Dev → Prop} {d : Dev}
    (row : exec i s = s.actUp dt fun d => d.submit sp e) (h : Ready s dt sp e) (tell : CanTell s e.ring) (short : ∀ c, sp.kind c = .short)
    (effect : sp.accept (recordOf s dt sp e) (tookUp s dt sp e) = okAfter (recordOf s dt sp e) d) (host : HostKept (tookUp s dt sp e) d)
    (only : Only (.time :: .glb :: tells ++ as) (tookUp s dt sp e) d) (apart : Area.bdy ∉ as) (p : ∀ y : Dev, y.tim = d.tim → P y) :
    CompletesAtOnce i sp e s as 0 P := by
  refine completes row h tell short effect host only ?_ (p _ (by simp))
  rw [only.bdy (by simp [tells, apart]), h.tookOnly.bdy (by decide)]

theorem CompletesAtOnce.mono {i : Instr} {sp : CmdSpec} {e : CmdEntry} {s : State} {as : List Area} {r : Nat} {P Q : Dev → Prop}
    (h : CompletesAtOnce i sp e s as r P) (k : ∀ x, P x → Q x) : CompletesAtOnce i sp e s as r Q := by
  obtain ⟨t, row, pending, told, only, p⟩ := h
  exact ⟨t, row, pending, told, only, k _ p⟩

theorem exec_timSetPort (dt : Nat) (e : CmdEntry) (s : State) : exec (.timSetPort dt e) s = s.actUp dt fun d => d.submit timSetPort e := rfl
theorem exec_timSelectSource (dt : Nat) (e : CmdEntry) (s : State) :
    exec (.timSelectSource dt e) s = s.actUp dt fun d => d.submit timSelectSource e := rfl
theorem exec_timFeedOffset (dt : Nat) (e : CmdEntry) (s : State) :
    exec (.timFeedOffset dt e) s = s.actUp dt fun d => d.submit timFeedOffset e := rfl
theorem exec_timSetHoldover (dt : Nat) (e : CmdEntry) (s : State) :
    exec (.timSetHoldover dt e) s = s.actUp dt fun d => d.submit timSetHoldover e := rfl
theorem exec_timSetSynce (dt : Nat) (e : CmdEntry) (s : State) : exec (.timSetSynce dt e) s = s.actUp dt fun d => d.submit timSetSynce e := rfl

theorem HostKept.timM (d : Dev) (f : Tim → Tim) : HostKept d (d.timM f) := HostKept.of_hif rfl

theorem HostKept.timPortM (d : Dev) (n : Nat) (f : TimPort → TimPort) : HostKept d (d.timPortM n f) := HostKept.of_hif rfl

theorem HostKept.servoM (d : Dev) (f : Servo → Servo) : HostKept d (d.servoM f) := HostKept.of_hif rfl

theorem HostKept.servoSample (d : Dev) (e : Int) : HostKept d (d.servoSample e) := (HostKept.servoM d _).trans (Reckons.servoSample d e).host

theorem Ready.tookTim {s : State} {dt : Nat} {sp : CmdSpec} {e : CmdEntry} (h : Ready s dt sp e) : (tookUp s dt sp e).tim = s.dev.tim :=
  h.tookOnly.tim (by decide)

theorem Ready.tookTimPort {s : State} {dt : Nat} {sp : CmdSpec} {e : CmdEntry} (h : Ready s dt sp e) (n : Nat) :
    (tookUp s dt sp e).timPort n = s.dev.timPort n := by simp [Dev.timPort, h.tookTim]

/-- Taking a command up leaves the variant, and so the lane that a field names. -/
theorem Ready.tookClamp {s : State} {dt : Nat} {sp : CmdSpec} {e : CmdEntry} (h : Ready s dt sp e) (n : Nat) :
    (tookUp s dt sp e).clampLane n = s.dev.clampLane n := by simp [Dev.clampLane, h.tookGlb]

theorem Ready.tookPortField {s : State} {dt : Nat} {sp : CmdSpec} {e : CmdEntry} (h : Ready s dt sp e) (e' : CmdEntry) :
    (tookUp s dt sp e).portField e' = s.dev.portField e' := h.tookClamp _

/-! ### TIM.SET_PORT -/

/-- A report of a link's delay is noted at its port, and nothing else of network time changes. -/
theorem delayReport_timPort (d : Dev) (n : Nat) :
    ∃ r, ∀ m, (d.delayReport n).timPort m = if m = n then { d.timPort n with reported := r } else d.timPort m := by
  have unreported : ∀ m, d.timPort m = if m = n then { d.timPort n with reported := (d.timPort n).reported } else d.timPort m := by
    intro m
    split
    · next same => rw [same]
    · rfl
  unfold Dev.delayReport
  split
  · exact ⟨_, unreported⟩
  · next x _ =>
    extract_lets moved
    cases moved
    · exact ⟨_, unreported⟩
    · refine ⟨some x, fun m => ?_⟩
      change (Dev.post _ _ _).timPort m = _
      rw [Dev.timPort, Dev.post_tim]
      exact timPort_timPortM d n m _

theorem HostKept.delayReport (d : Dev) (n : Nat) : HostKept d (d.delayReport n) := by
  unfold Dev.delayReport
  split
  · exact HostKept.refl d
  · exact HostKept.when _ ((HostKept.timPortM _ _ _).trans (HostKept.post _ _ _))

/-- The settings of a port as TIM.SET_PORT gives them, those before it kept with the instant at which they ended (02 R76). -/
def portSet (now : Nat) (e : CmdEntry) (p : TimPort) : TimPort :=
  let log := fun (x : Nat) => clampI (-7) 4 (signed 4 x)
  { p with
    past := (now, { role := p.role, p2p := p.p2p, transport := p.transport, asym := p.asym }) :: p.past
    role := e.f 16 17 16, p2p := e.b 16 18, transport := e.f 16 20 19, twoStep := e.b 16 21
    logSync := log (e.f 20 3 0), logDelayReq := log (e.f 20 7 4), logPdelayReq := log (e.f 20 11 8)
    asym := clampI (-40000) 40000 (e.i 24 32), partner := e.f 28 15 0 }

theorem timSetPort_accept (c : Cmd) (d : Dev) :
    timSetPort.accept c d = okAfter c ((d.timPortM (d.portField c.e) (portSet d.now c.e)).delayReport (d.portField c.e)) := rfl

/-- TIM.SET_PORT completes, with the port set, but for what is reported of its delay, and every other port as it was. -/
theorem timSetPort_completes (dt : Nat) (e : CmdEntry) (s : State) (h : Ready s dt timSetPort e) (tell : CanTell s e.ring) :
    CompletesAtOnce (.timSetPort dt e) timSetPort e s [.tim] 0 fun x => ∃ r, ∀ m, x.timPort m =
      if m = s.dev.portField e then { portSet (s.dev.now + dt) e (s.dev.timPort m) with reported := r } else s.dev.timPort m := by
  refine completes_tim (exec_timSetPort dt e s) h tell (fun _ => rfl) (timSetPort_accept _ _) ?_ ?_ (by decide) fun y q => ?_
  · exact (HostKept.timPortM _ _ _).trans (HostKept.delayReport _ _)
  · simp [(Only.delayReport _ _).iff, (Only.timPortM _ _ _).iff, tells, Only.refl]
  · obtain ⟨r, ports⟩ := delayReport_timPort
      ((tookUp s dt timSetPort e).timPortM (s.dev.portField e) (portSet (s.dev.now + dt) e)) (s.dev.portField e)
    refine ⟨r, fun m => ?_⟩
    have port : y.timPort m = (Dev.delayReport _ _).timPort m := congrArg (fun t : Tim => AMap.getD t.ports m {}) q
    rw [port, h.tookPortField, h.tookNow]
    refine (ports m).trans ?_
    split
    · next same => simp [same, h.tookTimPort]
    · next other => simp [other, h.tookTimPort]

/-! ### TIM.SELECT_SOURCE and TIM.FEED_OFFSET -/

/-- The port that a selection names: a link's, or none. -/
def sourcePort (d : Dev) (e : CmdEntry) : Nat := if e.f 16 1 0 = 1 then d.clampLane (e.f 16 31 16) else 0

/-- What a selection notes of the source (02 R65, R77). -/
def sourceSelected (d : Dev) (e : CmdEntry) : Dev :=
  d.servoM fun s => { s with
    srcKind := e.f 16 1 0, srcPort := sourcePort d e, parentClock := e.f 20 63 0, parentPort := e.f 28 15 0
    meanDelay := if e.f 16 1 0 = 1 then (divFloor ((d.meanD (sourcePort d e)).getD 0) 16384).toNat else 0
    sourceValid := false, since := d.now }

/-- A selection is noted, and the servo reckons with it. -/
theorem timSelectSource_accept (c : Cmd) (d : Dev) : ∃ x, timSelectSource.accept c d = okAfter c x ∧ Reckons (sourceSelected d c.e) x := by
  refine ⟨_, rfl, ?_⟩
  have start := Reckons.refl (sourceSelected d c.e)
  exact start.ite ((start.servoTo _ _).ite ((start.servoTo _ _).ite start))

/-- What the servo reckons leaves the selection. -/
theorem sourceSelected_noted {d x : Dev} {e : CmdEntry} (h : Reckons (sourceSelected d e) x) :
    x.tim.servo.srcKind = e.f 16 1 0 ∧ x.tim.servo.parentClock = e.f 20 63 0 ∧ x.tim.servo.parentPort = e.f 28 15 0 ∧
      x.tim.servo.sourceValid = false ∧ x.tim.servo.since = d.now :=
  ⟨h.reads (·.servo.srcKind), h.reads (·.servo.parentClock), h.reads (·.servo.parentPort), h.reads (·.servo.sourceValid), h.reads (·.servo.since)⟩

theorem timSelectSource_completes (dt : Nat) (e : CmdEntry) (s : State) (h : Ready s dt timSelectSource e) (tell : CanTell s e.ring) :
    CompletesAtOnce (.timSelectSource dt e) timSelectSource e s [.tim, .bel] 0 fun x =>
      let v := x.tim.servo
      v.srcKind = e.f 16 1 0 ∧ v.parentClock = e.f 20 63 0 ∧ v.parentPort = e.f 28 15 0 ∧ v.sourceValid = false ∧
        v.since = s.dev.now + dt := by
  obtain ⟨x, effect, reckons⟩ := timSelectSource_accept (recordOf s dt timSelectSource e) (tookUp s dt timSelectSource e)
  have noted : HostKept (tookUp s dt timSelectSource e) (sourceSelected (tookUp s dt timSelectSource e) e) := HostKept.servoM _ _
  refine completes_tim (exec_timSelectSource dt e s) h tell (fun _ => rfl) effect (noted.trans reckons.host) ?_ (by decide) fun y q => ?_
  · exact ((Only.servoM _ _).mono (by decide)).trans (reckons.only.mono (by decide))
  · dsimp only
    rw [q, ← h.tookNow]
    exact sourceSelected_noted reckons

/-- The delay that the host gives beside its offset is noted (02 R81). -/
def meanDelayFed (d : Dev) (e : CmdEntry) : Dev := d.servoM fun v => { v with meanDelay := e.f 20 31 0 }

theorem timFeedOffset_accept (c : Cmd) (d : Dev) :
    timFeedOffset.accept c d = okAfter c ((meanDelayFed d c.e).servoSample (q16 (c.e.i 16 32))) := rfl

/-- A sample fed by the host is noted, and its delay beside it. -/
theorem meanDelayFed_sampled (d : Dev) (e : CmdEntry) (o : Int) :
    let v := ((meanDelayFed d e).servoSample o).tim.servo
    v.offset = offsetQ o ∧ v.sourceValid = true ∧ v.since = d.now ∧ v.meanDelay = e.f 20 31 0 := servoSample_noted (meanDelayFed d e) o

theorem timFeedOffset_completes (dt : Nat) (e : CmdEntry) (s : State) (h : Ready s dt timFeedOffset e) (tell : CanTell s e.ring) :
    CompletesAtOnce (.timFeedOffset dt e) timFeedOffset e s [.tim, .bel] 0 fun x =>
      let v := x.tim.servo
      v.offset = offsetQ (q16 (e.i 16 32)) ∧ v.sourceValid = true ∧ v.since = s.dev.now + dt ∧ v.meanDelay = e.f 20 31 0 := by
  have fed : HostKept (tookUp s dt timFeedOffset e) (meanDelayFed (tookUp s dt timFeedOffset e) e) := HostKept.servoM _ _
  refine completes_tim (d := (meanDelayFed (tookUp s dt timFeedOffset e) e).servoSample (q16 (e.i 16 32))) (exec_timFeedOffset dt e s) h tell
    (fun _ => rfl) (timFeedOffset_accept _ _) (fed.trans (HostKept.servoSample _ _)) ?_ (by decide) fun y q => ?_
  · exact ((Only.servoM _ _).mono (by decide)).trans ((Only.servoSample _ _).mono (by decide))
  · dsimp only
    rw [q, ← h.tookNow]
    exact meanDelayFed_sampled _ _ _

/-- Settles O17: a port's settings stand beside the report of its delay, and what a selection or an offset gives the servo is not what it
reckons. -/
theorem timeSettings : Obligations.TimeSettings := by
  unfold Obligations.TimeSettings
  refine ⟨fun dt e s h tell => ?_, fun dt e s n h tell other => ?_, timSelectSource_completes, timFeedOffset_completes⟩
  · refine (timSetPort_completes dt e s h tell).mono fun x ⟨r, ports⟩ => ?_
    simp [ports, portSet]
  · refine (timSetPort_completes dt e s h tell).mono fun x ⟨r, ports⟩ => ?_
    simp [ports, other]

/-! ### TIM.SET_HOLDOVER and TIM.SET_SYNCE -/

/-- The host no longer orders holdover, and the servo may leave it with its next sample (02 R78). -/
def holdoverReleased (d : Dev) : Dev := d.servoM fun s => { s with hostHoldover := false, regainRun := 1000 }

/-- What TIM.SET_HOLDOVER makes of the servo (02 R78). -/
def holdoverSet (d : Dev) (on : Bool) : Dev :=
  if on then (d.servoTo .holdover 0).servoM fun s => { s with hostHoldover := true }
  else if d.tim.servo.hostHoldover then (if d.tim.servo.srcKind = 0 then (holdoverReleased d).servoTo .freerun 0 else holdoverReleased d)
  else d

theorem timSetHoldover_accept (c : Cmd) (d : Dev) : timSetHoldover.accept c d = okAfter c (holdoverSet d (c.e.b 16 0)) := rfl

theorem servoTo_hostHoldover (d : Dev) (new : ServoState) (e : Int) : (d.servoTo new e).tim.servo.hostHoldover = d.tim.servo.hostHoldover :=
  ((Reckons.refl d).servoTo new e).reads (·.servo.hostHoldover)

theorem HostKept.servoTo (d : Dev) (new : ServoState) (e : Int) : HostKept d (d.servoTo new e) := ((Reckons.refl d).servoTo new e).host

theorem Only.holdoverSet (d : Dev) (on : Bool) : Only [.out, .cnt, .hif, .bel, .tim] d (holdoverSet d on) := by
  simp [Sys2Proof.holdoverSet, holdoverReleased, (Only.servoTo _ _ _).iff, (Only.servoM _ _).iff, Only.ite_iff, Only.refl]

theorem HostKept.holdoverSet (d : Dev) (on : Bool) : HostKept d (holdoverSet d on) := by
  unfold Sys2Proof.holdoverSet
  have out : HostKept d (holdoverReleased d) := HostKept.servoM d _
  split
  · exact (HostKept.servoTo _ _ _).trans (HostKept.servoM _ _)
  · split
    · split
      · exact out.trans (HostKept.servoTo _ _ _)
      · exact out
    · exact HostKept.refl d

/-- The host's order stands as bit 0 gives it. -/
theorem holdoverSet_hostHoldover (d : Dev) (on : Bool) : (holdoverSet d on).tim.servo.hostHoldover = on := by
  unfold holdoverSet
  cases on
  · cases ordered : d.tim.servo.hostHoldover
    · simp [ordered]
    · by_cases none_selected : d.tim.servo.srcKind = 0 <;> simp [none_selected, holdoverReleased, servoTo_hostHoldover]
  · simp

/-- Ordered, the servo is in holdover. -/
theorem holdoverSet_state (d : Dev) : (holdoverSet d true).tim.servo.state = .holdover := by simp [holdoverSet, servoTo_state]

theorem timSetHoldover_completes (dt : Nat) (e : CmdEntry) (s : State) (h : Ready s dt timSetHoldover e) (tell : CanTell s e.ring) :
    CompletesAtOnce (.timSetHoldover dt e) timSetHoldover e s [.tim, .bel] 0 fun x =>
      timSetHoldover.op = 0x0403 ∧ x.tim.servo.hostHoldover = e.b 16 0 ∧ (e.b 16 0 = true → x.tim.servo.state = .holdover) := by
  refine completes_tim (exec_timSetHoldover dt e s) h tell (fun _ => rfl) (timSetHoldover_accept _ _) (HostKept.holdoverSet _ _)
    ((Only.holdoverSet _ _).mono (by decide)) (by decide) fun y q => ⟨rfl, ?_, fun on => ?_⟩
  · rw [q]
    exact holdoverSet_hostHoldover _ _
  · have ordered : (recordOf s dt timSetHoldover e).e.b 16 0 = true := on
    rw [q, ordered]
    exact holdoverSet_state _

theorem HostKept.eecTo (d : Dev) (new : Nat) : HostKept d (d.eecTo new) := by
  unfold Dev.eecTo
  extract_lets old left
  split
  · exact HostKept.refl d
  · exact (HostKept.timM d _).trans (HostKept.post _ _ _)

/-- The EEC's change of state leaves its lane, its enable and its option. -/
theorem eecTo_settings (d : Dev) (new : Nat) : (d.eecTo new).tim.syncLane = d.tim.syncLane ∧ (d.eecTo new).tim.syncEn = d.tim.syncEn ∧
    (d.eecTo new).tim.syncOption2 = d.tim.syncOption2 := by
  unfold Dev.eecTo
  by_cases same : d.tim.syncState = new <;> simp [same]

/-- The settings that TIM.SET_SYNCE gives (02 R79). -/
def synceSet (d : Dev) (e : CmdEntry) : Dev :=
  d.timM fun t => { t with syncLane := d.clampLane (e.f 16 9 0), syncEn := e.b 16 16, syncOption2 := e.b 16 17 }

/-- The settings stand once the EEC has left its state. -/
theorem synceSet_settings (d : Dev) (e : CmdEntry) :
    let x := (synceSet d e).eecTo 0
    x.tim.syncLane = d.clampLane (e.f 16 9 0) ∧ x.tim.syncEn = e.b 16 16 ∧ x.tim.syncOption2 = e.b 16 17 ∧ x.tim.syncState = 0 := by
  obtain ⟨lane, enable, option2⟩ := eecTo_settings (synceSet d e) 0
  exact ⟨lane, enable, option2, eecTo_syncState _ _⟩

theorem timSetSynce_accept (c : Cmd) (d : Dev) : timSetSynce.accept c d = okAfter c ((synceSet d c.e).eecTo 0) := rfl

theorem clampLane_eq_min (d : Dev) (n : Nat) : d.clampLane n = min n (d.glb.part.lanes - 1) := by
  unfold Dev.clampLane satTo
  split <;> omega

theorem timSetSynce_completes (dt : Nat) (e : CmdEntry) (s : State) (h : Ready s dt timSetSynce e) (tell : CanTell s e.ring) :
    CompletesAtOnce (.timSetSynce dt e) timSetSynce e s [.tim] 0 fun x =>
      timSetSynce.op = 0x0404 ∧ x.tim.syncLane = min (e.f 16 9 0) (s.dev.glb.part.lanes - 1) ∧ x.tim.syncEn = e.b 16 16 ∧
        x.tim.syncOption2 = e.b 16 17 ∧ x.tim.syncState = 0 := by
  have host : HostKept (tookUp s dt timSetSynce e) (synceSet (tookUp s dt timSetSynce e) e) := HostKept.timM _ _
  refine completes_tim (exec_timSetSynce dt e s) h tell (fun _ => rfl) (timSetSynce_accept _ _) (host.trans (HostKept.eecTo _ _)) ?_ (by decide)
    fun y q => ?_
  · simp [(Only.eecTo _ _).iff, synceSet, (Only.timM _ _).iff, tells, Only.refl]
  · rw [q, ← clampLane_eq_min, ← h.tookClamp]
    exact ⟨rfl, synceSet_settings _ _⟩

/-- Settles O53: the host's order is not what the servo reckons, and the EEC's change of state is not a setting. -/
theorem holdoverAndSynceSettings : Obligations.HoldoverAndSynceSettings := by
  unfold Obligations.HoldoverAndSynceSettings
  exact ⟨timSetHoldover_completes, timSetSynce_completes⟩

end Sys2Proof


namespace Sys2Proof

open Sys2Proof.Machine

/-! ### Copies that wait for egress (07 R249, R260 to R262, 08 R291, R298) -/

/-- The queues and the stored frames are as they were. -/
def SameStore (d x : Dev) : Prop := x.buf.queues = d.buf.queues ∧ x.buf.frames = d.buf.frames

namespace SameStore

theorem refl (d : Dev) : SameStore d d := ⟨rfl, rfl⟩

theorem trans {d x y : Dev} (h : SameStore d x) (k : SameStore x y) : SameStore d y := ⟨k.1.trans h.1, k.2.trans h.2⟩

theorem of_only {l : List Area} {d x : Dev} (h : Only l d x) (k : Area.buf ∉ l) : SameStore d x :=
  ⟨congrArg Buf.queues (h.buf k), congrArg Buf.frames (h.buf k)⟩

theorem when {d : Dev} {c : Bool} {f : Dev → Dev} (h : SameStore d (f d)) : SameStore d (d.when c f) := by
  cases c
  · exact refl d
  · exact h

theorem each {α : Type} (xs : List α) {f : α → Dev → Dev} (h : ∀ a x, SameStore x (f a x)) (d : Dev) : SameStore d (d.each xs f) := by
  induction xs generalizing d with
  | nil => exact refl d
  | cons a as ih => exact (h a d).trans (ih (f a d))

theorem setXoff (d : Dev) (point cls : Nat) (on : Bool) : SameStore d (d.setXoff point cls on) := by
  have noted : SameStore d (d.acctM point cls fun a => { a with xoff := on }) := ⟨rfl, rfl⟩
  exact noted.trans ((when (of_only (Only.count _ _ _) (by decide))).trans (when (of_only (Only.portM _ _ _) (by decide))))

theorem xoffScan (d : Dev) : SameStore d d.xoffScan := by
  refine each _ (fun a x => ?_) d
  dsimp only
  refine trans ?_ (when (of_only (Only.returnCredit _ _) (by decide)))
  split
  · exact when (setXoff _ _ _ _)
  · exact when (setXoff _ _ _ _)

end SameStore

theorem frameAt_frameM (d : Dev) (f : Nat) (g : Frame → Frame) :
    (d.frameM f g).frameAt f = g (d.frameAt f) ∨ (d.frameM f g).frameAt f = d.frameAt f := by
  unfold Dev.frameM Dev.frameAt AMap.adjust
  cases listed : AMap.find? d.buf.frames f with
  | none => exact .inr (by simp [listed])
  | some v => exact .inl (by simp [AMap.getD, listed, AMap.find?_set])

/-- A PTP message, stored as a frame that one copy holds, stands in class 15 of a port. -/
structure Standing (n f : Nat) (m : PtpMsg) (d : Dev) : Prop where
  queued : ∃ r ∈ (d.queue (qIx n 15)).h, r.copy.frame = f
  message : (d.frameAt f).ptp = some m
  referred : (d.frameAt f).refs ≠ 0
  held : (d.frameAt f).holds ≠ 0

namespace Standing

variable {n f : Nat} {m : PtpMsg} {d : Dev}

theorem awaits (h : Standing n f m d) : AwaitsEgress d n m := by
  obtain ⟨r, mem, rfl⟩ := h.queued
  exact ⟨r, mem, h.message⟩

theorem of_same {x : Dev} (h : Standing n f m d) (k : SameStore d x) : Standing n f m x := by
  obtain ⟨queues, frames⟩ := k
  have queue : x.queue (qIx n 15) = d.queue (qIx n 15) := by rw [Dev.queue, queues, Dev.queue]
  have frame : x.frameAt f = d.frameAt f := by rw [Dev.frameAt, frames, Dev.frameAt]
  exact ⟨queue ▸ h.queued, frame ▸ h.message, frame ▸ h.referred, frame ▸ h.held⟩

/-- A change that leaves the store alone. -/
theorem of_only {l : List Area} {x : Dev} (h : Standing n f m d) (o : Only l d x) (k : Area.buf ∉ l) : Standing n f m x :=
  h.of_same (.of_only o k)

theorem ite {c : Prop} {_ : Decidable c} {x : Dev} (h : Standing n f m d) (k : Standing n f m x) : Standing n f m (if c then d else x) := by
  split
  · exact h
  · exact k

/-- A change of the frame that keeps its message and what refers to it. -/
theorem frameM (h : Standing n f m d) {g : Frame → Frame} (k : ∀ x, (g x).ptp = x.ptp ∧ (g x).refs = x.refs ∧ (g x).holds = x.holds) :
    Standing n f m (d.frameM f g) := by
  obtain ⟨ptp, refs, holds⟩ := k (d.frameAt f)
  have kept : ((d.frameM f g).frameAt f).ptp = (d.frameAt f).ptp ∧ ((d.frameM f g).frameAt f).refs = (d.frameAt f).refs ∧
      ((d.frameM f g).frameAt f).holds = (d.frameAt f).holds := by
    rcases frameAt_frameM d f g with changed | stands
    · rw [changed]
      exact ⟨ptp, refs, holds⟩
    · rw [stands]
      exact ⟨rfl, rfl, rfl⟩
  exact ⟨h.queued, kept.1.trans h.message, kept.2.1 ▸ h.referred, kept.2.2 ▸ h.held⟩

theorem when {c : Bool} {g : Dev → Dev} (h : Standing n f m d) (k : ∀ x, Standing n f m x → Standing n f m (g x)) :
    Standing n f m (d.when c g) := by
  cases c
  · exact h
  · exact k d h

theorem mirrorM (h : Standing n f m d) (s : Nat) (g : Mirror → Mirror) : Standing n f m (d.mirrorM s g) :=
  h.of_only (Only.mirrorM d s g) (by decide)

theorem chargeMirrors (h : Standing n f m d) : Standing n f m (d.chargeMirrors f) := by
  unfold Dev.chargeMirrors
  dsimp only
  split
  · exact h
  · refine of_same (frameM ?_ ?_) (SameStore.xoffScan _)
    · repeat' split
      all_goals simp only [mirrorM, h]
    · exact fun _ => ⟨rfl, rfl, rfl⟩

/-- A frame that a copy holds and refers to is settled by its mirrors' charge alone. -/
theorem settleFrame (h : Standing n f m d) : Standing n f m (d.settleFrame f) := by
  have charged := h.chargeMirrors
  unfold Dev.settleFrame
  dsimp only
  rw [if_neg charged.held, if_neg charged.referred, if_neg fun gone => charged.referred gone.1]
  exact charged

theorem mirrorToPort (h : Standing n f m d) (s : Nat) (x : Mirror) (data : List Byte) : Standing n f m (d.mirrorToPort s x f data) := by
  unfold Dev.mirrorToPort
  dsimp only
  split
  · exact h.of_only (Only.discardMirror d s) (by decide)
  · refine of_only (of_only (settleFrame (frameM (h.mirrorM s _) ?_)) (Only.schPortM _ _ _) (by decide)) (Only.count _ _ _) (by decide)
    exact fun _ => ⟨rfl, rfl, rfl⟩

/-- The egress mirror copy of a message leaves it standing. -/
theorem mirrorFrame (h : Standing n f m d) (s : Nat) (set : Mirror) (port cls : Nat) (egress : Bool) (data : List Byte) :
    Standing n f m (d.mirrorFrame s set f port egress cls data none) := by
  have sampled := h.of_only (Only.sampled d s set.sample) (by decide)
  exact sampled.ite ((sampled.mirrorToPort _ _ _).ite (sampled.of_only (Only.writeMirror _ _ _ _) (by decide)))

end Standing

/-! ### PTP messages queued (02 R56, 09 R326) -/

/-- In class 15 a copy joins H, whatever the state of its queue, and wakes no queue of the fair group (08 R298, 09 R329). -/
theorem join_control (d : Dev) (n : Nat) (c : Copy) (voq : d.buf.voq = false) :
    d.join n 15 c = d.queueM (qIx n 15) fun x => { x with h := x.h ++ [{ copy := c, n := c.cells }] } := by
  have class15 : qIx n 15 % 16 = 15 := by unfold qIx; omega
  have no_spill (x : Dev) : x.spillStep (qIx n 15) = x := by simp [Dev.spillStep, class15]
  have no_wake (x : Dev) (v : x.buf.voq = false) (b : Bool) : x.when b (fun d => d.wake (qIx n 15)) = x := by
    cases b
    · rfl
    · simp [Dev.when, Dev.wake, Dev.wfqClasses, v, class15]
  unfold Dev.join
  dsimp only
  rw [if_neg (by simp [voq]), if_neg (by omega), if_pos (.inl rfl), no_spill]
  exact no_wake (d.queueM _ _) voq _

theorem frameAt_store (d : Dev) (fr : Frame) : (d.store fr).2.frameAt (d.store fr).1 = fr := by simp [Dev.frameAt, Dev.store]

/-- A stored message queued in class 15 of a port that takes copies stands there, its egress mirror copy made or not. -/
theorem queueCopy_standing {d : Dev} {n f : Nat} {m : PtpMsg} (takes : TakesCopies d n) (message : (d.frameAt f).ptp = some m)
    (referred : (d.frameAt f).refs ≠ 0) (held : (d.frameAt f).holds ≠ 0) (period : Nat) (data : List Byte) (cut : Bool)
    (egr : Option (Nat × Mirror)) : Standing n f m (d.queueCopy n 15 f period data cut egr none) := by
  obtain ⟨up, voq⟩ := takes
  have joined (c : Copy) (own : c.frame = f) : Standing n f m (d.enqueue n 15 c) := by
    rw [Dev.enqueue, if_pos up, join_control d n c voq]
    refine ⟨⟨{ copy := c, n := c.cells }, ?_, own⟩, message, referred, held⟩
    simp [Dev.queue, Dev.queueM, AMap.getD_upd]
  unfold Dev.queueCopy
  dsimp only
  split
  · exact (joined _ rfl).when fun x h => h.mirrorFrame _ _ _ _ _ _
  · exact joined _ rfl

/-- The frame that a PTP message is stored as: one cell, which its one copy holds. -/
def ptpStored (d : Dev) (n : Nat) (m : PtpMsg) : Frame :=
  { cells := 1, source := .own, data := d.ptpFrame n m false 0 0, ingress := n, refs := 1, holds := 1, ptp := some m }

theorem queuePtp_eq {d : Dev} {n : Nat} (m : PtpMsg) (voq : d.buf.voq = false) :
    d.queuePtp n m = (d.store (ptpStored d n m)).2.queueCopy n 15 (d.store (ptpStored d n m)).1 d.bel.seq (d.ptpFrame n m false 0 0) false
      ((d.store (ptpStored d n m)).2.egrOf n) none := by
  have control : (d.store (ptpStored d n m)).2.controlClass = 15 := by simp [Dev.controlClass, Dev.store, voq]
  rw [← control]
  rfl

/-- A message queued on a port that takes copies waits there for its egress. -/
theorem queuePtp_awaits {d : Dev} {n : Nat} (m : PtpMsg) (takes : TakesCopies d n) : AwaitsEgress (d.queuePtp n m) n m := by
  have takes' : TakesCopies (d.store (ptpStored d n m)).2 n := takes
  have stored := frameAt_store d (ptpStored d n m)
  rw [queuePtp_eq m takes.2]
  refine (queueCopy_standing takes' ?_ ?_ ?_ _ _ _ _).awaits
  · rw [stored, ptpStored]
  · rw [stored]
    exact Nat.one_ne_zero
  · rw [stored]
    exact Nat.one_ne_zero

theorem Only.queuePtp (d : Dev) (n : Nat) (m : PtpMsg) :
    Only [.free, .out, .cnt, .hif, .mac, .fwd, .buf, .sch, .drc, .bdy] d (d.queuePtp n m) := by
  simp [Dev.queuePtp, (Only.queueCopy _ _ _ _ _ _ _ _ _).iff, (Only.store _ _).iff, Only.refl]

end Sys2Proof


namespace Sys2Proof

open Sys2Proof.Machine

/-! ### Messages received and sent (02 R52, R54, R56, R63) -/

theorem exec_syncRx (dt : Nat) (m : SyncMsg) (s : State) : exec (.syncRx dt m) s = execSyncRx dt m s := rfl
theorem exec_delayReqRx (dt : Nat) (m : DelayReq) (s : State) : exec (.delayReqRx dt m) s = execDelayReqRx dt m s := rfl
theorem exec_pdelayReqRx (dt : Nat) (m : DelayReq) (s : State) : exec (.pdelayReqRx dt m) s = execPdelayReqRx dt m s := rfl
theorem exec_delayRespRx (dt : Nat) (m : DelayResp) (s : State) : exec (.delayRespRx dt m) s = execDelayRespRx dt m s := rfl
theorem exec_pdelayRespRx (dt : Nat) (m : DelayResp) (s : State) : exec (.pdelayRespRx dt m) s = execPdelayRespRx dt m s := rfl
theorem exec_syncTxTimer (dt n : Nat) (s : State) : exec (.syncTxTimer dt n) s = execSyncTxTimer dt n s := rfl
theorem exec_delayReqTxTimer (dt n : Nat) (s : State) : exec (.delayReqTxTimer dt n) s = execDelayReqTxTimer dt n s := rfl
theorem exec_pdelayReqTxTimer (dt n : Nat) (s : State) : exec (.pdelayReqTxTimer dt n) s = execPdelayReqTxTimer dt n s := rfl

/-! What the decision about a message reads does not change with time or counts. -/

@[simp] theorem engineWith_count (d : Dev) (k c n : Nat) (p : TimPort) : (d.count k c).engineWith n p = d.engineWith n p := rfl

@[simp] theorem otherDomain_count (d : Dev) (k c t n : Nat) : (d.count k c).otherDomain t n = d.otherDomain t n := rfl

@[simp] theorem otherDomain_elapse (d : Dev) (dt t n : Nat) : (d.elapse dt).otherDomain t n = d.otherDomain t n := by simp [Dev.otherDomain]

@[simp] theorem rxTime_count (d : Dev) (k c n t : Nat) : (d.count k c).rxTime n t = d.rxTime n t := rfl

@[simp] theorem rxTime_elapse (d : Dev) (dt n t : Nat) : (d.elapse dt).rxTime n t = d.rxTime n t := by simp [Dev.rxTime]

@[simp] theorem portExists_elapse (d : Dev) (dt n : Nat) : (d.elapse dt).portExists n = d.portExists n := by simp [Dev.portExists]

theorem takesCopies_elapse {d : Dev} {n : Nat} (h : TakesCopies d n) (dt : Nat) : TakesCopies (d.elapse dt) n := by
  simpa [TakesCopies] using h

/-- What waits for egress waits when the monitors have looked. -/
theorem AwaitsEgress.settle {d : Dev} {n : Nat} {m : PtpMsg} (h : AwaitsEgress d n m) : AwaitsEgress d.settle n m := by
  simpa [AwaitsEgress, Dev.queue, Dev.frameAt] using h

/-! ### Sync of the selected parent (02 R63) -/

/-- The difference that a Sync shows: receive time less origin time and correction (02 R63). -/
def syncDiffOf (d : Dev) (m : SyncMsg) : Int := q16 ((d.rxTime m.port m.rxRef : Nat) : Int) - q16 ((m.t1 : Nat) : Int) - m.corr

/-- The Sync counted, and its difference noted. -/
def syncNoted (d : Dev) (m : SyncMsg) : Dev :=
  (d.count (cPort m.port 0) 1).timPortM m.port fun p => { p with syncDiff := some (syncDiffOf d m) }

theorem syncNoted_meanD (d : Dev) (m : SyncMsg) : (syncNoted d m).meanD m.port = d.meanD m.port := by simp [Dev.meanD, syncNoted]

/-- A sample leaves what is noted of the ports. -/
theorem servoSample_timPort (d : Dev) (e : Int) (n : Nat) : (d.servoSample e).timPort n = d.timPort n :=
  (Reckons.servoSample d e).reads fun t => AMap.getD t.ports n {}

/-- A Sync of the selected parent is a sample of the servo, of the offset that its difference shows. -/
theorem sync_sampled (dt : Nat) (m : SyncMsg) (s : State) (u : Serving s)
    (engine : s.dev.engineWith m.port (s.dev.timPortAt m.port m.rxRef) = true) (role : (s.dev.timPortAt m.port m.rxRef).role = 2)
    (domain : m.domain = s.dev.tim.domain) (kind : s.dev.tim.servo.srcKind = 1) (port : s.dev.tim.servo.srcPort = m.port)
    (clock : s.dev.tim.servo.parentClock = m.clockId) (number : s.dev.tim.servo.parentPort = m.portNum) :
    Does (.syncRx dt m) s [.tim, .bel] fun x =>
      let diff := q16 ((s.dev.rxTime m.port m.rxRef : Nat) : Int) - q16 ((m.t1 : Nat) : Int) - m.corr
      (x.timPort m.port).syncDiff = some diff ∧ x.tim.servo.sourceValid = true ∧ x.tim.servo.since = s.dev.now + dt ∧
        x.tim.servo.offset = offsetQ (diff - (s.dev.meanD m.port).getD 0 - q16 (s.dev.timPortAt m.port m.rxRef).asym) := by
  have ours : (s.dev.elapse dt).otherDomain 0 m.domain = false := by simp [Dev.otherDomain, domain]
  refine Does.upTo (x := (syncNoted (s.dev.elapse dt) m).servoSample
    (syncDiffOf s.dev m - (s.dev.meanD m.port).getD 0 - q16 (s.dev.timPortAt m.port m.rxRef).asym)) (exec_syncRx dt m s) u ?_ ?_ ?_
  · simp [engine, engineWith_elapse, portExists_of_engineWith engine, role, ours, kind, port, clock, number, syncNoted, syncDiffOf, Dev.meanD]
  · simp [(Only.servoSample _ _).iff, syncNoted, (Only.timPortM _ _ _).iff, (Only.count _ _ _).iff, tells, Only.refl]
  · obtain ⟨offset, valid, since, -⟩ := servoSample_noted (syncNoted (s.dev.elapse dt) m)
      (syncDiffOf s.dev m - (s.dev.meanD m.port).getD 0 - q16 (s.dev.timPortAt m.port m.rxRef).asym)
    rw [timPort_settle, Dev.settle_tim, servoSample_timPort]
    refine ⟨?_, valid, since, offset⟩
    simp [syncNoted, syncDiffOf]

/-! ### Requests answered (02 R52, R56) -/

/-- The answer to a request: its number and its sender, its receive time and its correction. -/
def answerTo (k : PtpKind) (m : DelayReq) (received : Nat) : PtpMsg :=
  { kind := k, seq := m.seq, ts := received, corr := m.corr, reqClock := m.clockId, reqPort := m.portNum }

/-- A request counted and answered leaves its answer waiting for egress. -/
theorem request_answered {i : Instr} {dt : Nat} {k : PtpKind} {m : DelayReq} {s : State} {f : Dev → Dev} (row : exec i s = s.actUp dt f) (u : Serving s)
    (takes : TakesCopies s.dev m.port) (branch : f (s.dev.elapse dt) =
      ((s.dev.elapse dt).count (cPort m.port 0) 1).queuePtp m.port (answerTo k m (s.dev.rxTime m.port m.rxRef))) :
    Does i s wayOfCopies fun x => AwaitsEgress x m.port (answerTo k m (s.dev.rxTime m.port m.rxRef)) := by
  have counted : TakesCopies ((s.dev.elapse dt).count (cPort m.port 0) 1) m.port := takesCopies_elapse takes dt
  refine Does.upTo row u branch ?_ (queuePtp_awaits _ counted).settle
  simp [(Only.queuePtp _ _ _).iff, (Only.count _ _ _).iff, tells, wayOfCopies, Only.refl]

theorem delayReq_answered (dt : Nat) (m : DelayReq) (s : State) (u : Serving s)
    (engine : s.dev.engineWith m.port (s.dev.timPortAt m.port m.rxRef) = true) (takes : TakesCopies s.dev m.port)
    (role : (s.dev.timPortAt m.port m.rxRef).role = 1) (domain : s.dev.otherDomain 1 m.domain = false) :
    Does (.delayReqRx dt m) s wayOfCopies fun x => AwaitsEgress x m.port (answerTo .delayResp m (s.dev.rxTime m.port m.rxRef)) := by
  refine request_answered (exec_delayReqRx dt m s) u takes ?_
  simp [engine, engineWith_elapse, portExists_of_engineWith engine, role, domain, answerTo]

theorem pdelayReq_answered (dt : Nat) (m : DelayReq) (s : State) (u : Serving s)
    (engine : s.dev.engineWith m.port (s.dev.timPortAt m.port m.rxRef) = true) (takes : TakesCopies s.dev m.port)
    (role : (s.dev.timPortAt m.port m.rxRef).role = 1 ∨ (s.dev.timPortAt m.port m.rxRef).role = 2)
    (p2p : (s.dev.timPortAt m.port m.rxRef).p2p = true) (domain : s.dev.otherDomain 2 m.domain = false) :
    Does (.pdelayReqRx dt m) s wayOfCopies fun x => AwaitsEgress x m.port (answerTo .pdelayResp m (s.dev.rxTime m.port m.rxRef)) := by
  have roles : (s.dev.timPortAt m.port m.rxRef).role ≠ 0 := by omega
  refine request_answered (exec_pdelayReqRx dt m s) u takes ?_
  simp [engine, engineWith_elapse, portExists_of_engineWith engine, roles, role, p2p, domain, answerTo]

/-! ### Messages of the timers (02 R56) -/

theorem Only.intervalEnds (d : Dev) (last : Nat) (log : Int) : Only [.time, .cnt] d (d.intervalEnds last log) := by
  simp [Dev.intervalEnds, (Only.reach _ _).iff, Only.ite_iff, Only.refl]

theorem intervalEnds_now (d : Dev) (last : Nat) (log : Int) :
    (d.intervalEnds last log).now = if last = 0 then d.now else max d.now (last + logInterval log) := by
  unfold Dev.intervalEnds
  split
  · rfl
  · exact Dev.reach_now _ _

/-- At the end of its interval a timer notes its message at the port and queues it. -/
theorem timer_sends {i : Instr} {dt n last : Nat} {log : Int} {s : State} {f : Dev → Dev} {m : PtpMsg} {noted : Nat → TimPort → TimPort}
    (row : exec i s = s.actUp dt f) (u : Serving s) (takes : TakesCopies s.dev n)
    (branch : f (s.dev.elapse dt) = (((s.dev.elapse dt).intervalEnds last log).timPortM n
      (noted ((s.dev.elapse dt).intervalEnds last log).now)).queuePtp n m) :
    Does i s (.tim :: wayOfCopies) fun x => AwaitsEgress x n m ∧ x.timPort n = noted x.now (s.dev.timPort n) ∧
      x.now = if last = 0 then s.dev.now + dt else max (s.dev.now + dt) (last + logInterval log) := by
  generalize ending : (s.dev.elapse dt).intervalEnds last log = ended at branch
  have only : Only [.time, .cnt] (s.dev.elapse dt) ended := ending ▸ Only.intervalEnds _ _ _
  have now : ended.now = if last = 0 then s.dev.now + dt else max (s.dev.now + dt) (last + logInterval log) := by
    rw [← ending, intervalEnds_now, Dev.elapse_now]
  have sent : Only _ (ended.timPortM n (noted ended.now)) _ := Only.queuePtp _ n m
  have still : TakesCopies (ended.timPortM n (noted ended.now)) n := by
    simpa [TakesCopies, Dev.port, Dev.timPortM, only.mac (by decide), only.buf (by decide)] using takes
  have port : ended.timPort n = s.dev.timPort n := by simp [Dev.timPort, only.tim (by decide)]
  refine Does.upTo row u branch ?_ ⟨(queuePtp_awaits m still).settle, ?_, ?_⟩
  · simp [(Only.queuePtp _ _ _).iff, (Only.timPortM _ _ _).iff, only.iff, tells, wayOfCopies, Only.refl]
  · rw [timPort_settle, Dev.settle_now, Dev.timPort, sent.tim (by decide), sent.now (by decide)]
    exact (timPort_timPortM _ _ _ _).trans (by rw [if_pos rfl, port]; rfl)
  · rw [Dev.settle_now, sent.now (by decide)]
    exact now

theorem syncTx_numbered (dt n : Nat) (s : State) (u : Serving s) (speaks : SpeaksPtp s.dev n) (role : (s.dev.timPort n).role = 1) :
    Does (.syncTxTimer dt n) s (.tim :: wayOfCopies) fun x => AwaitsEgress x n { kind := .sync, seq := (s.dev.timPort n).seqSync } ∧
      x.timPort n = { s.dev.timPort n with seqSync := ((s.dev.timPort n).seqSync + 1) % 65536, syncAt := x.now } ∧
      x.now = (if (s.dev.timPort n).syncAt = 0 then s.dev.now + dt else
        max (s.dev.now + dt) ((s.dev.timPort n).syncAt + logInterval (s.dev.timPort n).logSync)) := by
  refine timer_sends (noted := fun t p => { p with seqSync := (p.seqSync + 1) % 65536, syncAt := t }) (exec_syncTxTimer dt n s) u speaks.2 ?_
  simp [engine_elapse, speaks.1, role]

theorem delayReqTx_numbered (dt n : Nat) (s : State) (u : Serving s) (speaks : SpeaksPtp s.dev n) (role : (s.dev.timPort n).role = 2)
    (e2e : (s.dev.timPort n).p2p = false) :
    Does (.delayReqTxTimer dt n) s (.tim :: wayOfCopies) fun x => AwaitsEgress x n { kind := .delayReq, seq := (s.dev.timPort n).seqDelayReq } ∧
      x.timPort n = { s.dev.timPort n with seqDelayReq := ((s.dev.timPort n).seqDelayReq + 1) % 65536, delayReqAt := x.now } ∧
      x.now = (if (s.dev.timPort n).delayReqAt = 0 then s.dev.now + dt else
        max (s.dev.now + dt) ((s.dev.timPort n).delayReqAt + logInterval (s.dev.timPort n).logDelayReq)) := by
  refine timer_sends (noted := fun t p => { p with seqDelayReq := (p.seqDelayReq + 1) % 65536, delayReqAt := t }) (exec_delayReqTxTimer dt n s) u
    speaks.2 ?_
  simp [engine_elapse, speaks.1, role, e2e]

theorem pdelayReqTx_numbered (dt n : Nat) (s : State) (u : Serving s) (speaks : SpeaksPtp s.dev n)
    (role : (s.dev.timPort n).role = 1 ∨ (s.dev.timPort n).role = 2) (p2p : (s.dev.timPort n).p2p = true) :
    Does (.pdelayReqTxTimer dt n) s (.tim :: wayOfCopies) fun x => AwaitsEgress x n { kind := .pdelayReq, seq := (s.dev.timPort n).seqPdelayReq } ∧
      x.timPort n = { s.dev.timPort n with seqPdelayReq := ((s.dev.timPort n).seqPdelayReq + 1) % 65536, pdelayReqAt := x.now } ∧
      x.now = (if (s.dev.timPort n).pdelayReqAt = 0 then s.dev.now + dt else
        max (s.dev.now + dt) ((s.dev.timPort n).pdelayReqAt + logInterval (s.dev.timPort n).logPdelayReq)) := by
  refine timer_sends (noted := fun t p => { p with seqPdelayReq := (p.seqPdelayReq + 1) % 65536, pdelayReqAt := t }) (exec_pdelayReqTxTimer dt n s) u
    speaks.2 ?_
  simp [engine_elapse, speaks.1, role, p2p]

/-! ### Answers that give samples (02 R54, R63) -/

/-- A delay sample joins those of its port, of which the last 64 are kept. -/
theorem delaySample_timPort (d : Dev) (n : Nat) (twice : Int) : ∃ r, (d.delaySample n twice).timPort n =
    { d.timPort n with
      delays := (twice :: (d.timPort n).delays).take 64
      avgD := meanDelayOf (((twice :: (d.timPort n).delays).take 64).take d.tim.delayAvg), reported := r } := by
  unfold Dev.delaySample
  extract_lets sampled served _
  obtain ⟨r, reported⟩ := delayReport_timPort served n
  have port : served.timPort n = sampled.timPort n := by
    cases selected : sampled.tim.servo.srcKind == 1 && sampled.tim.servo.srcPort == n <;> simp [served, selected, Dev.when]
  refine ⟨r, ?_⟩
  rw [reported n, if_pos rfl, port, timPort_timPortM, if_pos rfl]

theorem Only.delaySample (d : Dev) (n : Nat) (twice : Int) : Only [.out, .cnt, .hif, .tim] d (d.delaySample n twice) := by
  simp [Dev.delaySample, (Only.delayReport _ _).iff, (Only.servoM _ _).iff, (Only.timPortM _ _ _).iff, Only.when_iff, Only.refl]

theorem delayResp_sampled (dt : Nat) (m : DelayResp) (t3 : Nat) (diff : Int) (s : State) (u : Serving s)
    (engine : s.dev.engineWith m.port (s.dev.timPortAt m.port m.rxRef) = true) (role : (s.dev.timPortAt m.port m.rxRef).role = 2)
    (e2e : (s.dev.timPortAt m.port m.rxRef).p2p = false) (domain : s.dev.otherDomain 9 m.domain = false)
    (asked : (s.dev.timPort m.port).delayReq = some (m.seq, t3)) (sync : (s.dev.timPort m.port).syncDiff = some diff) :
    Does (.delayRespRx dt m) s [.tim] fun x => (x.timPort m.port).delayReq = none ∧ (x.timPort m.port).delays =
      ((diff + (q16 ((m.t4 : Nat) : Int) - q16 ((t3 : Nat) : Int) - m.corr)) :: (s.dev.timPort m.port).delays).take 64 := by
  refine Does.upTo (x := ((s.dev.elapse dt).timPortM m.port fun p => { p with delayReq := none }).delaySample m.port
    (diff + (q16 ((m.t4 : Nat) : Int) - q16 ((t3 : Nat) : Int) - m.corr))) (exec_delayRespRx dt m s) u ?_ ?_ ?_
  · simp [engine, engineWith_elapse, portExists_of_engineWith engine, role, e2e, domain, asked, sync]
  · simp [(Only.delaySample _ _ _).iff, (Only.timPortM _ _ _).iff, tells, Only.refl]
  · obtain ⟨r, port⟩ := delaySample_timPort ((s.dev.elapse dt).timPortM m.port fun p => { p with delayReq := none }) m.port
      (diff + (q16 ((m.t4 : Nat) : Int) - q16 ((t3 : Nat) : Int) - m.corr))
    simp [port]

theorem pdelayResp_sampled (dt : Nat) (m : DelayResp) (t1 : Nat) (s : State) (u : Serving s)
    (engine : s.dev.engineWith m.port (s.dev.timPortAt m.port m.rxRef) = true)
    (role : (s.dev.timPortAt m.port m.rxRef).role ≠ 0 ∧ (s.dev.timPortAt m.port m.rxRef).role ≠ 3)
    (p2p : (s.dev.timPortAt m.port m.rxRef).p2p = true) (domain : s.dev.otherDomain 3 m.domain = false)
    (asked : (s.dev.timPort m.port).pdelayReq = some (m.seq, t1)) :
    Does (.pdelayRespRx dt m) s [.tim] fun x => (x.timPort m.port).pdelayReq = none ∧ (x.timPort m.port).delays =
      ((q16 ((s.dev.rxTime m.port m.rxRef : Nat) : Int) - q16 ((t1 : Nat) : Int) - m.corr) :: (s.dev.timPort m.port).delays).take 64 := by
  refine Does.upTo (x := (((s.dev.elapse dt).count (cPort m.port 0) 1).timPortM m.port fun p => { p with pdelayReq := none }).delaySample m.port
    (q16 ((s.dev.rxTime m.port m.rxRef : Nat) : Int) - q16 ((t1 : Nat) : Int) - m.corr)) (exec_pdelayRespRx dt m s) u ?_ ?_ ?_
  · simp [engine, engineWith_elapse, portExists_of_engineWith engine, role, p2p, domain, asked]
  · simp [(Only.delaySample _ _ _).iff, (Only.timPortM _ _ _).iff, (Only.count _ _ _).iff, tells, Only.refl]
  · obtain ⟨r, port⟩ := delaySample_timPort (((s.dev.elapse dt).count (cPort m.port 0) 1).timPortM m.port fun p => { p with pdelayReq := none })
      m.port (q16 ((s.dev.rxTime m.port m.rxRef : Nat) : Int) - q16 ((t1 : Nat) : Int) - m.corr)
    simp [port]

/-- Settles O15: a message of the module stands in its class whatever mirror copy is made of it, and a sample is noted before the servo reckons
or a delay is reported. -/
theorem timeMessages : Obligations.TimeMessages := by
  unfold Obligations.TimeMessages
  exact ⟨sync_sampled, delayReq_answered, pdelayReq_answered, syncTx_numbered, delayReqTx_numbered, pdelayReqTx_numbered, delayResp_sampled,
    pdelayResp_sampled⟩

end Sys2Proof


namespace Sys2Proof

open Sys2Proof.Machine

/-! ## Zuben framing (04) -/

/-! ### What a reading of Zuben lanes, pages and FlexE groups does not see -/

@[simp] theorem zlane_elapse (d : Dev) (dt l : Nat) : (d.elapse dt).zlane l = d.zlane l := by simp [Dev.zlane]
@[simp] theorem zlane_reach (d : Dev) (t : Q) (l : Nat) : (d.reach t).zlane l = d.zlane l := by simp [Dev.zlane]
@[simp] theorem zlane_settle (d : Dev) (l : Nat) : d.settle.zlane l = d.zlane l := by simp [Dev.zlane]
@[simp] theorem zlane_post (d : Dev) (ev : Nat) (items : List Item) (l : Nat) : (d.post ev items).zlane l = d.zlane l := by simp [Dev.zlane]
@[simp] theorem zlane_zlaneM (d : Dev) (l k : Nat) (f : ZLane → ZLane) : (d.zlaneM l f).zlane k = if k = l then f (d.zlane l) else d.zlane k :=
  AMap.getD_upd _ _ _ _ _

@[simp] theorem ttbLane_elapse (d : Dev) (dt l : Nat) : (d.elapse dt).ttbLane l = d.ttbLane l := by simp [Dev.ttbLane]
@[simp] theorem ttbLane_reach (d : Dev) (t : Q) (l : Nat) : (d.reach t).ttbLane l = d.ttbLane l := by simp [Dev.ttbLane]
@[simp] theorem ttbLane_settle (d : Dev) (l : Nat) : d.settle.ttbLane l = d.ttbLane l := by simp [Dev.ttbLane]
@[simp] theorem ttbLane_post (d : Dev) (ev : Nat) (items : List Item) (l : Nat) : (d.post ev items).ttbLane l = d.ttbLane l := by
  simp [Dev.ttbLane]
@[simp] theorem ttbLane_zlaneM (d : Dev) (l k : Nat) (f : ZLane → ZLane) : (d.zlaneM l f).ttbLane k = d.ttbLane k := rfl
@[simp] theorem ttbLane_ttbLaneM (d : Dev) (l k : Nat) (f : TtbLane → TtbLane) :
    (d.ttbLaneM l f).ttbLane k = if k = l then f (d.ttbLane l) else d.ttbLane k := AMap.getD_upd _ _ _ _ _

@[simp] theorem flexe_elapse (d : Dev) (dt n : Nat) : (d.elapse dt).flexe n = d.flexe n := by simp [Dev.flexe]
@[simp] theorem flexe_reach (d : Dev) (t : Q) (n : Nat) : (d.reach t).flexe n = d.flexe n := by simp [Dev.flexe]
@[simp] theorem flexe_settle (d : Dev) (n : Nat) : d.settle.flexe n = d.flexe n := by simp [Dev.flexe]
@[simp] theorem port_flexeM (d : Dev) (n k : Nat) (f : FlexE → FlexE) : (d.flexeM n f).port k = d.port k := rfl
@[simp] theorem flexe_post (d : Dev) (ev : Nat) (items : List Item) (n : Nat) : (d.post ev items).flexe n = d.flexe n := by simp [Dev.flexe]
@[simp] theorem flexe_flexeM (d : Dev) (n k : Nat) (f : FlexE → FlexE) : (d.flexeM n f).flexe k = if k = n then f (d.flexe n) else d.flexe k :=
  AMap.getD_upd _ _ _ _ _

@[simp] theorem lane_elapse (d : Dev) (dt l : Nat) : (d.elapse dt).lane l = d.lane l := by simp [Dev.lane]
@[simp] theorem isZuben_elapse (d : Dev) (dt l : Nat) : (d.elapse dt).isZuben l = d.isZuben l := by simp [Dev.isZuben]
@[simp] theorem zubenLanes_elapse (d : Dev) (dt : Nat) : (d.elapse dt).zubenLanes = d.zubenLanes := by
  simp [Dev.zubenLanes, Dev.portList, Dev.portLanes]

theorem Only.zlane {as : List Area} {d e : Dev} (h : Only as d e) (k : Area.zbn ∉ as) (l : Nat) : e.zlane l = d.zlane l := by
  rw [Dev.zlane, h.zbn k, Dev.zlane]

theorem Only.ttbLane {as : List Area} {d e : Dev} (h : Only as d e) (k : Area.ttb ∉ as) (l : Nat) : e.ttbLane l = d.ttbLane l := by
  rw [Dev.ttbLane, h.ttb k, Dev.ttbLane]

theorem Only.flexe {as : List Area} {d e : Dev} (h : Only as d e) (k : Area.zbn ∉ as) (n : Nat) : e.flexe n = d.flexe n := by
  rw [Dev.flexe, h.zbn k, Dev.flexe]

/-! ### The end of a command that is named by its ring and tag -/

theorem complete_inflight (d : Dev) (k : Nat) (c : Compl) : (d.complete k c).hif.inflight = d.hif.inflight := by
  unfold Dev.complete Dev.deliver
  dsimp only
  repeat' split
  all_goals rfl

/-- A command that has ended is no longer in flight. -/
theorem finish_cmdAt (d : Dev) (c : Cmd) (st r : Nat) (own : c.mirrored = false) : (d.finish c st r).cmdAt c.e.ring c.e.tag = none := by
  have left : d.finish c st r = (leaving d c st).complete c.cring (c.completion st r) := by
    unfold Dev.finish
    rw [own]
    rfl
  rw [left, Dev.cmdAt, complete_inflight]
  exact leaving_cmdAt d c st own

theorem finishAt_cmdAt (d : Dev) (ring tag st r : Nat) : (d.finishAt ring tag st r).cmdAt ring tag = none := by
  unfold Dev.finishAt
  split
  next c found =>
    have named := List.find?_some found
    simp only [Bool.and_eq_true, Bool.not_eq_true', beq_iff_eq] at named
    obtain ⟨⟨own, rfl⟩, rfl⟩ := named
    exact finish_cmdAt d c st r own
  next gone => exact gone

/-! ### What a row does -/

/-- What a row does, its effect has done. -/
theorem Does.effect {i : Instr} {s : State} {as : List Area} {P : Dev → Prop} {dt : Nat} {f : Dev → Dev} (h : Does i s as P)
    (row : exec i s = s.actUp dt f) (u : Serving s) : P (f (s.dev.elapse dt)).settle := by
  obtain ⟨t, next, -, -, p⟩ := h
  rw [row, actUp_up u.1 u.2] at next
  cases next
  exact p

/-- What a row does, said of what follows from it. -/
theorem Does.imp {i : Instr} {s : State} {as : List Area} {P Q : Dev → Prop} (h : Does i s as P) (k : ∀ x, P x → Q x) : Does i s as Q := by
  obtain ⟨t, next, queue, only, p⟩ := h
  exact ⟨t, next, queue, only, k _ p⟩

/-- A change made for each of several, of which each makes its own come true and none undoes that of another, where all keep what they
build on. -/
theorem each_reaches {α : Type} {I : Dev → Prop} {Q : α → Dev → Prop} {f : α → Dev → Dev} (stays : ∀ a x, I x → I (f a x))
    (makes : ∀ a x, I x → Q a (f a x)) (keeps : ∀ a b x, Q a x → Q a (f b x)) {xs : List α} {a : α} (h : a ∈ xs) {d : Dev} (i : I d) :
    Q a (d.each xs f) := by
  have stands (ys : List α) (x : Dev) (q : Q a x) : Q a (x.each ys f) := by
    induction ys generalizing x with
    | nil => exact q
    | cons b ys ih => exact ih _ (keeps a b x q)
  induction xs generalizing d with
  | nil => cases h
  | cons b xs ih =>
    rcases List.mem_cons.1 h with rfl | later
    · exact stands xs _ (makes a d i)
    · exact ih later (stays b d i)

end Sys2Proof


namespace Sys2Proof

open Sys2Proof.Machine

/-! ### The index of a buddy lane that carries a lane number (04 R126, R146, 17 R528)

A row that names a lane index asks first whether it is that of a buddy lane, and then acts on the buddy lane, whatever lane number the index
is noted as carrying. -/

theorem exec_zubenFrameRx (dt i : Nat) (z : ZFrame) (s : State) : exec (.zubenFrameRx dt i z) s = execZubenFrameRx dt i z s := rfl
theorem exec_bipWindowEnd (dt i : Nat) (sf : Bool) (s : State) : exec (.bipWindowEnd dt i sf) s = execBipWindowEnd dt i sf s := rfl

/-- Lane 3 of a Zuben port is in SYNC with a BIP window complete, and the index 1,152, that of a buddy lane, is noted as carrying lane 3. -/
def buddyCarries : State :=
  { State.reset with dev :=
    { State.reset.dev with
      glb := { State.reset.dev.glb with phase := 6 }
      lne := { State.reset.dev.lne with lanes := [(3, { state := .up, use := 1, port := 3 }), (1152, { use := 2, replaces := 3 })] }
      mac := { State.reset.dev.mac with ports := [(3, { state := .up, framing := 1 })] }
      zbn := { State.reset.dev.zbn with lanes := [(3, { align := .sync, sf := { exp := 3, frames := 1250 } })] } } }

theorem buddyCarries_serves : Serving buddyCarries := by decide

theorem buddyCarries_carried : buddyCarries.dev.carried 1152 = some 3 ∧ buddyCarries.dev.isZuben 3 = true ∧ buddyCarries.dev.laneUp 3 = true := by
  decide

/-- The lane of the buddy's index is off and has no window under way. -/
theorem buddyCarries_off : (buddyCarries.dev.lane 1152).state = .off ∧ buddyCarries.dev.zlane 1152 = {} := by decide

/-- Refutes O32: a frame that arrives on the index of a buddy lane is taken as the buddy lane's, and where that index is noted as carrying a
lane number, which the statement does not exclude, the lane number has no parity from it. -/
theorem not_zubenFramesReceived : ¬ Obligations.ZubenFramesReceived := by
  unfold Obligations.ZubenFramesReceived
  rintro ⟨received, -⟩
  obtain ⟨carried, zuben, up⟩ := buddyCarries_carried
  have parity := ((received 5 1152 3 {} buddyCarries buddyCarries_serves carried zuben up (by decide)).effect
    (exec_zubenFrameRx 5 1152 {} buddyCarries) buddyCarries_serves).1
  have none_known : (buddyCarries.dev.zlane 3).bip = none := by decide
  simp [isBuddyIx, buddyCarries_off, Dev.when, none_known] at parity

/-- Refutes O34: the row looks at the BIP window of the buddy lane whose index it names; where that index is noted as carrying a lane number,
which the statement does not exclude, the complete window of the lane number stands. -/
theorem not_zubenAlignment : ¬ Obligations.ZubenAlignment := by
  unfold Obligations.ZubenAlignment
  rintro ⟨-, -, -, -, -, windowEnds, -⟩
  obtain ⟨carried, zuben, -⟩ := buddyCarries_carried
  have begun := ((windowEnds 5 1152 3 buddyCarries buddyCarries_serves carried zuben (by decide)).effect
    (exec_bipWindowEnd 5 1152 true buddyCarries) buddyCarries_serves).1
  have complete : (buddyCarries.dev.zlane 3).sf = { exp := 3, frames := 1250 } := by decide
  simp [isBuddyIx, buddyCarries_off, complete, windowFrames] at begun

end Sys2Proof


namespace Sys2Proof

open Sys2Proof.Machine

/-! ### What a frame sent may change (04 R125 to R134) -/

theorem Only.takeSlot (d : Dev) (l s e : Nat) (ts : List Nat) : Only [.free, .cnt, .ttb] d (d.takeSlot l s e ts).2 := by
  have counted : Only [.free, .cnt, .ttb] d { d with free := d.free + ts.length } := by
    intro x k
    cases x
    case free => exact absurd (by decide) k
    all_goals rfl
  unfold Dev.takeSlot
  dsimp only
  split <;> simp [(Only.count _ _ _).iff, (Only.protM _ _ _).iff, (Only.ttbM _ _).iff, counted]

theorem Only.takeSeat (d : Dev) (l s k x : Nat) (ts : List Nat) : Only [.cnt, .ttb] d (d.takeSeat l s k x ts).2 := by
  unfold Dev.takeSeat
  split <;> simp [(Only.count _ _ _).iff, (Only.ttbM _ _).iff, Only.refl]

theorem Only.takeSeats (d : Dev) (l s : Nat) (pg : Page) (ks : List (Nat × List Nat)) : Only [.cnt, .ttb] d (d.takeSeats l s pg ks).2 := by
  induction ks generalizing d with
  | nil => exact Only.refl _ d
  | cons k ks ih => exact (Only.takeSeat d l s k.1 _ k.2).trans (ih _)

theorem Only.takeBlocks (d : Dev) (l s : Nat) (pg : Page) (no : Nat) (ts : List Nat) : Only [.free, .cnt, .ttb] d (d.takeBlocks l s pg no ts).2 := by
  unfold Dev.takeBlocks
  dsimp only
  (repeat' split) <;> simp [(Only.takeSeats _ _ _ _ _).iff, (Only.takeSlot _ _ _ _ _).iff, Only.refl]

theorem Only.slotData (d : Dev) (l s : Nat) (p : TxPlan) : Only [.free, .cnt, .ttb] d (d.slotData l s p).2 := by
  unfold Dev.slotData
  dsimp only
  split <;> simp [(Only.takeBlocks _ _ _ _ _ _).iff, (Only.restartFlows _ _ _ _ _).iff, Only.refl]

theorem Only.columns (d : Dev) (l : Nat) (p : TxPlan) (ss : List Nat) : Only [.free, .cnt, .ttb] d (d.columns l p ss).2 := by
  induction ss generalizing d with
  | nil => exact Only.refl _ d
  | cons s ss ih => exact (Only.slotData d l s p).trans (ih _)

theorem Only.openPayloads (d : Dev) (ls : List Nat) : Only [.free, .cnt, .ttb] d (d.openPayloads ls).2 := by
  induction ls generalizing d with
  | nil => exact Only.refl _ d
  | cons l ls ih =>
    unfold Dev.openPayloads
    split
    · exact (Only.columns d l _ _).trans (ih _)
    · exact ih d

theorem Only.zportM (d : Dev) (n : Nat) (f : ZPort → ZPort) : Only [.zbn] d (d.zportM n f) := by
  simp [Dev.zportM, (Only.zbnM _ _).iff, Only.refl]

theorem Only.sentOn (d : Dev) (is : List Nat) (o : Nat → Out) : Only [.out] d (d.each is fun i d => d.emit (o i)) :=
  Only.each is (fun _ x => Only.emit x _) d

theorem Only.endFrames (d : Dev) (n : Nat) : Only [.free, .out, .cnt, .zbn, .ttb] d (d.endFrames n).2 := by
  unfold Dev.endFrames
  dsimp only
  rw [Only.each_iff fun _ x => (Only.zlaneM x _ _).mono (by decide), Only.each_iff fun _ x => (Only.sentOn x _ _).mono (by decide)]
  simp [(Only.zportM _ _ _).iff, (Only.openPayloads _ _).iff, Only.refl]

theorem Only.slotTx (d : Dev) (l s : Nat) : Only [.cnt, .zbn] d (d.slotTx l s).2.2 := by
  unfold Dev.slotTx
  dsimp only
  split <;> simp [(Only.zslotM _ _ _ _).iff, (Only.count _ _ _).iff, Only.when_iff, Only.refl]

theorem Only.slotSwitch (d : Dev) (l s m : Nat) : Only [.cnt, .zbn] d (d.slotSwitch l s m).2.2 := by
  simp [Dev.slotSwitch, (Only.zslotM _ _ _ _).iff, Only.refl]

theorem Only.slotsTx (d : Dev) (l : Nat) (sw : Option Nat) (ss : List Nat) : Only [.cnt, .zbn] d (d.slotsTx l sw ss).2.2 := by
  induction ss generalizing d with
  | nil => exact Only.refl _ d
  | cons s ss ih =>
    cases sw with
    | none => exact (Only.slotTx d l s).trans (ih _)
    | some m => exact (Only.slotSwitch d l s m).trans (ih _)

theorem Only.fixTarget (d : Dev) (l : Nat) : Only [.zbn] d (d.fixTarget l) := by
  simp [Dev.fixTarget, (Only.zlaneM _ _ _).iff, Only.ite_iff, Only.refl]

theorem Only.reported (d : Dev) (l m : Nat) : Only [.zbn] d (d.reported l m) := by
  simp [Dev.reported, (Only.zslotM _ _ _ _).iff, Only.ite_iff, Only.refl]

/-! ### The overhead of a frame (04 R125, R126) -/

theorem rotating_length (d : Dev) (l m : Nat) : (d.rotating l m).length = 3 := by
  unfold Dev.rotating
  split <;> rfl

/-- The octets before the CRC: the multiframe count and 21 others. -/
theorem overheadOf_eq (d : Dev) (l mfc bip : Nat) (sw : Option Nat) {rot : List Byte} (three : rot.length = 3) (jcs : List Nat) (prdi : Nat) :
    ∃ rest : List Byte, d.overheadOf l mfc bip sw rot jcs prdi = sealOverhead (mfc :: rest) ∧ rest.length = 21 := by
  unfold Dev.overheadOf
  refine ⟨_, rfl, ?_⟩
  cases d.frameBell l sw <;> simp [three, bytesBE, bytesLE]

/-- The overhead octets of a frame: 24, with the multiframe count first and the CRC-16 of the 22 before it last. -/
def Sealed (mfc : Nat) (oh : List Byte) : Prop :=
  oh.length = 24 ∧ nth oh 0 0 = mfc ∧ nth oh 22 0 * 256 + nth oh 23 0 = crc16 (oh.take 22) % 65536

theorem sealed_sealOverhead {mfc : Nat} {rest : List Byte} (others : rest.length = 21) : Sealed mfc (sealOverhead (mfc :: rest)) := by
  refine ⟨?_, rfl, ?_⟩
  · simp [sealOverhead, others, bytesBE, bytesLE]
  · have octets : (mfc :: rest).length = 22 := by simp [others]
    have high : nth (sealOverhead (mfc :: rest)) 22 0 = crc16 (mfc :: rest) / 256 % 256 := by
      rw [nth, sealOverhead, List.getD_eq_getElem?_getD, List.getElem?_append_right (Nat.le_of_eq octets), octets]
      rfl
    have low : nth (sealOverhead (mfc :: rest)) 23 0 = crc16 (mfc :: rest) % 256 := by
      rw [nth, sealOverhead, List.getD_eq_getElem?_getD, List.getElem?_append_right (by omega), octets]
      rfl
    have joined (c : Nat) : c / 256 % 256 * 256 + c % 256 = c % 65536 := by omega
    rw [high, low, sealOverhead, List.take_left' octets]
    exact joined _

/-! ### A frame begins (04 R124, R125) -/

theorem exec_zubenFrameTx (dt n : Nat) (s : State) : exec (.zubenFrameTx dt n) s = execZubenFrameTx dt n s := rfl

/-- A sealed overhead with a multiframe count has left on a lane index. -/
def HeadSent (mfc i : Nat) (d : Dev) : Prop := ∃ oh, Out.zubenHead i (overheadBlocks oh) ∈ d.out ∧ Sealed mfc oh

/-- Lane indices of a lane number depend on the lanes and their spare lanes alone. -/
theorem Only.txIndices {as : List Area} {d e : Dev} (h : Only as d e) (lanes : Area.lne ∉ as) (spares : Area.sub ∉ as) (l : Nat) :
    e.txIndices l = d.txIndices l := by
  rw [Dev.txIndices, Dev.lane, Dev.cluster, h.lne lanes, h.sub spares]
  rfl

theorem each_emit_out (d : Dev) (is : List Nat) (o : Nat → Out) : (d.each is fun i d => d.emit (o i)).out = (is.map o).reverse ++ d.out := by
  induction is generalizing d with
  | nil => rfl
  | cons i is ih => simpa [Dev.each] using ih (d.emit (o i))

/-- A frame begins in three steps: what its overhead says is fixed, the sealed overhead leaves on the lane indices of its lane number, and
what has left is noted. -/
theorem beginFrame_steps (d : Dev) (l mfc bip : Nat) : ∃ (e : Dev) (oh : List Byte), Only [.cnt, .zbn] d e ∧ Sealed mfc oh ∧
    Only [.cnt, .zbn, .ttb] (e.each (e.txIndices l) fun i e => e.emit (.zubenHead i (overheadBlocks oh))) (d.beginFrame l mfc bip) := by
  unfold Dev.beginFrame
  extract_lets started sw old new prdi rot
  have fixed : Only [.cnt, .zbn] d ((started.reported l mfc).slotsTx l sw (List.range 20)).2.2 := by
    simp [(Only.slotsTx _ _ _ _).iff, (Only.reported _ _ _).iff, started, (Only.zlaneM _ _ _).iff, (Only.fixTarget _ _).iff, Only.refl]
  generalize (started.reported l mfc).slotsTx l sw (List.range 20) = x at fixed ⊢
  obtain ⟨jcs, nos, e⟩ := x
  obtain ⟨rest, said, others⟩ := overheadOf_eq e l mfc bip sw (rotating_length started l mfc) jcs prdi
  refine ⟨e, e.overheadOf l mfc bip sw rot jcs prdi, fixed, said ▸ sealed_sealOverhead others, ?_⟩
  simp [(Only.zlaneM _ _ _).iff, (Only.ttbLaneM _ _ _).iff, (Only.count _ _ _).iff, Only.when_iff, Only.refl]

theorem Only.beginFrame (d : Dev) (l mfc bip : Nat) : Only [.out, .cnt, .zbn, .ttb] d (d.beginFrame l mfc bip) := by
  obtain ⟨e, oh, fixed, -, noted⟩ := beginFrame_steps d l mfc bip
  exact (fixed.mono (by decide)).trans (((Only.sentOn _ _ _).mono (by decide)).trans (noted.mono (by decide)))

/-- A frame that begins sends its overhead on each lane index of its lane number, and nothing else. -/
theorem beginFrame_out (d : Dev) (l mfc bip : Nat) : ∃ oh, Sealed mfc oh ∧
    (d.beginFrame l mfc bip).out = ((d.txIndices l).map fun i => Out.zubenHead i (overheadBlocks oh)).reverse ++ d.out := by
  obtain ⟨e, oh, fixed, octets, noted⟩ := beginFrame_steps d l mfc bip
  exact ⟨oh, octets, by rw [noted.out (by decide), each_emit_out, fixed.txIndices (by decide) (by decide), fixed.out (by decide)]⟩

/-- The BIP8 of a lane's frame: the parity of the frame before, or, where there was none, a free value. -/
def frameBip (parities : List (Nat × Nat)) (l : Nat) (e : Dev) : Nat :=
  match parities.find? fun p => p.1 == l with | some p => p.2 | none => Config.openValue e.free % 256

/-- The frame of one lane begins. -/
def laneBegins (mfc : Nat) (parities : List (Nat × Nat)) (l : Nat) (e : Dev) : Dev :=
  { e.beginFrame l mfc (frameBip parities l e) with free := (e.beginFrame l mfc (frameBip parities l e)).free + 1 }

theorem Only.laneBegins (mfc : Nat) (parities : List (Nat × Nat)) (l : Nat) (e : Dev) :
    Only [.free, .out, .cnt, .zbn, .ttb] e (Sys2Proof.laneBegins mfc parities l e) := by
  have counted (x : Dev) : Only [.free] x { x with free := x.free + 1 } := Only.fresh x
  exact ((Only.beginFrame e l mfc _).mono (by decide)).trans ((counted _).mono (by decide))

theorem laneBegins_out (mfc : Nat) (parities : List (Nat × Nat)) (l : Nat) (e : Dev) : ∃ oh, Sealed mfc oh ∧
    (laneBegins mfc parities l e).out = ((e.txIndices l).map fun i => Out.zubenHead i (overheadBlocks oh)).reverse ++ e.out :=
  beginFrame_out e l mfc (frameBip parities l e)

/-- On each lane index of a lane number, as the module stands, an overhead with a multiframe count has left. -/
def LaneSent (s : Dev) (mfc l : Nat) (d : Dev) : Prop := ∀ i ∈ s.txIndices l, HeadSent mfc i d

theorem laneBegins_sends {s e : Dev} {l : Nat} (indices : e.txIndices l = s.txIndices l) (mfc : Nat) (parities : List (Nat × Nat)) :
    LaneSent s mfc l (laneBegins mfc parities l e) := by
  intro i listed
  obtain ⟨oh, octets, sent⟩ := laneBegins_out mfc parities l e
  exact ⟨oh, by simp [sent, indices, listed], octets⟩

/-- What has left has left. -/
theorem laneBegins_keeps {s e : Dev} {mfc l : Nat} (h : LaneSent s mfc l e) (m : Nat) (parities : List (Nat × Nat)) (k : Nat) :
    LaneSent s mfc l (laneBegins m parities k e) := by
  intro i listed
  obtain ⟨oh, sent, octets⟩ := h i listed
  obtain ⟨_, -, more⟩ := laneBegins_out m parities k e
  exact ⟨oh, by simp [more, sent], octets⟩

/-- The frames before have ended, and the lanes of a port that send have begun theirs with one multiframe count (04 R124). -/
def framesBegun (d : Dev) (n : Nat) : Dev :=
  (d.endFrames n).2.each ((d.portLanes n).filter d.laneSends) (laneBegins (d.zport n).mfc (d.endFrames n).1)

theorem zubenSend_eq (d : Dev) (n : Nat) : d.zubenSend n =
    (framesBegun d n).zportM n fun z => { z with mfc := ((d.zport n).mfc + 1) % 32, sentAt := some (framesBegun d n).now } := rfl

theorem Only.framesBegun (d : Dev) (n : Nat) : Only [.free, .out, .cnt, .zbn, .ttb] d (Sys2Proof.framesBegun d n) :=
  (Only.endFrames d n).trans (Only.each _ (fun l e => Only.laneBegins _ _ l e) _)

theorem framesBegun_sent {d : Dev} {n l : Nat} (sends : l ∈ (d.portLanes n).filter d.laneSends) :
    LaneSent d (d.zport n).mfc l (framesBegun d n) :=
  each_reaches (I := Only [.free, .out, .cnt, .zbn, .ttb] d) (fun l e o => o.trans (Only.laneBegins _ _ l e))
    (fun l _ o => laneBegins_sends (o.txIndices (by decide) (by decide) l) _ _) (fun _ k _ h => laneBegins_keeps h _ _ k) sends (Only.endFrames d n)

theorem zport_zportM (d : Dev) (n : Nat) (f : ZPort → ZPort) : (d.zportM n f).zport n = f (d.zport n) :=
  (AMap.getD_upd _ _ _ _ _).trans (if_pos rfl)

@[simp] theorem zportM_now (d : Dev) (n : Nat) (f : ZPort → ZPort) : (d.zportM n f).now = d.now := rfl
@[simp] theorem zportM_out (d : Dev) (n : Nat) (f : ZPort → ZPort) : (d.zportM n f).out = d.out := rfl
@[simp] theorem zport_elapse (d : Dev) (dt n : Nat) : (d.elapse dt).zport n = d.zport n := by simp [Dev.zport]
@[simp] theorem zport_settle (d : Dev) (n : Nat) : d.settle.zport n = d.zport n := by simp [Dev.zport]

theorem sendingLanes_elapse (d : Dev) (dt n : Nat) :
    ((d.elapse dt).portLanes n).filter (d.elapse dt).laneSends = (d.portLanes n).filter d.laneSends := by
  have same : (d.elapse dt).laneSends = d.laneSends := by
    funext l
    simp [Dev.laneSends, Dev.carrier, Dev.lane]
  rw [same, Dev.portLanes, port_elapse, Dev.portLanes]

theorem frames_sent (dt n : Nat) (s : State) (u : Serving s) (formed : (s.dev.port n).state ≠ .absent) (zuben : (s.dev.port n).framing = 1) :
    Does (.zubenFrameTx dt n) s [.zbn, .ttb, .free] fun x =>
      (∀ l ∈ (s.dev.portLanes n).filter s.dev.laneSends, ∀ i ∈ s.dev.txIndices l, ∃ oh : List Byte,
        Out.zubenHead i (overheadBlocks oh) ∈ x.out ∧ oh.length = 24 ∧ nth oh 0 0 = (s.dev.zport n).mfc ∧
          nth oh 22 0 * 256 + nth oh 23 0 = crc16 (oh.take 22) % 65536) ∧
      (x.zport n).mfc = ((s.dev.zport n).mfc + 1) % 32 ∧ (x.zport n).sentAt = some x.now := by
  refine Does.upTo (x := (s.dev.elapse dt).zubenSend n) (exec_zubenFrameTx dt n s) u ?_ ?_ ?_
  · simp [formed, zuben]
  · simp [zubenSend_eq, (Only.zportM _ _ _).iff, (Only.framesBegun _ _).iff, tells, Only.refl]
  · refine ⟨fun l sends i listed => ?_, ?_⟩
    · obtain ⟨oh, sent, octets⟩ := framesBegun_sent (sendingLanes_elapse s.dev dt n ▸ sends) i
        ((Only.elapse s.dev dt).txIndices (by decide) (by decide) l ▸ listed)
      rw [zport_elapse] at octets
      exact ⟨oh, by rwa [Dev.settle_out, zubenSend_eq, zportM_out], octets⟩
    · simp [zubenSend_eq, zport_zportM]

/-- Settles O33: no lane's frame takes back what another lane's has sent, and the multiframe count of all of them is read before the first
begins. -/
theorem zubenFramesSent : Obligations.ZubenFramesSent := by
  unfold Obligations.ZubenFramesSent
  exact frames_sent

end Sys2Proof


namespace Sys2Proof

open Sys2Proof.Machine

/-! ### Handshakes (04 R137, R141) -/

theorem exec_handshakeAckDeadline (dt l : Nat) (s : State) : exec (.handshakeAckDeadline dt l) s = execHandshakeAckDeadline dt l s := rfl
theorem exec_nakSentThree (dt l : Nat) (s : State) : exec (.nakSentThree dt l) s = execNakSentThree dt l s := rfl
theorem exec_pageMismatchHeld (dt l : Nat) (s : State) : exec (.pageMismatchHeld dt l) s = execPageMismatchHeld dt l s := rfl

/-- The handshake of a lane is IDLE, and what it was is counted and told. -/
def hsEnded (d : Dev) (l : Nat) : Dev :=
  let z := d.zlane l
  (d.zlaneM l ZLane.hsIdle).when (z.hs == .requesting || z.hs == .agreed) fun d => (d.count (cLane l 9) 1).postHs l z.hsTag 1

theorem Only.hsEnded (d : Dev) (l : Nat) : Only [.cnt, .hif, .out] (d.zlaneM l ZLane.hsIdle) (Sys2Proof.hsEnded d l) := by
  simp [Sys2Proof.hsEnded, (Only.count _ _ _).iff, (Only.postHs _ _ _ _).iff, Only.when_iff, Only.refl]

theorem hsFail_eq (d : Dev) (l reason : Nat) : d.hsFail l reason = (hsEnded d l).switchFail l reason := rfl

theorem hsFail_zlane (d : Dev) (l reason : Nat) : (d.hsFail l reason).zlane l = (d.zlane l).hsIdle := by
  rw [hsFail_eq, (Only.switchFail _ _ _).zlane (by decide), (Only.hsEnded _ _).zlane (by decide), zlane_zlaneM, if_pos rfl]

/-- The switch of a page that waits fails: it and its command are gone, and the page in force stands (05 R176). -/
theorem switchFail_switch {d : Dev} {l : Nat} {w : SwitchCmd} (reason : Nat) (waits : (d.ttbLane l).switch = some w) :
    (d.switchFail l reason).ttbLane l = { d.ttbLane l with switch := none } ∧ (d.switchFail l reason).cmdAt w.ring w.tag = none := by
  unfold Dev.switchFail
  rw [waits]
  exact ⟨by rw [(Only.finishAtIn _ _ _ _ _).ttbLane (by decide)]; simp, finishAt_cmdAt _ _ _ _ _⟩

theorem hsFail_switch {d : Dev} {l : Nat} {w : SwitchCmd} (reason : Nat) (waits : (d.ttbLane l).switch = some w) :
    (d.hsFail l reason).ttbLane l = { d.ttbLane l with switch := none } ∧ (d.hsFail l reason).cmdAt w.ring w.tag = none := by
  have page : (hsEnded d l).ttbLane l = d.ttbLane l := (Only.hsEnded d l).ttbLane (by decide) l
  rw [hsFail_eq, ← page]
  exact switchFail_switch reason (page ▸ waits)

/-- The handshake of a lane as the instant finds it at which its ACK had to come: one frame time before its bell. -/
def ackMissed (d : Dev) (l : Nat) : Dev := (d.reach (d.tagInstant (d.zlane l).hsTag - (frameTime : Int)).toNat).hsFail l 2

theorem handshakeAck_missed (dt l : Nat) (w : SwitchCmd) (s : State) (u : Serving s) (requesting : (s.dev.zlane l).hs = .requesting)
    (sent : (s.dev.zlane l).reqSent = true) (waits : (s.dev.ttbLane l).switch = some w) :
    Does (.handshakeAckDeadline dt l) s [.zbn, .ttb, .bdy] fun x => x.zlane l = (s.dev.zlane l).hsIdle ∧ (x.ttbLane l).switch = none ∧
      (x.ttbLane l).active = (s.dev.ttbLane l).active ∧ x.cmdAt w.ring w.tag = none := by
  refine Does.upTo (x := ackMissed (s.dev.elapse dt) l) (exec_handshakeAckDeadline dt l s) u ?_ ?_ ?_
  · simp [ackMissed, requesting, sent]
  · simp [ackMissed, (Only.hsFail _ _ _).iff, (Only.reach _ _).iff, tells, Only.refl]
  · obtain ⟨page, gone⟩ := hsFail_switch (d := (s.dev.elapse dt).reach _) 2 (by simpa using waits)
    rw [zlane_settle, ttbLane_settle, settle_cmdAt, ackMissed, hsFail_zlane, page]
    exact ⟨by simp, rfl, by simp, gone⟩

theorem naks_sent (dt l : Nat) (s : State) (u : Serving s) (naking : (s.dev.zlane l).hs = .naking) (all_sent : (s.dev.zlane l).naksLeft = 0)
    (none_waits : (s.dev.ttbLane l).switch = none) : Does (.nakSentThree dt l) s [.zbn] fun x => x.zlane l = (s.dev.zlane l).hsIdle := by
  refine Does.upTo (x := (s.dev.elapse dt).zlaneM l ZLane.hsIdle) (exec_nakSentThree dt l s) u ?_ ?_ ?_
  · simp [naking, all_sent, Dev.startRequest, none_waits]
  · simp [(Only.zlaneM _ _ _).iff, Only.refl]
  · simp

theorem pageMismatch_posted (dt l : Nat) (s : State) (u : Serving s) (zuben : s.dev.isZuben l = true) (held : 3 ≤ (s.dev.zlane l).pageBells)
    (untold : (s.dev.zlane l).pagePosted = false) (atBell : (s.dev.elapse dt).atBell = true) :
    Does (.pageMismatchHeld dt l) s [.zbn] fun x => x.zlane l = { s.dev.zlane l with pagePosted := true } := by
  refine Does.up (exec_pageMismatchHeld dt l s) u ?_ ?_
  · simp [zuben, held, untold, atBell, (Only.postIn _ _ _).iff, (Only.zlaneM _ _ _).iff, tells, Only.refl]
  · simp [zuben, held, untold, atBell]

/-! ### Performance (04 R150, R151) -/

theorem exec_pmSecond (dt : Nat) (s : State) : exec (.pmSecond dt) s = execPmSecond dt s := rfl
theorem exec_pmBinClose (dt : Nat) (day : Bool) (s : State) : exec (.pmBinClose dt day) s = execPmBinClose dt day s := rfl

/-- What is noted of the seconds up to one has moved on. -/
def SecondOver (sec : Nat) (p : PmLane) : Prop :=
  (∀ y ∈ p.errored, sec < y.1) ∧ (∀ y ∈ p.feErrored, sec < y.1) ∧ p.slotPos = [] ∧ p.slotNeg = []

theorem secondOver_pmSecondOf (d : Dev) (sec : Nat) (p : PmLane) : SecondOver sec (d.pmSecondOf sec p) := by
  simp [SecondOver, Dev.pmSecondOf]

theorem secondOver_pmNote (d : Dev) (sec l k : Nat) : SecondOver sec ((d.pmNote l).zlane k).pm ↔ SecondOver sec (d.zlane k).pm := by
  simp only [Dev.pmNote, zlane_zlaneM]
  split
  · subst_vars; rfl
  · rfl

/-- The second ends on one lane. -/
def secondEnds (sec l : Nat) (d : Dev) : Dev :=
  ((d.pmNote l).zlaneM l fun z => { z with pm := d.pmSecondOf sec ((d.pmNote l).zlane l).pm }).pmNote l

theorem Only.secondEnds (sec l : Nat) (d : Dev) : Only [.zbn] d (Sys2Proof.secondEnds sec l d) := by
  simp [Sys2Proof.secondEnds, (Only.pmNote _ _).iff, (Only.zlaneM _ _ _).iff, Only.refl]

theorem secondEnds_over (sec l : Nat) (d : Dev) : SecondOver sec ((secondEnds sec l d).zlane l).pm := by
  simp [secondEnds, secondOver_pmNote, secondOver_pmSecondOf]

theorem secondEnds_apart (sec l k : Nat) (d : Dev) (h : SecondOver sec (d.zlane l).pm) : SecondOver sec ((secondEnds sec k d).zlane l).pm := by
  by_cases same : l = k
  · subst same
    exact secondEnds_over sec l d
  · simpa [secondEnds, secondOver_pmNote, same] using h

theorem pmSecond_over (dt : Nat) (s : State) (u : Serving s) : Does (.pmSecond dt) s [.zbn] fun x =>
    let ended := (s.dev.now + dt) / qPerS - 1
    ∀ l ∈ s.dev.zubenLanes, (∀ y ∈ (x.zlane l).pm.errored, ended < y.1) ∧ (∀ y ∈ (x.zlane l).pm.feErrored, ended < y.1) ∧
      (x.zlane l).pm.slotPos = [] ∧ (x.zlane l).pm.slotNeg = [] := by
  refine Does.upTo (x := (s.dev.elapse dt).each s.dev.zubenLanes (secondEnds ((s.dev.now + dt) / qPerS - 1))) (exec_pmSecond dt s) u ?_ ?_ ?_
  · simp only [zubenLanes_elapse, Dev.elapse_now]
    rfl
  · exact Only.each _ (fun l d => (Only.secondEnds _ l d).mono (by decide)) _
  · intro ended l zuben
    rw [zlane_settle]
    exact each_reaches (I := fun _ => True) (Q := fun l x => SecondOver ended (x.zlane l).pm) (fun _ _ _ => trivial)
      (fun k x _ => secondEnds_over ended k x) (fun k b x => secondEnds_apart ended k b x) zuben trivial

/-- The current bin of a lane is complete: its boundary and ten seconds lie before the last bell (04 R151). -/
def binDue (d : Dev) (day : Bool) (l : Nat) : Bool :=
  let p := (d.zlane l).pm
  let cur := if day then p.cur24 else p.cur15
  cur.valid && decide ((cur.start + binLen day + 10) * qPerS ≤ d.bel.lastAt)

/-- A bin of one lane closes where it is complete. -/
def binCloses (day : Bool) (l : Nat) (d : Dev) : Dev :=
  let p := (d.zlane l).pm
  let cur := if day then p.cur24 else p.cur15
  d.when (binDue d day l) fun d =>
    (d.zlaneM l fun z => { z with pm := z.pm.close day }).post 0x0707 [.index l, .code (b2n day), .code (b2n cur.suspect)]

theorem Only.binCloses (day : Bool) (l : Nat) (d : Dev) : Only [.cnt, .hif, .out, .zbn] d (Sys2Proof.binCloses day l d) := by
  simp [Sys2Proof.binCloses, (Only.postIn _ _ _).iff, (Only.zlaneM _ _ _).iff, Only.when_iff, Only.refl]

theorem binCloses_apart (day : Bool) {l k : Nat} (apart : l ≠ k) (d : Dev) : (binCloses day k d).zlane l = d.zlane l := by
  by_cases due : binDue d day k = true
  · simp [binCloses, due, Dev.when, apart]
  · simp [binCloses, due, Dev.when]

theorem binCloses_due {day : Bool} {l : Nat} {d : Dev} (due : binDue d day l = true) :
    ((binCloses day l d).zlane l).pm = (d.zlane l).pm.close day := by
  simp [binCloses, due, Dev.when]

theorem binDue_congr {d x : Dev} {l : Nat} (bell : x.bel = d.bel) (lane : x.zlane l = d.zlane l) (day : Bool) : binDue x day l = binDue d day l := by
  rw [binDue, bell, lane, binDue]

/-- Each lane's bin closes once, as the bell has found it. -/
theorem binsClose {day : Bool} {l : Nat} {ls : List Nat} (once : ls.Nodup) (listed : l ∈ ls) {d : Dev} (due : binDue d day l = true) :
    ((d.each ls (binCloses day)).zlane l).pm = (d.zlane l).pm.close day := by
  have stands (ks : List Nat) (apart : l ∉ ks) (x : Dev) : (x.each ks (binCloses day)).zlane l = x.zlane l := by
    induction ks generalizing x with
    | nil => rfl
    | cons k ks ih =>
      obtain ⟨ne, rest⟩ := not_or.1 (mt List.mem_cons.2 apart)
      exact (ih rest _).trans (binCloses_apart day ne x)
  induction ls generalizing d with
  | nil => cases listed
  | cons k ls ih =>
    obtain ⟨apart, rest⟩ := List.nodup_cons.1 once
    rcases List.mem_cons.1 listed with rfl | later
    · exact (congrArg ZLane.pm (stands ls apart _)).trans (binCloses_due due)
    · have ne : l ≠ k := fun e => apart (e ▸ later)
      have lane := binCloses_apart day ne d
      exact (ih rest later ((binDue_congr ((Only.binCloses day k d).bel (by decide)) lane day).trans due)).trans (by rw [lane])

/-- PM_BIN_CLOSE closes every bin that is complete (04 R151). -/
theorem pmBins_close (dt : Nat) (day : Bool) (s : State) (u : Serving s) (once : s.dev.zubenLanes.Nodup) : Does (.pmBinClose dt day) s [.zbn] fun x =>
    ∀ l ∈ s.dev.zubenLanes, binDue s.dev day l = true → (x.zlane l).pm = (s.dev.zlane l).pm.close day := by
  refine Does.upTo (x := (s.dev.elapse dt).each s.dev.zubenLanes (binCloses day)) (exec_pmBinClose dt day s) u ?_ ?_ ?_
  · simp only [zubenLanes_elapse]
    rfl
  · exact Only.each _ (fun l d => (Only.binCloses day l d).mono (by decide)) _
  · intro l zuben due
    rw [zlane_settle, binsClose once zuben ((binDue_congr (Dev.elapse_bel _ _) (zlane_elapse _ _ _) day).trans due), zlane_elapse]

theorem pmBin15_closes (dt : Nat) (s : State) (u : Serving s) (once : s.dev.zubenLanes.Nodup) : Does (.pmBinClose dt false) s [.zbn] fun x =>
    ∀ l ∈ s.dev.zubenLanes, (s.dev.zlane l).pm.cur15.valid = true → ((s.dev.zlane l).pm.cur15.start + 910) * qPerS ≤ s.dev.bel.lastAt →
      (x.zlane l).pm.prev15 = (s.dev.zlane l).pm.cur15 ∧ (x.zlane l).pm.cur15 = (s.dev.zlane l).pm.next15.getD {} ∧
      (x.zlane l).pm.history = ((s.dev.zlane l).pm.prev15 :: (s.dev.zlane l).pm.history).take 16 := by
  refine (pmBins_close dt false s u once).imp fun x closed l zuben valid due => ?_
  rw [closed l zuben (by simp [binDue, binLen, valid, due])]
  exact ⟨rfl, rfl, rfl⟩

theorem pmBin24_closes (dt : Nat) (s : State) (u : Serving s) (once : s.dev.zubenLanes.Nodup) : Does (.pmBinClose dt true) s [.zbn] fun x =>
    ∀ l ∈ s.dev.zubenLanes, (s.dev.zlane l).pm.cur24.valid = true → ((s.dev.zlane l).pm.cur24.start + 86410) * qPerS ≤ s.dev.bel.lastAt →
      (x.zlane l).pm.prev24 = (s.dev.zlane l).pm.cur24 ∧ (x.zlane l).pm.cur24 = (s.dev.zlane l).pm.next24.getD {} := by
  refine (pmBins_close dt true s u once).imp fun x closed l zuben valid due => ?_
  rw [closed l zuben (by simp [binDue, binLen, valid, due])]
  exact ⟨rfl, rfl⟩

/-! ### FlexE (04 R154, R155) -/

theorem exec_flexeCalendarSwitch (dt n : Nat) (s : State) : exec (.flexeCalendarSwitch dt n) s = execFlexeCalendarSwitch dt n s := rfl
theorem exec_flexeAckTimeout (dt n : Nat) (s : State) : exec (.flexeAckTimeout dt n) s = execFlexeAckTimeout dt n s := rfl
theorem exec_flexeOverheadRx (dt n : Nat) (f : FlexeOh) (s : State) : exec (.flexeOverheadRx dt n f) s = execFlexeOverheadRx dt n f s := rfl

/-- The acknowledged calendar of a group in force, and told. -/
def calendarTaken (d : Dev) (n : Nat) : Dev :=
  let x := (d.flexeM n fun f => { f.noSwitch with calTx := !f.calTx }).rateChanged n (d.portRate n)
  (x.postFlexe n (x.flexe n).calTx 0).sendFlexe n

theorem calendarTaken_flexe (d : Dev) (n : Nat) : (calendarTaken d n).flexe n = { (d.flexe n).noSwitch with calTx := !(d.flexe n).calTx } := by
  simp [calendarTaken, (Only.sendFlexe _ _).flexe, (Only.postFlexe _ _ _ _).flexe, (Only.rateChanged _ _ _).flexe]

theorem flexeCalendar_switches (dt n ring tag b : Nat) (r : List (Nat × Nat × Nat)) (s : State) (u : Serving s)
    (pending : (s.dev.flexe n).pend = (ring, tag, b) :: r) (acked : (s.dev.flexe n).acked = true) :
    Does (.flexeCalendarSwitch dt n) s [.zbn, .bdy] fun x => (x.flexe n).calTx = (!(s.dev.flexe n).calTx) ∧ (x.flexe n).pend = r ∧
      (x.flexe n).crAt = none ∧ x.cmdAt ring tag = none := by
  refine Does.upTo (x := (calendarTaken (s.dev.elapse dt) n).finishAt ring tag stOk 0) (exec_flexeCalendarSwitch dt n s) u ?_ ?_ ?_
  · simp [pending, acked, calendarTaken, (Only.rateChanged _ _ _).flexe]
  · simp [calendarTaken, (Only.finishAtIn _ _ _ _ _).iff, (Only.sendFlexe _ _).iff, (Only.postFlexe _ _ _ _).iff, (Only.rateChanged _ _ _).iff,
      (Only.flexeM _ _ _).iff, tells, Only.refl]
  · simp [(Only.finishAtIn _ _ _ _ _).flexe, calendarTaken_flexe, FlexE.noSwitch, pending, settle_cmdAt, finishAt_cmdAt]

/-- The switch of a group's calendar withdrawn at the instant until which the partner had to acknowledge it, and told. -/
def calendarWithdrawn (d : Dev) (n t : Nat) : Dev :=
  (((d.reach (t + 10 * qPerMs)).flexeM n FlexE.noSwitch).postFlexe n (!(d.flexe n).calTx) 1).sendFlexe n

theorem Only.calendarWithdrawn (d : Dev) (n t : Nat) : Only [.out, .cnt, .hif] ((d.reach (t + 10 * qPerMs)).flexeM n FlexE.noSwitch)
    (Sys2Proof.calendarWithdrawn d n t) := by
  simp [Sys2Proof.calendarWithdrawn, (Only.sendFlexe _ _).iff, (Only.postFlexe _ _ _ _).iff, Only.refl]

theorem calendarWithdrawn_flexe (d : Dev) (n t : Nat) : (calendarWithdrawn d n t).flexe n = (d.flexe n).noSwitch := by
  rw [(Only.calendarWithdrawn d n t).flexe (by decide), flexe_flexeM, if_pos rfl, flexe_reach]

theorem calendarWithdrawn_now (d : Dev) (n t : Nat) : (calendarWithdrawn d n t).now = max d.now (t + 10 * qPerMs) := by
  rw [(Only.calendarWithdrawn d n t).now (by decide), (Only.flexeM _ _ _).now (by decide), Dev.reach_now]

theorem flexeCalendar_withdrawn (dt n ring tag b t : Nat) (r : List (Nat × Nat × Nat)) (s : State) (u : Serving s)
    (pending : (s.dev.flexe n).pend = (ring, tag, b) :: r) (asked : (s.dev.flexe n).crAt = some t) (unacked : (s.dev.flexe n).acked = false) :
    Does (.flexeAckTimeout dt n) s [.zbn, .bdy] fun x => (x.flexe n).calTx = (s.dev.flexe n).calTx ∧ (x.flexe n).pend = r ∧
      (x.flexe n).crAt = none ∧ x.now = max (s.dev.now + dt) (t + 10 * qPerMs) ∧ x.cmdAt ring tag = none := by
  refine Does.upTo (x := (calendarWithdrawn (s.dev.elapse dt) n t).finishAt ring tag stFailed 0) (exec_flexeAckTimeout dt n s) u ?_ ?_ ?_
  · simp [calendarWithdrawn, pending, asked, unacked]
  · simp [(Only.finishAtIn _ _ _ _ _).iff, (Only.calendarWithdrawn _ _ _).iff, (Only.flexeM _ _ _).iff, (Only.reach _ _).iff, tells, Only.refl]
  · simp [(Only.finishAtIn _ _ _ _ _).flexe, calendarWithdrawn_flexe, calendarWithdrawn_now, FlexE.noSwitch, pending, settle_cmdAt, finishAt_cmdAt]

theorem flexe_told (d : Dev) (c : Bool) (n : Nat) : (d.when c fun d => d.sendFlexe n).flexe n = d.flexe n := by
  cases c
  · rfl
  · rfl

theorem flexeOverhead_taken (dt n : Nat) (f : FlexeOh) (s : State) (u : Serving s) (formed : (s.dev.port n).state ≠ .absent)
    (flexe : (s.dev.port n).framing = 2) (locked : f.lock = true) : Does (.flexeOverheadRx dt n f) s [.zbn] fun x =>
      let y := s.dev.flexe n
      x.flexe n = { y with ohLock := true, rpfRx := f.rpf, calRx := f.ccc, idMismatch := f.group != y.group || f.phy != y.phy
                           acked := y.acked || (y.crAt.isSome && f.ca), ackTx := f.cr } ∧
        (f.cr ≠ y.ackTx → .flexe n { rpf := (s.dev.port n).state != .up, group := y.group, phy := y.phy, map := [y.phy], calA := y.calA
                                     calB := y.calB, ccc := y.calTx, cr := y.crAt.isSome, ca := f.cr } ∈ x.out) := by
  refine Does.up (exec_flexeOverheadRx dt n f s) u ?_ ?_
  · simp [formed, flexe, locked, Only.when_iff, (Only.sendFlexe _ _).iff, (Only.flexeM _ _ _).iff, tells, Only.refl]
  · refine ⟨by simp [formed, flexe, locked, flexe_told], fun changes => ?_⟩
    simp [formed, flexe, locked, changes, Dev.when, Dev.sendFlexe]

theorem flexeOverhead_lost (dt n : Nat) (f : FlexeOh) (s : State) (u : Serving s) (formed : (s.dev.port n).state ≠ .absent)
    (flexe : (s.dev.port n).framing = 2) (unlocked : f.lock = false) :
    Does (.flexeOverheadRx dt n f) s [.zbn] fun x => x.flexe n = { s.dev.flexe n with ohLock := false } := by
  refine Does.up (exec_flexeOverheadRx dt n f s) u ?_ ?_
  · simp [formed, flexe, unlocked, Only.when_iff, (Only.sendFlexe _ _).iff, (Only.flexeM _ _ _).iff, tells, Only.refl]
  · simp [formed, flexe, unlocked, flexe_told]

/-- Settles O35: each row takes the branch of its deadline; the second and the bins are closed lane by lane, and no lane touches another. -/
theorem zubenHandshakeAndTimes : Obligations.ZubenHandshakeAndTimes := by
  unfold Obligations.ZubenHandshakeAndTimes
  exact ⟨handshakeAck_missed, naks_sent, pageMismatch_posted, pmSecond_over, pmBin15_closes, pmBin24_closes, flexeCalendar_switches,
    flexeCalendar_withdrawn, flexeOverhead_taken, flexeOverhead_lost⟩

end Sys2Proof

namespace Sys2Proof

open Sys2Proof.Machine

/-! ## A commit at its bell (01 R28, R29, 13 R445) -/

/-- The only commit due takes effect where the bell comes to its rank, and nothing else does. -/
theorem applyRange_due {d : Dev} {c : Cmd} {sp : CmdSpec} {lo hi : Nat} (only : d.hif.inflight.filter d.isDue = [c]) (known : specOf c.op = some sp)
    (rank : lo ≤ sp.rank ∧ sp.rank < hi) : d.applyRange lo hi = sp.apply c d := by
  have ranked : rankOf c = sp.rank := by rw [rankOf, known]
  have due : d.dueIn lo hi = [c] := by
    have here : d.hif.inflight.filter (fun x => d.isDue x && decide (lo ≤ rankOf x) && decide (rankOf x < hi)) = [c] := by
      calc d.hif.inflight.filter (fun x => d.isDue x && decide (lo ≤ rankOf x) && decide (rankOf x < hi))
        _ = (d.hif.inflight.filter d.isDue).filter fun x => decide (lo ≤ rankOf x) && decide (rankOf x < hi) := by
            rw [List.filter_filter]
            exact List.filter_congr fun x _ => by rw [Bool.and_assoc, Bool.and_comm]
        _ = [c] := by
            rw [only]
            simp [ranked, rank]
    rw [Dev.dueIn, here]
    rfl
  have stands : (d.hif.inflight.find? fun x => x.same c && d.isDue x) = some c := by
    rw [← List.head?_filter, ← List.filter_filter, only]
    simp [Cmd.same]
  rw [Dev.applyRange, due]
  change d.applyWinner c = _
  rw [Dev.applyWinner, stands, known]

/-- The ranks of the commits that take effect at a place of the bell's order, from the first to below the second. -/
def placeRanks : BellPlace → Nat × Nat
  | .snapshot => (0, 20)
  | .energy => (20, 30)
  | .generation => (61, 70)
  | .form => (70, 73)
  | .commits => (73, 100)
  | _ => (0, 0)

/-- The bell's work, seen from a place at which commits take effect. -/
theorem bellItems_at {p : BellPlace} (commits : 0 < (placeRanks p).2) (d : Dev) (i : BellInput) :
    d.bellItems i = bellFrom d i p ((bellUpTo d i p).applyRange (placeRanks p).1 (placeRanks p).2) := by
  cases p
  case pairs | period | pages => exact absurd commits (Nat.lt_irrefl 0)
  all_goals rfl

/-- The row of a bell that rings for a module in service. -/
theorem exec_bell_rings {s : State} {dt : Nat} (rings : Rings s dt) (i : BellInput) :
    exec (.bell dt i) s = .next { s with dev := ((bellStart s dt).bellItems i).nextBell.settle } := by
  obtain ⟨on, run, quiet, up⟩ := rings
  have runs : ((s.dev.elapse dt).boot.clockOn && (s.dev.elapse dt).boot.stopped == .no) = true := by simp [on, run]
  have serves : (s.dev.elapse dt).bellRings.timeSteps.inService = true := up
  rw [exec_bell, act_quiet quiet, if_pos runs, bellTurn, serves]
  rfl

/-- The row of a commit that has no effect on acceptance and takes effect at the place of its rank. -/
structure CommitRow (r : CommandRow) : Prop where
  row : ∀ dt e s, exec (r.1 dt e) s = s.actUp dt fun d => d.submit r.2 e := by intros; rfl
  kind : ∀ c, r.2.kind c = .commit := by intros; rfl
  accept : ∀ c d, r.2.accept c d = d := by intros; rfl
  known : specOf r.2.op = some r.2 := by rfl
  place : (placeRanks (.ofRank r.2.rank)).1 ≤ r.2.rank ∧ r.2.rank < (placeRanks (.ofRank r.2.rank)).2 := by decide

/-- The bell comes to the only commit due with the module as the items before its place have left it. -/
theorem CommitRow.bellMakes {r : CommandRow} (h : CommitRow r) {s : State} {dt : Nat} {i : BellInput} {c : Cmd} {d : Dev} (op : c.op = r.2.op)
    (due : DueAt s dt i r.2 c d) : BellMakes s dt i (.ofRank r.2.rank) (r.2.apply c d) := by
  obtain ⟨rings, rfl, only⟩ := due
  rw [BellMakes, exec_bell_rings rings, bellItems_at (Nat.zero_lt_of_lt h.place.2), applyRange_due only (op ▸ h.known) h.place]

/-- What is left to show of a commit is its effect. -/
theorem CommitRow.commits {r : CommandRow} (h : CommitRow r) {H : Cmd → Dev → Prop} {as : List Area} {result : Cmd → Dev → Nat}
    {P : Cmd → Dev → Dev → Prop} (effect : ∀ c d, H c d → ∃ x, Only as d x ∧ P c d x ∧ r.2.apply c d = x.finish c stOk (result c d)) :
    Commits r H as result P := by
  refine ⟨accepts_id h.row h.kind h.accept, fun c d op hyp => ?_⟩
  obtain ⟨x, only, post, applied⟩ := effect c d hyp
  exact ⟨x, only, post, applied, fun s dt i due => applied ▸ h.bellMakes op due⟩

theorem ttbWriteSlot_row : CommitRow (.ttbWriteSlot, ttbWriteSlot) := {}
theorem ttbWriteSeats_row : CommitRow (.ttbWriteSeats, ttbWriteSeats) := {}
theorem ttbCopyPage_row : CommitRow (.ttbCopyPage, ttbCopyPage) := {}
theorem ttbSetProtection_row : CommitRow (.ttbSetProtection, ttbSetProtection) := {}
theorem ttbProtectCommand_row : CommitRow (.ttbProtectCommand, ttbProtectCommand) := {}

end Sys2Proof

namespace Sys2Proof

open Sys2Proof.Machine

/-! ## Protection indices (05 R180, R184, R185) -/

/-! ### Reading an index -/

theorem Only.prot {as : List Area} {d e : Dev} (h : Only as d e) (k : Area.ttb ∉ as) (i : Nat) : e.prot i = d.prot i := by
  rw [Dev.prot, h.ttb k, Dev.prot]

@[simp] theorem prot_elapse (d : Dev) (dt i : Nat) : (d.elapse dt).prot i = d.prot i := (Only.elapse d dt).prot (by decide) i
@[simp] theorem prot_reach (d : Dev) (t : Q) (i : Nat) : (d.reach t).prot i = d.prot i := (Only.reach d t).prot (by decide) i
@[simp] theorem prot_settle (d : Dev) (i : Nat) : d.settle.prot i = d.prot i := (Only.settle d).prot (by decide) i
@[simp] theorem prot_count (d : Dev) (k n i : Nat) : (d.count k n).prot i = d.prot i := (Only.count d k n).prot (by decide) i
@[simp] theorem prot_post (d : Dev) (ev : Nat) (items : List Item) (i : Nat) : (d.post ev items).prot i = d.prot i :=
  (Only.post d ev items).prot (by decide) i
@[simp] theorem prot_trigger (d : Dev) (code i : Nat) : (d.trigger code).prot i = d.prot i := (Only.trigger d code).prot (by decide) i

/-- An index is enabled. -/
def Enabled (d : Dev) (i : Nat) : Prop := (AMap.find? d.ttb.prots i).isSome = true

theorem Enabled.of_find {d : Dev} {i : Nat} {p : Prot} (h : AMap.find? d.ttb.prots i = some p) : Enabled d i ∧ d.prot i = p := by
  simp [Enabled, Dev.prot, AMap.getD, h]

/-- What differs from an index at reset is enabled. -/
theorem Enabled.of_ne {d : Dev} {i : Nat} (h : d.prot i ≠ {}) : Enabled d i := by
  cases found : AMap.find? d.ttb.prots i with
  | none => exact absurd (by rw [Dev.prot, AMap.getD, found]; rfl) h
  | some p => exact (Enabled.of_find found).1

theorem Only.enabled {as : List Area} {d e : Dev} (h : Only as d e) (k : Area.ttb ∉ as) {i : Nat} (on : Enabled d i) : Enabled e i := by
  rwa [Enabled, h.ttb k]

/-! ### Changing an index -/

theorem protM_enabled {d : Dev} {i : Nat} (on : Enabled d i) (f : Prot → Prot) :
    d.protM i f = d.ttbM fun t => { t with prots := AMap.upd t.prots i {} f } := by
  obtain ⟨p, found⟩ := Option.isSome_iff_exists.1 on
  rw [Dev.protM, found]

theorem protM_disabled {d : Dev} {i : Nat} (off : ¬Enabled d i) (f : Prot → Prot) : d.protM i f = d := by
  have found : AMap.find? d.ttb.prots i = none := by simpa [Enabled] using off
  rw [Dev.protM, found]

theorem protM_self {d : Dev} {i : Nat} (on : Enabled d i) (f : Prot → Prot) : (d.protM i f).prot i = f (d.prot i) := by
  rw [protM_enabled on]
  exact (AMap.getD_upd _ _ _ _ _).trans (if_pos rfl)

theorem protM_other (d : Dev) {i j : Nat} (ne : j ≠ i) (f : Prot → Prot) : (d.protM i f).prot j = d.prot j := by
  by_cases on : Enabled d i
  · rw [protM_enabled on]
    exact (AMap.getD_upd _ _ _ _ _).trans (if_neg ne)
  · rw [protM_disabled on]

/-- What a change of an index leaves alone reads as before. -/
theorem protM_keeps {α : Type} (g : Prot → α) {f : Prot → Prot} (d : Dev) (i : Nat) (h : g (f (d.prot i)) = g (d.prot i)) :
    g ((d.protM i f).prot i) = g (d.prot i) := by
  by_cases on : Enabled d i
  · rw [protM_self on, h]
  · rw [protM_disabled on]

theorem Enabled.protM {d : Dev} {j : Nat} (on : Enabled d j) (i : Nat) (f : Prot → Prot) : Enabled (d.protM i f) j := by
  by_cases same : Enabled d i
  · rw [protM_enabled same, Enabled, Dev.ttbM_ttb, AMap.upd, AMap.find?_set]
    split
    · rfl
    · exact on
  · rwa [protM_disabled same]

/-! ### Deciding a request (05 R185) -/

/-- The request of an index after a change, and the copy that it selects. -/
def decidedProt (p : Prot) (now : Nat) : Prot := { p.next now with selected := reqSelects (p.next now).request }

/-- An index that is decided anew, up to where the playout of the selected copy begins. -/
theorem protDecide_self {d : Dev} {i : Nat} (on : Enabled d i) :
    ∃ q, (d.protDecide i).prot i = { decidedProt (d.prot i) d.now with playNext := q } := by
  unfold Dev.protDecide
  extract_lets old new sel decided
  have told : decided.prot i = decidedProt (d.prot i) d.now := protM_self on _
  cases sel != old.selected
  · exact ⟨_, told⟩
  · cases old.align != .aligned
    · exact ⟨_, Eq.trans (by simp [Dev.when]) told⟩
    · have still : Enabled ((decided.count (cProt i 0) 1).count (cProt i 2) 1) i := on.protM i _
      have begun := protM_self still fun p => { p with playNext := p.playFrom sel decided.now }
      rw [prot_count, prot_count, told] at begun
      exact ⟨_, Eq.trans (by simp [Dev.when]) begun⟩

theorem protDecide_other (d : Dev) {i j : Nat} (ne : j ≠ i) : (d.protDecide i).prot j = d.prot j := by
  unfold Dev.protDecide
  extract_lets old new sel decided
  have stands : decided.prot j = d.prot j := protM_other d ne _
  cases sel != old.selected
  · exact stands
  · cases old.align != .aligned
    · simp [Dev.when, stands]
    · simp [Dev.when, protM_other _ ne, stands]

end Sys2Proof

namespace Sys2Proof

open Sys2Proof.Machine

/-! ## The timetable's commits (05 R180, R184, R189, R190, R192 to R194) -/

/-! ### The standby page (05 R173) -/

theorem standbyPage_standbyM (t : TtbLane) (f : Page → Page) : (t.standbyM f).standbyPage = f t.standbyPage := by
  by_cases active : t.active = true <;> simp [TtbLane.standbyM, TtbLane.standbyPage, active]

theorem activePage_standbyM (t : TtbLane) (f : Page → Page) : (t.standbyM f).activePage = t.activePage := by
  by_cases active : t.active = true <;> simp [TtbLane.standbyM, TtbLane.activePage, active]

/-- A write of the standby page of a lane, which may look at the lane: the page is written, and the active page and every other lane stand. -/
theorem standby_written (d : Dev) (l : Nat) (f : TtbLane → Page → Page) :
    ((d.ttbLaneM l fun t => t.standbyM (f t)).ttbLane l).standbyPage = f (d.ttbLane l) (d.ttbLane l).standbyPage ∧
      ((d.ttbLaneM l fun t => t.standbyM (f t)).ttbLane l).activePage = (d.ttbLane l).activePage ∧
      ∀ k, k ≠ l → (d.ttbLaneM l fun t => t.standbyM (f t)).ttbLane k = d.ttbLane k := by
  rw [ttbLane_ttbLaneM, if_pos rfl]
  exact ⟨standbyPage_standbyM _ _, activePage_standbyM _ _, fun k ne => by rw [ttbLane_ttbLaneM, if_neg ne]⟩

theorem slot_set (p : Page) (s e k : Nat) : ({ p with slots := AMap.set p.slots s e } : Page).slot k = if k = s then e else p.slot k :=
  AMap.getD_set _ _ _ _ _

/-- Writes at keys one after another each stand. -/
theorem getD_foldl_set {α : Type} (m : AMap α) (base : Nat) (v : Nat → α) (dflt : α) {n k : Nat} (h : k < n) :
    AMap.getD ((List.range n).foldl (fun m j => AMap.set m (base + j) (v j)) m) (base + k) dflt = v k := by
  induction n with
  | zero => exact absurd h (Nat.not_lt_zero k)
  | succ n ih =>
    rw [List.range_succ, List.foldl_append, List.foldl_cons, List.foldl_nil, AMap.getD_set]
    split
    · next last => rw [Nat.add_left_cancel last]
    · next earlier => exact ih (by omega)

theorem writeSlot_commits : Commits (.ttbWriteSlot, ttbWriteSlot)
    (fun c d => d.isZuben (d.laneField c.e) = true ∧ d.armed (d.laneField c.e) = false ∧ d.badIndex c.e = false) [.ttb] (fun _ _ => 0) fun c d x =>
      (x.ttbLane (d.laneField c.e)).standbyPage.slot (slotField c.e) = d.slotEntry c.e ∧
        (∀ k, k ≠ slotField c.e → (x.ttbLane (d.laneField c.e)).standbyPage.slot k = (d.ttbLane (d.laneField c.e)).standbyPage.slot k) ∧
        (x.ttbLane (d.laneField c.e)).activePage = (d.ttbLane (d.laneField c.e)).activePage ∧
        ∀ l, l ≠ d.laneField c.e → x.ttbLane l = d.ttbLane l := by
  refine ttbWriteSlot_row.commits ?_
  rintro c d ⟨zuben, unarmed, good⟩
  obtain ⟨standby, active, others⟩ := standby_written d (d.laneField c.e) fun _ pg =>
    { pg with slots := AMap.set pg.slots (slotField c.e) (d.slotEntry c.e) }
  refine ⟨_, Only.ttbLaneM _ _ _, ⟨?_, fun k ne => ?_, active, others⟩, ?_⟩
  · rw [standby, slot_set, if_pos rfl]
  · rw [standby, slot_set, if_neg ne]
  · simp [ttbWriteSlot, applyWriteSlot, okAfter, zuben, unarmed, good]

theorem writeSeats_commits : Commits (.ttbWriteSeats, ttbWriteSeats)
    (fun c d => d.isZuben (d.laneField c.e) = true ∧ d.armed (d.laneField c.e) = false) [.ttb] (fun _ _ => 0) fun c d x =>
      (∀ k, k < seatCount c.e → (x.ttbLane (d.laneField c.e)).standbyPage.seat (slotField c.e) (seatFirst c.e + k) =
          d.seatEntry (c.e.f (32 + 4 * k) 31 0)) ∧
        (x.ttbLane (d.laneField c.e)).activePage = (d.ttbLane (d.laneField c.e)).activePage ∧
        ∀ l, l ≠ d.laneField c.e → x.ttbLane l = d.ttbLane l := by
  refine ttbWriteSeats_row.commits ?_
  rintro c d ⟨zuben, unarmed⟩
  obtain ⟨standby, active, others⟩ := standby_written d (d.laneField c.e) fun _ pg => { pg with
    seats := (List.range (seatCount c.e)).foldl (fun m k =>
      AMap.set m (slotField c.e * 32 + seatFirst c.e + k) (d.seatEntry (c.e.f (32 + 4 * k) 31 0))) pg.seats }
  refine ⟨_, Only.ttbLaneM _ _ _, ⟨fun k listed => ?_, active, others⟩, ?_⟩
  · rw [standby, Page.seat, ← Nat.add_assoc]
    exact getD_foldl_set _ _ _ _ listed
  · simp [ttbWriteSeats, applyWriteSeats, okAfter, zuben, unarmed]

theorem copyPage_commits : Commits (.ttbCopyPage, ttbCopyPage)
    (fun c d => d.isZuben (d.laneField c.e) = true ∧ d.armed (d.laneField c.e) = false) [.ttb] (fun _ _ => 0) fun c d x =>
      (x.ttbLane (d.laneField c.e)).standbyPage = (d.ttbLane (d.laneField c.e)).activePage ∧
        (x.ttbLane (d.laneField c.e)).activePage = (d.ttbLane (d.laneField c.e)).activePage ∧
        ∀ l, l ≠ d.laneField c.e → x.ttbLane l = d.ttbLane l := by
  refine ttbCopyPage_row.commits ?_
  rintro c d ⟨zuben, unarmed⟩
  exact ⟨_, Only.ttbLaneM _ _ _, standby_written d (d.laneField c.e) fun t _ => t.activePage,
    by simp [ttbCopyPage, applyCopyPage, okAfter, zuben, unarmed]⟩

/-! ### Protection indices (05 R180, R193) -/

theorem prot_setProt (d : Dev) (e : CmdEntry) (i : Nat) : (d.setProt e).prot i = if i = protField e then d.protConfig e else d.prot i :=
  AMap.getD_set _ _ _ _ _

theorem find_dropProt (d : Dev) (e : CmdEntry) (i : Nat) :
    AMap.find? (d.dropProt e).ttb.prots i = if i = protField e then none else AMap.find? d.ttb.prots i := AMap.find?_erase _ _ _

/-- The settings that TTB.SET_PROTECTION gives an index, which keeps its request and its entry. -/
theorem protConfig_settings (d : Dev) (e : CmdEntry) :
    (d.protConfig e).holdOff = min 100 (e.f 20 7 0) ∧ (d.protConfig e).wtrS = clamp 10 720 (e.f 20 17 8) ∧
      (d.protConfig e).revertive = e.b 20 18 ∧ (d.protConfig e).maxDiff = clamp 1 250 (e.f 20 26 19) ∧
      (d.protConfig e).request = (d.prot (protField e)).request ∧ (d.protConfig e).wired = (d.prot (protField e)).wired := by
  have least : satTo 100 (e.f 20 7 0) = min 100 (e.f 20 7 0) := by rw [satTo]; split <;> omega
  unfold Dev.protConfig
  extract_lets p m p'
  split <;> exact ⟨least, rfl, rfl, rfl, rfl, rfl⟩

/-- An index that no entry in force names and that none has named takes over no entry. -/
theorem rewire_unnamed {d : Dev} {i : Nat} (unnamed : d.protEntry i = none) (unwired : (d.prot i).wired = false) : d.rewire i = d := by
  simp [Dev.rewire, unnamed, unwired]

theorem disableProtection_commits : Commits (.ttbSetProtection, ttbSetProtection)
    (fun c d => c.e.b 16 16 = false ∧ d.protInUse (protField c.e) = false) (.ttb :: .buf :: .mac :: .bdy :: tells) (fun _ _ => 0) fun c d x =>
      AMap.find? x.ttb.prots (protField c.e) = none ∧ ∀ i, i ≠ protField c.e → x.prot i = d.prot i := by
  refine ttbSetProtection_row.commits ?_
  rintro c d ⟨disables, unused⟩
  have scanned := Only.xoffScan (d.dropProt c.e)
  refine ⟨(d.dropProt c.e).xoffScan, ?_, ⟨?_, fun i ne => ?_⟩, ?_⟩
  · simp [scanned.iff, (Only.dropProt _ _).iff, tells, Only.refl]
  · rw [scanned.ttb (by decide), find_dropProt, if_pos rfl]
  · rw [scanned.prot (by decide), Dev.prot, AMap.getD, find_dropProt, if_neg ne]
    rfl
  · simp [ttbSetProtection, applySetProtection, okAfter, disables, unused]

theorem setProtection_commits : Commits (.ttbSetProtection, ttbSetProtection)
    (fun c d => c.e.b 16 16 = true ∧ c.noRoom = false ∧ d.protEntry (protField c.e) = none ∧ (d.prot (protField c.e)).wired = false)
    (.ttb :: .buf :: .mac :: .bdy :: tells) (fun _ _ => 0) fun c d x =>
      let p := x.prot (protField c.e)
      p.holdOff = min 100 (c.e.f 20 7 0) ∧ p.wtrS = clamp 10 720 (c.e.f 20 17 8) ∧ p.revertive = c.e.b 20 18 ∧
        p.maxDiff = clamp 1 250 (c.e.f 20 26 19) ∧ p.request = (d.prot (protField c.e)).request ∧
        ∀ i, i ≠ protField c.e → x.prot i = d.prot i := by
  refine ttbSetProtection_row.commits ?_
  rintro c d ⟨enables, room, unnamed, unwired⟩
  obtain ⟨holdOff, wtrS, revertive, maxDiff, request, wired⟩ := protConfig_settings d c.e
  have set : (d.setProt c.e).prot (protField c.e) = d.protConfig c.e := by rw [prot_setProt, if_pos rfl]
  have kept : (d.setProt c.e).rewire (protField c.e) = d.setProt c.e := rewire_unnamed unnamed (by rw [set, wired, unwired])
  have scanned := Only.xoffScan (d.setProt c.e)
  refine ⟨(d.setProt c.e).xoffScan, ?_, ?_, ?_⟩
  · simp [scanned.iff, (Only.setProt _ _).iff, tells, Only.refl]
  · dsimp only
    rw [scanned.prot (by decide), set]
    exact ⟨holdOff, wtrS, revertive, maxDiff, request, fun i ne => by rw [scanned.prot (by decide), prot_setProt, if_neg ne]⟩
  · simp [ttbSetProtection, applySetProtection, okAfter, enables, room, kept]

/-! ### Host commands on an index (05 R184, R185, R194) -/

/-- An index that does not refuse a host command is enabled. -/
theorem enabled_of_takes {d : Dev} {e : CmdEntry} (takes : d.protRefuses e = false) : Enabled d (protField e) := by
  obtain ⟨named, -⟩ := Bool.or_eq_false_iff.1 takes
  simpa [Enabled, Option.isSome_iff_ne_none] using named

theorem protectCommand_commits : Commits (.ttbProtectCommand, ttbProtectCommand) (fun c d => d.protRefuses c.e = false)
    (.ttb :: tells ++ triggered) (fun _ _ => 0) fun c d x =>
      let y := ({ d.prot (protField c.e) with host := hostAfter (d.prot (protField c.e)).host (c.e.f 20 2 0) } : Prot).next d.now
      let p := x.prot (protField c.e)
      p = { y with selected := reqSelects y.request, playNext := p.playNext } ∧ ∀ i, i ≠ protField c.e → x.prot i = d.prot i := by
  refine ttbProtectCommand_row.commits fun c d takes => ?_
  have on := enabled_of_takes takes
  let held := d.protM (protField c.e) fun p => { p with host := hostAfter p.host (c.e.f 20 2 0) }
  have only : Only [.ttb] d held := Only.protM _ _ _
  obtain ⟨q, decided⟩ := protDecide_self (d := held) (on.protM _ _)
  rw [protM_self on, only.now (by decide)] at decided
  refine ⟨held.protDecide (protField c.e), ?_, ⟨?_, fun i ne => ?_⟩, ?_⟩
  · simp [(Only.protDecide _ _).iff, only.iff, tells, triggered, Only.refl]
  · rw [decided]
    rfl
  · rw [protDecide_other _ ne, protM_other _ ne]
  · simp [ttbProtectCommand, applyProtectCommand, okAfter, takes, held]

/-- Settles O11: each commit is taken up for its bell, whose row comes to it and to no other; what it writes of a page or of an index stands
beside what else the lane or the index holds. -/
theorem timetableCommits : Obligations.TimetableCommits := by
  unfold Obligations.TimetableCommits
  exact ⟨writeSlot_commits, writeSeats_commits, copyPage_commits, disableProtection_commits, setProtection_commits, protectCommand_commits⟩

end Sys2Proof

namespace Sys2Proof

open Sys2Proof.Machine

/-! ## Rows of protection (05 R172, R176, R182, R184, R185, 17 R534) -/

theorem exec_armTimeout (dt l : Nat) (s : State) : exec (.armTimeout dt l) s = execArmTimeout dt l s := rfl
theorem exec_holdOffExpiry (dt i : Nat) (sd : Bool) (s : State) : exec (.holdOffExpiry dt i sd) s = execHoldOffExpiry dt i sd s := rfl
theorem exec_wtrExpiry (dt i : Nat) (s : State) : exec (.wtrExpiry dt i) s = execWtrExpiry dt i s := rfl
theorem exec_protUnalignedTimer (dt i : Nat) (s : State) : exec (.protUnalignedTimer dt i) s = execProtUnalignedTimer dt i s := rfl
theorem exec_protCopyFailedTimer (dt i : Nat) (side : Bool) (s : State) :
    exec (.protCopyFailedTimer dt i side) s = execProtCopyFailedTimer dt i side s := rfl
theorem exec_rxMismatchHeld (dt l : Nat) (s : State) : exec (.rxMismatchHeld dt l) s = execRxMismatchHeld dt l s := rfl
theorem exec_buddyContainerRx (dt : Nat) (k : BuddyContainer) (s : State) : exec (.buddyContainerRx dt k) s = execBuddyContainerRx dt k s := rfl

/-! ### An arming that no bell answers (05 R176), and a mismatch that is held (05 R172) -/

theorem arming_expires (dt l : Nat) (w : SwitchCmd) (s : State) (u : Serving s) (waits : (s.dev.ttbLane l).switch = some w)
    (armed : w.armed = true) (answers : w.initiate = false) (open_ : (s.dev.zlane l).hs ≠ .agreed) : Does (.armTimeout dt l) s [.ttb, .bdy] fun x =>
    x.ttbLane l = { s.dev.ttbLane l with switch := none } ∧ x.now = max (s.dev.now + dt) w.deadline ∧ x.cmdAt w.ring w.tag = none := by
  refine Does.upTo (x := ((s.dev.elapse dt).reach w.deadline).switchFail l 3) (exec_armTimeout dt l s) u ?_ ?_ ?_
  · simp [waits, armed, answers, open_]
  · simp [(Only.switchFail _ _ _).iff, (Only.reach _ _).iff, tells, Only.refl]
  · obtain ⟨page, gone⟩ := switchFail_switch (d := (s.dev.elapse dt).reach w.deadline) 3 (by simpa using waits)
    rw [ttbLane_settle, settle_cmdAt, page]
    exact ⟨by simp, by simp [(Only.switchFail _ _ _).now], gone⟩

theorem rxMismatch_posted (dt l : Nat) (s : State) (u : Serving s) (zuben : s.dev.isZuben l = true) (held : 3 ≤ (s.dev.ttbLane l).mmBells)
    (untold : (s.dev.ttbLane l).mmPosted = false) (atBell : (s.dev.elapse dt).atBell = true) :
    Does (.rxMismatchHeld dt l) s [.ttb] fun x => x.ttbLane l = { s.dev.ttbLane l with mmPosted := true } := by
  refine Does.up (exec_rxMismatchHeld dt l s) u ?_ ?_
  · simp [zuben, held, untold, atBell, (Only.postIn _ _ _).iff, (Only.ttbLaneM _ _ _).iff, tells, Only.refl]
  · simp [zuben, held, untold, atBell]

/-! ### What a decision leaves of an index (05 R185) -/

/-- A decision changes the request, the wait to restore and the held host commands, and nothing else of an index. -/
theorem next_keeps {α : Type} (g : Prot → α)
    (blind : ∀ (q : Prot) (r : Nat) (w : Bool) (u h : Nat), g { q with request := r, wtrRunning := w, wtrUntil := u, host := h } = g q)
    (p : Prot) (now : Nat) : g (p.next now) = g p := by
  unfold Prot.next
  extract_lets top
  (repeat' split) <;> exact blind p _ _ _ _

/-- Nothing stands above SF-W but a lockout, a failed protection copy and a forced switch (05 R184). -/
theorem highest_sfW {p : Prot} (failed : p.sfWReq = true) (sound : p.sfP = false) (open_ : bit p.host 0 = false) (unforced : bit p.host 1 = false) :
    p.highest = 7 := by
  simp [Prot.highest, failed, sound, open_, unforced]

/-- An active condition or host command is the request. -/
theorem next_highest {p : Prot} (now : Nat) (active : p.highest ≠ 0) : (p.next now).request = p.highest := by
  rw [Prot.next, if_pos active]

/-- A wait to restore that has ended without a condition, where the selector reverts, leaves NR. -/
theorem next_restored {p : Prot} (now : Nat) (quiet : p.highest = 0) (waited : p.request = 2) (ended : p.wtrRunning = false)
    (reverts : p.revertive = true) : p.next now = { p with request := 0, wtrRunning := false } := by
  simp [Prot.next, quiet, waited, ended, reverts]

/-! ### An index that is changed at its instant and decided anew -/

theorem changed_decided {d : Dev} {i : Nat} {p : Prot} (found : AMap.find? d.ttb.prots i = some p) (t : Q) (f : Prot → Prot) :
    ∃ q, ((((d.reach t).protM i f).protDecide i).prot i) = { decidedProt (f p) (max d.now t) with playNext := q } := by
  obtain ⟨on, reads⟩ := Enabled.of_find found
  have there : Enabled (d.reach t) i := (Only.reach d t).enabled (by decide) on
  obtain ⟨q, told⟩ := protDecide_self (there.protM i f)
  rw [protM_self there, prot_reach, reads, (Only.protM _ _ _).now (by decide), Dev.reach_now] at told
  exact ⟨q, told⟩

/-- A row at whose instant a timer of an index ends does what the index, decided anew, says. -/
theorem Does.decides {r : Instr} {s : State} {dt i : Nat} {t : Q} {p : Prot} {f : Prot → Prot} {run : Dev → Dev} {P : Dev → Prop}
    (row : exec r s = s.actUp dt run) (u : Serving s) (found : AMap.find? s.dev.ttb.prots i = some p)
    (branch : run (s.dev.elapse dt) = (((s.dev.elapse dt).reach t).protM i f).protDecide i)
    (effect : ∀ (x : Dev) (q : Nat), x.prot i = { decidedProt (f p) (max (s.dev.now + dt) t) with playNext := q } → x.now = max (s.dev.now + dt) t → P x) :
    Does r s (.ttb :: triggered) P := by
  refine Does.upTo row u branch ?_ ?_
  · simp [(Only.protDecide _ _).iff, (Only.protM _ _ _).iff, (Only.reach _ _).iff, tells, triggered, Only.refl]
  · obtain ⟨q, told⟩ := changed_decided (d := s.dev.elapse dt) (by simpa using found) t f
    refine effect _ q ?_ ?_
    · simpa using told
    · simp [(Only.protDecide _ _).now, (Only.protM _ _ _).now]

theorem holdOff_failed (dt i : Nat) (p : Prot) (s : State) (u : Serving s) (found : AMap.find? s.dev.ttb.prots i = some p) (failed : p.sfW = true)
    (runs : p.sfWReq = false) : Does (.holdOffExpiry dt i false) s (.ttb :: triggered) fun x =>
    (x.prot i).sfWReq = true ∧ (p.sfP = false → bit p.host 0 = false → bit p.host 1 = false → (x.prot i).request = 7 ∧ (x.prot i).selected = true) ∧
      x.now = max (s.dev.now + dt) p.sfWUntil := by
  have reads := (Enabled.of_find found).2
  refine Does.decides (t := p.sfWUntil) (f := fun p => { p with sfWReq := true }) (exec_holdOffExpiry dt i false s) u found ?_ ?_
  · simp [reads, failed, runs]
  · intro x q told at_
    rw [told]
    refine ⟨next_keeps Prot.sfWReq (fun _ _ _ _ _ => rfl) _ _, fun sound open_ unforced => ?_, at_⟩
    have top : ({ p with sfWReq := true } : Prot).highest = 7 := highest_sfW rfl sound open_ unforced
    simp [decidedProt, next_highest, top, reqSelects]

theorem holdOff_degraded (dt i : Nat) (p : Prot) (s : State) (u : Serving s) (found : AMap.find? s.dev.ttb.prots i = some p)
    (degraded : p.sdW = true) (runs : p.sdWReq = false) : Does (.holdOffExpiry dt i true) s (.ttb :: triggered) fun x =>
    (x.prot i).sdWReq = true ∧ (x.prot i).sfWReq = p.sfWReq := by
  have reads := (Enabled.of_find found).2
  refine Does.decides (t := p.sdWUntil) (f := fun p => { p with sdWReq := true }) (exec_holdOffExpiry dt i true s) u found ?_ ?_
  · simp [reads, degraded, runs]
  · intro x q told _
    rw [told]
    exact ⟨next_keeps Prot.sdWReq (fun _ _ _ _ _ => rfl) _ _, next_keeps Prot.sfWReq (fun _ _ _ _ _ => rfl) _ _⟩

theorem restore_ends (dt i : Nat) (p : Prot) (s : State) (u : Serving s) (found : AMap.find? s.dev.ttb.prots i = some p) (waits : p.wtrRunning = true)
    (wtr : p.request = 2) (quiet : p.highest = 0) (reverts : p.revertive = true) : Does (.wtrExpiry dt i) s (.ttb :: triggered) fun x =>
    (x.prot i).request = 0 ∧ (x.prot i).selected = false ∧ (x.prot i).wtrRunning = false ∧ x.now = max (s.dev.now + dt) p.wtrUntil := by
  have reads := (Enabled.of_find found).2
  refine Does.decides (t := p.wtrUntil) (f := fun p => { p with wtrRunning := false }) (exec_wtrExpiry dt i s) u found ?_ ?_
  · simp [reads, waits]
  · intro x q told at_
    have still : ({ p with wtrRunning := false } : Prot).highest = 0 := quiet
    rw [told, decidedProt, next_restored _ still wtr rfl reverts]
    exact ⟨rfl, rfl, rfl, at_⟩

/-! ### Alignment that is not found, and alignment that is lost (05 R182) -/

theorem unaligned_told (dt i : Nat) (s : State) (u : Serving s) (acquires : (s.dev.prot i).align = .acquiring)
    (untold : (s.dev.prot i).unalignedPosted = false) : Does (.protUnalignedTimer dt i) s [.ttb] fun x =>
    (x.prot i).align = .acquiring ∧ (x.prot i).selected = (s.dev.prot i).selected ∧ x.now = max (s.dev.now + dt) ((s.dev.prot i).acqSince + qPerS) := by
  refine Does.up (exec_protUnalignedTimer dt i s) u ?_ ?_
  · simp [acquires, untold, (Only.postIn _ _ _).iff, (Only.protM _ _ _).iff, (Only.reach _ _).iff, tells, Only.refl]
  · simp [acquires, untold, protM_keeps Prot.align, protM_keeps Prot.selected, (Only.protM _ _ _).now]

theorem copyFailed_unaligned (dt i : Nat) (side : Bool) (s : State) (u : Serving s) (aligned : (s.dev.prot i).align = .aligned)
    (failed : (if side then (s.dev.prot i).sfP else (s.dev.prot i).sfW) = true) : Does (.protCopyFailedTimer dt i side) s [.ttb] fun x =>
    (x.prot i).align = .unaligned ∧ (x.prot i).candidate = none ∧ (x.prot i).selected = (s.dev.prot i).selected := by
  have on : Enabled s.dev i := Enabled.of_ne (by intro reset; rw [reset] at aligned; exact ProtAlign.noConfusion aligned)
  have there (t : Q) : Enabled ((s.dev.elapse dt).reach t) i := (Only.reach _ t).enabled (by decide) ((Only.elapse s.dev dt).enabled (by decide) on)
  refine Does.up (exec_protCopyFailedTimer dt i side s) u ?_ ?_
  · simp [aligned, failed, (Only.protM _ _ _).iff, (Only.reach _ _).iff, tells, Only.refl]
  · simp [aligned, failed, protM_self (there _)]

/-! ### Blocks that the buddy forwards (05 R181, R182, 17 R534) -/

/-- What has arrived of the copies of an index, as far as its conditions and its alignment leave it alone. -/
def arrived (p : Prot) : Nat × List PBlock := (p.countP, p.ringW)

theorem arrived_protDecide {d : Dev} {i : Nat} (on : Enabled d i) : arrived ((d.protDecide i).prot i) = arrived (d.prot i) := by
  obtain ⟨q, told⟩ := protDecide_self on
  rw [told]
  exact next_keeps arrived (fun _ _ _ _ _ => rfl) _ _

theorem arrived_protRefresh {d : Dev} {i : Nat} (on : Enabled d i) : arrived ((d.protRefresh i).prot i) = arrived (d.prot i) := by
  unfold Dev.protRefresh
  extract_lets p sfW sdW sfP sdP a b
  exact (arrived_protDecide (on.protM i _)).trans (protM_keeps arrived d i rfl)

theorem arrived_sigDone (d : Dev) (i no seen : Nat) (hits : List (Int × Nat)) : arrived ((d.sigDone i no seen hits).prot i) = arrived (d.prot i) := by
  unfold Dev.sigDone
  extract_lets p searched
  have stands : arrived (searched.prot i) = arrived (d.prot i) := protM_keeps arrived d i rfl
  split
  · extract_lets confirms diff
    split
    · rw [prot_post]
      exact (protM_keeps arrived searched i rfl).trans stands
    · exact (protM_keeps arrived searched i rfl).trans stands
  · rwa [prot_count]

theorem arrived_acquireStep (n i : Nat) (d : Dev) : arrived ((Dev.acquireStep n i d).prot i) = arrived (d.prot i) := by
  induction n generalizing d with
  | zero => rfl
  | succ n ih =>
    unfold Dev.acquireStep
    extract_lets p
    split
    · rfl
    · split
      · split
        · rfl
        · exact (ih _).trans (protM_keeps arrived d i rfl)
      · extract_lets
        split
        · exact (ih _).trans (arrived_sigDone d i _ _ _)
        · exact protM_keeps arrived d i rfl

theorem arrived_protAlign (d : Dev) (i : Nat) : arrived ((d.protAlign i).prot i) = arrived (d.prot i) := by
  unfold Dev.protAlign
  extract_lets p ok o ws start ps ready r
  split
  · rfl
  · split
    · split
      · exact protM_keeps arrived d i rfl
      · rfl
    · exact arrived_acquireStep 16 i d
    · cases !ready
      · rw [if_neg Bool.false_ne_true]
        split <;> exact protM_keeps arrived d i rfl
      · rfl

theorem Only.sigDone (d : Dev) (i no seen : Nat) (hits : List (Int × Nat)) : Only [.out, .cnt, .hif, .ttb] d (d.sigDone i no seen hits) := by
  unfold Dev.sigDone
  extract_lets p searched
  split <;> simp [searched, (Only.postIn _ _ _).iff, (Only.count _ _ _).iff, (Only.protM _ _ _).iff, Only.ite_iff, Only.refl]

theorem Only.acquireStep (n i : Nat) (d : Dev) : Only [.out, .cnt, .hif, .ttb] d (Dev.acquireStep n i d) := by
  induction n generalizing d with
  | zero => exact Only.refl _ d
  | succ n ih =>
    unfold Dev.acquireStep
    extract_lets p
    split
    · exact Only.refl _ d
    · split
      · split
        · exact Only.refl _ d
        · simp [(ih _).iff, (Only.protM _ _ _).iff, Only.refl]
      · simp [(ih _).iff, (Only.sigDone _ _ _ _ _).iff, (Only.protM _ _ _).iff, Only.ite_iff, Only.refl]

theorem Only.protAlign (d : Dev) (i : Nat) : Only [.out, .cnt, .hif, .ttb] d (d.protAlign i) := by
  unfold Dev.protAlign
  extract_lets p ok o ws start ps ready r
  split
  · exact Only.refl _ d
  · split
    · simp [(Only.protM _ _ _).iff, Only.ite_iff, Only.refl]
    · exact Only.acquireStep 16 i d
    · simp [(Only.protM _ _ _).iff, Only.ite_iff, Only.refl]

/-- Blocks that join the ring of a protection copy are counted on after those that are missing before them. -/
theorem arrived_pushP (p : Prot) (bs : List PBlock) : arrived (p.pushP bs) = (p.countP + missing p.ringP bs + bs.length, p.ringW) := by
  simp only [arrived, Prot.pushP, ringPush]

/-- Before the first blocks of a ring none are missing. -/
theorem missing_nil (bs : List PBlock) : missing [] bs = 0 := rfl

/-- Forwarded blocks in the ring of their index, with the conditions of their slot. -/
def containerTaken (d : Dev) (k : BuddyContainer) (bs : List PBlock) : Dev :=
  ((d.protM k.index fun p => { p.pushP bs with buddyCond := k.cond }).protRefresh k.index).protAlign k.index

/-- The blocks of a container, one slot position after another. -/
def containerBlocks (k : BuddyContainer) (now : Nat) : List PBlock :=
  k.blocks.zipIdx.map fun b => { block := b.1, seen := now + blockTime (20 * b.2), valid := !k.bad && b.1 != aisBlock }

theorem containerTaken_arrived {d : Dev} {k : BuddyContainer} {p : Prot} (found : AMap.find? d.ttb.prots k.index = some p) (bs : List PBlock) :
    arrived ((containerTaken d k bs).prot k.index) = arrived (p.pushP bs) := by
  obtain ⟨on, reads⟩ := Enabled.of_find found
  rw [containerTaken, arrived_protAlign, arrived_protRefresh (on.protM _ _), protM_self on, reads]
  rfl

theorem container_counted (dt : Nat) (k : BuddyContainer) (p : Prot) (s : State) (u : Serving s)
    (found : AMap.find? s.dev.ttb.prots k.index = some p) (wired : p.wired = true) (buddy : p.buddy = true) (up : s.dev.bdy.linkUp = true) :
    Does (.buddyContainerRx dt k) s (.ttb :: triggered) fun x =>
    p.countP + k.blocks.length ≤ (x.prot k.index).countP ∧ (p.ringP = [] → (x.prot k.index).countP = p.countP + k.blocks.length) ∧
      (x.prot k.index).ringW = p.ringW := by
  have reads := (Enabled.of_find found).2
  refine Does.upTo (x := containerTaken (s.dev.elapse dt) k (containerBlocks k (s.dev.elapse dt).now)) (exec_buddyContainerRx dt k s) u ?_ ?_ ?_
  · simp [reads, wired, buddy, up, containerTaken, containerBlocks]
  · simp [containerTaken, (Only.protAlign _ _).iff, (Only.protRefresh _ _).iff, (Only.protM _ _ _).iff, tells, triggered, Only.refl]
  · have kept := containerTaken_arrived (d := s.dev.elapse dt) (by simpa using found) (containerBlocks k (s.dev.elapse dt).now)
    have long : (containerBlocks k (s.dev.elapse dt).now).length = k.blocks.length := by simp [containerBlocks]
    rw [arrived_pushP, long] at kept
    simp only [arrived, Prod.mk.injEq] at kept
    obtain ⟨counted, working⟩ := kept
    rw [prot_settle, counted, working]
    exact ⟨by omega, fun empty => by rw [empty, missing_nil, Nat.add_zero], rfl⟩

/-- Settles O36: each row is the branch of its timer or condition, which reaches its instant and changes the lane or the index; a change of
conditions is decided anew (R185), which keeps the conditions and lets the highest select; and neither the conditions nor the alignment
touch what has arrived of a copy. -/
theorem protectionRows : Obligations.ProtectionRows := by
  unfold Obligations.ProtectionRows
  exact ⟨arming_expires, holdOff_failed, holdOff_degraded, restore_ends, unaligned_told, copyFailed_unaligned, rxMismatch_posted,
    container_counted⟩

end Sys2Proof

namespace Sys2Proof

open Sys2Proof.Machine

/-! ## What one core-clock cycle brings (06 R220, 07 R257, 08 R294) -/

/-- A row finds nothing more to decide where the decisions of its cycle have been made before it. -/
theorem act_decided (dt : Nat) (f : Dev → Dev) (s : State) : s.act dt f = State.act dt f { s with dev := s.dev.decideAll } := by
  simp only [State.act, Dev.run, Dev.decideAll_quiet (Dev.decideAll_arrivals s.dev)]

/-- Settles O7: the rows but the four that bring an arrival act through `State.act`, which decides first what waits. -/
theorem arrivalsAreDecidedFirst : Obligations.ArrivalsAreDecidedFirst := by
  unfold Obligations.ArrivalsAreDecidedFirst
  refine ⟨Dev.decideAll_arrivals, fun i s noHead noEnd noFrame noDispatch => ?_⟩
  cases i
  case frameRxHead dt h => exact absurd rfl (noHead dt h)
  case frameRxEnd dt r => exact absurd rfl (noEnd dt r)
  case buddyFrameRx dt f => exact absurd rfl (noFrame dt f)
  case txDispatch dt r => exact absurd rfl (noDispatch dt r)
  all_goals exact act_decided _ _ s

/-! ### The order of arrivals (08 R294) -/

theorem inOrder_iff (as : List Arrival) : InOrder as ↔ as.Pairwise fun a b => a.rank ≤ b.rank := by
  induction as with
  | nil => simp [InOrder]
  | cons a as ih => rw [InOrder, List.pairwise_cons, ih]

/-- An arrival stands behind those that go before it or equal with it, and before all others. -/
theorem insertArrival_between (a : Arrival) {l : List Arrival} (order : InOrder l) :
    ∃ as bs, l = as ++ bs ∧ insertArrival a l = as ++ a :: bs ∧ (∀ b ∈ as, b.rank ≤ a.rank) ∧ ∀ b ∈ bs, a.rank < b.rank := by
  induction l with
  | nil => exact ⟨[], [], rfl, rfl, by simp, by simp⟩
  | cons c l ih =>
    obtain ⟨least, rest⟩ := order
    by_cases before : a.rank < c.rank
    · refine ⟨[], c :: l, rfl, if_pos before, by simp, List.forall_mem_cons.2 ⟨before, fun b listed => ?_⟩⟩
      exact Nat.lt_of_lt_of_le before (least b listed)
    · obtain ⟨as, bs, split, inserted, ahead, behind⟩ := ih rest
      refine ⟨c :: as, bs, by rw [split]; rfl, ?_, List.forall_mem_cons.2 ⟨Nat.le_of_not_lt before, ahead⟩, behind⟩
      rw [insertArrival, if_neg before, inserted]
      rfl

/-- An arrival between those that go before it and those that go after it keeps the order. -/
theorem InOrder.between {as bs : List Arrival} {a : Arrival} (order : InOrder (as ++ bs)) (ahead : ∀ b ∈ as, b.rank ≤ a.rank)
    (behind : ∀ b ∈ bs, a.rank < b.rank) : InOrder (as ++ a :: bs) := by
  rw [inOrder_iff, List.pairwise_append] at order ⊢
  obtain ⟨first, last, across⟩ := order
  refine ⟨first, List.pairwise_cons.2 ⟨fun b listed => Nat.le_of_lt (behind b listed), last⟩, fun b listed => ?_⟩
  exact List.forall_mem_cons.2 ⟨ahead b listed, across b listed⟩

/-- The row of an arrival gives what the module is that holds it. -/
theorem Gives.arrive {i : Instr} {s : State} {P : Dev → Prop} {dt : Nat} {a : Arrival} (x : exec i s = s.arrive dt a)
    (h : P (s.dev.arrived dt a)) : Gives i s P := ⟨_, x, rfl, h⟩

/-- Once its cycle has ended, what waited is decided and the arrival stands alone. -/
theorem arrived_ended {d : Dev} {dt : Nat} (ends : d.cycleEnds dt = true) (a : Arrival) :
    d.arrived dt a = { (d.decideAll.elapse dt).settle with arrivals := [a] } := by
  simp [Dev.arrived, ends, insertArrival]

/-- Within a cycle an arrival joins those that wait. -/
theorem arrived_within {d : Dev} {dt : Nat} (runs : d.cycleEnds dt = false) (a : Arrival) :
    d.arrived dt a = { (d.elapse dt).settle with arrivals := insertArrival a d.arrivals } := by
  simp [Dev.arrived, runs]

/-- Settles O8: `State.arrive` puts the arrival at its place among those that wait, or alone behind the decisions of a cycle that has ended. -/
theorem arrivalsStandInTheirOrder : Obligations.ArrivalsStandInTheirOrder := by
  unfold Obligations.ArrivalsStandInTheirOrder
  refine ⟨trivial, fun i dt a s brings order => ?_⟩
  have row : exec i s = s.arrive dt a := by
    obtain ⟨h, rfl, rfl⟩ | ⟨r, rfl, rfl⟩ | ⟨f, rfl, rfl⟩ | ⟨r, rfl, rfl⟩ := brings
    all_goals rfl
  obtain ⟨as, bs, split, inserted, ahead, behind⟩ := insertArrival_between a order
  refine Gives.arrive row ?_
  cases cycle : s.dev.cycleEnds dt with
  | true =>
    rw [arrived_ended cycle]
    exact ⟨⟨by simp, trivial⟩, fun _ => rfl, nofun⟩
  | false =>
    rw [arrived_within cycle, inserted]
    exact ⟨InOrder.between (split ▸ order) ahead behind, nofun, fun _ => ⟨as, bs, split, ahead, behind, rfl⟩⟩

end Sys2Proof

namespace Sys2Proof

open Sys2Proof.Machine

/-! ## The classifier's commits (06 R209, R213 to R215, R221, R223 to R229) -/

theorem prsWriteProfile_row : CommitRow (.prsWriteProfile, prsWriteProfile) := {}
theorem prsWritePortMap_row : CommitRow (.prsWritePortMap, prsWritePortMap) := {}
theorem prsWriteEtypes_row : CommitRow (.prsWriteEtypes, prsWriteEtypes) := {}
theorem prsWriteRule_row : CommitRow (.prsWriteRule, prsWriteRule) := {}
theorem prsSetMember_row : CommitRow (.prsSetMember, prsSetMember) := {}
theorem prsDiscardStaged_row : CommitRow (.prsDiscardStaged, prsDiscardStaged) := {}
theorem prsCommit_row : CommitRow (.prsCommit, prsCommit) := {}
theorem prsSetMeter_row : CommitRow (.prsSetMeter, prsSetMeter) := {}

/-! ### The standby half (06 R209) -/

theorem standby_standbyM (p : Prs) (f : Generation → Generation) : (p.standbyM f).standby = f p.standby := by
  by_cases even : p.gen % 2 = 0 <;> simp [Prs.standbyM, Prs.standby, Prs.parity, even]

theorem current_standbyM (p : Prs) (f : Generation → Generation) : (p.standbyM f).current = p.current := by
  by_cases even : p.gen % 2 = 0 <;> simp [Prs.standbyM, Prs.current, Prs.parity, even]

theorem gen_standbyM (p : Prs) (f : Generation → Generation) : (p.standbyM f).gen = p.gen := by
  rw [Prs.standbyM]
  split <;> rfl

/-- A commit that writes the standby half, from what the block holds, leaves the current half. -/
theorem standbyWrite_commits {r : CommandRow} (row : CommitRow r) (f : Cmd → Dev → Generation → Generation)
    (apply : ∀ c d, r.2.apply c d = okAfter c (d.prsM fun p => p.standbyM (f c d))) {Q : Cmd → Dev → Generation → Prop}
    (written : ∀ c d, Q c d (f c d d.prs.standby)) :
    Commits r (fun _ _ => True) [.prs] (fun _ _ => 0) fun c d x => Q c d x.prs.standby ∧ x.prs.current = d.prs.current := by
  refine row.commits fun c d _ => ⟨d.prsM fun p => p.standbyM (f c d), Only.prsM _ _, ⟨?_, current_standbyM _ _⟩, apply c d⟩
  rw [Dev.prsM_prs, standby_standbyM]
  exact written c d

theorem writeProfile_commits : Commits (.prsWriteProfile, prsWriteProfile) (fun _ _ => True) [.prs] (fun _ _ => 0) fun c d x =>
    x.prs.standby.profile (c.e.f 16 5 0) =
        { loaded := bit (prfHeader c.e) 0, l3Kind := bits (prfHeader c.e) 2 1, windows := (List.range 8).map (prfWindow c.e) } ∧
      x.prs.current = d.prs.current :=
  standbyWrite_commits prsWriteProfile_row _ (fun _ _ => rfl) (Q := fun c _ g => g.profile (c.e.f 16 5 0) = _)
    fun _ _ => by rw [Generation.profile, AMap.getD_set, if_pos rfl]

theorem writePortMap_commits : Commits (.prsWritePortMap, prsWritePortMap) (fun _ _ => True) [.prs] (fun _ _ => 0) fun c d x =>
    x.prs.standby.map (d.portField c.e) = { profiles := (List.range 16).map fun k => c.e.f (20 + k) 5 0, deiColor := c.e.b 16 16 } ∧
      x.prs.current = d.prs.current :=
  standbyWrite_commits prsWritePortMap_row _ (fun _ _ => rfl) (Q := fun c d g => g.map (d.portField c.e) = _)
    fun _ _ => by rw [Generation.map, AMap.getD_set, if_pos rfl]

theorem writeEtypes_commits : Commits (.prsWriteEtypes, prsWriteEtypes) (fun _ _ => True) [.prs] (fun _ _ => 0) fun c d x =>
    x.prs.standby.etypes = ((List.range 13).map fun k => d.prs.etypeStored (c.e.f (16 + 2 * k) 15 0)) ∧ x.prs.current = d.prs.current :=
  standbyWrite_commits prsWriteEtypes_row
    (fun c d g => { g with etypes := (List.range 13).map fun k => d.prs.etypeStored (c.e.f (16 + 2 * k) 15 0) }) (fun _ _ => rfl)
    (Q := fun _ _ g => g.etypes = _) fun _ _ => rfl

/-- A discard copies the current generation over the standby one (06 R213). -/
theorem discardStaged_commits : Commits (.prsDiscardStaged, prsDiscardStaged) (fun _ _ => True) [.prs] (fun _ _ => 0) fun _ d x =>
    x.prs.standby = d.prs.current ∧ x.prs.current = d.prs.current ∧ x.prs.gen = d.prs.gen := by
  refine prsDiscardStaged_row.commits fun c d _ => ⟨_, Only.prsM _ _, ⟨?_, ?_, ?_⟩, rfl⟩
  · exact standby_standbyM _ _
  · exact current_standbyM _ _
  · exact gen_standbyM _ _

/-- A flip raises the generation; what it tells the host leaves the block as it is (06 R215). -/
theorem commit_commits : Commits (.prsCommit, prsCommit) (fun _ _ => True) (.prs :: tells) (fun _ d => (d.prs.gen + 1) % 2 ^ 64 % 65536)
    fun _ d x => x.prs = { d.prs with gen := (d.prs.gen + 1) % 2 ^ 64, retiring := true } :=
  prsCommit_row.commits fun _ _ _ =>
    ⟨_, ((Only.prsM _ _).mono (by simp)).trans ((Only.post _ _ _).mono (by simp)), Dev.post_prs _ _ _, rfl⟩

/-! ### Rules (06 R206, R214, R226, R227) -/

/-- A rule that the current generation does not use is written, as a member of the standby one (06 R214, R226). -/
theorem applyWriteRule_unused {c : Cmd} {d : Dev}
    (unused : ((d.rule (c.e.f 16 15 0)).valid && (d.rule (c.e.f 16 15 0)).member d.prs.parity) = false) :
    applyWriteRule c d = okAfter c (d.prsM fun p => { p with
      rules := AMap.set p.rules (c.e.f 16 15 0) { (ruleOf c.e.mem).setMember (1 - p.parity) true with valid := true } }) :=
  if_neg (by rw [unused]; decide)

theorem writeRule_commits : Commits (.prsWriteRule, prsWriteRule)
    (fun c d => ((d.rule (c.e.f 16 15 0)).valid && (d.rule (c.e.f 16 15 0)).member d.prs.parity) = false) [.prs] (fun _ _ => 0) fun c d x =>
      x.rule (c.e.f 16 15 0) = { (ruleOf c.e.mem).setMember (1 - d.prs.parity) true with valid := true } ∧
        ∀ i, i ≠ c.e.f 16 15 0 → x.rule i = d.rule i := by
  refine prsWriteRule_row.commits fun c d unused => ⟨_, Only.prsM _ _, ⟨?_, fun i ne => ?_⟩, applyWriteRule_unused unused⟩
  · exact (AMap.getD_set _ _ _ _ _).trans (if_pos rfl)
  · exact (AMap.getD_set _ _ _ _ _).trans (if_neg ne)

theorem AMap.find?_mapV {α β : Type} (m : AMap α) (f : Nat → α → β) (i : Nat) : AMap.find? (AMap.mapV m f) i = (AMap.find? m i).map (f i) := by
  induction m with
  | nil => rfl
  | cons p m ih =>
    obtain ⟨k, v⟩ := p
    simp only [AMap.mapV, List.map_cons, AMap.find?]
    by_cases here : i = k
    · simp [here]
    · rw [if_neg here, if_neg here]
      exact ih

theorem parity_lt (p : Prs) : p.parity < 2 := Nat.mod_lt _ (by decide)

theorem member_setMember_same (r : Rule) (k : Nat) (v : Bool) : (r.setMember k v).member k = v := by
  by_cases even : k = 0 <;> simp [Rule.member, Rule.setMember, even]

/-- Membership of a generation stands while that of the other is set. -/
theorem member_setMember_other (r : Rule) {k : Nat} (parity : k < 2) (v : Bool) : (r.setMember (1 - k) v).member k = r.member k := by
  obtain rfl | rfl : k = 0 ∨ k = 1 := by omega
  all_goals rfl

theorem setMember_commits : Commits (.prsSetMember, prsSetMember) (fun _ _ => True) [.prs] (fun c d => d.memberChanges c.e) fun c d x =>
    ∀ i r, AMap.find? d.prs.rules i = some r → r.valid = true → memberFirst c.e ≤ i → i < memberFirst c.e + memberCount c.e →
      (x.rule i).member (1 - d.prs.parity) = c.e.b 20 24 ∧ (x.rule i).member d.prs.parity = r.member d.prs.parity := by
  refine prsSetMember_row.commits fun c d _ => ⟨_, Only.prsM _ _, fun i r found valid first last => ?_, rfl⟩
  have taken : memberTakes c.e i r = true := by simp [memberTakes, valid, first, last]
  rw [Dev.rule, Dev.prsM_prs, AMap.getD, AMap.find?_mapV, found, Option.map_some, Option.getD_some, if_pos taken]
  exact ⟨member_setMember_same _ _ _, member_setMember_other _ (parity_lt _) _⟩

/-! ### Meters (06 R221) -/

theorem meter_meterM (d : Dev) (m : Nat) (f : Meter → Meter) (k : Nat) : (d.meterM m f).meter k = if k = m then f (d.meter m) else d.meter k :=
  AMap.getD_upd _ _ _ _ _

/-- A meter that is to start full starts with full buckets. -/
theorem meterOf_full {e : CmdEntry} (full : e.b 16 24 = true) (old : Meter) (now : Q) :
    (meterOf e old now).tc = (meterOf e old now).size1 ∧ (meterOf e old now).te = (meterOf e old now).size2 := ⟨if_pos full, if_pos full⟩

theorem setMeter_commits : Commits (.prsSetMeter, prsSetMeter) (fun _ _ => True) [.prs] (fun _ _ => 0) fun c d x =>
    let m := x.meter (meterIx c.e)
    m.mode = c.e.f 20 0 0 ∧ m.cir = min 800000000 (c.e.f 24 31 0) ∧ m.cbs = clamp 64 16777215 (c.e.f 32 23 0) ∧
      m.lenAdj = clampI (-32) 63 (c.e.i 21 8) ∧
      (c.e.b 16 24 = true → m.tc = ((m.cbs * 256 : Nat) : Int) ∧ m.te = ((m.ebs * 256 : Nat) : Int)) ∧
      ∀ k, k ≠ meterIx c.e → x.meter k = d.meter k := by
  refine prsSetMeter_row.commits fun c d _ => ⟨_, Only.meterM _ _ _, ?_, rfl⟩
  dsimp only
  rw [meter_meterM, if_pos rfl]
  exact ⟨rfl, rfl, rfl, rfl, fun full => meterOf_full full _ _, fun k ne => by rw [meter_meterM, if_neg ne]⟩

/-- Settles O12: each commit is taken up for its bell, whose row comes to it and to no other; what is written of the standby half stands
beside the current one. -/
theorem classifierCommits : Obligations.ClassifierCommits := by
  unfold Obligations.ClassifierCommits
  exact ⟨writeProfile_commits, writePortMap_commits, writeEtypes_commits, writeRule_commits, setMember_commits, discardStaged_commits,
    commit_commits, setMeter_commits⟩

end Sys2Proof

namespace Sys2Proof

open Sys2Proof.Machine

/-! ## Entries of the forwarding tables by command (07 R270, R273, R275) -/

theorem fwdDeleteFdb_row : CommitRow (.fwdDeleteFdb, fwdDeleteFdb) := {}
theorem fwdSetVlan_row : CommitRow (.fwdSetVlan, fwdSetVlan) := {}
theorem fwdSetClassMap_row : CommitRow (.fwdSetClassMap, fwdSetClassMap) := {}

/-- A deletion whose key no flush has taken removes the entry that the key finds. -/
theorem applyDeleteFdb_found {c : Cmd} {d : Dev} {loc : Nat} {ent : FdbEntry} (free : d.keyTaken c.e = false)
    (found : d.fdbFind (c.e.f 16 47 0) (c.e.f 16 59 48) = some (loc, ent)) :
    applyDeleteFdb c d = (d.fwdM fun w => { w with fdb := AMap.erase w.fdb loc }).finish c stOk 1 := by
  simp [applyDeleteFdb, free, found]

/-- Where the key finds no entry, the deletion completes and nothing else happens. -/
theorem applyDeleteFdb_absent {c : Cmd} {d : Dev} (free : d.keyTaken c.e = false) (absent : d.fdbFind (c.e.f 16 47 0) (c.e.f 16 59 48) = none) :
    applyDeleteFdb c d = d.finish c stOk 0 := by
  simp [applyDeleteFdb, free, absent]

theorem deleteFdb_removes : Commits (.fwdDeleteFdb, fwdDeleteFdb)
    (fun c d => d.keyTaken c.e = false ∧ (d.fdbFind (c.e.f 16 47 0) (c.e.f 16 59 48)).isSome = true) [.fwd] (fun _ _ => 1) fun c d x =>
      ∃ loc ent, d.fdbFind (c.e.f 16 47 0) (c.e.f 16 59 48) = some (loc, ent) ∧ x.fwd = { d.fwd with fdb := AMap.erase d.fwd.fdb loc } ∧
        AMap.find? x.fwd.fdb loc = none := by
  refine fwdDeleteFdb_row.commits fun c d ⟨free, listed⟩ => ?_
  obtain ⟨⟨loc, ent⟩, found⟩ := Option.isSome_iff_exists.1 listed
  refine ⟨_, Only.fwdM _ _, ⟨loc, ent, found, rfl, ?_⟩, applyDeleteFdb_found free found⟩
  exact (AMap.find?_erase _ _ _).trans (if_pos rfl)

theorem deleteFdb_absent : Commits (.fwdDeleteFdb, fwdDeleteFdb)
    (fun c d => d.keyTaken c.e = false ∧ d.fdbFind (c.e.f 16 47 0) (c.e.f 16 59 48) = none) [] (fun _ _ => 0) fun _ d x => x = d :=
  fwdDeleteFdb_row.commits fun _ d ⟨free, absent⟩ => ⟨d, Only.refl _ d, rfl, applyDeleteFdb_absent free absent⟩

theorem setVlan_commits : Commits (.fwdSetVlan, fwdSetVlan) (fun _ _ => True) [.fwd] (fun _ _ => 0) fun c d x =>
    AMap.find? x.fwd.vlans (c.e.f 16 11 0) = some { fid := c.e.f 20 11 0, learn := c.e.b 20 16, flood := c.e.f 24 13 0 } ∧
      ∀ v, v ≠ c.e.f 16 11 0 → AMap.find? x.fwd.vlans v = AMap.find? d.fwd.vlans v := by
  refine fwdSetVlan_row.commits fun c d _ => ⟨_, Only.fwdM _ _, ⟨?_, fun v ne => ?_⟩, rfl⟩
  · exact (AMap.find?_set _ _ _ _).trans (if_pos rfl)
  · exact (AMap.find?_set _ _ _ _).trans (if_neg ne)

theorem setClassMap_commits : Commits (.fwdSetClassMap, fwdSetClassMap) (fun _ _ => True) [.fwd] (fun _ _ => 0) fun c d x =>
    AMap.find? x.fwd.maps (c.e.f 16 3 0) = some { pcpDei := c.e.f 20 63 0, dscp := c.e.f 32 255 0 } ∧
      ∀ k, k ≠ c.e.f 16 3 0 → AMap.find? x.fwd.maps k = AMap.find? d.fwd.maps k := by
  refine fwdSetClassMap_row.commits fun c d _ => ⟨_, Only.fwdM _ _, ⟨?_, fun k ne => ?_⟩, rfl⟩
  · exact (AMap.find?_set _ _ _ _).trans (if_pos rfl)
  · exact (AMap.find?_set _ _ _ _).trans (if_neg ne)

/-- Settles O55: each commit is taken up for its bell, whose row comes to it and to no other; a deletion goes by what its key finds, and a
setting is written at the number that it names. -/
theorem forwardingEntriesByCommand : Obligations.ForwardingEntriesByCommand := by
  unfold Obligations.ForwardingEntriesByCommand
  exact ⟨⟨rfl, rfl, rfl⟩, deleteFdb_removes, deleteFdb_absent, setVlan_commits, setClassMap_commits⟩

end Sys2Proof

namespace Sys2Proof

open Sys2Proof.Machine

/-! ## The ager (07 R244) -/

/-! ### Keys of a map -/

theorem AMap.keys_nodup {α : Type} {m : AMap α} (h : AMap.rising m = true) : (m.map fun x => x.1).Nodup :=
  List.pairwise_map.2 (((AMap.rising_iff m).1 h).imp Nat.ne_of_lt)

theorem AMap.mem_keys {α : Type} {m : AMap α} {k : Nat} {v : α} (h : AMap.find? m k = some v) : k ∈ m.map fun x => x.1 := by
  induction m with
  | nil => cases h
  | cons p m ih =>
    obtain ⟨j, w⟩ := p
    by_cases here : k = j
    · exact here ▸ List.mem_cons_self
    · rw [AMap.find?, if_neg here] at h
      exact List.mem_cons_of_mem _ (ih h)

/-! ### One visit -/

/-- An entry that a visit of the ager leaves in the table. -/
def Outlasts (e : FdbEntry) : Prop := e.static = true ∨ e.hit = true ∨ e.age + 1 < 8

/-- What the visit makes of it: a static entry stands, a hit mark is cleared, and without one the age counts up. -/
def visited (e : FdbEntry) : FdbEntry :=
  if e.static then e else if e.hit then { e with hit := false, age := 0 } else { e with age := e.age + 1 }

@[simp] theorem fdbTell_fwd (d : Dev) (kind mac fid port sof : Nat) : (d.fdbTell kind mac fid port sof).fwd = d.fwd :=
  (Only.fdbTell d kind mac fid port sof).fwd (by decide)

@[simp] theorem fdbSet_fdb (d : Dev) (loc : Nat) (e : FdbEntry) : (d.fdbSet loc e).fwd.fdb = AMap.set d.fwd.fdb loc e := rfl

/-- A visit does nothing to the table, writes the entry visited, or removes it. -/
theorem ageEntry_fdb (d : Dev) (k : Nat) : (d.ageEntry k).fwd.fdb = d.fwd.fdb ∨ (∃ e, (d.ageEntry k).fwd.fdb = AMap.set d.fwd.fdb k e) ∨
    (d.ageEntry k).fwd.fdb = AMap.erase d.fwd.fdb k := by
  unfold Dev.ageEntry
  split
  · exact .inl rfl
  · split
    · exact .inl rfl
    · split
      · exact .inr (.inl ⟨_, rfl⟩)
      · split
        · exact .inr (.inl ⟨_, rfl⟩)
        · split
          · exact .inr (.inr (by simp))
          · exact .inl rfl

theorem ageEntry_rising {d : Dev} (h : AMap.rising d.fwd.fdb = true) (k : Nat) : AMap.rising (d.ageEntry k).fwd.fdb = true := by
  obtain same | ⟨e, wrote⟩ | gone := ageEntry_fdb d k
  · rwa [same]
  · rw [wrote]
    exact AMap.rising_set h k e
  · rw [gone]
    exact AMap.rising_erase h k

theorem ageEntry_other (d : Dev) {j k : Nat} (ne : k ≠ j) : AMap.find? (d.ageEntry j).fwd.fdb k = AMap.find? d.fwd.fdb k := by
  obtain same | ⟨e, wrote⟩ | gone := ageEntry_fdb d j
  · rw [same]
  · rw [wrote, AMap.find?_set, if_neg ne]
  · rw [gone, AMap.find?_erase, if_neg ne]

theorem ageEntry_self {d : Dev} {k : Nat} {e : FdbEntry} (found : AMap.find? d.fwd.fdb k = some e) (lasts : Outlasts e) :
    AMap.find? (d.ageEntry k).fwd.fdb k = some (visited e) := by
  rw [Dev.ageEntry, found, visited]
  dsimp only
  by_cases static : e.static = true
  · rwa [if_pos static, if_pos static]
  · rw [if_neg static, if_neg static]
    by_cases hit : e.hit = true
    · rw [if_pos hit, if_pos hit, fdbSet_fdb, AMap.find?_set, if_pos rfl]
    · have young : e.age + 1 < 8 := (lasts.resolve_left static).resolve_left hit
      rw [if_neg hit, if_neg hit, if_pos young, fdbSet_fdb, AMap.find?_set, if_pos rfl]

theorem Only.ageEntry (d : Dev) (k : Nat) : Only [.out, .cnt, .fwd] d (d.ageEntry k) := by
  unfold Dev.ageEntry
  split <;> simp [(Only.fdbTell _ _ _ _ _ _).iff, (Only.count _ _ _).iff, (Only.fwdM _ _).iff, (Only.fdbSet _ _ _).iff, Only.ite_iff, Only.refl]

/-! ### The sweep -/

/-- Visits of other locations leave an entry. -/
theorem each_ageEntry_other {ks : List Nat} {k : Nat} (apart : k ∉ ks) (d : Dev) :
    AMap.find? (d.each ks fun j d => d.ageEntry j).fwd.fdb k = AMap.find? d.fwd.fdb k := by
  induction ks generalizing d with
  | nil => rfl
  | cons j ks ih => exact (ih (List.not_mem_of_not_mem_cons apart) _).trans (ageEntry_other d (List.ne_of_not_mem_cons apart))

/-- Among visits of which none comes twice, an entry has its one. -/
theorem each_ageEntry_once {ks : List Nat} {k : Nat} {e : FdbEntry} (once : ks.Nodup) (listed : k ∈ ks) (lasts : Outlasts e) {d : Dev}
    (found : AMap.find? d.fwd.fdb k = some e) : AMap.find? (d.each ks fun j d => d.ageEntry j).fwd.fdb k = some (visited e) := by
  induction ks generalizing d with
  | nil => cases listed
  | cons j ks ih =>
    obtain ⟨fresh, once⟩ := List.nodup_cons.1 once
    obtain rfl | later := List.mem_cons.1 listed
    · exact (each_ageEntry_other fresh _).trans (ageEntry_self found lasts)
    · have ne : k ≠ j := fun same => fresh (same ▸ later)
      exact ih once later ((ageEntry_other d ne).trans found)

theorem each_ageEntry_rising {d : Dev} (h : AMap.rising d.fwd.fdb = true) (ks : List Nat) :
    AMap.rising (d.each ks fun j d => d.ageEntry j).fwd.fdb = true := by
  induction ks generalizing d with
  | nil => exact h
  | cons j ks ih => exact ih (ageEntry_rising h j)

/-- The locations that the sweep comes to on its way. -/
def sweepDue (d : Dev) (stop : Nat) : List Nat :=
  (d.fwd.fdb.map fun x => x.1).filter fun k => decide (d.fwd.sweepPos ≤ k) && decide (k < stop)

theorem sweepTo_eq (d : Dev) (stop : Nat) :
    d.sweepTo stop = (d.each (sweepDue d stop) fun k d => d.ageEntry k).fwdM fun w => { w with sweepPos := stop } := rfl

/-- The sweep visits an entry that lies on its way. -/
theorem sweepTo_visits {d : Dev} {stop k : Nat} {e : FdbEntry} (order : AMap.rising d.fwd.fdb = true) (first : d.fwd.sweepPos ≤ k) (last : k < stop)
    (found : AMap.find? d.fwd.fdb k = some e) (lasts : Outlasts e) : AMap.find? (d.sweepTo stop).fwd.fdb k = some (visited e) := by
  have listed : k ∈ sweepDue d stop := List.mem_filter.2 ⟨AMap.mem_keys found, by simp [first, last]⟩
  exact each_ageEntry_once ((AMap.keys_nodup order).filter _) listed lasts found

/-- The sweep leaves what lies behind it. -/
theorem sweepTo_behind {d : Dev} {k : Nat} (behind : k < d.fwd.sweepPos) (stop : Nat) :
    AMap.find? (d.sweepTo stop).fwd.fdb k = AMap.find? d.fwd.fdb k := by
  have apart : k ∉ sweepDue d stop := by
    intro listed
    have := (List.mem_filter.1 listed).2
    simp only [Bool.and_eq_true, decide_eq_true_eq] at this
    omega
  exact each_ageEntry_other apart d

theorem sweepTo_rising {d : Dev} (h : AMap.rising d.fwd.fdb = true) (stop : Nat) : AMap.rising (d.sweepTo stop).fwd.fdb = true :=
  each_ageEntry_rising h _

theorem Only.sweepTo (d : Dev) (stop : Nat) : Only [.out, .cnt, .fwd] d (d.sweepTo stop) := by
  simp [Dev.sweepTo, (Only.fwdM _ _).iff, (Only.ageEntry _ _).iff, Only.each_iff, Only.refl]

theorem Only.sweepEnd (d : Dev) : Only [.out, .cnt, .fwd] d d.sweepEnd := by
  simp [Dev.sweepEnd, (Only.fwdM _ _).iff, (Only.sweepTo _ _).iff, Only.refl]

/-- The module once a sweep that has passed a location has ended, so that the next one can come to it. -/
def sweepBefore (d : Dev) (k : Nat) : Dev := d.when (decide (k < d.fwd.sweepPos)) fun d => d.sweepEnd

/-- The sweep is then before the location, and what lies there stands. -/
theorem sweepBefore_ready {d : Dev} (order : AMap.rising d.fwd.fdb = true) (k : Nat) : AMap.rising (sweepBefore d k).fwd.fdb = true ∧
    (sweepBefore d k).fwd.sweepPos ≤ k ∧ AMap.find? (sweepBefore d k).fwd.fdb k = AMap.find? d.fwd.fdb k := by
  unfold sweepBefore
  by_cases behind : k < d.fwd.sweepPos
  · rw [Dev.when, if_pos (decide_eq_true behind)]
    exact ⟨sweepTo_rising order _, Nat.zero_le k, sweepTo_behind behind _⟩
  · rw [Dev.when, if_neg (by simpa using behind)]
    exact ⟨order, Nat.le_of_not_lt behind, rfl⟩

theorem Only.sweepBefore (d : Dev) (k : Nat) : Only [.out, .cnt, .fwd] d (Sys2Proof.sweepBefore d k) := Only.when _ (Only.sweepEnd d)

/-- The sweep comes to a location, at its instant. -/
def sweepComes (d : Dev) (k : Nat) : Dev := ((sweepBefore d k).reach ((sweepBefore d k).fwd.visitAt k)).sweepTo (k + 1)

theorem sweepComes_visits {d : Dev} {k : Nat} {e : FdbEntry} (order : AMap.rising d.fwd.fdb = true) (found : AMap.find? d.fwd.fdb k = some e)
    (lasts : Outlasts e) : AMap.find? (sweepComes d k).fwd.fdb k = some (visited e) := by
  obtain ⟨still, first, same⟩ := sweepBefore_ready order k
  exact sweepTo_visits (by simpa using still) (by simpa using first) (Nat.lt_succ_self k) (by simpa using same.trans found) lasts

/-! ### The row of a visit -/

theorem exec_agerVisit (dt k : Nat) (s : State) : exec (.agerVisit dt k) s = execAgerVisit dt k s := rfl

@[simp] theorem bgPaused_elapse (d : Dev) (dt : Nat) : (d.elapse dt).bgPaused = d.bgPaused := by simp [Dev.bgPaused]

/-- Where background work is granted, the row visits the entry that lies at its location. -/
theorem agerVisit_visits {dt k : Nat} {e : FdbEntry} {s : State} (u : Serving s) (runs : s.dev.bgPaused = false) (within : k < 1048576)
    (order : AMap.rising s.dev.fwd.fdb = true) (found : AMap.find? s.dev.fwd.fdb k = some e) (lasts : Outlasts e) :
    Does (.agerVisit dt k) s [.fwd, .bdy] fun x => AMap.find? x.fwd.fdb k = some (visited e) ∧ x.fwd.sweepPos = k + 1 := by
  refine Does.upTo (x := sweepComes (s.dev.elapse dt) k) (exec_agerVisit dt k s) u ?_ ?_ ?_
  · have location : min k 1048575 = k := Nat.min_eq_left (by omega)
    simp [runs, location, sweepComes, sweepBefore]
  · simp [sweepComes, (Only.sweepTo _ _).iff, (Only.reach _ _).iff, (Only.sweepBefore _ _).iff, tells, Only.refl]
  · rw [Dev.settle_fwd]
    exact ⟨sweepComes_visits (by simpa using order) (by simpa using found) lasts, rfl⟩

theorem agerVisit_clears (dt k : Nat) (e : FdbEntry) (s : State) (u : Serving s) (runs : s.dev.bgPaused = false) (within : k < 1048576)
    (order : AMap.rising s.dev.fwd.fdb = true) (found : AMap.find? s.dev.fwd.fdb k = some e) (learned : e.static = false) (hit : e.hit = true) :
    Does (.agerVisit dt k) s [.fwd, .bdy] fun x =>
      AMap.find? x.fwd.fdb k = some { e with hit := false, age := 0 } ∧ x.fwd.sweepPos = k + 1 := by
  have cleared : visited e = { e with hit := false, age := 0 } := by simp [visited, learned, hit]
  exact cleared ▸ agerVisit_visits u runs within order found (.inr (.inl hit))

theorem agerVisit_ages (dt k : Nat) (e : FdbEntry) (s : State) (u : Serving s) (runs : s.dev.bgPaused = false) (within : k < 1048576)
    (order : AMap.rising s.dev.fwd.fdb = true) (found : AMap.find? s.dev.fwd.fdb k = some e) (learned : e.static = false) (unseen : e.hit = false)
    (young : e.age + 1 < 8) : Does (.agerVisit dt k) s [.fwd, .bdy] fun x => AMap.find? x.fwd.fdb k = some { e with age := e.age + 1 } := by
  have aged : visited e = { e with age := e.age + 1 } := by simp [visited, learned, unseen]
  exact aged ▸ (agerVisit_visits u runs within order found (.inr (.inr young))).imp fun _ h => h.1

/-- A static entry stands whether or not background work is granted. -/
theorem agerVisit_static (dt k : Nat) (e : FdbEntry) (s : State) (u : Serving s) (within : k < 1048576)
    (order : AMap.rising s.dev.fwd.fdb = true) (found : AMap.find? s.dev.fwd.fdb k = some e) (static : e.static = true) :
    Does (.agerVisit dt k) s [.fwd, .bdy] fun x => AMap.find? x.fwd.fdb k = some e := by
  cases paused : s.dev.bgPaused with
  | true =>
    refine Does.upTo (x := s.dev.elapse dt) (exec_agerVisit dt k s) u ?_ (Only.refl _ _) (by simpa using found)
    simp [paused]
  | false =>
    have stands : visited e = e := if_pos static
    exact (agerVisit_visits u paused within order found (.inl static)).imp fun _ h => h.1.trans (congrArg some stands)

/-! ## The end of a flush (07 R271) -/

theorem exec_fdbFlushDone (dt ring tag : Nat) (s : State) : exec (.fdbFlushDone dt ring tag) s = execFdbFlushDone dt ring tag s := rfl

/-- What a flush takes goes by the variant, the module's number and the table's entry. -/
theorem flushTakes_elapse (d : Dev) (dt : Nat) (e : CmdEntry) (x : FdbEntry) : (d.elapse dt).flushTakes e x = d.flushTakes e x := by
  simp [Dev.flushTakes, Dev.namesPort, Dev.portField, Dev.clampLane, Dev.module]

/-- An entry that the scan of a flush removes on its way to a position. -/
def flushHits (d : Dev) (c : Cmd) (pos : Nat) (x : Nat × FdbEntry) : Bool :=
  decide (c.pos ≤ x.1) && decide (x.1 < pos) && d.flushTakes c.e x.2

theorem flushTo_fdb (d : Dev) (c : Cmd) (pos : Nat) : (d.flushTo c pos).fwd.fdb = d.fwd.fdb.filter fun x => !flushHits d c pos x := by
  have told (e : Dev) (xs : List (Nat × FdbEntry)) : (e.each xs fun x d => d.fdbTell 2 x.2.mac x.2.fid x.2.dest x.2.taught).fwd = e.fwd :=
    (Only.each xs (fun x d => Only.fdbTell d 2 x.2.mac x.2.fid x.2.dest x.2.taught) e).fwd (by decide)
  rw [Dev.flushTo, (Only.cmdM _ _ _).fwd (by decide), told]
  rfl

theorem Only.flushTo (d : Dev) (c : Cmd) (pos : Nat) : Only [.out, .hif, .fwd] d (d.flushTo c pos) := by
  simp [Dev.flushTo, (Only.cmdM _ _ _).iff, (Only.fdbTell _ _ _ _ _ _).iff, (Only.fwdM _ _).iff, Only.each_iff, Only.refl]

/-- A command that is in flight is named by its ring and tag. -/
theorem cmdAt_named {d : Dev} {ring tag : Nat} {c : Cmd} (found : d.cmdAt ring tag = some c) :
    c.mirrored = false ∧ c.e.ring = ring ∧ c.e.tag = tag := by
  have named := List.find?_some found
  simp only [Bool.and_eq_true, Bool.not_eq_true', beq_iff_eq] at named
  exact ⟨named.1.1, named.1.2, named.2⟩

/-- A flush ends with the number of entries that it has removed. -/
def flushCompletes (d : Dev) (ring tag : Nat) : Dev :=
  match d.cmdAt ring tag with
  | some c => d.finish c stOk c.tally
  | none => d

theorem flushCompletes_cmdAt (d : Dev) (ring tag : Nat) : (flushCompletes d ring tag).cmdAt ring tag = none := by
  unfold flushCompletes
  split
  next c found =>
    obtain ⟨own, rfl, rfl⟩ := cmdAt_named found
    exact finish_cmdAt d c _ _ own
  next gone => exact gone

theorem Only.flushCompletes (d : Dev) (ring tag : Nat) : Only [.out, .cnt, .hif, .bdy] d (Sys2Proof.flushCompletes d ring tag) := by
  unfold Sys2Proof.flushCompletes
  split <;> simp [(Only.finishIn _ _ _ _).iff, Only.refl]

/-- The scan of a flush has come to the end of the table. -/
def flushScanned (d : Dev) (c : Cmd) : Dev := (d.reach (c.since + 655360)).flushTo c 1048576

theorem flushHits_iff (d : Dev) (c : Cmd) (pos : Nat) (x : Nat × FdbEntry) :
    flushHits d c pos x = true ↔ c.pos ≤ x.1 ∧ x.1 < pos ∧ d.flushTakes c.e x.2 = true := by
  simp [flushHits, and_assoc]

theorem flushScanned_mem (d : Dev) (c : Cmd) (dt : Nat) (y : Nat × FdbEntry) : y ∈ (flushScanned (d.elapse dt) c).fwd.fdb ↔
    y ∈ d.fwd.fdb ∧ ¬(c.pos ≤ y.1 ∧ y.1 < 1048576 ∧ d.flushTakes c.e y.2 = true) := by
  simp [flushScanned, flushTo_fdb, ← Bool.not_eq_true, flushHits_iff, Dev.reach, flushTakes_elapse]

theorem flush_ends (dt ring tag : Nat) (c : Cmd) (s : State) (u : Serving s) (runs : s.dev.bgPaused = false)
    (found : s.dev.cmdAt ring tag = some c) (op : c.op = 0x0A03) (long : c.stage = .long) (unheld : c.held = false) (_own : c.mirrored = false) :
    Does (.fdbFlushDone dt ring tag) s [.fwd, .bdy] fun x =>
      x.cmdAt ring tag = none ∧ (∀ y ∈ x.fwd.fdb, y ∈ s.dev.fwd.fdb ∧ ¬ (c.pos ≤ y.1 ∧ y.1 < 1048576 ∧ s.dev.flushTakes c.e y.2 = true)) ∧
        (∀ y ∈ s.dev.fwd.fdb, s.dev.flushTakes c.e y.2 = false → y ∈ x.fwd.fdb) := by
  have known : (s.dev.elapse dt).cmdAt ring tag = some c := by simpa [Dev.cmdAt] using found
  refine Does.upTo (x := flushCompletes (flushScanned (s.dev.elapse dt) c) ring tag) (exec_fdbFlushDone dt ring tag s) u ?_ ?_ ?_
  · dsimp only
    rw [known]
    exact if_pos ⟨op, long, unheld, by simpa using runs⟩
  · simp [(Only.flushCompletes _ _ _).iff, flushScanned, (Only.flushTo _ _ _).iff, (Only.reach _ _).iff, tells, Only.refl]
  · rw [settle_cmdAt, Dev.settle_fwd, (Only.flushCompletes _ ring tag).fwd (by decide)]
    refine ⟨flushCompletes_cmdAt _ ring tag, fun y listed => (flushScanned_mem _ c dt y).1 listed, fun y listed spared => ?_⟩
    exact (flushScanned_mem _ c dt y).2 ⟨listed, fun ⟨_, _, takes⟩ => by simp [spared] at takes⟩

/-! ## The end of a recorder's posts and of its readout (07 R265, R267) -/

theorem exec_recorderPostDone (dt r : Nat) (s : State) : exec (.recorderPostDone dt r) s = execRecorderPostDone dt r s := rfl
theorem exec_recorderReadDone (dt r : Nat) (s : State) : exec (.recorderReadDone dt r) s = execRecorderReadDone dt r s := rfl

theorem Only.region {as : List Area} {d e : Dev} (h : Only as d e) (k : Area.fwd ∉ as) (r : Nat) : e.region r = d.region r := by
  rw [Dev.region, h.fwd k, Dev.region]

@[simp] theorem region_elapse (d : Dev) (dt r : Nat) : (d.elapse dt).region r = d.region r := (Only.elapse d dt).region (by decide) r
@[simp] theorem region_settle (d : Dev) (r : Nat) : d.settle.region r = d.region r := (Only.settle d).region (by decide) r
@[simp] theorem region_count (d : Dev) (k n r : Nat) : (d.count k n).region r = d.region r := (Only.count d k n).region (by decide) r
@[simp] theorem region_post (d : Dev) (ev : Nat) (items : List Item) (r : Nat) : (d.post ev items).region r = d.region r :=
  (Only.post d ev items).region (by decide) r
@[simp] theorem region_fresh (d : Dev) (r : Nat) : d.fresh.2.region r = d.region r := (Only.fresh d).region (by decide) r
@[simp] theorem region_pageNow (d : Dev) (p rank : Nat) (write : Bool) (first n r : Nat) : (d.pageNow p rank write first n).region r = d.region r :=
  (Only.pageNow d p rank write first n).region (by decide) r
@[simp] theorem region_finishAt (d : Dev) (g t st n r : Nat) : (d.finishAt g t st n).region r = d.region r :=
  (Only.finishAt d g t st n).region (by decide) r
@[simp] theorem region_regionM (d : Dev) (r : Nat) (f : Region → Region) : (d.regionM r f).region r = f (d.region r) :=
  (AMap.getD_upd _ _ _ _ _).trans (if_pos rfl)

/-- A region that enters FROZEN keeps all else. -/
theorem region_toFrozen (d : Dev) (r : Nat) : (d.toFrozen r).region r = { d.region r with state := .frozen } := by
  unfold Dev.toFrozen
  dsimp only
  split <;> simp

/-- Entering FROZEN leaves the commands in flight. -/
theorem HostKept.toFrozen (d : Dev) (r : Nat) : HostKept d (d.toFrozen r) := by
  have set : HostKept d (d.regionM r fun x => { x with state := .frozen }) := HostKept.of_hif rfl
  unfold Dev.toFrozen
  dsimp only
  split
  · exact (set.trans (HostKept.of_hif ((Only.fresh _).hif (by decide)))).trans (HostKept.post _ _ _)
  · exact set.trans (HostKept.post _ _ _)

/-- Where no order waits, nothing follows FROZEN. -/
theorem afterFrozen_unordered {d : Dev} {r : Nat} (rearm : (d.region r).rearmWait = []) (disable : (d.region r).disableWait = []) :
    d.afterFrozen r = d := by
  simp [Dev.afterFrozen, rearm, disable]

/-- A region as a freeze finds it once its last page has been written. -/
def lastPageWritten (d : Dev) (r : Nat) : Dev :=
  if (d.region r).postPages ≠ 0 ∨ (d.region r).cur.isEmpty then d else d.writeRecPage r

/-- Commands and orders that wait at a region. -/
def waiters (x : Region) : List (Nat × Nat) × List (Nat × Nat) × List (Nat × Nat) := (x.freezeWait, x.rearmWait, x.disableWait)

theorem waiters_writeRecPage (d : Dev) (r : Nat) : waiters ((d.writeRecPage r).region r) = waiters (d.region r) := by
  unfold Dev.writeRecPage
  rw [region_count, region_regionM, region_pageNow]
  rfl

theorem waiters_lastPageWritten (d : Dev) (r : Nat) : waiters ((lastPageWritten d r).region r) = waiters (d.region r) := by
  unfold lastPageWritten
  split
  · rfl
  · exact waiters_writeRecPage d r

theorem Only.lastPageWritten (d : Dev) (r : Nat) : Only [.cnt, .fwd, .drc] d (Sys2Proof.lastPageWritten d r) := by
  simp [Sys2Proof.lastPageWritten, (Only.writeRecPage _ _).iff, Only.ite_iff, Only.refl]

theorem freeze_eq (d : Dev) (r : Nat) : d.freeze r =
    ((((lastPageWritten d r).regionM r fun x => { x with freezeWait := [], cur := [], firstRec := none }).toFrozen r).finishAll
      ((lastPageWritten d r).region r).freezeWait stOk).afterFrozen r := rfl

/-- A region at which nothing waits freezes: its last page is written, and it enters FROZEN with no page under way. -/
theorem freeze_unawaited {d : Dev} {r : Nat} (idle : waiters (d.region r) = ([], [], [])) :
    d.freeze r = ((lastPageWritten d r).regionM r fun x => { x with freezeWait := [], cur := [], firstRec := none }).toFrozen r := by
  have still := (waiters_lastPageWritten d r).trans idle
  simp only [waiters, Prod.mk.injEq] at still
  obtain ⟨awaited, rearm, disable⟩ := still
  rw [freeze_eq, awaited]
  refine afterFrozen_unordered ?_ ?_
  · exact (congrArg Region.rearmWait (region_toFrozen _ r)).trans (by simpa using rearm)
  · exact (congrArg Region.disableWait (region_toFrozen _ r)).trans (by simpa using disable)

theorem posts_end (dt r : Nat) (s : State) (u : Serving s) (post : (s.dev.region r).state = .post) (written : (s.dev.region r).postLeft = 0)
    (idle : (s.dev.region r).freezeWait = [] ∧ (s.dev.region r).rearmWait = [] ∧ (s.dev.region r).disableWait = []) :
    Does (.recorderPostDone dt r) s [.fwd, .drc, .free] fun x => (x.region r).state = .frozen ∧ (x.region r).cur = [] := by
  obtain ⟨awaited, rearm, disable⟩ := idle
  have frozen := freeze_unawaited (d := s.dev.elapse dt) (r := r) (by simp [waiters, awaited, rearm, disable])
  refine Does.upTo (exec_recorderPostDone dt r s) u (Eq.trans (by simp [post, written]) frozen) ?_ ?_
  · simp [(Only.toFrozen _ _).iff, (Only.regionM _ _ _).iff, (Only.lastPageWritten _ _).iff, tells, Only.refl]
  · simp [region_toFrozen]

theorem Only.readPagesTo (d : Dev) (c : Cmd) (pos : Nat) : Only [.out, .cnt, .hif, .drc] d (d.readPagesTo c pos) := by
  simp [Dev.readPagesTo, (Only.cmdM _ _ _).iff, (Only.emit _ _).iff, (Only.pageNow _ _ _ _ _ _).iff, Only.each_iff, Only.refl]

@[simp] theorem region_readPagesTo (d : Dev) (c : Cmd) (pos r : Nat) : (d.readPagesTo c pos).region r = d.region r :=
  (Only.readPagesTo d c pos).region (by decide) r

/-- Where no order waits for its end, a readout returns its region to FROZEN. -/
theorem readEnded_unordered {d : Dev} {r : Nat} (rearm : (d.region r).rearmWait = []) (disable : (d.region r).disableWait = []) :
    d.readEnded r = (d.regionM r fun x => { x with reader := none }).toFrozen r := by
  refine afterFrozen_unordered ?_ ?_
  · exact (congrArg Region.rearmWait (region_toFrozen _ r)).trans (by simpa using rearm)
  · exact (congrArg Region.disableWait (region_toFrozen _ r)).trans (by simpa using disable)

/-- The pages of a readout have been written and its command has completed. -/
def readCompletes (d : Dev) (ring tag : Nat) (c : Cmd) : Dev := (d.readPagesTo c c.total).finishAt ring tag stOk c.tally

theorem Only.readCompletes (d : Dev) (ring tag : Nat) (c : Cmd) : Only [.out, .cnt, .hif, .drc, .bdy] d (Sys2Proof.readCompletes d ring tag c) := by
  simp [Sys2Proof.readCompletes, (Only.finishAtIn _ _ _ _ _).iff, (Only.readPagesTo _ _ _).iff, Only.refl]

theorem readout_ends (dt r ring tag : Nat) (c : Cmd) (s : State) (u : Serving s) (reads : (s.dev.region r).reader = some (ring, tag))
    (found : s.dev.cmdAt ring tag = some c) (unheld : c.held = false)
    (unordered : (s.dev.region r).rearmWait = [] ∧ (s.dev.region r).disableWait = []) :
    Does (.recorderReadDone dt r) s [.fwd, .drc, .free, .bdy] fun x =>
      (x.region r).state = .frozen ∧ (x.region r).reader = none ∧ x.cmdAt ring tag = none := by
  have known : (s.dev.elapse dt).cmdAt ring tag = some c := by simpa [Dev.cmdAt] using found
  have kept : (readCompletes (s.dev.elapse dt) ring tag c).region r = s.dev.region r := by
    rw [(Only.readCompletes _ ring tag c).region (by decide), region_elapse]
  have ended := readEnded_unordered (kept ▸ unordered.1) (kept ▸ unordered.2)
  refine Does.upTo (exec_recorderReadDone dt r s) u (Eq.trans (by simp [reads, known, unheld, readCompletes]) ended) ?_ ?_
  · simp [(Only.toFrozen _ _).iff, (Only.regionM _ _ _).iff, (Only.readCompletes _ _ _ _).iff, tells, Only.refl]
  · rw [region_settle, region_toFrozen, region_regionM, settle_cmdAt, Dev.cmdAt, (HostKept.toFrozen _ r).inflight]
    exact ⟨rfl, rfl, finishAt_cmdAt _ ring tag stOk c.tally⟩

/-- Settles O37: a visit comes to a location once, after the sweep that had passed it has ended; a flush keeps what its scan does not take;
and a region at which nothing waits enters FROZEN and stays there. -/
theorem tablesAndRecorders : Obligations.TablesAndRecorders := by
  unfold Obligations.TablesAndRecorders
  exact ⟨agerVisit_clears, agerVisit_ages, agerVisit_static, flush_ends, posts_end, readout_ends⟩

end Sys2Proof

namespace Sys2Proof

open Sys2Proof.Machine

/-! ## Commits of the buffers, the governor, the snapshot and the monitors (08 R286, R291, R298, 11 R395, 13 R450, 15 R491, R495) -/

theorem bufSetAdmit_row : CommitRow (.bufSetAdmit, bufSetAdmit) := ⟨fun _ _ _ => rfl, fun _ => rfl, fun _ _ => rfl, rfl, by decide⟩
theorem bufSetSpill_row : CommitRow (.bufSetSpill, bufSetSpill) := ⟨fun _ _ _ => rfl, fun _ => rfl, fun _ _ => rfl, rfl, by decide⟩
theorem govSetPolicy_row : CommitRow (.govSetPolicy, govSetPolicy) := ⟨fun _ _ _ => rfl, fun _ => rfl, fun _ _ => rfl, rfl, by decide⟩
theorem glbSnapshot_row : CommitRow (.glbSnapshot, glbSnapshot) := ⟨fun _ _ _ => rfl, fun _ => rfl, fun _ _ => rfl, rfl, by decide⟩
theorem cntSetMonitor_row : CommitRow (.cntSetMonitor, cntSetMonitor) := ⟨fun _ _ _ => rfl, fun _ => rfl, fun _ _ => rfl, rfl, by decide⟩
theorem cntSetEventCounter_row : CommitRow (.cntSetEventCounter, cntSetEvCounter) := ⟨fun _ _ _ => rfl, fun _ => rfl, fun _ _ => rfl, rfl, by decide⟩

/-! ### Accounts while XOFF is looked at (08 R291) -/

theorem acct_acctM (d : Dev) (point cls : Nat) (f : Account → Account) (p c : Nat) :
    (d.acctM point cls f).acct p c = if aIx p c = aIx point cls then f (d.acct point cls) else d.acct p c := AMap.getD_upd _ _ _ _ _

/-- What an account holds besides its XOFF. -/
def besidesXoff (a : Account) : Account := { a with xoff := false }

/-- Every account is as it was, whatever became of its XOFF. -/
def AccountsStand (d x : Dev) : Prop := ∀ point cls, besidesXoff (x.acct point cls) = besidesXoff (d.acct point cls)

namespace AccountsStand

theorem refl (d : Dev) : AccountsStand d d := fun _ _ => rfl

theorem trans {d x y : Dev} (h : AccountsStand d x) (k : AccountsStand x y) : AccountsStand d y := fun p c => (k p c).trans (h p c)

theorem of_only {l : List Area} {d x : Dev} (h : Only l d x) (k : Area.buf ∉ l) : AccountsStand d x := fun _ _ => by
  rw [Dev.acct, h.buf k, Dev.acct]

theorem when {d : Dev} {c : Bool} {f : Dev → Dev} (h : AccountsStand d (f d)) : AccountsStand d (d.when c f) := by
  cases c
  · exact refl d
  · exact h

theorem each {α : Type} (xs : List α) {f : α → Dev → Dev} (h : ∀ a x, AccountsStand x (f a x)) (d : Dev) : AccountsStand d (d.each xs f) := by
  induction xs generalizing d with
  | nil => exact refl d
  | cons a as ih => exact (h a d).trans (ih (f a d))

theorem acctM_xoff (d : Dev) (point cls : Nat) (on : Bool) : AccountsStand d (d.acctM point cls fun a => { a with xoff := on }) := fun p c => by
  rw [acct_acctM]
  split
  next same => rw [Dev.acct, Dev.acct, same]; rfl
  next => rfl

theorem setXoff (d : Dev) (point cls : Nat) (on : Bool) : AccountsStand d (d.setXoff point cls on) :=
  (acctM_xoff d point cls on).trans ((when (of_only (Only.count _ _ _) (by decide))).trans (when (of_only (Only.portM _ _ _) (by decide))))

theorem xoffScan (d : Dev) : AccountsStand d d.xoffScan := by
  refine each _ (fun a x => ?_) d
  dsimp only
  refine trans ?_ (when (of_only (Only.returnCredit _ _) (by decide)))
  split
  · exact when (setXoff _ _ _ _)
  · exact when (setXoff _ _ _ _)

end AccountsStand

/-- The settings are written, and the look at XOFF that follows leaves them (08 R291, R316). -/
theorem setAdmit_commits : Commits (.bufSetAdmit, bufSetAdmit) (fun c _ => c.noRoom = false) (.buf :: .mac :: .bdy :: tells) (fun _ _ => 0)
    fun c d x =>
      let a := x.acct (d.admitPoint c.e) (c.e.f 16 27 24)
      let o := d.acct (d.admitPoint c.e) (c.e.f 16 27 24)
      a.minCells = c.e.f 20 22 0 ∧ a.headroom = c.e.f 24 22 0 ∧ a.alphaExp = clampI (-7) 3 (c.e.i 28 4) ∧ a.xonGap = max 1 (c.e.f 28 31 16) ∧
        a.useMin = o.useMin ∧ a.useShared = o.useShared ∧ a.useHead = o.useHead := by
  refine CommitRow.commits bufSetAdmit_row fun c d room => ⟨(d.admitSet c.e).xoffScan, ?_, ?_, if_neg (by simp [room])⟩
  · exact ((Only.admitSet d c.e).mono (by decide)).trans ((Only.xoffScan _).mono (by decide))
  · have stands := AccountsStand.xoffScan (d.admitSet c.e) (d.admitPoint c.e) (c.e.f 16 27 24)
    rw [Dev.admitSet, acct_acctM, if_pos rfl] at stands
    simp only [besidesXoff, Account.mk.injEq] at stands
    obtain ⟨cells, headroom, alpha, gap, useMin, useShared, useHead, -⟩ := stands
    exact ⟨cells, headroom, alpha, gap, useMin, useShared, useHead⟩

/-! ### A queue's spill and recall (08 R297 to R300) -/

theorem queue_queueM (d : Dev) (q : Nat) (f : Queue → Queue) (k : Nat) :
    (d.queueM q f).queue k = if k = q then f (d.queue q) else d.queue k := AMap.getD_upd _ _ _ _ _

/-- What BUF.SET_SPILL sets of a queue (08 R317). -/
def spillSettings (x : Queue) : Bool × Nat × Nat × Nat × Nat := (x.absorb, x.spillOn, x.spillOff, x.recallLo, x.farMax)

/-- Of the queues only `q` may have changed, and its spill settings stand. -/
structure SpillsOnly (q : Nat) (d x : Dev) : Prop where
  settings : spillSettings (x.queue q) = spillSettings (d.queue q)
  others : ∀ k, k ≠ q → x.queue k = d.queue k

namespace SpillsOnly

variable {q : Nat} {d x y : Dev}

theorem refl (q : Nat) (d : Dev) : SpillsOnly q d d := ⟨rfl, fun _ _ => rfl⟩

theorem trans (h : SpillsOnly q d x) (k : SpillsOnly q x y) : SpillsOnly q d y :=
  ⟨k.settings.trans h.settings, fun i ne => (k.others i ne).trans (h.others i ne)⟩

theorem of_queues (h : x.buf.queues = d.buf.queues) : SpillsOnly q d x := by
  have queue (k : Nat) : x.queue k = d.queue k := by rw [Dev.queue, h, Dev.queue]
  exact ⟨congrArg spillSettings (queue q), fun k _ => queue k⟩

theorem of_only {l : List Area} (h : Only l d x) (k : Area.buf ∉ l) : SpillsOnly q d x := of_queues (congrArg Buf.queues (h.buf k))

theorem when {c : Bool} {f : Dev → Dev} (h : SpillsOnly q d (f d)) : SpillsOnly q d (d.when c f) := by
  cases c
  · exact refl q d
  · exact h

theorem bufM (q : Nat) (d : Dev) {f : Buf → Buf} (h : ∀ b, (f b).queues = b.queues) : SpillsOnly q d (d.bufM f) := of_queues (h d.buf)

/-- A change of the queue that leaves its settings. -/
theorem queueM (q : Nat) (d : Dev) {f : Queue → Queue} (h : ∀ x, spillSettings (f x) = spillSettings x) : SpillsOnly q d (d.queueM q f) :=
  ⟨by rw [queue_queueM, if_pos rfl, h], fun k ne => by rw [queue_queueM, if_neg ne]⟩

theorem count (q : Nat) (d : Dev) (k n : Nat) : SpillsOnly q d (d.count k n) := of_only (Only.count d k n) (by decide)

theorem wake (q : Nat) (d : Dev) : SpillsOnly q d (d.wake q) := by
  unfold Dev.wake
  split
  · refine trans ?_ (count q _ _ _)
    exact queueM q d fun _ => by simp only [spillSettings]
  · exact refl q d

theorem joinTail (q : Nat) (d : Dev) : SpillsOnly q d (d.joinTail q) := by
  unfold Dev.joinTail
  dsimp only
  split
  · exact refl q d
  · refine trans ?_ (when (wake q _))
    exact queueM q d fun _ => rfl

theorem spillState (q : Nat) (d : Dev) : SpillsOnly q d (d.spillState q) := by
  have to_spilling : SpillsOnly q d ((d.queueM q fun x => { x with state := .spilling }).count (cQueue q 2) 1) := by
    refine trans ?_ (count q _ _ _)
    exact queueM q d fun _ => rfl
  unfold Dev.spillState
  dsimp only
  split
  case h_1 =>
    split
    · exact to_spilling
    · exact refl q d
  case h_2 =>
    split
    · exact queueM q d fun _ => rfl
    · split
      · exact joinTail q d
      · exact refl q d
  case h_3 =>
    split
    · exact to_spilling
    · split
      · exact (joinTail q d).trans (queueM q _ fun _ => rfl)
      · exact refl q d

theorem pickPage (q : Nat) (d : Dev) (avoid : Option Nat) : SpillsOnly q d (d.pickPage avoid).2 := of_only (Only.pickPage d avoid) (by decide)

theorem allocPage (q : Nat) (d : Dev) : SpillsOnly q d (d.allocPage q).2 := by
  unfold Dev.allocPage
  dsimp only
  refine trans ?_ (bufM q _ fun _ => rfl)
  refine trans (pickPage q d none) (when ?_)
  exact ((pickPage q _ _).trans (pickPage q _ _)).trans (queueM q _ fun _ => rfl)

theorem spillLimit (q : Nat) (d : Dev) : SpillsOnly q d d.spillLimit := by
  have told (b : Bool) (ev : Nat) (items : List Item) : SpillsOnly q d ((d.bufM fun y => { y with spillStopped := b }).post ev items) := by
    refine trans ?_ (of_only (Only.post _ ev items) (by decide))
    exact bufM q d fun _ => rfl
  unfold Dev.spillLimit
  repeat' split
  · exact told _ _ _
  · exact refl q d
  · exact told _ _ _
  · exact refl q d

theorem writePages (n q : Nat) (d : Dev) : SpillsOnly q d (Dev.writePages n q d) := by
  induction n generalizing d with
  | zero => exact refl q d
  | succ n ih =>
    unfold Dev.writePages
    dsimp only
    split
    · exact refl q d
    · refine trans ?_ (ih _)
      refine trans ?_ (spillLimit q _)
      refine trans ?_ (count q _ _ _)
      refine trans ?_ (of_only (Only.drcM _ _) (by decide))
      refine trans ?_ (of_only (Only.askPage _ _ _ _ _ _) (by decide))
      refine trans ?_ (of_only (Only.tailWords _ _) (by decide))
      exact (allocPage q d).trans (queueM q _ fun _ => rfl)

theorem askPages (n q : Nat) (d : Dev) : SpillsOnly q d (Dev.askPages n q d) := by
  induction n generalizing d with
  | zero => exact refl q d
  | succ n ih =>
    unfold Dev.askPages
    dsimp only
    split
    · split
      · refine trans ?_ (ih _)
        refine trans ?_ (of_only (Only.panicLook _ _) (by decide))
        refine trans ?_ (of_only (Only.drcM _ _) (by decide))
        exact (of_only (Only.askPage _ _ _ _ _ _) (by decide)).trans (queueM q _ fun _ => rfl)
      · exact refl q d
    · exact refl q d

theorem askRecall (q : Nat) (d : Dev) : SpillsOnly q d (d.askRecall q) := askPages _ q d

theorem spillStep (q : Nat) (d : Dev) : SpillsOnly q d (d.spillStep q) := by
  unfold Dev.spillStep
  split
  · exact refl q d
  · refine trans ?_ (((spillState q _).trans (askRecall q _)).trans (spillLimit q _))
    have looked := (((spillState q d).trans (spillState q _)).trans (spillState q _)).trans (askRecall q _)
    split
    · exact looked.trans (writePages _ q _)
    · exact looked

end SpillsOnly

/-- The settings are written, and what the queue then spills and recalls leaves them and every other queue (08 R297, R317). -/
theorem setSpill_commits : Commits (.bufSetSpill, bufSetSpill) (fun _ _ => True) (.buf :: .drc :: .free :: tells) (fun _ _ => 0) fun c d x =>
    let q := x.queue (qIx (d.portField c.e) (c.e.f 16 19 16))
    let on := clamp 32 4194304 (c.e.f 20 22 0)
    q.absorb = c.e.b 16 20 ∧ q.spillOn = on ∧ q.spillOff = min (c.e.f 24 22 0) (on - 16) ∧ q.recallLo = clamp 64 65535 (c.e.f 28 15 0) ∧
      q.farMax = c.e.f 32 29 0 ∧ ∀ k, k ≠ qIx (d.portField c.e) (c.e.f 16 19 16) → x.queue k = d.queue k := by
  refine CommitRow.commits bufSetSpill_row fun c d _ =>
    ⟨_, ((Only.queueM d _ _).mono (by decide)).trans ((Only.spillStep _ _).mono (by decide)), ?_, rfl⟩
  obtain ⟨settings, others⟩ := SpillsOnly.spillStep (qIx (d.portField c.e) (c.e.f 16 19 16)) _
  rw [queue_queueM, if_pos rfl] at settings
  simp only [spillSettings, Prod.mk.injEq] at settings
  obtain ⟨absorb, on, off, lo, far⟩ := settings
  refine ⟨absorb, on, off, lo, far, fun k ne => ?_⟩
  rw [others k ne, queue_queueM, if_neg ne]

/-! ### The governor's policy and the snapshot (11 R395, 13 R450) -/

/-- A policy that allows the step of the moment moves no step. -/
theorem applyPolicy_allowed {c : Cmd} {d : Dev} (allowed : d.gov.step ≤ min 5 (c.e.f 16 26 24)) :
    applyPolicy c d = (d.govM fun g => { g with
      envelope := clamp 100 1500 (c.e.f 16 15 0), thermal := clamp 60 105 (c.e.f 16 23 16), maxStep := min 5 (c.e.f 16 26 24) }).finish c stOk 0 := by
  have stays : ¬min 5 (c.e.f 16 26 24) < d.gov.step := Nat.not_lt.2 allowed
  simp only [applyPolicy, Dev.govM_gov, stays, decide_false, Bool.false_and]
  rfl

theorem setPolicy_commits : Commits (.govSetPolicy, govSetPolicy) (fun c d => d.gov.step ≤ min 5 (c.e.f 16 26 24)) [.gov] (fun _ _ => 0)
    fun c d x =>
      x.gov = { d.gov with envelope := clamp 100 1500 (c.e.f 16 15 0), thermal := clamp 60 105 (c.e.f 16 23 16), maxStep := min 5 (c.e.f 16 26 24) } :=
  CommitRow.commits govSetPolicy_row fun _ d allowed => ⟨_, Only.govM d _, Dev.govM_gov _ _, applyPolicy_allowed allowed⟩

/-- The banks have been flipped before the bell comes to the command (01 R28). -/
theorem snapshot_commits : Commits (.glbSnapshot, glbSnapshot) (fun _ _ => True) [] (fun _ d => d.bel.seq % 2 ^ 32) fun _ d x => x = d :=
  CommitRow.commits glbSnapshot_row fun _ d _ => ⟨d, Only.refl _ d, rfl, rfl⟩

/-! ### Monitors and event counters (15 R491 to R495) -/

/-- A monitor is written at its number; of the live values only its own may start anew. -/
theorem applyMonitor_writes (c : Cmd) (d : Dev) : ∃ x, Only [.cnt] d x ∧
    x.cnt.monitors = AMap.set d.cnt.monitors (c.e.f 16 7 0) { en := c.e.b 20 0, below := c.e.b 20 1, kind := c.e.f 20 5 2
                                                              index := d.monIndex (c.e.f 20 5 2) (c.e.f 20 31 16), thresh := c.e.f 24 31 0 } ∧
    applyMonitor c d = x.finish c stOk 0 := by
  unfold applyMonitor
  extract_lets e m kind new old written x
  refine ⟨x, ?_, ?_, rfl⟩
  · have restarted (n : Nat) : Only [.cnt] d ((written.clearLive (cMon m 0)).setLive (cMon m 1) n) :=
      (Only.cntM d _).trans ((Only.clearLive _ _).trans (Only.setLive _ _ _))
    unfold x
    split
    · exact Only.cntM d _
    · exact restarted _
  · unfold x
    split
    · rfl
    · rfl

theorem setMonitor_commits : Commits (.cntSetMonitor, cntSetMonitor) (fun _ _ => True) [.cnt] (fun _ _ => 0) fun c d x =>
    AMap.find? x.cnt.monitors (c.e.f 16 7 0) = some { en := c.e.b 20 0, below := c.e.b 20 1, kind := c.e.f 20 5 2
                                                      index := d.monIndex (c.e.f 20 5 2) (c.e.f 20 31 16), thresh := c.e.f 24 31 0 } ∧
      (∀ m, m ≠ c.e.f 16 7 0 → AMap.find? x.cnt.monitors m = AMap.find? d.cnt.monitors m) ∧
      (AMap.rising d.cnt.monitors = true → AMap.rising x.cnt.monitors = true) := by
  refine CommitRow.commits cntSetMonitor_row fun c d _ => ?_
  obtain ⟨x, only, written, applied⟩ := applyMonitor_writes c d
  refine ⟨x, only, ?_, applied⟩
  rw [written]
  refine ⟨?_, fun m ne => ?_, fun order => AMap.rising_set order _ _⟩
  · exact (AMap.find?_set _ _ _ _).trans (if_pos rfl)
  · exact (AMap.find?_set _ _ _ _).trans (if_neg ne)

/-- An event counter is written at its number; of the live values only its own may start anew. -/
theorem applyEvCounter_writes (c : Cmd) (d : Dev) : ∃ x, Only [.cnt] d x ∧
    x.cnt.evcs = AMap.set d.cnt.evcs (c.e.f 16 5 0) { event := c.e.f 20 15 0, en := c.e.b 20 16
                                                      filterEn := c.e.b 20 17 && !noFilter.contains (c.e.f 20 15 0), filter := c.e.f 24 13 0 } ∧
    applyEvCounter c d = x.finish c stOk 0 := by
  unfold applyEvCounter
  extract_lets e k ev new old written
  refine ⟨_, ?_, ?_, rfl⟩
  · split
    · exact Only.cntM d _
    · exact (Only.cntM d _).trans (Only.clearLive _ _)
  · split
    · rfl
    · rfl

theorem setEventCounter_commits : Commits (.cntSetEventCounter, cntSetEvCounter) (fun _ _ => True) [.cnt] (fun _ _ => 0) fun c d x =>
    AMap.find? x.cnt.evcs (c.e.f 16 5 0) = some { event := c.e.f 20 15 0, en := c.e.b 20 16
                                                  filterEn := c.e.b 20 17 && !noFilter.contains (c.e.f 20 15 0), filter := c.e.f 24 13 0 } ∧
      ∀ k, k ≠ c.e.f 16 5 0 → AMap.find? x.cnt.evcs k = AMap.find? d.cnt.evcs k := by
  refine CommitRow.commits cntSetEventCounter_row fun c d _ => ?_
  obtain ⟨x, only, written, applied⟩ := applyEvCounter_writes c d
  refine ⟨x, only, ?_, applied⟩
  rw [written]
  refine ⟨?_, fun k ne => ?_⟩
  · exact (AMap.find?_set _ _ _ _).trans (if_pos rfl)
  · exact (AMap.find?_set _ _ _ _).trans (if_neg ne)

/-- Settles O14: each commit is taken up for its bell, whose row comes to it and to no other; neither the look at XOFF nor the spill that
follows a buffer's settings takes them back, and a policy that allows the step of the moment moves none. -/
theorem storePowerAndCounterCommits : Obligations.StorePowerAndCounterCommits := by
  unfold Obligations.StorePowerAndCounterCommits
  exact ⟨setAdmit_commits, setSpill_commits, setPolicy_commits, snapshot_commits, setMonitor_commits, setEventCounter_commits⟩

end Sys2Proof

namespace Sys2Proof

open Sys2Proof.Machine

/-! ## The far-store controller (10 R357, R358, R362, R364 to R367) -/

/-! ### Rows behind a condition -/

theorem exec_dramReadReturn (dt : Nat) (b : BurstAt) (client : DrcClient) (r : EccOutcome) (s : State) :
    exec (.dramReadReturn dt b client r) s = execDramReadReturn dt b client r s := rfl
theorem exec_scrubRead (dt : Nat) (b : BurstAt) (r : EccOutcome) (s : State) : exec (.scrubRead dt b r) s = execScrubRead dt b r s := rfl
theorem exec_refreshDue (dt i b : Nat) (pend : Bool) (s : State) : exec (.refreshDue dt i b pend) s = execRefreshDue dt i b pend s := rfl
theorem exec_stackTemperatureChange (dt k c : Nat) (s : State) :
    exec (.stackTemperatureChange dt k c) s = execStackTemperatureChange dt k c s := rfl
theorem exec_channelRetrainDone (dt k slot : Nat) (ts : List LaneTrain) (s : State) :
    exec (.channelRetrainDone dt k slot ts) s = execChannelRetrainDone dt k slot ts s := rfl
theorem exec_pprDone (dt i b r : Nat) (s : State) : exec (.pprDone dt i b r) s = execPprDone dt i b r s := rfl

/-- A row that acts under a condition does what its effect does, where the condition holds once time has passed. -/
theorem Does.guarded {i : Instr} {s : State} {as : List Area} {P : Dev → Prop} {dt : Nat} {g : Dev → Bool} {f : Dev → Dev}
    (row : exec i s = s.actUp dt fun d => d.when (g d) f) (u : Serving s) (met : g (s.dev.elapse dt) = true)
    (o : Only (.time :: tells ++ as) (s.dev.elapse dt) (f (s.dev.elapse dt))) (p : P (f (s.dev.elapse dt)).settle) : Does i s as P :=
  Does.upTo row u (if_pos met) o p

/-! ### Channels, stacks and retrain slots -/

theorem Only.chan {as : List Area} {d e : Dev} (h : Only as d e) (k : Area.drc ∉ as) (i : Nat) : e.chan i = d.chan i := by
  rw [Dev.chan, h.drc k, Dev.chan]

@[simp] theorem chan_elapse (d : Dev) (dt i : Nat) : (d.elapse dt).chan i = d.chan i := (Only.elapse d dt).chan (by decide) i
@[simp] theorem chan_reach (d : Dev) (t : Q) (i : Nat) : (d.reach t).chan i = d.chan i := (Only.reach d t).chan (by decide) i
@[simp] theorem chan_settle (d : Dev) (i : Nat) : d.settle.chan i = d.chan i := (Only.settle d).chan (by decide) i
@[simp] theorem chan_count (d : Dev) (k n i : Nat) : (d.count k n).chan i = d.chan i := (Only.count d k n).chan (by decide) i
@[simp] theorem chan_post (d : Dev) (ev : Nat) (items : List Item) (i : Nat) : (d.post ev items).chan i = d.chan i :=
  (Only.post d ev items).chan (by decide) i
@[simp] theorem chan_finishAt (d : Dev) (g t st n i : Nat) : (d.finishAt g t st n).chan i = d.chan i :=
  (Only.finishAt d g t st n).chan (by decide) i
@[simp] theorem chan_stackM (d : Dev) (k : Nat) (f : Stack → Stack) (i : Nat) : (d.stackM k f).chan i = d.chan i := rfl
@[simp] theorem chan_retrainM (d : Dev) (k slot : Nat) (f : Retrain → Retrain) (i : Nat) : (d.retrainM k slot f).chan i = d.chan i := rfl
@[simp] theorem chan_chanM (d : Dev) (i : Nat) (f : Chan → Chan) (j : Nat) :
    (d.chanM i f).chan j = if j = i then f (d.chan i) else d.chan j := AMap.getD_upd _ _ _ _ _

theorem Only.stack {as : List Area} {d e : Dev} (h : Only as d e) (k : Area.drc ∉ as) (j : Nat) : e.stack j = d.stack j := by
  rw [Dev.stack, h.drc k, Dev.stack]

@[simp] theorem stack_elapse (d : Dev) (dt k : Nat) : (d.elapse dt).stack k = d.stack k := (Only.elapse d dt).stack (by decide) k
@[simp] theorem stack_settle (d : Dev) (k : Nat) : d.settle.stack k = d.stack k := (Only.settle d).stack (by decide) k
@[simp] theorem stack_post (d : Dev) (ev : Nat) (items : List Item) (k : Nat) : (d.post ev items).stack k = d.stack k :=
  (Only.post d ev items).stack (by decide) k
@[simp] theorem stack_chanM (d : Dev) (i : Nat) (f : Chan → Chan) (k : Nat) : (d.chanM i f).stack k = d.stack k := rfl
@[simp] theorem stack_stackM (d : Dev) (k : Nat) (f : Stack → Stack) : (d.stackM k f).stack k = f (d.stack k) :=
  (AMap.getD_upd _ _ _ _ _).trans (if_pos rfl)

theorem Only.retrain {as : List Area} {d e : Dev} (h : Only as d e) (k : Area.drc ∉ as) (j slot : Nat) : e.retrain j slot = d.retrain j slot := by
  rw [Dev.retrain, h.drc k, Dev.retrain]

@[simp] theorem retrain_elapse (d : Dev) (dt k slot : Nat) : (d.elapse dt).retrain k slot = d.retrain k slot := by simp [Dev.retrain]
@[simp] theorem retrain_settle (d : Dev) (k slot : Nat) : d.settle.retrain k slot = d.retrain k slot := by simp [Dev.retrain]
@[simp] theorem retrain_finishAt (d : Dev) (g t st n k slot : Nat) : (d.finishAt g t st n).retrain k slot = d.retrain k slot := by
  simp [Dev.retrain]
@[simp] theorem retrain_retrainM (d : Dev) (k slot : Nat) (f : Retrain → Retrain) : (d.retrainM k slot f).retrain k slot = f (d.retrain k slot) :=
  (AMap.getD_upd _ _ _ _ _).trans (if_pos rfl)

@[simp] theorem chanLive_elapse (d : Dev) (dt i : Nat) : (d.elapse dt).chanLive i = d.chanLive i := by simp [Dev.chanLive]
@[simp] theorem chanFailed_elapse (d : Dev) (dt i : Nat) : (d.elapse dt).chanFailed i = d.chanFailed i := by
  simp [Dev.chanFailed, Dev.dramLane]

/-! ### Channels at work (10 R350 to R353) -/

/-- What a channel holds besides its command queues, what steers them, and the pace of its scrubber. -/
def besidesWork (c : Chan) : Chan :=
  { c with
    reads := [], writes := [], waits := [], openRow := [], drain := false, inOrder := [], lasting := none
    scrubAt := 0, scrubDue := 0 }

theorem besidesWork_enter (x : ChanWork) (now : Q) (r : DramReq) : besidesWork (x.enter now r).c = besidesWork x.c := by
  unfold ChanWork.enter
  dsimp only
  cases r.write <;> rfl

theorem besidesWork_enterAll (panic : Bool) (now : Q) (n : Nat) (x : ChanWork) :
    besidesWork (x.enterAll panic now n).c = besidesWork x.c := by
  induction n generalizing x with
  | zero => rfl
  | succ n ih =>
    rw [ChanWork.enterAll]
    split
    next r _ => exact (ih _).trans (besidesWork_enter x now r)
    next => rfl

theorem besidesWork_issue (x : ChanWork) (drain : Bool) (r : DramReq) : besidesWork (x.issue drain r).c = besidesWork x.c := by
  unfold ChanWork.issue
  dsimp only
  cases r.write <;> rfl

/-- Whatever a channel issues, and in whatever order, only its queues move. -/
theorem besidesWork_run (panic : Bool) (hi lo : Nat) (now : Q) (stop : Chan → Bool) (n : Nat) (x : ChanWork) :
    besidesWork (x.run panic hi lo now stop n).c = besidesWork x.c := by
  induction n generalizing x with
  | zero => exact besidesWork_enterAll panic now _ x
  | succ n ih =>
    have entered := besidesWork_enterAll panic now x.c.waits.length x
    rw [ChanWork.run]
    dsimp only
    split
    · exact entered
    · split
      · exact (ih _).trans ((besidesWork_issue _ _ _).trans entered)
      · exact entered

/-- What the controller holds besides its channels and the count of requests made to them. -/
def besidesChans (r : Drc) : Drc := { r with chans := [], asked := 0 }

/-- Besides time and counters, only command queues of channels and the pace of their scrubbers have moved. -/
structure Serves (d x : Dev) : Prop where
  only : Only [.time, .cnt, .drc] d x
  chans : ∀ i, besidesWork (x.chan i) = besidesWork (d.chan i)
  drc : besidesChans x.drc = besidesChans d.drc

namespace Serves

theorem refl (d : Dev) : Serves d d := ⟨Only.refl _ d, fun _ => rfl, rfl⟩

theorem trans {d x y : Dev} (h : Serves d x) (k : Serves x y) : Serves d y :=
  ⟨h.only.trans k.only, fun i => (k.chans i).trans (h.chans i), k.drc.trans h.drc⟩

theorem reach (d : Dev) (t : Q) : Serves d (d.reach t) :=
  ⟨(Only.reach d t).mono (by decide), fun i => by rw [chan_reach], by rw [Dev.reach_drc]⟩

theorem when {d : Dev} {c : Bool} {f : Dev → Dev} (h : Serves d (f d)) : Serves d (d.when c f) := by
  cases c
  · exact refl d
  · exact h

theorem count (d : Dev) (k n : Nat) : Serves d (d.count k n) :=
  ⟨(Only.count d k n).mono (by decide), fun i => by rw [chan_count], by rw [Dev.count_drc]⟩

theorem chanM {d : Dev} {i : Nat} {f : Chan → Chan} (h : besidesWork (f (d.chan i)) = besidesWork (d.chan i)) : Serves d (d.chanM i f) := by
  refine ⟨(Only.chanM d i f).mono (by decide), fun j => ?_, rfl⟩
  rw [chan_chanM]
  split
  next same => rw [same, h]
  next => rfl

theorem serveChan (d : Dev) (i : Nat) (stop : Chan → Bool) : Serves d (d.serveChan i stop) := by
  unfold Dev.serveChan
  exact ((chanM (besidesWork_run _ _ _ _ stop _ { c := d.chan i })).trans (when (count _ _ _))).trans (when (count _ _ _))

/-- What a client reads stays as it was written. -/
theorem askChan (d : Dev) (i : Nat) {r : DramReq} (read : r.write = false) : Serves d (d.askChan i r) := by
  have asked : Serves d (d.drcM fun x => { x with asked := x.asked + 1 }) := ⟨(Only.drcM d _).mono (by decide), fun _ => rfl, rfl⟩
  refine (asked.trans (chanM ?_)).trans (serveChan _ i _)
  simp [besidesWork, read]

theorem serveNow (d : Dev) (i : Nat) {r : DramReq} (read : r.write = false) : Serves d (d.serveNow i r) :=
  (askChan d i read).trans (serveChan _ i _)

theorem readServed (d : Dev) (b : BurstAt) (client : DrcClient) : Serves d (d.readServed b client) := by
  unfold Dev.readServed
  exact when (serveChan d _ _)

/-- The scrubber's turn moves its pace alone. -/
theorem scrubTurn (d : Dev) (i : Nat) : Serves d (d.scrubTurn i) := by
  unfold Dev.scrubTurn
  exact (reach d _).trans (chanM (by simp [besidesWork]))

section
variable {d x : Dev} (h : Serves d x)
include h

theorem pprEn : x.drc.pprEn = d.drc.pprEn := (congrArg Drc.pprEn h.drc :)

theorem poison (i : Nat) : (x.chan i).poison = (d.chan i).poison := (congrArg Chan.poison (h.chans i) :)
theorem ceNow (i : Nat) : (x.chan i).ceNow = (d.chan i).ceNow := (congrArg Chan.ceNow (h.chans i) :)
theorem scrubbed (i : Nat) : (x.chan i).scrubbed = (d.chan i).scrubbed := (congrArg Chan.scrubbed (h.chans i) :)
theorem quarantined (i : Nat) : (x.chan i).quarantined = (d.chan i).quarantined := (congrArg Chan.quarantined (h.chans i) :)

end

end Serves

/-! ### A read that returns (10 R364, R365) -/

/-- A read has returned and is counted, before anything is made of what it brought. -/
def readArrived (d : Dev) (b : BurstAt) (client : DrcClient) : Dev := (d.readServed b client).count (cChan b.chan 2) 1

theorem Serves.readArrived (d : Dev) (b : BurstAt) (client : DrcClient) : Serves d (readArrived d b client) :=
  (Serves.readServed d b client).trans (Serves.count _ _ _)

/-- A burst that reads as its check bits say: none of those written with an error on purpose. -/
abbrev Sound (d : Dev) (b : BurstAt) : Prop := (d.chan b.chan).poison.contains (burstKey b) = false

theorem Serves.sound {d x : Dev} (h : Serves d x) {b : BurstAt} (s : Sound d b) : Sound x b := by
  rwa [Sound, h.poison]

theorem readReturn_corrected {d : Dev} {b : BurstAt} (sound : Sound d b) (n : Nat) (inOrder : Bool) :
    d.readReturn b .tableExtension (.corrected n) inOrder = (readArrived d b .tableExtension).ceSeen b n := by
  have still := (Serves.readArrived d b .tableExtension).sound sound
  unfold readArrived at still
  simp only [Dev.readReturn, still, readArrived]
  rfl

theorem readReturn_clean {d : Dev} {b : BurstAt} (sound : Sound d b) (inOrder : Bool) :
    d.readReturn b .scrubber .clean inOrder = readArrived d b .scrubber := by
  have still := (Serves.readArrived d b .scrubber).sound sound
  unfold readArrived at still
  simp only [Dev.readReturn, still, readArrived]
  rfl

/-- An error that cannot be corrected is one, whatever the check bits were written to say. -/
theorem readReturn_uncorrectable (d : Dev) (b : BurstAt) (inOrder : Bool) : d.readReturn b .spillWriter .uncorrectable inOrder =
    (((readArrived d b .spillWriter).ueSeen b .spillWriter).quarantine b.chan b.bank b.row).1 := by
  simp only [Dev.readReturn, ite_self]
  rfl

/-- A corrected error as the channel and the device keep it. -/
def ceCounted (d : Dev) (b : BurstAt) (n : Nat) : Dev :=
  ((d.count (cChan b.chan 0) 1).count (cChan b.chan (6 + min 9 n)) 1).chanM b.chan fun c =>
    { c with ceNow := c.ceNow + 1, rowCe := AMap.upd c.rowCe (rowKey b.bank b.row) 0 (· + 1) }

/-- While repair is off, a corrected error sets no row apart. -/
theorem ceSeen_unrepaired {d : Dev} (off : d.drc.pprEn = false) (b : BurstAt) (n : Nat) : d.ceSeen b n = ceCounted d b n := by
  have still : (ceCounted d b n).drc.pprEn = false := off
  unfold ceCounted at still
  simp [Dev.ceSeen, ceCounted, still]

theorem Only.ceCounted (d : Dev) (b : BurstAt) (n : Nat) : Only [.cnt, .drc] d (Sys2Proof.ceCounted d b n) := by
  simp [Sys2Proof.ceCounted, (Only.chanM _ _ _).iff, (Only.count _ _ _).iff, Only.refl]

theorem corrected_counts (dt n : Nat) (b : BurstAt) (s : State) (u : Serving s) (live : s.dev.chanLive b.chan = true)
    (off : s.dev.drc.pprEn = false) (calm : (s.dev.stack (b.chan / 34)).panic = false) (sound : Sound s.dev b) :
    Does (.dramReadReturn dt b .tableExtension (.corrected n)) s [.drc] fun x =>
      (x.chan b.chan).ceNow = (s.dev.chan b.chan).ceNow + 1 ∧ (x.chan b.chan).quarantined = (s.dev.chan b.chan).quarantined := by
  have arrived := Serves.readArrived (s.dev.elapse dt) b .tableExtension
  have counted : (s.dev.elapse dt).readReturn b .tableExtension (.corrected n) false =
      ceCounted (readArrived (s.dev.elapse dt) b .tableExtension) b n :=
    (readReturn_corrected (by simpa [Sound] using sound) n false).trans (ceSeen_unrepaired (arrived.pprEn.trans (by simpa using off)) b n)
  refine Does.guarded (exec_dramReadReturn dt b _ _ s) u (by simp [live, calm]) ?_ ?_
  · simp [counted, (Only.ceCounted _ _ _).iff, arrived.only.iff, tells, Only.refl]
  · simp [counted, ceCounted, arrived.ceNow, arrived.quarantined]

/-! ### Rows set apart (10 R365, R367) -/

theorem Only.ueSeen (d : Dev) (b : BurstAt) (client : DrcClient) : Only [.out, .cnt, .hif, .drc] d (d.ueSeen b client) := by
  unfold Dev.ueSeen
  dsimp only
  split <;> simp [(Only.occur _ _ _).iff, (Only.postIn _ _ _).iff, (Only.drcM _ _).iff, (Only.count _ _ _).iff, Only.refl]

/-- An uncorrectable error is marked posted, whether it is the first in its bell or not. -/
theorem ueSeen_posted (d : Dev) (b : BurstAt) (client : DrcClient) : (d.ueSeen b client).drc.uePosted = true := by
  unfold Dev.ueSeen
  dsimp only
  split
  next already => simpa using already
  next => simp

/-- A row of a channel is quarantined or retired. -/
def SetApart (c : Chan) (key : Nat) : Prop := (c.quarantined.contains key || c.retired.contains key) = true

theorem pageFreeNow_posted (d : Dev) (p : Nat) : (d.pageFreeNow p).2.drc.uePosted = d.drc.uePosted := by
  unfold Dev.pageFreeNow
  dsimp only
  (repeat' split) <;> rfl

/-- A row that is quarantined is set apart, whether it was so before or a spare row is left for it or none is; the mark of the errors
posted stands. -/
theorem quarantine_setsApart (d : Dev) (i bank row : Nat) : SetApart ((d.quarantine i bank row).1.chan i) (rowKey bank row) ∧
    (d.quarantine i bank row).1.drc.uePosted = d.drc.uePosted := by
  unfold Dev.quarantine
  dsimp only
  split
  next retired => exact ⟨by simp only [SetApart, retired, Bool.or_true], rfl⟩
  next =>
    split
    next quarantined => exact ⟨by simp only [SetApart, quarantined, Bool.true_or], rfl⟩
    next =>
      split
      all_goals
        refine ⟨by simp [SetApart], ?_⟩
        simp only [Dev.post_drc, Dev.stackM, Dev.chanM, Dev.drcM_drc]
        split
        next p _ => exact pageFreeNow_posted d p
        next => rfl

theorem uncorrectable_setsApart (dt : Nat) (b : BurstAt) (s : State) (u : Serving s) (live : s.dev.chanLive b.chan = true) :
    Does (.dramReadReturn dt b .spillWriter .uncorrectable) s [.drc, .free] fun x =>
      x.drc.uePosted = true ∧ SetApart (x.chan b.chan) (rowKey b.bank b.row) := by
  have arrived := Serves.readArrived (s.dev.elapse dt) b .spillWriter
  obtain ⟨apart, stands⟩ := quarantine_setsApart ((readArrived (s.dev.elapse dt) b .spillWriter).ueSeen b .spillWriter) b.chan b.bank b.row
  refine Does.guarded (exec_dramReadReturn dt b _ _ s) u (by simp [live, suspended]) ?_ ?_
  · simp [readReturn_uncorrectable, (Only.quarantine _ _ _ _).iff, (Only.ueSeen _ _ _).iff, arrived.only.iff, tells, Only.refl]
  · rw [Dev.settle_drc, chan_settle, readReturn_uncorrectable]
    exact ⟨stands.trans (ueSeen_posted _ _ _), apart⟩

/-! ### The scrubber (10 R366) -/

/-- A channel whose scrubber has visited one more burst; the last one of a cycle ends it. -/
def visitedBurst (c : Chan) : Chan :=
  if c.scrubbed + 1 = chanBursts then { c with scrubbed := 0, ceLast := c.ceNow, ceNow := 0, rowCe := [] } else { c with scrubbed := c.scrubbed + 1 }

theorem Only.wearReading (d : Dev) (kind unit : Nat) : Only [.sub] d (d.wearReading kind unit) := Only.subM d _

theorem scrub_clean {d : Dev} {b : BurstAt} (sound : Sound d b) : d.scrub b .clean =
    ((readArrived d b .scrubber).when (((readArrived d b .scrubber).chan b.chan).scrubbed + 1 == chanBursts) fun d => d.wearReading 2 b.chan).chanM
      b.chan visitedBurst := by
  simp only [Dev.scrub, readReturn_clean sound]
  rfl

theorem scrub_clean_only {d : Dev} {b : BurstAt} (sound : Sound d b) : Only [.time, .cnt, .drc, .sub] d (d.scrub b .clean) := by
  rw [scrub_clean sound]
  simp [(Only.chanM _ _ _).iff, Only.when_iff, (Only.wearReading _ _ _).iff, (Serves.readArrived _ _ _).only.iff, Only.refl]

theorem scrub_clean_chan {d : Dev} {b : BurstAt} (sound : Sound d b) :
    (d.scrub b .clean).chan b.chan = visitedBurst ((readArrived d b .scrubber).chan b.chan) := by
  rw [scrub_clean sound, chan_chanM, if_pos rfl, (Only.when _ (Only.wearReading _ _ _)).chan (by decide)]

theorem cleanScrub_advances (dt : Nat) (b : BurstAt) (s : State) (u : Serving s) (live : s.dev.chanLive b.chan = true)
    (trained : (s.dev.chan b.chan).state ≠ .retraining) (calm : (s.dev.stack (b.chan / 34)).panic = false) (runs : s.dev.bgPaused = false)
    (next : burstKey b = (s.dev.chan b.chan).scrubbed) (sound : Sound s.dev b) : Does (.scrubRead dt b .clean) s [.drc, .sub] fun x =>
      (x.chan b.chan).scrubbed = (if (s.dev.chan b.chan).scrubbed + 1 = chanBursts then 0 else (s.dev.chan b.chan).scrubbed + 1) ∧
        ((s.dev.chan b.chan).scrubbed + 1 = chanBursts → (x.chan b.chan).ceLast = (s.dev.chan b.chan).ceNow ∧ (x.chan b.chan).ceNow = 0) := by
  have read := (Serves.scrubTurn (s.dev.elapse dt) b.chan).trans (Serves.serveNow _ b.chan (r := burstReq b 7 false) rfl)
  have unhurt := read.sound (by simpa [Sound] using sound)
  have arrived := read.trans (Serves.readArrived _ b .scrubber)
  refine Does.guarded (exec_scrubRead dt b _ s) u (by simp [live, trained, calm, runs, next]) ?_ ?_
  · simp [(scrub_clean_only unhurt).iff, read.only.iff, tells, Only.refl]
  · rw [chan_settle, scrub_clean_chan unhurt, visitedBurst, arrived.scrubbed, arrived.ceNow, chan_elapse]
    split
    next last => exact ⟨rfl, fun _ => ⟨rfl, rfl⟩⟩
    next more => exact ⟨rfl, fun last => absurd last more⟩

/-! ### Refresh and temperature (10 R357, R358) -/

/-- An interval that cannot be put off any longer issues at least one refresh; a shorter debt may grow by one. -/
theorem owed_after_refreshes {owed : Nat} (h : owed ≤ 16) (pending : Bool) (choice : Nat) : owed + 1 - refreshes owed pending choice ≤ 16 := by
  unfold refreshes
  split <;> omega

theorem Only.refreshN (d : Dev) (i b n : Nat) : Only [.out] d (d.refreshN i b n) := by
  simp [Dev.refreshN, Only.each_iff, (Only.emit _ _).iff, Only.refl]

theorem when_count_free (d : Dev) (c : Bool) (k n : Nat) : (d.when c fun d => d.count k n).free = d.free := by cases c <;> rfl

theorem refresh_keptUp (dt i b : Nat) (pend : Bool) (s : State) (u : Serving s) (live : s.dev.chanLive i = true) (bank : b < 32)
    (bounded : AMap.getD (s.dev.chan i).owed b 8 ≤ 16) : Does (.refreshDue dt i b pend) s [.drc, .free] fun x =>
      AMap.getD (x.chan i).owed b 8 ≤ 16 ∧ x.free = s.dev.free + 1 := by
  refine Does.guarded (exec_refreshDue dt i b pend s) u (by simp [live, bank]) ?_ ?_
  · simp [(Only.chanM _ _ _).iff, (Only.refreshN _ _ _ _).iff, Only.when_iff, (Only.count _ _ _).iff, (Only.fresh _).iff, (Only.reach _ _).iff,
      tells, Only.refl]
  · have debt := owed_after_refreshes bounded pend (Config.openValue s.dev.free)
    constructor
    · simpa [Dev.fresh] using debt
    · simp [(Only.chanM _ _ _).free, (Only.refreshN _ _ _ _).free, when_count_free, Dev.fresh]

theorem satTo_eq_min (c : Nat) : satTo 255 c = min c 255 := by unfold satTo; split <;> omega

theorem temperature_heats (dt k c : Nat) (s : State) (u : Serving s) (fitted : k < s.dev.glb.part.stacks) :
    Does (.stackTemperatureChange dt k c) s [.drc] fun x =>
      (x.stack k).temp = min c 255 ∧ (85 ≤ c → (x.stack k).hot = true) ∧ (c < 83 → (x.stack k).hot = false) ∧
        (83 ≤ c → c < 85 → (x.stack k).hot = (s.dev.stack k).hot) := by
  refine Does.guarded (exec_stackTemperatureChange dt k c s) u (by simpa using fitted) ?_ ?_
  · simp [Only.when_iff, (Only.postIn _ _ _).iff, (Only.stackM _ _ _).iff, tells, Only.refl]
  · dsimp only
    rw [stack_settle, (Only.when _ (Only.postIn _ _ _)).stack (by decide), stack_stackM, stack_elapse]
    refine ⟨satTo_eq_min c, ?_⟩
    cases (s.dev.stack k).hot with
    | true => simp; omega
    | false => simp; omega

/-! ### Repair (10 R367) -/

/-- A channel that serves no logical channel holds no page. -/
theorem pageAt_spare {d : Dev} {i : Nat} (spare : (d.chan i).state = .spare) (b r : Nat) : d.pageAt i b r = none := by
  simp [Dev.pageAt, Chan.holds, spare]

/-- A row has been mapped onto a spare row of its bank. -/
def rowRepaired (d : Dev) (i b r : Nat) : Dev :=
  ((d.chanM i fun c => { c with
    quarantined := c.quarantined.filter fun k => k != rowKey b r
    poison := c.poison.filter fun k => k / 64 != rowKey b r
    sparesUsed := AMap.upd c.sparesUsed b 0 (· + 1) }).stackM (i / 34) fun s => { s with repaired := s.repaired + 1 }).post
    0x0D08 [.index i, .index b, .index r]

theorem Only.rowRepaired (d : Dev) (i b r : Nat) : Only [.out, .cnt, .hif, .drc] d (Sys2Proof.rowRepaired d i b r) := by
  simp [Sys2Proof.rowRepaired, (Only.postIn _ _ _).iff, (Only.stackM _ _ _).iff, (Only.chanM _ _ _).iff, Only.refl]

theorem repair_ends (dt i b r : Nat) (s : State) (u : Serving s) (bad : (s.dev.chan i).quarantined.contains (rowKey b r) = true)
    (spare : (s.dev.chan i).state = .spare) : Does (.pprDone dt i b r) s [.drc] fun x =>
      (x.chan i).quarantined.contains (rowKey b r) = false ∧ AMap.getD (x.chan i).sparesUsed b 0 = AMap.getD (s.dev.chan i).sparesUsed b 0 + 1 ∧
        (x.stack (i / 34)).repaired = (s.dev.stack (i / 34)).repaired + 1 := by
  have unused : (s.dev.elapse dt).pageAt i b r = none := pageAt_spare (by simpa using spare) b r
  have listed : rowKey b r ∈ (s.dev.chan i).quarantined := by simpa using bad
  refine Does.upTo (x := rowRepaired (s.dev.elapse dt) i b r) (exec_pprDone dt i b r s) u ?_ ?_ ?_
  · simp [listed, unused, rowRepaired]
  · simp [(Only.rowRepaired _ _ _ _).iff, tells, Only.refl]
  · simp [rowRepaired, AMap.getD_upd]

/-! ### The end of a retraining (10 R362, R363) -/

/-- The copy back of a slot begins: the retrained channel is its target. -/
def copyBack (d : Dev) (k slot : Nat) : Dev :=
  ((d.chanM (34 * k + (d.retrain k slot).source) fun c => { c with state := .target }).chanM (34 * k + (d.retrain k slot).target) fun c =>
    { c with state := .source }).retrainM k slot fun x => { x with phase := 5, pos := copyKib, copied := false }

theorem retrainEnds_passed {d : Dev} {k slot : Nat} (passed : d.chanFailed (34 * k + (d.retrain k slot).source) = false)
    (goesOn : (d.retrain k slot).aborted = false) : d.retrainEnds k slot [] = copyBack d k slot := by
  simp [Dev.retrainEnds, copyBack, Dev.each, passed, goesOn]

/-- The retrained channel has failed, and its slot is free. -/
def channelLost (d : Dev) (k slot : Nat) : Dev :=
  (d.chanM (34 * k + (d.retrain k slot).source) fun c => { c with state := .failed, logical := 0 }).retrainM k slot fun _ => {}

/-- Besides what is told of its command, a retraining that failed loses its channel. -/
theorem retrainEnds_failed {d : Dev} {k slot : Nat} (failed : d.chanFailed (34 * k + (d.retrain k slot).source) = true) :
    Only [.out, .cnt, .hif, .bdy] (channelLost d k slot) (d.retrainEnds k slot []) := by
  unfold Dev.retrainEnds
  simp only [List.filter_nil, Dev.each, List.foldl_nil, failed, if_true]
  split
  · exact Only.finishAtIn _ _ _ _ _
  · exact Only.refl _ _

theorem retrain_passes (dt k slot : Nat) (s : State) (u : Serving s) (training : (s.dev.retrain k slot).phase = 4) (within : slot < 2)
    (goesOn : (s.dev.retrain k slot).aborted = false) (passed : s.dev.chanFailed (34 * k + (s.dev.retrain k slot).source) = false)
    (apart : (s.dev.retrain k slot).source ≠ (s.dev.retrain k slot).target) : Does (.channelRetrainDone dt k slot []) s [.drc] fun x =>
      (x.chan (34 * k + (s.dev.retrain k slot).source)).state = .target ∧ (x.chan (34 * k + (s.dev.retrain k slot).target)).state = .source ∧
        (x.retrain k slot).phase = 5 := by
  have ends : (s.dev.elapse dt).retrainEnds k slot [] = copyBack (s.dev.elapse dt) k slot :=
    retrainEnds_passed (by simpa using passed) (by simpa using goesOn)
  refine Does.upTo (exec_channelRetrainDone dt k slot [] s) u (Eq.trans (by simp [training, within]) ends) ?_ ?_
  · simp [copyBack, (Only.retrainM _ _ _ _).iff, (Only.chanM _ _ _).iff, tells, Only.refl]
  · simp [copyBack, apart]

theorem retrain_fails (dt k slot : Nat) (s : State) (u : Serving s) (training : (s.dev.retrain k slot).phase = 4) (within : slot < 2)
    (failed : s.dev.chanFailed (34 * k + (s.dev.retrain k slot).source) = true) :
    Does (.channelRetrainDone dt k slot []) s [.drc, .bdy] fun x =>
      (x.chan (34 * k + (s.dev.retrain k slot).source)).state = .failed ∧ (x.retrain k slot).phase = 0 := by
  have ends := retrainEnds_failed (d := s.dev.elapse dt) (k := k) (slot := slot) (by simpa using failed)
  refine Does.upTo (x := (s.dev.elapse dt).retrainEnds k slot []) (exec_channelRetrainDone dt k slot [] s) u (by simp [training, within]) ?_ ?_
  · simp [ends.iff, channelLost, (Only.retrainM _ _ _ _).iff, (Only.chanM _ _ _).iff, tells, Only.refl]
  · rw [chan_settle, retrain_settle, ends.chan (by decide), ends.retrain (by decide)]
    simp [channelLost]

/-- Settles O39: serving its queues leaves a channel's errors and rows as they were, so that a read that returns is counted, set apart or
passed over by what stood; a bank's debt grows only below its bound; a repair and a retraining end in one state of their channels. -/
theorem farStoreController : Obligations.FarStoreController := by
  unfold Obligations.FarStoreController
  exact ⟨corrected_counts, uncorrectable_setsApart, cleanScrub_advances, refresh_keptUp, temperature_heats, repair_ends, retrain_passes,
    retrain_fails⟩

end Sys2Proof

namespace Sys2Proof

open Sys2Proof.Machine

/-! ## The governor (11 R376, R382, R386, R391 to R393, R396) -/

/-! ### Rows behind a condition -/

theorem exec_govStepDescend (dt : Nat) (s : State) : exec (.govStepDescend dt) s = execGovStepDescend dt s := rfl
theorem exec_floorMismatchHeld (dt : Nat) (s : State) : exec (.floorMismatchHeld dt) s = execFloorMismatchHeld dt s := rfl
theorem exec_thermalTrip (dt k : Nat) (s : State) : exec (.thermalTrip dt k) s = execThermalTrip dt k s := rfl
theorem exec_railCurrentLimit (dt q a : Nat) (s : State) : exec (.railCurrentLimit dt q a) s = execRailCurrentLimit dt q a s := rfl
theorem exec_avsEvaluation (dt : Nat) (ts : List Nat) (s : State) : exec (.avsEvaluation dt ts) s = execAvsEvaluation dt ts s := rfl
theorem exec_avsTransactionFail (dt q : Nat) (s : State) : exec (.avsTransactionFail dt q) s = execAvsTransactionFail dt q s := rfl

/-- A change made for each of several leaves what every single one leaves. -/
theorem each_keeps {α β : Type} (g : Dev → β) (xs : List α) {f : α → Dev → Dev} (h : ∀ a x, g (f a x) = g x) (d : Dev) :
    g (d.each xs f) = g d := by
  induction xs generalizing d with
  | nil => rfl
  | cons a xs ih => exact (ih (f a d)).trans (h a d)

/-! ### Quadrants -/

theorem Only.quad {as : List Area} {d e : Dev} (h : Only as d e) (k : Area.gov ∉ as) (q : Nat) : e.quad q = d.quad q := by
  rw [Dev.quad, h.gov k, Dev.quad]

@[simp] theorem quad_elapse (d : Dev) (dt q : Nat) : (d.elapse dt).quad q = d.quad q := (Only.elapse d dt).quad (by decide) q
@[simp] theorem quad_reach (d : Dev) (t : Q) (q : Nat) : (d.reach t).quad q = d.quad q := (Only.reach d t).quad (by decide) q
@[simp] theorem quad_settle (d : Dev) (q : Nat) : d.settle.quad q = d.quad q := (Only.settle d).quad (by decide) q
@[simp] theorem quad_count (d : Dev) (k n q : Nat) : (d.count k n).quad q = d.quad q := (Only.count d k n).quad (by decide) q
@[simp] theorem quad_post (d : Dev) (ev : Nat) (items : List Item) (q : Nat) : (d.post ev items).quad q = d.quad q :=
  (Only.post d ev items).quad (by decide) q
@[simp] theorem quad_quadM (d : Dev) (q : Nat) (f : Quadrant → Quadrant) (k : Nat) :
    (d.quadM q f).quad k = if k = q then f (d.quad q) else d.quad k := AMap.getD_upd _ _ _ _ _

/-! ### A rail at its current limit (11 R386) -/

theorem Only.limitTold (d : Dev) (q a : Nat) (p : Nat → Bool) :
    Only [.out, .cnt, .hif, .mac] d (((d.count (cQuad q 0) 1).post 0x0E04 [.index q, .value a]).flowAgain p) := by
  simp [(Only.flowAgain _ _).iff, (Only.postIn _ _ _).iff, (Only.count _ _ _).iff, Only.refl]

theorem rail_limited (dt q a : Nat) (s : State) (u : Serving s) (fitted : q < s.dev.glb.part.quads) (high : (s.dev.quad q).limit ≤ a) :
    Does (.railCurrentLimit dt q a) s [.gov, .mac] fun x => x.quad q = { s.dev.quad q with amps := a, limited := true } := by
  refine Does.upTo (exec_railCurrentLimit dt q a s) u (if_pos (by simpa using ⟨fitted, high⟩)) ?_ ?_
  · simp [Only.when_iff, (Only.limitTold _ _ _ _).iff, (Only.quadM _ _ _).iff, tells, Only.refl]
  · dsimp only
    rw [quad_settle, (Only.when _ (Only.limitTold _ _ _ _)).quad (by decide), quad_quadM, if_pos rfl, quad_elapse]

/-! ### Voltages (11 R391 to R393) -/

/-- A rail after one evaluation: the target within the host's bounds, and one write of at most a step towards it. -/
def evaluated (step target : Nat) (x : Quadrant) : Quadrant :=
  let t := clamp x.vmin x.vmax (roundUp target step)
  let run := if t < x.mv then min 8 (x.lowRun + 1) else 0
  let mv := if x.mv < t then min t (x.mv + step) else if 8 ≤ run then max t (x.mv - step) else x.mv
  { x with mv, acked := x.mv, lowRun := run, want := roundUp target step, avsFault := false }

theorem clamp_eq_max_min {lo hi : Nat} (order : lo ≤ hi) (x : Nat) : clamp lo hi x = max lo (min x hi) := by
  unfold clamp
  split
  · omega
  · split <;> omega

theorem clamp_within {lo hi : Nat} (order : lo ≤ hi) (x : Nat) : lo ≤ clamp lo hi x ∧ clamp lo hi x ≤ hi := by
  rw [clamp_eq_max_min order]
  omega

/-- A rail within its bounds moves by at most a step and stays within them, whatever the oscillators ask for. -/
theorem evaluated_within (step target : Nat) {x : Quadrant} (low : x.vmin ≤ x.mv) (high : x.mv ≤ x.vmax) :
    (evaluated step target x).mv ≤ x.mv + step ∧ x.mv ≤ (evaluated step target x).mv + step ∧
      x.vmin ≤ (evaluated step target x).mv ∧ (evaluated step target x).mv ≤ x.vmax := by
  obtain ⟨above, below⟩ := clamp_within (Nat.le_trans low high) (roundUp target step)
  simp only [evaluated]
  generalize clamp x.vmin x.vmax (roundUp target step) = t at above below ⊢
  generalize (if t < x.mv then min 8 (x.lowRun + 1) else 0) = run
  split
  case isTrue rises => omega
  case isFalse => split <;> omega

theorem Only.railTold (d : Dev) (q mv : Nat) : Only [.out, .cnt] d ((d.emit (.avs q mv)).count (cQuad q 1) 1) := by
  simp [(Only.count _ _ _).iff, (Only.emit _ _).iff, Only.refl]

theorem Only.avsQuad (d : Dev) (q target : Nat) : Only [.out, .cnt, .gov] d (d.avsQuad q target) := by
  simp [Dev.avsQuad, Only.when_iff, (Only.railTold _ _ _).iff, (Only.quadM _ _ _).iff, (Only.conflict _ _).iff, Only.refl]

theorem quad_avsQuad (d : Dev) (q target k : Nat) :
    (d.avsQuad q target).quad k = if k = q then evaluated d.gov.stepMv target (d.quad q) else d.quad k := by
  have stands (c : Bool) (k : Nat) : (d.when c fun d => d.conflict 3).quad k = d.quad k := by cases c <;> rfl
  unfold Dev.avsQuad
  dsimp only
  rw [(Only.when _ (Only.railTold _ _ _)).quad (by decide), quad_quadM, stands, stands]
  rfl

theorem avsQuad_stepMv (d : Dev) (q target : Nat) : (d.avsQuad q target).gov.stepMv = d.gov.stepMv := by
  have stands (c : Bool) : (d.when c fun d => d.conflict 3).gov.stepMv = d.gov.stepMv := by cases c <;> rfl
  unfold Dev.avsQuad
  dsimp only
  rw [(Only.when _ (Only.railTold _ _ _)).gov (by decide)]
  exact stands _

/-- Evaluations of other rails leave a rail. -/
theorem each_avsQuad_other {qs : List Nat} {q : Nat} (apart : q ∉ qs) (target : Nat → Nat) (d : Dev) :
    (d.each qs fun k d => d.avsQuad k (target k)).quad q = d.quad q := by
  induction qs generalizing d with
  | nil => rfl
  | cons k qs ih =>
    refine (ih (List.not_mem_of_not_mem_cons apart) _).trans ?_
    rw [quad_avsQuad, if_neg (List.ne_of_not_mem_cons apart)]

/-- Among evaluations of which none comes twice, a rail has its one. -/
theorem each_avsQuad_once {qs : List Nat} {q : Nat} (once : qs.Nodup) (listed : q ∈ qs) (target : Nat → Nat) (d : Dev) :
    (d.each qs fun k d => d.avsQuad k (target k)).quad q = evaluated d.gov.stepMv (target q) (d.quad q) := by
  induction qs generalizing d with
  | nil => cases listed
  | cons k qs ih =>
    obtain ⟨fresh, once⟩ := List.nodup_cons.1 once
    obtain rfl | later := List.mem_cons.1 listed
    · refine (each_avsQuad_other fresh target _).trans ?_
      rw [quad_avsQuad, if_pos rfl]
    · have ne : q ≠ k := fun same => fresh (same ▸ later)
      refine (ih once later _).trans ?_
      rw [avsQuad_stepMv, quad_avsQuad, if_neg ne]

/-- An evaluation comes to its instant, and notes it. -/
def evaluationBegun (d : Dev) : Dev := (d.reach (d.gov.avsAt + d.gov.avsUs * 4000)).govM fun g =>
  { g with avsAt := (d.reach (d.gov.avsAt + d.gov.avsUs * 4000)).now }

theorem Only.evaluationBegun (d : Dev) : Only [.time, .cnt, .gov] d (Sys2Proof.evaluationBegun d) := by
  simp [Sys2Proof.evaluationBegun, (Only.govM _ _).iff, (Only.reach _ _).iff, Only.refl]

theorem quad_evaluationBegun (d : Dev) (q : Nat) : (evaluationBegun d).quad q = d.quad q := quad_reach d _ q

theorem evaluationBegun_stepMv (d : Dev) : (evaluationBegun d).gov.stepMv = d.gov.stepMv := by simp [evaluationBegun]

theorem rails_evaluated (dt : Nat) (ts : List Nat) (s : State) (u : Serving s) : Does (.avsEvaluation dt ts) s [.gov] fun x =>
    ∀ q < min s.dev.glb.part.quads ts.length, (s.dev.quad q).vmin ≤ (s.dev.quad q).mv → (s.dev.quad q).mv ≤ (s.dev.quad q).vmax →
      (x.quad q).mv ≤ (s.dev.quad q).mv + s.dev.gov.stepMv ∧ (s.dev.quad q).mv ≤ (x.quad q).mv + s.dev.gov.stepMv ∧
      (s.dev.quad q).vmin ≤ (x.quad q).mv ∧ (x.quad q).mv ≤ (s.dev.quad q).vmax ∧ (x.quad q).avsFault = false := by
  have row : exec (.avsEvaluation dt ts) s = s.actUp dt fun d => (evaluationBegun d).each
    (List.range (min (d.reach (d.gov.avsAt + d.gov.avsUs * 4000)).glb.part.quads ts.length)) fun k d => d.avsQuad k (nth ts k 0) :=
    exec_avsEvaluation dt ts s
  refine Does.up row u ?_ fun q fitted low high => ?_
  · simp [Only.each_iff, (Only.avsQuad _ _ _).iff, (Only.evaluationBegun _).iff, tells, Only.refl]
  · obtain ⟨up, down, above, below⟩ := evaluated_within s.dev.gov.stepMv (nth ts q 0) low high
    rw [quad_settle, each_avsQuad_once List.nodup_range (List.mem_range.2 (by simpa using fitted)) fun k => nth ts k 0, quad_evaluationBegun,
      evaluationBegun_stepMv, quad_elapse, Dev.elapse_gov]
    exact ⟨up, down, above, below, rfl⟩

theorem rail_acknowledged (dt q : Nat) (s : State) (u : Serving s) (fitted : q < s.dev.glb.part.quads) :
    Does (.avsTransactionFail dt q) s [.gov] fun x => x.quad q = { s.dev.quad q with avsFault := true, mv := (s.dev.quad q).acked } := by
  refine Does.guarded (exec_avsTransactionFail dt q s) u (by simpa using fitted) ?_ ?_
  · simp [(Only.postIn _ _ _).iff, (Only.count _ _ _).iff, (Only.quadM _ _ _).iff, tells, Only.refl]
  · simp

/-! ### The floor (11 R376) -/

theorem mismatch_posted (dt : Nat) (s : State) (u : Serving s) (third : 3 ≤ s.dev.gov.mmBells) (unposted : s.dev.gov.mmPosted = false)
    (bell : (s.dev.elapse dt).atBell = true) : Does (.floorMismatchHeld dt) s [.gov] fun x => x.gov = { s.dev.gov with mmPosted := true } := by
  refine Does.upTo (exec_floorMismatchHeld dt s) u (if_pos (by simpa using ⟨third, unposted, bell⟩)) ?_ ?_
  · simp [(Only.postIn _ _ _).iff, (Only.govM _ _).iff, tells, Only.refl]
  · simp

/-! ### The thermal trip (11 R386, 19 R597) -/

theorem Only.loseFrames (d : Dev) : Only [.cnt, .buf, .sch, .fwd, .ttb, .drc, .bdy] d d.loseFrames := by
  simp [Dev.loseFrames, (Only.count _ _ _).iff, (Only.bufM _ _).iff, (Only.schM _ _).iff, (Only.fwdM _ _).iff, (Only.ttbM _ _).iff,
    (Only.drcM _ _).iff, (Only.bdyM _ _).iff, Only.refl]

theorem loseFrames_frames (d : Dev) : d.loseFrames.buf.frames = [] := rfl

/-- A junction at a site has tripped. -/
def tripped (d : Dev) (site : Nat) : Dev :=
  ((((d.govM fun g => { g with site, tj := max 120 g.tj }).pinsM fun p => { p with thermtripN := false }).loseFrames).glbM fun g =>
    { g with phase := 15, haltCode := 7, hifReady := false }).bootM fun b => { b with stopped := .trip }

theorem trip_stops (dt k : Nat) (s : State) (runs : s.dev.boot.stopped = .no) (quiet : Quiet s) :
    Does (.thermalTrip dt k) s [.gov, .pins, .glb, .boot, .buf, .sch, .fwd, .ttb, .drc, .bdy] fun x =>
      x.boot.stopped = .trip ∧ x.glb.phase = 15 ∧ x.glb.haltCode = 7 ∧ x.pins.thermtripN = false ∧ x.gov.site = k ∧ 120 ≤ x.gov.tj ∧
        x.buf.frames = [] ∧ x.inService = false := by
  have trips : exec (.thermalTrip dt k) s = s.act dt fun d => if d.boot.stopped == .no then tripped d k else d := exec_thermalTrip dt k s
  refine Does.act trips quiet ?_ ?_
  · simp [runs, tripped, (Only.bootM _ _).iff, (Only.glbM _ _).iff, (Only.loseFrames _).iff, (Only.pinsM _ _).iff, (Only.govM _ _).iff, tells,
      Only.refl]
  · simp [runs, tripped, (Only.loseFrames _).gov, (Only.loseFrames _).pins, loseFrames_frames, Dev.inService, Nat.le_max_left]

/-! ### The ladder (11 R382, R383, R385) -/

theorem setStep_gov {d : Dev} {k : Nat} (moves : d.gov.step ≠ k) (cause : Nat) :
    (d.setStep k cause).gov = { d.gov with step := k, lowBells := 0 } := by
  simp [Dev.setStep, moves, (Only.sweepPause _).gov]

theorem unheld_self {g : Gov} (h : g.beHold = false) : { g with beHold := false } = g := by rw [← h]

theorem release_gov (d : Dev) : (d.setBeHold false).gov = { d.gov with beHold := false } := by
  cases held : d.gov.beHold with
  | false => simp [Dev.setBeHold, held, unheld_self]
  | true => simp [Dev.setBeHold, held, (Only.xoffScan _).gov, (Only.flowAgain _ _).gov]

/-- Best effort is neither held nor budgeted any more. -/
def bestEffortFree (d : Dev) : Dev := (d.govM fun g => { g with beBudget := 0 }).setBeHold false

theorem Only.bestEffortFree (d : Dev) : Only [.out, .cnt, .mac, .buf, .gov, .bdy] d (Sys2Proof.bestEffortFree d) := by
  simp [Sys2Proof.bestEffortFree, (Only.setBeHold _ _).iff, (Only.govM _ _).iff, Only.refl]

/-- Spills are limited no more, and every queue looks at what it may now spill. -/
def drainFree (d : Dev) : Dev := (d.drcM fun r => { r with drainLimit := 0 }).each (d.buf.queues.map (·.1)) fun q d => d.spillStep q

theorem Only.drainFree (d : Dev) : Only [.free, .out, .cnt, .hif, .buf, .drc] d (Sys2Proof.drainFree d) := by
  simp [Sys2Proof.drainFree, Only.each_iff, (Only.spillStep _ _).iff, (Only.drcM _ _).iff, Only.refl]

/-! A spill and a recall ask channels for pages, and count what they move; the limit on them stands. -/

@[simp] theorem drainLimit_serveChan (d : Dev) (i : Nat) (stop : Chan → Bool) : (d.serveChan i stop).drc.drainLimit = d.drc.drainLimit :=
  (congrArg Drc.drainLimit (Serves.serveChan d i stop).drc :)

@[simp] theorem drainLimit_askChan (d : Dev) (i : Nat) (r : DramReq) : (d.askChan i r).drc.drainLimit = d.drc.drainLimit :=
  drainLimit_serveChan _ i _

@[simp] theorem drainLimit_serveNow (d : Dev) (i : Nat) (r : DramReq) : (d.serveNow i r).drc.drainLimit = d.drc.drainLimit := by
  simp [Dev.serveNow]

@[simp] theorem drainLimit_askPage (d : Dev) (p rank : Nat) (write : Bool) (first n : Nat) :
    (d.askPage p rank write first n).drc.drainLimit = d.drc.drainLimit :=
  each_keeps (fun d => d.drc.drainLimit) _ (fun i x => drainLimit_askChan x i _) d

@[simp] theorem drainLimit_pageNow (d : Dev) (p rank : Nat) (write : Bool) (first n : Nat) :
    (d.pageNow p rank write first n).drc.drainLimit = d.drc.drainLimit :=
  each_keeps (fun d => d.drc.drainLimit) _ (fun i x => drainLimit_serveNow x i _) d

@[simp] theorem drainLimit_tailWords (d : Dev) (q : Nat) : (d.tailWords q).drc.drainLimit = d.drc.drainLimit := by
  unfold Dev.tailWords
  dsimp only
  split
  · exact each_keeps (fun d => d.drc.drainLimit) _ (fun p x => drainLimit_pageNow x p _ _ _ _) d
  · rfl

@[simp] theorem drainLimit_panicLook (d : Dev) (k : Nat) : (d.panicLook k).drc.drainLimit = d.drc.drainLimit := by
  unfold Dev.panicLook
  extract_lets x pending new
  split <;> rfl

@[simp] theorem drainLimit_askPages (n q : Nat) (d : Dev) : (Dev.askPages n q d).drc.drainLimit = d.drc.drainLimit := by
  induction n generalizing d with
  | zero => rfl
  | succ n ih =>
    simp only [Dev.askPages]
    split
    · split
      · simp [ih, Dev.queueM]
      · rfl
    · rfl

@[simp] theorem drainLimit_writePages (n q : Nat) (d : Dev) : (Dev.writePages n q d).drc.drainLimit = d.drc.drainLimit := by
  induction n generalizing d with
  | zero => rfl
  | succ n ih =>
    simp only [Dev.writePages]
    split
    · rfl
    · simp [ih, (Only.spillLimit _).drc, (Only.allocPage _ _).drc]

theorem drainLimit_spillStep (d : Dev) (q : Nat) : (d.spillStep q).drc.drainLimit = d.drc.drainLimit := by
  unfold Dev.spillStep Dev.askRecall
  split
  · rfl
  · dsimp only
    rw [(Only.spillLimit _).drc (by decide), drainLimit_askPages, (Only.spillState _ _).drc (by decide)]
    split <;> simp [(Only.spillState _ _).drc]

theorem drainFree_drainLimit (d : Dev) : (drainFree d).drc.drainLimit = 0 :=
  each_keeps (fun d => d.drc.drainLimit) _ (fun q x => drainLimit_spillStep x q) _

/-- The ladder has gone down a step, and best effort goes on where that step no longer holds it. -/
def stepDown (d : Dev) : Dev :=
  let x := d.setStep (d.gov.step - 1) 0
  x.when (decide (x.gov.step < 5)) bestEffortFree

theorem Only.stepDown (d : Dev) : Only [.out, .cnt, .hif, .mac, .fwd, .buf, .gov, .bdy] d (Sys2Proof.stepDown d) := by
  simp [Sys2Proof.stepDown, Only.when_iff, (Only.bestEffortFree _).iff, (Only.setStep _ _ _).iff, Only.refl]

/-- The governor one step lower on the ladder. -/
def lowered (g : Gov) : Gov :=
  let x := { g with step := g.step - 1, lowBells := 0 }
  if x.step < 5 then { x with beBudget := 0, beHold := false } else x

theorem stepDown_gov {d : Dev} (above : d.gov.step ≠ 0) : (stepDown d).gov = lowered d.gov := by
  have moved : (d.setStep (d.gov.step - 1) 0).gov = { d.gov with step := d.gov.step - 1, lowBells := 0 } := setStep_gov (by omega) 0
  by_cases low : d.gov.step - 1 < 5
  · simp [stepDown, Dev.when, bestEffortFree, release_gov, moved, lowered, low]
  · simp [stepDown, Dev.when, moved, lowered, low]

theorem lowered_ladder (g : Gov) : (lowered g).step = g.step - 1 ∧ (lowered g).lowBells = 0 := by
  unfold lowered
  dsimp only
  split <;> exact ⟨rfl, rfl⟩

theorem lowered_bestEffort {g : Gov} (low : (lowered g).step < 5) : (lowered g).beHold = false ∧ (lowered g).beBudget = 0 := by
  rw [(lowered_ladder g).1] at low
  simp [lowered, low]

/-- The whole descent: below step 3 no spill is limited any more. -/
def descended (d : Dev) : Dev := (stepDown d).when (decide ((stepDown d).gov.step < 3)) drainFree

theorem Only.descended (d : Dev) : Only [.free, .out, .cnt, .hif, .mac, .fwd, .buf, .drc, .gov, .bdy] d (Sys2Proof.descended d) := by
  simp [Sys2Proof.descended, Only.when_iff, (Only.drainFree _).iff, (Only.stepDown _).iff, Only.refl]

theorem descended_gov {d : Dev} (above : d.gov.step ≠ 0) : (descended d).gov = lowered d.gov :=
  ((Only.when _ (Only.drainFree _)).gov (by decide)).trans (stepDown_gov above)

theorem descended_drc (d : Dev) : ((descended d).gov.step < 3 → (descended d).drc.drainLimit = 0) ∧
    (3 ≤ (descended d).gov.step → (descended d).drc = d.drc) := by
  have ladder : (descended d).gov = (stepDown d).gov := (Only.when _ (Only.drainFree _)).gov (by decide)
  rw [ladder]
  constructor
  · intro low
    simp [descended, low, Dev.when, drainFree_drainLimit]
  · intro high
    simp [descended, Nat.not_lt.2 high, Dev.when, (Only.stepDown d).drc]

theorem ladder_descends (dt : Nat) (s : State) (u : Serving s) (above : s.dev.gov.step ≠ 0) (counted : s.dev.gov.holdBells ≤ s.dev.gov.lowBells)
    (cool : s.dev.gov.hwThermal = false) (bell : (s.dev.elapse dt).atBell = true) :
    Does (.govStepDescend dt) s [.gov, .drc, .mac, .buf, .fwd, .free, .bdy] fun x =>
      x.gov.step = s.dev.gov.step - 1 ∧ x.gov.lowBells = 0 ∧ (x.gov.step < 5 → x.gov.beHold = false ∧ x.gov.beBudget = 0) ∧
        (x.gov.step < 3 → x.drc.drainLimit = 0) ∧ (3 ≤ x.gov.step → x.drc = s.dev.drc) := by
  have due : (s.dev.elapse dt).gov.descends = true ∧ (s.dev.elapse dt).atBell = true := ⟨by simp [Gov.descends, above, counted, cool], bell⟩
  refine Does.upTo (x := descended (s.dev.elapse dt)) (exec_govStepDescend dt s) u (if_pos due) ((Only.descended _).mono (by decide)) ?_
  obtain ⟨limit, stands⟩ := descended_drc (s.dev.elapse dt)
  have ladder : (descended (s.dev.elapse dt)).gov = lowered s.dev.gov := by rw [descended_gov (by simpa using above), Dev.elapse_gov]
  rw [ladder] at limit stands
  rw [Dev.elapse_drc] at stands
  rw [Dev.settle_gov, Dev.settle_drc, ladder]
  obtain ⟨step, bells⟩ := lowered_ladder s.dev.gov
  exact ⟨step, bells, lowered_bestEffort, limit, stands⟩

/-- Settles O40: each row comes to one state of the module. The descent is told by the governor alone, and what a queue then spills leaves
the limit on spills; of the evaluations of one row a rail has one, which moves it by at most a step between its bounds. -/
theorem governorRows : Obligations.GovernorRows := by
  unfold Obligations.GovernorRows
  exact ⟨ladder_descends, mismatch_posted, trip_stops, rail_limited, rails_evaluated, rail_acknowledged⟩

/-! ### GOV.SET_VBOUND and BUF.SET_VOQ (08 R313, R319, 11 R396) -/

theorem govSetVbound_row : CommitRow (.govSetVbound, govSetVbound) := {}
theorem bufSetVoq_row : CommitRow (.bufSetVoq, bufSetVoq) := {}

theorem setVbound_commits : Commits (.govSetVbound, govSetVbound) (fun _ _ => True) [.gov] (fun _ _ => 0) fun c d x =>
    let q := min (c.e.f 16 1 0) (d.glb.part.quads - 1)
    (x.quad q).vmax = max 650 (min (c.e.f 20 25 16) 800) ∧ (x.quad q).vmin = min (max 650 (min (c.e.f 20 9 0) 800)) (x.quad q).vmax ∧
      ∀ k, k ≠ q → x.quad k = d.quad k := by
  refine CommitRow.commits govSetVbound_row fun c d _ => ⟨_, Only.quadM d _ _, ?_, rfl⟩
  refine ⟨?_, ?_, fun k ne => ?_⟩
  · simp [Dev.quadField, clamp_eq_max_min]
  · simp [Dev.quadField, clamp_eq_max_min, Nat.min_comm]
  · exact (quad_quadM _ _ _ _).trans (if_neg ne)

theorem setVoq_commits : Commits (.bufSetVoq, bufSetVoq) (fun _ d => d.voqFree = true) [.buf] (fun _ _ => 0) fun c d x =>
    x.buf = { d.buf with voq := c.e.b 16 0, voqMax := max 16 (min (c.e.f 20 22 0) 4194304) } :=
  CommitRow.commits bufSetVoq_row fun c d free =>
    ⟨_, Only.bufM d _, by rw [Dev.bufM_buf, clamp_eq_max_min (by decide)], if_pos free⟩

/-- Settles O54: both commands are taken up for their bell, whose row comes to them as to any commit; a clamp is a maximum of a minimum. -/
theorem voltageBoundsAndVoqMode : Obligations.VoltageBoundsAndVoqMode := by
  unfold Obligations.VoltageBoundsAndVoqMode
  exact ⟨⟨rfl, rfl⟩, setVbound_commits, setVoq_commits⟩

end Sys2Proof

namespace Sys2Proof

open Sys2Proof.Machine

/-! ## The queue of commands (00, 12 R416) -/

theorem step_front (c : Instr) (s : State) : step { s with pending := c :: s.pending } = exec c s := rfl

theorem step_idle {s : State} (empty : s.pending = []) : step s = .next s := by
  unfold step
  rw [empty]

/-- Settles O1: a step looks at nothing but the queue's front. -/
theorem stepRunsTheFrontCommand : Obligations.StepRunsTheFrontCommand := by
  unfold Obligations.StepRunsTheFrontCommand
  exact ⟨step_front, fun _ => step_idle⟩

/-- Every step answers a next state and takes the front of the queue, if there is one. -/
theorem step_takes (s : State) : ∃ t, step s = .next t ∧ t.pending = s.pending.drop 1 := by
  cases queue : s.pending with
  | nil => exact ⟨s, step_idle queue, queue⟩
  | cons c rest =>
    obtain ⟨d, as, next⟩ := exec_settled c { s with pending := rest }
    refine ⟨{ s with pending := rest, dev := { d.settle with arrivals := as } }, ?_, rfl⟩
    unfold step
    rw [queue]
    exact next

theorem run_succ {M : Host.Core} {s t : M.State} (next : M.step s = .next t) (k : Nat) : M.run (k + 1) s = M.run k t := by
  rw [Host.Core.run, next]

/-- Settles O3, by induction on the number of steps. -/
theorem runsTakeTheQueueInOrder : Obligations.RunsTakeTheQueueInOrder := by
  unfold Obligations.RunsTakeTheQueueInOrder
  intro s k
  induction k generalizing s with
  | zero => exact ⟨s, rfl, rfl⟩
  | succ k ih =>
    obtain ⟨t, next, taken⟩ := step_takes s
    obtain ⟨u, runs, left⟩ := ih t
    refine ⟨u, (run_succ (M := core) next k).trans runs, ?_⟩
    rw [left, taken, List.drop_drop, Nat.add_comm]

end Sys2Proof

namespace Sys2Proof

open Sys2Proof.Machine

/-! ## Rings and events (12 R403 to R411, R431) -/

@[simp] theorem Dev.ring_settle (d : Dev) (g : Nat) : d.settle.ring g = d.ring g := by simp [Dev.ring]

@[simp] theorem Dev.ring_reach (d : Dev) (t : Q) (g : Nat) : (d.reach t).ring g = d.ring g := by simp [Dev.ring]

@[simp] theorem Dev.ring_emit (d : Dev) (o : Out) (g : Nat) : (d.emit o).ring g = d.ring g := rfl

theorem Only.ring {as : List Area} {d e : Dev} (h : Only as d e) (k : Area.hif ∉ as) (g : Nat) : e.ring g = d.ring g := by
  rw [Dev.ring, h.hif k, Dev.ring]

@[simp] theorem Dev.ring_occur (d : Dev) (ev : Nat) (items : List Item) (g : Nat) : (d.occur ev items).ring g = d.ring g :=
  (Only.occur d ev items).ring (by decide) g

/-- An entry written moves the device index on and is still to be signalled. -/
def Machine.Ring.written (r : Ring) (now : Nat) : Ring :=
  { r with devIdx := (r.devIdx + 1) % (2 * r.n), oldest := if r.unsignalled = 0 then now else r.oldest, unsignalled := r.unsignalled + 1 }

theorem writeEntry_eq (d : Dev) (g b : Nat) : d.writeEntry g b =
    ((d.emit (.entry g ((d.ring g).devIdx % (d.ring g).n) (b + b2n ((d.ring g).devIdx < (d.ring g).n) * 2 ^ 255))).ringM g
      fun r => r.written d.now).count (cRing g 2) 1 := rfl

theorem ring_writeEntry (d : Dev) (g b h : Nat) : (d.writeEntry g b).ring h = if h = g then (d.ring g).written d.now else d.ring h :=
  Dev.ring_ringM (d.emit _) g h _

/-- What was lost is told first where there is room; then the record is written, or counted lost. -/
theorem writeEvent_cases (d : Dev) (k b : Nat) : ∃ (c : Bool) (y : Dev), y = d.when c (fun d => d.writeLost k) ∧
    (d.writeEvent k b = y.writeEntry (192 + k) b ∨
      d.writeEvent k b = (y.ringM (192 + k) fun r => { r with lost := r.lost + 1 }).count (cRing (192 + k) 3) 1) := by
  refine ⟨(d.ring (192 + k)).lost != 0 && (d.ring (192 + k)).room, _, rfl, ?_⟩
  unfold Dev.writeEvent
  dsimp only
  split
  · exact .inl rfl
  · exact .inr rfl

/-! ### What posting an event leaves alone -/

/-- A ring but for what tells of the entries written to it. -/
def untold (r : Ring) : Ring := { r with devIdx := 0, oldest := 0, unsignalled := 0, lost := 0 }

/-- The host interface but for its rings, and the counters' settings, are as they were; of a ring only what tells of entries may have
changed. -/
structure Told (d x : Dev) : Prop where
  hif : { x.hif with rings := [] } = { d.hif with rings := [] }
  ring : ∀ g, untold (x.ring g) = untold (d.ring g)
  cnt : { x.cnt with live := [], liveMarks := [] } = { d.cnt with live := [], liveMarks := [] }

namespace Told

variable {d x y : Dev}

theorem refl (d : Dev) : Told d d := ⟨rfl, fun _ => rfl, rfl⟩

theorem trans (h : Told d x) (k : Told x y) : Told d y := ⟨k.hif.trans h.hif, fun g => (k.ring g).trans (h.ring g), k.cnt.trans h.cnt⟩

theorem when {c : Bool} {f : Dev → Dev} (h : Told d (f d)) : Told d (d.when c f) := by
  cases c
  · exact refl d
  · exact h

theorem each {α : Type} (xs : List α) {f : α → Dev → Dev} (h : ∀ a x, Told x (f a x)) (d : Dev) : Told d (d.each xs f) := by
  induction xs generalizing d with
  | nil => exact refl d
  | cons a as ih => exact (h a d).trans (ih (f a d))

theorem count (d : Dev) (k n : Nat) : Told d (d.count k n) := ⟨rfl, fun _ => rfl, rfl⟩

theorem setLive (d : Dev) (k n : Nat) : Told d (d.setLive k n) := ⟨rfl, fun _ => rfl, rfl⟩

theorem emit (d : Dev) (o : Out) : Told d (d.emit o) := ⟨rfl, fun _ => rfl, rfl⟩

theorem ringM (d : Dev) (g : Nat) {f : Ring → Ring} (h : ∀ r, untold (f r) = untold r) : Told d (d.ringM g f) :=
  ⟨rfl, fun k => by rw [Dev.ring_ringM]; split <;> simp [*], rfl⟩

theorem occur (d : Dev) (ev : Nat) (items : List Item) : Told d (d.occur ev items) := by
  refine each _ (fun a x => ?_) d
  exact when (f := fun x => x.count _ 1) (count x _ 1)

theorem writeEntry (d : Dev) (g b : Nat) : Told d (d.writeEntry g b) := by
  rw [writeEntry_eq]
  exact ((emit d _).trans (ringM _ g fun _ => by rfl)).trans (count _ _ 1)

theorem writeLost (d : Dev) (k : Nat) : Told d (d.writeLost k) :=
  ((occur d _ _).trans (writeEntry _ _ _)).trans (ringM _ _ fun _ => rfl)

theorem writeEvent (d : Dev) (k b : Nat) : Told d (d.writeEvent k b) := by
  obtain ⟨c, y, told, written | lost⟩ := writeEvent_cases d k b
  · rw [written, told]
    exact (when (writeLost d k)).trans (writeEntry _ _ _)
  · rw [lost, told]
    exact ((when (writeLost d k)).trans (ringM _ _ fun _ => by rfl)).trans (count _ _ 1)

theorem postAs (d : Dev) (ev : Nat) (items : List Item) (m b : Nat) : Told d (d.postAs ev items m b) := by
  unfold Dev.postAs
  refine (occur d ev items).trans ?_
  dsimp only
  split
  · exact count _ _ 1
  · exact each _ (fun _ x => writeEvent x _ _) _

theorem post (d : Dev) (ev : Nat) (items : List Item) : Told d (d.post ev items) := postAs d ev items _ _

theorem elapse (d : Dev) (dt : Nat) : Told d (d.elapse dt) := by
  have counted := each d.cnt.monitors (f := fun (m, mon) y =>
    y.when (mon.live && mon.hits (d.occupancy mon.kind mon.index)) fun y => y.count (cMon m 0) (coreCycles d.now (d.now + dt)))
    (fun _ x => when (count x _ _)) d
  exact ⟨counted.hif, counted.ring, counted.cnt⟩

theorem settle (d : Dev) : Told d d.settle := each _ (fun _ x => when (setLive x _ _)) d

/-- What is read of the host interface but for its rings is as it was. -/
theorem reads {α : Type} (h : Told d x) (f : Hif → α) (k : ∀ y, f { y with rings := [] } = f y := by intro _; rfl) : f x.hif = f d.hif := by
  rw [← k, h.hif, k]

/-- What is read of the counters' settings is as it was. -/
theorem counts {α : Type} (h : Told d x) (f : Cnt → α) (k : ∀ y, f { y with live := [], liveMarks := [] } = f y := by intro _; rfl) :
    f x.cnt = f d.cnt := by
  rw [← k, h.cnt, k]

end Told

/-! ### Event records (12 R431, 13 R460) -/

/-- Of one ring: it is as it was, and no entry of it has been written; what was sent stands. -/
structure Spares (g : Nat) (d x : Dev) : Prop where
  ring : x.ring g = d.ring g
  sent : ∀ o ∈ d.out, o ∈ x.out
  silent : ∀ i w, Out.entry g i w ∈ x.out → Out.entry g i w ∈ d.out

namespace Spares

variable {g : Nat} {d x y : Dev}

theorem refl (g : Nat) (d : Dev) : Spares g d d := ⟨rfl, fun _ h => h, fun _ _ h => h⟩

theorem trans (h : Spares g d x) (k : Spares g x y) : Spares g d y :=
  ⟨k.ring.trans h.ring, fun o m => k.sent o (h.sent o m), fun i w m => h.silent i w (k.silent i w m)⟩

theorem when {c : Bool} {f : Dev → Dev} (h : Spares g d (f d)) : Spares g d (d.when c f) := by
  cases c
  · exact refl g d
  · exact h

theorem each {α : Type} {xs : List α} {f : α → Dev → Dev} (h : ∀ a ∈ xs, ∀ x, Spares g x (f a x)) (d : Dev) :
    Spares g d (d.each xs f) := by
  induction xs generalizing d with
  | nil => exact refl g d
  | cons a as ih => exact (h a (by simp) d).trans (ih (fun b m => h b (by simp [m])) (f a d))

theorem of_only {l : List Area} (h : Only l d x) (k : Area.hif ∉ l) (m : Area.out ∉ l) : Spares g d x :=
  ⟨h.ring k g, fun _ => by rw [h.out m]; exact id, fun _ _ => by rw [h.out m]; exact id⟩

theorem count (d : Dev) (k n : Nat) : Spares g d (d.count k n) := of_only (Only.count d k n) (by decide) (by decide)

theorem occur (d : Dev) (ev : Nat) (items : List Item) : Spares g d (d.occur ev items) := of_only (Only.occur d ev items) (by decide) (by decide)

theorem ringM (d : Dev) {j : Nat} (ne : j ≠ g) (f : Ring → Ring) : Spares g d (d.ringM j f) :=
  ⟨(Dev.ring_ringM d j g f).trans (if_neg ne.symm), fun _ h => h, fun _ _ h => h⟩

theorem writeEntry (d : Dev) {j : Nat} (ne : j ≠ g) (b : Nat) : Spares g d (d.writeEntry j b) := by
  refine ⟨(ring_writeEntry d j b g).trans (if_neg ne.symm), fun o h => ?_, fun i w h => ?_⟩
  · rw [writeEntry_out]
    exact List.mem_cons_of_mem _ h
  · rw [writeEntry_out, List.mem_cons] at h
    rcases h with h | h
    · exact absurd (Out.entry.inj h).1.symm ne
    · exact h

theorem writeEvent (d : Dev) {j : Nat} (ne : 192 + j ≠ g) (b : Nat) : Spares g d (d.writeEvent j b) := by
  have lost : Spares g d (d.writeLost j) := ((occur d _ _).trans (writeEntry _ ne _)).trans (ringM _ ne _)
  obtain ⟨c, y, told, written | full⟩ := writeEvent_cases d j b
  · rw [written, told]
    exact (when lost).trans (writeEntry _ ne _)
  · rw [full, told]
    exact ((when lost).trans (ringM _ ne _)).trans (count _ _ 1)

end Spares

/-- The record of an event that concerns this module. -/
def eventRecord (d : Dev) (ev : Nat) (items : List Item) : Nat := eventBytes d.now ev d.module 0 (placeItems items 0) d.bell24

theorem takers_occur (d : Dev) (ev : Nat) (items : List Item) : (d.occur ev items).takers ev = d.takers ev := by
  simp [Dev.takers, Dev.route]

theorem mem_takers {d : Dev} {ev k : Nat} :
    k ∈ d.takers ev ↔ k < 8 ∧ (d.ring (192 + k)).state = .running ∧ bit (d.route k) (ev / 256 - 1) = true := by
  simp [Dev.takers]

theorem post_unrouted {d : Dev} {ev : Nat} (none_takes : d.takers ev = []) (items : List Item) :
    d.post ev items = (d.occur ev items).count (cDev 2) 1 := by
  unfold Dev.post Dev.postAs
  dsimp only
  rw [takers_occur, none_takes]

theorem post_routed {d : Dev} {ev : Nat} (some_takes : d.takers ev ≠ []) (items : List Item) :
    d.post ev items = (d.occur ev items).each (d.takers ev) fun k x => x.writeEvent k (eventRecord d ev items) := by
  have time : (d.occur ev items).now = d.now := (Only.occur d ev items).now (by decide)
  have bell : (d.occur ev items).bell24 = d.bell24 := by unfold Dev.bell24; rw [(Only.occur d ev items).bel (by decide)]
  unfold Dev.post Dev.postAs eventRecord
  dsimp only
  rw [takers_occur, time, bell]
  split
  · contradiction
  · rfl

theorem each_append {α : Type} (d : Dev) (xs ys : List α) (f : α → Dev → Dev) : d.each (xs ++ ys) f = (d.each xs f).each ys f :=
  List.foldl_append

/-- A ring that takes an event is written once, and what stands before and after that spares the ring. -/
theorem post_at {d : Dev} {ev k : Nat} (takes : k ∈ d.takers ev) (items : List Item) :
    ∃ y, Spares (192 + k) d y ∧ Spares (192 + k) (y.writeEvent k (eventRecord d ev items)) (d.post ev items) := by
  obtain ⟨as, bs, split⟩ := List.append_of_mem takes
  have once : (as ++ k :: bs).Nodup := split ▸ List.nodup_range.filter _
  obtain ⟨-, later, apart⟩ := List.nodup_append.1 once
  have spared {l : List Nat} (other : k ∉ l) (x : Dev) : Spares (192 + k) x (x.each l fun j x => x.writeEvent j (eventRecord d ev items)) := by
    refine Spares.each (fun j m x => Spares.writeEvent x ?_ _) x
    have : j ≠ k := fun same => other (same ▸ m)
    omega
  refine ⟨(d.occur ev items).each as fun j x => x.writeEvent j (eventRecord d ev items), (Spares.occur d _ _).trans (spared ?_ _), ?_⟩
  · exact fun m => apart k m k (by simp) rfl
  · rw [post_routed (List.ne_nil_of_mem takes), split, each_append]
    exact spared (List.nodup_cons.1 later).1 _

theorem writeEvent_room {d : Dev} {k : Nat} (room : (d.ring (192 + k)).room = true) (told : (d.ring (192 + k)).lost = 0) (b : Nat) :
    d.writeEvent k b = d.writeEntry (192 + k) b := by
  simp [Dev.writeEvent, Dev.when, room, told]

theorem writeEvent_full {d : Dev} {k : Nat} (full : (d.ring (192 + k)).room = false) (b : Nat) :
    d.writeEvent k b = (d.ringM (192 + k) fun r => { r with lost := r.lost + 1 }).count (cRing (192 + k) 3) 1 := by
  simp [Dev.writeEvent, Dev.when, full]

/-- The record shows the time and the number of its event (13 R460). -/
theorem eventBytes_fields {ev : Nat} (number : ev < 65536) (time m o data bell phase : Nat) :
    let w := eventBytes time ev m o data bell + phase * 2 ^ 255
    bits w 63 0 = time % 2 ^ 64 ∧ bits w 79 64 = ev := by
  have hour := Nat.mod_lt time (show 0 < 2 ^ 64 by decide)
  dsimp only
  simp only [bits_eq, eventBytes]
  generalize time % 2 ^ 64 = t at *
  generalize data % 2 ^ 128 = x
  constructor <;> omega

/-- Settles O56: of the rings that an event goes to, each is written once, and the others' records leave it alone. -/
theorem eventRecords : Obligations.EventRecords := by
  unfold Obligations.EventRecords
  refine ⟨?_, ?_, ?_⟩
  · intro d ev k items number lt runs takes room told
    obtain ⟨y, before, after⟩ := post_at (mem_takers.2 ⟨lt, runs, takes⟩) items
    rw [writeEvent_room (by rw [before.ring]; exact room) (by rw [before.ring]; exact told)] at after
    refine ⟨_, _, after.sent _ (by rw [writeEntry_out]; exact List.mem_cons_self), ?_⟩
    exact eventBytes_fields number _ _ _ _ _ _
  · intro d ev k items lt runs takes full
    obtain ⟨y, before, after⟩ := post_at (mem_takers.2 ⟨lt, runs, takes⟩) items
    rw [writeEvent_full (by rw [before.ring]; exact full)] at after
    refine ⟨?_, fun i w sent => before.silent i w (after.silent i w sent)⟩
    rw [after.ring, Dev.ring_count, Dev.ring_ringM, if_pos rfl, before.ring]
  · intro d ev items refused
    refine post_unrouted (List.eq_nil_iff_forall_not_mem.2 fun k m => ?_) items
    obtain ⟨lt, runs, takes⟩ := mem_takers.1 m
    rw [refused k lt runs] at takes
    exact absurd takes (by decide)

end Sys2Proof

namespace Sys2Proof

open Sys2Proof.Machine

/-! ## Doorbells, states and interrupts of rings (12 R404 to R412, R427, R431, R432) -/

theorem exec_doorbellWrite (dt g v : Nat) (w : List (Nat × Nat)) (s : State) : exec (.doorbellWrite dt g v w) s = execDoorbellWrite dt g v w s := rfl
theorem exec_ringCtrlWrite (dt g : Nat) (w : RegWrite) (s : State) : exec (.ringCtrlWrite dt g w) s = execRingCtrlWrite dt g w s := rfl
theorem exec_ringStopped (dt g : Nat) (s : State) : exec (.ringStopped dt g) s = execRingStopped dt g s := rfl
theorem exec_ringReadError (dt g : Nat) (item : ReadItem) (p : Bool) (s : State) :
    exec (.ringReadError dt g item p) s = execRingReadError dt g item p s := rfl
theorem exec_eventsLostRecord (dt k : Nat) (s : State) : exec (.eventsLostRecord dt k) s = execEventsLostRecord dt k s := rfl
theorem exec_msixRaise (dt g : Nat) (s : State) : exec (.msixRaise dt g) s = execMsixRaise dt g s := rfl

/-! ### Doorbells (12 R404, R406, R427) -/

theorem Only.drainOwed (d : Dev) (k : Nat) : Only [.out, .cnt, .hif] d (d.drainOwed k) := by
  simp [Dev.drainOwed, (Only.hifM _ _).iff, (Only.deliverIn _ _ _).iff, Only.each_iff, Only.refl]

theorem Only.ringDoorbell (d : Dev) (g v : Nat) (w : List (Nat × Nat)) : Only [.out, .cnt, .hif] d (d.ringDoorbell g v w) := by
  simp [Dev.ringDoorbell, (Only.drainOwed _ _).iff, (Only.count _ _ _).iff, (Only.ringM _ _ _).iff, Only.when_iff, Only.refl]

/-- A doorbell stores its register. -/
def doorbellStored (d : Dev) (g v : Nat) : Dev := d.ringM g fun r => { r with doorbell := v % 2 ^ 32 }

theorem ring_doorbellStored (d : Dev) (g v : Nat) : (doorbellStored d g v).ring g = { d.ring g with doorbell := v % 2 ^ 32 } :=
  (Dev.ring_ringM d g g _).trans (if_pos rfl)

/-- It moves the index of a ring that runs as well. -/
def doorbellRung (d : Dev) (g v : Nat) (w : List (Nat × Nat)) : Dev :=
  let d := doorbellStored d g v
  if (d.ring g).state == .running then d.ringDoorbell g v w else d

theorem Only.doorbellRung (d : Dev) (g v : Nat) (w : List (Nat × Nat)) : Only [.out, .cnt, .hif] d (doorbellRung d g v w) := by
  simp [Sys2Proof.doorbellRung, doorbellStored, (Only.ringDoorbell _ _ _ _).iff, (Only.ringM _ _ _).iff, Only.ite_iff, Only.refl]

theorem doorbellRung_running {d : Dev} {g : Nat} (runs : (d.ring g).state = .running) (v : Nat) (w : List (Nat × Nat)) :
    doorbellRung d g v w = (doorbellStored d g v).ringDoorbell g v w := if_pos (by rw [ring_doorbellStored, runs]; rfl)

theorem doorbellRung_resting {d : Dev} {g : Nat} (rests : (d.ring g).state ≠ .running) (v : Nat) (w : List (Nat × Nat)) :
    doorbellRung d g v w = doorbellStored d g v := if_neg (by rw [ring_doorbellStored]; simpa using rests)

theorem doorbell_rings {dt g v : Nat} {w : List (Nat × Nat)} {s : State} {P : Dev → Prop} (u : Serving s) (ring : g < 200)
    (up : s.dev.hif.flr = false) (p : P (doorbellRung (s.dev.elapse dt) g v w).settle) : Does (.doorbellWrite dt g v w) s [] P := by
  refine Does.upTo (x := doorbellRung (s.dev.elapse dt) g v w) (exec_doorbellWrite dt g v w s) u ?_ ?_ p
  · exact if_neg (by simp [up]; omega)
  · exact (Only.doorbellRung _ g v w).mono (by decide)

/-- The host index that a doorbell within the ring gives to a ring that the host produces. -/
theorem doorbellIdx_within {r : Ring} {g v : Nat} (host : g < 32 ∨ 64 ≤ g ∧ g < 192)
    (fits : (v % 2 ^ 17 % (2 * r.n) + 2 * r.n - r.devIdx) % (2 * r.n) ≤ r.n) : r.doorbellIdx g v = (v % 2 ^ 17 % (2 * r.n), false) := by
  have producer : (isComplRing g || isEventRing g) = false := by simp [isComplRing, isEventRing]; omega
  unfold Ring.doorbellIdx
  dsimp only
  rw [producer, if_neg (by decide), if_neg (Nat.not_lt.2 fits)]

theorem ringDoorbell_command {d : Dev} {g v : Nat} (cmd : g < 32) (w : List (Nat × Nat))
    (fits : (v % 2 ^ 17 % (2 * (d.ring g).n) + 2 * (d.ring g).n - (d.ring g).devIdx) % (2 * (d.ring g).n) ≤ (d.ring g).n) :
    (d.ringDoorbell g v w).ring g = { d.ring g with hostIdx := v % 2 ^ 17 % (2 * (d.ring g).n) } := by
  have kinds : isCommandRing g = true ∧ isRxRing g = false ∧ isComplRing g = false := by simp [isCommandRing, isRxRing, isComplRing]; omega
  obtain ⟨command, rx, compl⟩ := kinds
  simp [Dev.ringDoorbell, doorbellIdx_within (.inl cmd) fits, command, rx, compl, Dev.when]

theorem doorbell_moves (dt g v : Nat) (w : List (Nat × Nat)) (s : State) (u : Serving s) (cmd : g < 32) (up : s.dev.hif.flr = false)
    (runs : (s.dev.ring g).state = .running)
    (fits : (v % 2 ^ 17 % (2 * (s.dev.ring g).n) + 2 * (s.dev.ring g).n - (s.dev.ring g).devIdx) % (2 * (s.dev.ring g).n) ≤ (s.dev.ring g).n) :
    Does (.doorbellWrite dt g v w) s [] fun x =>
      x.ring g = { s.dev.ring g with doorbell := v % 2 ^ 32, hostIdx := v % 2 ^ 17 % (2 * (s.dev.ring g).n) } := by
  refine doorbell_rings u (by omega) up ?_
  have ring := ring_doorbellStored (s.dev.elapse dt) g v
  rw [Dev.ring_elapse] at ring
  rw [Dev.ring_settle, doorbellRung_running (by rw [Dev.ring_elapse]; exact runs), ringDoorbell_command cmd w (by rw [ring]; exact fits), ring]
  rfl

theorem doorbell_stored (dt g v : Nat) (w : List (Nat × Nat)) (s : State) (u : Serving s) (ring : g < 200) (up : s.dev.hif.flr = false)
    (rests : (s.dev.ring g).state ≠ .running) : Does (.doorbellWrite dt g v w) s [] fun x =>
      x.ring g = { s.dev.ring g with doorbell := v % 2 ^ 32 } := by
  refine doorbell_rings u ring up ?_
  rw [Dev.ring_settle, doorbellRung_resting (by rw [Dev.ring_elapse]; exact rests), ring_doorbellStored, Dev.ring_elapse]

/-- One entry posted stands at the ring's host index. -/
theorem post_one {r : Ring} {idx : Nat} (p : Nat × Nat) (one : (idx + 2 * r.n - r.hostIdx) % (2 * r.n) = 1) :
    r.post idx [p] = { r with posted := AMap.set r.posted (r.hostIdx % r.n) p } := by
  have more : 1 ≤ r.n := Ring.n_pos r
  simp [Ring.post, one, more]

theorem ringDoorbell_rx {d : Dev} {g v : Nat} (rx : 128 ≤ g ∧ g < 192) (p : Nat × Nat)
    (fits : (v % 2 ^ 17 % (2 * (d.ring g).n) + 2 * (d.ring g).n - (d.ring g).devIdx) % (2 * (d.ring g).n) ≤ (d.ring g).n)
    (one : (v % 2 ^ 17 % (2 * (d.ring g).n) + 2 * (d.ring g).n - (d.ring g).hostIdx) % (2 * (d.ring g).n) = 1) :
    (d.ringDoorbell g v [p]).ring g = { d.ring g with
      hostIdx := v % 2 ^ 17 % (2 * (d.ring g).n), armed := (d.ring g).armed || bit v 31
      posted := AMap.set (d.ring g).posted ((d.ring g).hostIdx % (d.ring g).n) p } := by
  have kinds : isCommandRing g = false ∧ isTxRing g = false ∧ isRxRing g = true ∧ isComplRing g = false := by
    simp [isCommandRing, isTxRing, isRxRing, isComplRing]; omega
  obtain ⟨command, tx, receives, compl⟩ := kinds
  have index := doorbellIdx_within (.inr ⟨by omega, rx.2⟩) fits
  have posted := post_one p one
  generalize v % 2 ^ 17 % (2 * (d.ring g).n) = idx at *
  simp [Dev.ringDoorbell, index, posted, command, tx, receives, compl, Dev.when]

theorem doorbell_posts (dt g v : Nat) (p : Nat × Nat) (s : State) (u : Serving s) (rx : 128 ≤ g ∧ g < 192) (up : s.dev.hif.flr = false)
    (runs : (s.dev.ring g).state = .running)
    (fits : (v % 2 ^ 17 % (2 * (s.dev.ring g).n) + 2 * (s.dev.ring g).n - (s.dev.ring g).devIdx) % (2 * (s.dev.ring g).n) ≤ (s.dev.ring g).n)
    (one : (v % 2 ^ 17 % (2 * (s.dev.ring g).n) + 2 * (s.dev.ring g).n - (s.dev.ring g).hostIdx) % (2 * (s.dev.ring g).n) = 1) :
    Does (.doorbellWrite dt g v [p]) s [] fun x =>
      (x.ring g).hostIdx = v % 2 ^ 17 % (2 * (s.dev.ring g).n) ∧
        (x.ring g).bufAddr (s.dev.ring g).hostIdx = p.1 / 64 * 64 ∧
        (x.ring g).bufLen (s.dev.ring g).hostIdx = max 256 (min 16384 p.2) / 64 * 64 := by
  refine doorbell_rings u (by omega) up ?_
  have ring := ring_doorbellStored (s.dev.elapse dt) g v
  rw [Dev.ring_elapse] at ring
  rw [Dev.ring_settle, doorbellRung_running (by rw [Dev.ring_elapse]; exact runs),
    ringDoorbell_rx rx p (by rw [ring]; exact fits) (by rw [ring]; exact one), ring]
  simp [Ring.bufAddr, Ring.bufLen, Ring.n]

/-! ### Ring states (12 R408 to R410, R412) -/

theorem Only.setRing (d : Dev) (g : Nat) (new : RingState) (f : Ring → Ring) : Only [.out, .cnt, .hif] d (d.setRing g new f) := by
  simp [Dev.setRing, (Only.postIn _ _ _).iff, (Only.ringM _ _ _).iff, Only.ite_iff, Only.refl]

theorem Only.startRing (d : Dev) (g : Nat) : Only [.out, .cnt, .hif] d (d.startRing g) := by
  simp [Dev.startRing, (Only.setRing _ _ _ _).iff, Only.ite_iff, Only.refl]

theorem Only.ringOff (d : Dev) (g : Nat) : Only [.out, .cnt, .hif] d (d.ringOff g) := by
  simp [Dev.ringOff, (Only.startRing _ _).iff, (Only.setRing _ _ _ _).iff, Only.refl]

/-- A ring that has changed state, but for what its own event tells there. -/
theorem setRing_untold (d : Dev) (g : Nat) (new : RingState) (f : Ring → Ring) :
    untold ((d.setRing g new f).ring g) = untold { f (d.ring g) with state := new } := by
  have changed : (d.ringM g fun r => { f r with state := new }).ring g = { f (d.ring g) with state := new } :=
    (Dev.ring_ringM _ _ _ _).trans (if_pos rfl)
  unfold Dev.setRing
  dsimp only
  split
  · rw [changed]
  · rw [(Told.post _ _ _).ring, changed]

/-- Below the event rings its own event tells nothing in the ring. -/
theorem setRing_ring (d : Dev) {g : Nat} (lt : g < 192) (new : RingState) (f : Ring → Ring) :
    (d.setRing g new f).ring g = { f (d.ring g) with state := new } := by
  have changed : (d.ringM g fun r => { f r with state := new }).ring g = { f (d.ring g) with state := new } :=
    (Dev.ring_ringM _ _ _ _).trans (if_pos rfl)
  unfold Dev.setRing
  dsimp only
  split
  · exact changed
  · rw [(HostKept.post _ _ _).rings g lt, changed]

/-- A ring that is not to run again reaches OFF and stays there. -/
theorem ringOff_state {d : Dev} {g : Nat} (ends : (d.ring g).en = false) : ((d.ringOff g).ring g).state = .off := by
  have off := setRing_untold d g .off id
  have state : ((d.setRing g .off id).ring g).state = .off := congrArg Ring.state off
  have stays : ((d.setRing g .off id).ring g).en = false := (congrArg Ring.en off).trans ends
  have rests : (d.setRing g .off id).startRing g = d.setRing g .off id := if_neg (by simp [stays])
  rw [Dev.ringOff, rests, state]

/-! ### A write of HIF_RING_CTRL (12 R409, 14 R467) -/

/-- HIF_RING_CTRL (12 R409). -/
def ringCtrlReg : Reg := perRing 0x113000 (fun r => b2n r.en) fun g v d => d.ringCtrl g (bit v 0)

/-- The first of the registers that covers an address of HIF_RING_CTRL stands at place 16. -/
theorem findIdx_ringCtrl : ∀ g < 32, (registers.findIdx fun r => decide (r.base ≤ 0x113000 + g * 16) &&
    decide (0x113000 + g * 16 < r.base + r.n * r.stride) && decide ((0x113000 + g * 16 - r.base) % r.stride < 16)) = 16 := by
  decide

theorem regAt_ringCtrl {g : Nat} (lt : g < 32) : regAt (0x113000 + g * 16) = some (ringCtrlReg, g) := by
  have here : registers[16]? = some ringCtrlReg := rfl
  have index : (0x113000 + g * 16 - 0x113000) / 16 = g := by omega
  rw [regAt, List.find?_eq_getElem?_findIdx, findIdx_ringCtrl g lt, here]
  exact congrArg (fun i => some (ringCtrlReg, i)) index

/-- A whole dword written to a register alone reaches that register. -/
theorem regWrite_whole {d : Dev} {addr : Nat} {w : RegWrite} (bus : d.busUp = true) (whole : w.off = 0 ∧ w.len = 4 ∧ w.poisoned = false)
    (aligned : addr % 4 = 0) (outside : inMsix addr = false) : d.regWrite addr w = d.writeDword addr (w.data % 2 ^ 32) := by
  obtain ⟨off, len, sound⟩ := whole
  unfold Dev.regWrite Dev.busWrite
  rw [off, len, sound, bus]
  simp [Dev.writeSpan, aligned, outside]

theorem regWrite_ringCtrl {d : Dev} {g : Nat} {w : RegWrite} (lt : g < 32) (bus : d.busUp = true) (regs : d.regsUp = true)
    (whole : w.off = 0 ∧ w.len = 4 ∧ w.poisoned = false) (on : w.data % 2 = 1) :
    d.regWrite (0x113000 + g * 16) w = (d.ringCtrl g true).cfgLook := by
  have here : d.regHere (0x113000 + g * 16) = some (ringCtrlReg, g) := by rw [Dev.regHere, regAt_ringCtrl lt]; rfl
  have direct : (0x113000 + g * 16) % 16 / 4 = 0 := by omega
  have enables : bit (w.data % 2 ^ 32 % 2 ^ 32) 0 = true := by simpa [bit] using on
  have aligned : (0x113000 + g * 16) % 4 = 0 := by omega
  have outside : inMsix (0x113000 + g * 16) = false := by
    have below : ¬msixBase ≤ 0x113000 + g * 16 := by unfold msixBase; omega
    simp [inMsix, below]
  rw [regWrite_whole bus whole aligned outside, Dev.writeDword, here, regs]
  simp only [Dev.applyWrite, direct]
  change ((d.ringCtrl g (bit (w.data % 2 ^ 32 % 2 ^ 32) 0)).cfgLook) = _
  rw [enables]

theorem Only.ringCtrl_on (d : Dev) (g : Nat) : Only [.out, .cnt, .hif] d (d.ringCtrl g true) := by
  simp [Dev.ringCtrl, (Only.startRing _ _).iff, (Only.ringM _ _ _).iff, Only.refl]

/-- A ring below the event rings that is OFF starts when its en is written, as its settings stand. -/
theorem ringCtrl_starts {d : Dev} {g : Nat} (lt : g < 192) (off : (d.ring g).state = .off) :
    (d.ringCtrl g true).ring g = { Ring.start { d.ring g with en := true, enWritten := true } with state := .running } := by
  let asked := d.ringM g fun r => { r with en := true, enWritten := r.enWritten || true }
  have ring : asked.ring g = { d.ring g with en := true, enWritten := true } := by simp [asked]
  have starts : d.ringCtrl g true = asked.setRing g .running Ring.start := if_pos (by
    rw [ring]
    simp [off])
  rw [starts, setRing_ring asked lt, ring]

theorem HostKept.cfgLook (d : Dev) : HostKept d d.cfgLook := by
  have noted (x : Dev) (f : Bdy → Bdy) : HostKept x (x.bdyM f) := HostKept.of_hif rfl
  unfold Dev.cfgLook
  dsimp only
  generalize noting : d.bdyM _ = y
  have first : HostKept d y := noting ▸ noted d _
  split
  · exact (first.trans (noted y _)).trans (HostKept.post _ _ _)
  · exact first

theorem ringCtrl_enabled (dt g : Nat) (w : RegWrite) (s : State) (bus : s.dev.busUp = true) (regs : s.dev.regsUp = true) (lt : g < 32)
    (off : (s.dev.ring g).state = .off) (write : w.off = 0 ∧ w.len = 4 ∧ w.poisoned = false ∧ w.data % 2 = 1) (q : Quiet s) :
    Does (.ringCtrlWrite dt g w) s [.bdy] fun x =>
      (x.ring g).state = .running ∧ (x.ring g).hostIdx = 0 ∧ (x.ring g).devIdx = 0 ∧ (x.ring g).lBase = (s.dev.ring g).base ∧
        (x.ring g).lCring = (s.dev.ring g).cring := by
  obtain ⟨zero, four, sound, on⟩ := write
  have bus' : (s.dev.elapse dt).busUp = true := by simpa [Dev.busUp] using bus
  have regs' : (s.dev.elapse dt).regsUp = true := by simpa [Dev.regsUp] using regs
  have written := regWrite_ringCtrl lt bus' regs' ⟨zero, four, sound⟩ on
  have known : ((s.dev.elapse dt).when (decide (g < 200)) fun d => d.regWrite (0x113000 + g * 16) w) =
      ((s.dev.elapse dt).ringCtrl g true).cfgLook := by
    rw [← written]
    exact if_pos (by simp; omega)
  refine Does.act (exec_ringCtrlWrite dt g w s) q ?_ ?_
  · rw [known]
    exact ((Only.ringCtrl_on _ g).mono (by decide)).trans ((Only.cfgLook _).mono (by decide))
  · rw [known, Dev.ring_settle, (HostKept.cfgLook _).rings g (by omega), ringCtrl_starts (by omega) (by rw [Dev.ring_elapse]; exact off),
      Dev.ring_elapse]
    exact ⟨rfl, rfl, rfl, rfl, rfl⟩

/-! ### Rings that stop (12 R410, R412) -/

theorem Machine.Dev.mayOff_elapse (d : Dev) (dt g : Nat) : (d.elapse dt).mayOff g = d.mayOff g := by
  simp [Dev.mayOff, Dev.unwritten, Dev.finalsOwed]

theorem ring_stopped (dt g : Nat) (s : State) (u : Serving s) (stops : (s.dev.ring g).state = .stopping) (done : s.dev.mayOff g = true)
    (ends : (s.dev.ring g).en = false) : Does (.ringStopped dt g) s [] fun x => (x.ring g).state = .off := by
  refine Does.upTo (x := (s.dev.elapse dt).ringOff g) (exec_ringStopped dt g s) u ?_ ((Only.ringOff _ g).mono (by decide)) ?_
  · exact if_pos (by simp [stops, done, Dev.mayOff_elapse])
  · rw [Dev.ring_settle]
    exact ringOff_state (by rw [Dev.ring_elapse]; exact ends)

/-- A command ring starts to stop: nothing of its work ends at once. -/
theorem stopRing_command {d : Dev} {g : Nat} (cmd : g < 32) : d.stopRing g = d.setRing g .stopping fun r => { r with enWritten := false } := by
  have kinds : isTxRing g = false ∧ isRxRing g = false ∧ isEventRing g = false := by simp [isTxRing, isRxRing, isEventRing]; omega
  obtain ⟨tx, rx, event⟩ := kinds
  simp [Dev.stopRing, tx, rx, event]

/-- An entry of a ring could not be read: fetching ends, and it is told. -/
def entryLost (d : Dev) (g index : Nat) (poisoned : Bool) : Dev :=
  (d.ringM g fun r => { r with error := true, fetchEnded := true }).post 0x0202 [.index g, .value index, .code (b2n poisoned)]

theorem entryLost_ring (d : Dev) {g : Nat} (lt : g < 192) (index : Nat) (poisoned : Bool) :
    (entryLost d g index poisoned).ring g = { d.ring g with error := true, fetchEnded := true } := by
  rw [entryLost, (HostKept.post _ _ _).rings g lt, Dev.ring_ringM, if_pos rfl]

theorem entry_unreadable (dt g k : Nat) (p : Bool) (s : State) (u : Serving s) (cmd : g < 32) (runs : (s.dev.ring g).state = .running) :
    Does (.ringReadError dt g (.entry k) p) s [] fun x =>
      (x.ring g).state = .stopping ∧ (x.ring g).error = true ∧ (x.ring g).fetchEnded = true := by
  have lost := entryLost_ring (s.dev.elapse dt) (show g < 192 by omega) k p
  rw [Dev.ring_elapse] at lost
  have reads : ((isCommandRing g || isTxRing g || isRxRing g) && ((s.dev.elapse dt).ring g).state != .off) = true := by
    simp [isCommandRing, cmd, runs]
  have fails : (s.dev.elapse dt).entryFailed g k p = (entryLost (s.dev.elapse dt) g k p).stopRing g :=
    if_pos (by change (((entryLost (s.dev.elapse dt) g k p).ring g).state == .running) = true; rw [lost]; simp [runs])
  refine Does.upTo (x := (entryLost (s.dev.elapse dt) g k p).stopRing g) (exec_ringReadError dt g (.entry k) p s) u ?_ ?_ ?_
  · rw [← fails]
    exact if_pos reads
  · rw [stopRing_command cmd]
    refine Only.trans ?_ ((Only.setRing _ _ _ _).mono (by decide))
    exact ((Only.ringM _ _ _).mono (by decide)).trans ((Only.post _ _ _).mono (by decide))
  · rw [Dev.ring_settle, stopRing_command cmd, setRing_ring _ (by omega), lost]
    exact ⟨rfl, rfl, rfl⟩

/-! ### Events lost, and interrupts (12 R431, R432) -/

theorem writeLost_ring (d : Dev) (k : Nat) : ((d.writeLost k).ring (192 + k)).lost = 0 ∧
    ((d.writeLost k).ring (192 + k)).devIdx = ((d.ring (192 + k)).devIdx + 1) % (2 * (d.ring (192 + k)).n) := by
  simp [Dev.writeLost, ring_writeEntry, Ring.written]

theorem losses_told (dt k : Nat) (s : State) (u : Serving s) (lt : k < 8) (runs : (s.dev.ring (192 + k)).state = .running)
    (lost : (s.dev.ring (192 + k)).lost ≠ 0) (room : (s.dev.ring (192 + k)).room = true) : Does (.eventsLostRecord dt k) s [] fun x =>
      (x.ring (192 + k)).lost = 0 ∧ (x.ring (192 + k)).devIdx = ((s.dev.ring (192 + k)).devIdx + 1) % (2 * (s.dev.ring (192 + k)).n) := by
  refine Does.upTo (x := (s.dev.elapse dt).writeLost k) (exec_eventsLostRecord dt k s) u ?_ ((Only.writeLost _ k).mono (by decide)) ?_
  · exact if_pos (by simp [lt, runs, lost, room])
  · rw [Dev.ring_settle, ← Dev.ring_elapse s.dev dt]
    exact writeLost_ring _ k

/-- An interrupt of a ring: it is armed no more, and its vector is raised. -/
def signalled (d : Dev) (g : Nat) : Dev := (d.ringM g fun r => { r with armed := false, unsignalled := 0 }).raiseVector (d.ring g).vector

theorem raiseVector_unmasked {d : Dev} {v : Nat} (open_ : bit (d.msixEntry v) 96 = false) :
    d.raiseVector v = (d.emit (.msix v)).count (cDev (4 + v)) 1 := if_neg (by rw [← Dev.msixEntry, open_]; decide)

theorem interrupt_raised (dt g : Nat) (s : State) (u : Serving s) (armed : (s.dev.ring g).armed = true)
    (entries : (s.dev.ring g).unsignalled ≠ 0) (on : (s.dev.ring g).state ≠ .off)
    (enough : (s.dev.ring g).modCount ≤ (s.dev.ring g).unsignalled)
    (open_ : bit (s.dev.msixEntry (s.dev.ring g).vector) 96 = false) : Does (.msixRaise dt g) s [] fun x =>
      x.out = .msix (s.dev.ring g).vector :: s.dev.out ∧ (x.ring g).armed = false ∧ (x.ring g).unsignalled = 0 := by
  have raised : signalled (s.dev.elapse dt) g = (((s.dev.elapse dt).ringM g fun r => { r with armed := false, unsignalled := 0 }).emit
      (.msix (s.dev.ring g).vector)).count (cDev (4 + (s.dev.ring g).vector)) 1 := by
    rw [signalled, Dev.ring_elapse]
    exact raiseVector_unmasked (by simpa [Dev.msixEntry, Dev.ringM] using open_)
  refine Does.upTo (x := signalled (s.dev.elapse dt) g) (exec_msixRaise dt g s) u ?_ ?_ ?_
  · simp [armed, entries, on, enough, signalled]
  · rw [raised]
    simp [(Only.count _ _ _).iff, (Only.emit _ _).iff, (Only.ringM _ _ _).iff, tells, Only.refl]
  · rw [Dev.ring_settle, Dev.settle_out, raised]
    refine ⟨?_, ?_, ?_⟩
    · simp [Dev.emit]
    · simp
    · simp

/-- Settles O41: each row comes to one change of its ring, which the events that tell of it leave alone. -/
theorem ringRows : Obligations.RingRows := by
  unfold Obligations.RingRows
  exact ⟨doorbell_moves, doorbell_stored, doorbell_posts, ringCtrl_enabled, ring_stopped, entry_unreadable, losses_told, interrupt_raised⟩

end Sys2Proof

namespace Sys2Proof

open Sys2Proof.Machine

/-! ## Commands from their fetch to their end (12 R411, R415, R416, 13 R441, R451, R455, 15 R488) -/

theorem exec_commandFetch (dt g : Nat) (raw : List Byte) (e : CmdEntry) (s : State) :
    exec (.commandFetch dt g raw e) s = execCommandFetch dt g raw e s := rfl
theorem exec_commandAccept (dt g : Nat) (s : State) : exec (.commandAccept dt g) s = execCommandAccept dt g s := rfl
theorem exec_barrierRelease (dt g tag : Nat) (s : State) : exec (.barrierRelease dt g tag) s = execBarrierRelease dt g tag s := rfl
theorem exec_longOpInterim (dt g tag pos : Nat) (s : State) : exec (.longOpInterim dt g tag pos) s = execLongOpInterim dt g tag pos s := rfl
theorem exec_autoSnapshot (dt : Nat) (s : State) : exec (.autoSnapshot dt) s = execAutoSnapshot dt s := rfl

/-! ### Time changes nothing that fetch and acceptance look at -/

@[simp] theorem cmdAt_elapse (d : Dev) (dt g tag : Nat) : (d.elapse dt).cmdAt g tag = d.cmdAt g tag := by simp [Dev.cmdAt]

@[simp] theorem unwritten_elapse (d : Dev) (dt : Nat) (p : Compl → Bool) : (d.elapse dt).unwritten p = d.unwritten p := by simp [Dev.unwritten]

@[simp] theorem turn_elapse (d : Dev) (dt g : Nat) : (d.elapse dt).turn g = d.turn g := by simp [Dev.turn]

@[simp] theorem finalsOwed_elapse (d : Dev) (dt k : Nat) : (d.elapse dt).finalsOwed k = d.finalsOwed k := by simp [Dev.finalsOwed]

@[simp] theorem inflightCount_elapse (d : Dev) (dt : Nat) : (d.elapse dt).inflightCount = d.inflightCount := by simp [Dev.inflightCount]

@[simp] theorem bindRoom_elapse (d : Dev) (dt g : Nat) : (d.elapse dt).bindRoom g = d.bindRoom g := by
  simp only [Dev.bindRoom, Dev.ring_elapse, finalsOwed_elapse]

@[simp] theorem mayFetch_elapse (d : Dev) (dt g : Nat) : (d.elapse dt).mayFetch g = d.mayFetch g := by
  simp only [Dev.mayFetch, Dev.fenced, Dev.ring_elapse, bindRoom_elapse, inflightCount_elapse, Dev.elapse_hif]

/-! ### Fetch (12 R415) -/

/-- A command fetched: the device index counts on, and the command is the last in flight. -/
def takenFrom (d : Dev) (op : Nat) (e : CmdEntry) : Dev :=
  ((d.ringM e.ring fun r => { r with devIdx := (r.devIdx + 1) % (2 * r.n) }).count (cRing e.ring 2) 1).hifM fun h =>
    { h with inflight := h.inflight ++ [{ e, op, cring := (d.ring e.ring).lCring, entry := (d.ring e.ring).devIdx % (d.ring e.ring).n }] }

/-- Steps 1 and 2 of a known command whose tag is free on a ring that runs. -/
theorem fetchCmd_known {d : Dev} {e : CmdEntry} (op : Nat) (runs : (d.ring e.ring).state = .running) (free : d.cmdAt e.ring e.tag = none)
    (told : d.unwritten (fun x => x.kind == 0 && x.ring == e.ring && x.tag == e.tag) = 0) : d.fetchCmd true op e = takenFrom d op e := by
  let moved := (d.ringM e.ring fun r => { r with devIdx := (r.devIdx + 1) % (2 * r.n) }).count (cRing e.ring 2) 1
  have unused : ((moved.cmdAt e.ring e.tag).isSome ||
      moved.unwritten (fun x => x.kind == 0 && x.ring == e.ring && x.tag == e.tag) != 0) = false := by
    change ((d.cmdAt e.ring e.tag).isSome || d.unwritten (fun x => x.kind == 0 && x.ring == e.ring && x.tag == e.tag) != 0) = false
    rw [free, told]
    rfl
  unfold Dev.fetchCmd
  dsimp only
  rw [if_neg (by rw [runs]; decide), if_neg (by decide), if_neg (by rw [unused]; decide)]
  rfl

theorem command_fetched (dt g : Nat) (raw : List Byte) (e : CmdEntry) (s : State) (u : Serving s) (may : s.dev.mayFetch g = true)
    (waits : (s.dev.ring g).waiting ≠ 0) (runs : (s.dev.ring g).state = .running) (known : (specOf (natLE (raw.take 2))).isSome = true)
    (free : s.dev.cmdAt g (entryOf g raw e).tag = none)
    (told : s.dev.unwritten (fun x => x.kind == 0 && x.ring == g && x.tag == (entryOf g raw e).tag) = 0) :
    Does (.commandFetch dt g raw e) s [] fun x =>
      InFlight x (entryOf g raw e) (natLE (raw.take 2)) .fetched ∧
        (x.ring g).devIdx = ((s.dev.ring g).devIdx + 1) % (2 * (s.dev.ring g).n) := by
  refine Does.upTo (x := takenFrom (s.dev.elapse dt) (natLE (raw.take 2)) (entryOf g raw e)) (exec_commandFetch dt g raw e s) u ?_ ?_ ?_
  · have fetches := fetchCmd_known (d := s.dev.elapse dt) (e := entryOf g raw e) (natLE (raw.take 2)) (by rw [Dev.ring_elapse]; exact runs)
      (by rw [cmdAt_elapse]; exact free) (by rw [unwritten_elapse]; exact told)
    dsimp only
    rw [← fetches, known]
    exact if_pos (by simp [may, waits])
  · exact ((Only.ringM _ _ _).mono (by decide)).trans (((Only.count _ _ _).mono (by decide)).trans ((Only.hifM _ _).mono (by decide)))
  · constructor
    · have last (d : Dev) (op : Nat) (e : CmdEntry) : InFlight (takenFrom d op e) e op .fetched :=
        ⟨_, List.mem_append_right _ List.mem_cons_self, rfl, rfl, rfl, rfl⟩
      rw [InFlight, Dev.settle_hif]
      exact last _ _ _
    · have moved := Dev.ring_ringM (s.dev.elapse dt) g g fun r => { r with devIdx := (r.devIdx + 1) % (2 * r.n) }
      rw [if_pos rfl, Dev.ring_elapse] at moved
      rw [Dev.ring_settle]
      exact congrArg Ring.devIdx moved

/-! ### Acceptance of a snapshot (13 R441, R450) -/

theorem specOf_snapshot : specOf 0x0102 = some glbSnapshot := rfl

/-- A command that no check can refuse and that reads no host memory is taken up outside a pair. -/
theorem acceptCmd_snapshot {d : Dev} {c : Cmd} (kernel : (d.ring c.e.ring).user = false) (single : d.bdy.state = .off) :
    d.acceptCmd glbSnapshot c = takenDev d glbSnapshot c := by
  simp [Dev.acceptCmd, Dev.stepsFour, Dev.checks, Dev.stepNine, Dev.pairRefuses, glbSnapshot, kernel, single, takeUp_eq]

theorem turn_named {d : Dev} {g : Nat} {c : Cmd} (turn : d.turn g = some c) : c ∈ d.hif.inflight ∧ c.mirrored = false := by
  unfold Dev.turn at turn
  dsimp only at turn
  split at turn
  next x found =>
    split at turn
    · cases turn
    · cases turn
      have mine := List.mem_filter.1 (List.mem_of_find?_eq_some found)
      simp only [Bool.and_eq_true, Bool.not_eq_true'] at mine
      exact ⟨mine.1, mine.2.1⟩
  next => cases turn

theorem snapshot_accepted (dt g : Nat) (c : Cmd) (s : State) (u : Serving s) (turn : s.dev.turn g = some c) (op : c.op = 0x0102)
    (kernel : (s.dev.ring c.e.ring).user = false) (single : s.dev.bdy.state = .off) : Does (.commandAccept dt g) s [.glb] fun x =>
      WaitsSince x c.e 0x0102 s.dev.bel.seq ∧ x.glb = { s.dev.glb with phase := 6 } := by
  obtain ⟨flies, own⟩ := turn_named turn
  refine Does.upTo (x := takenDev (s.dev.elapse dt) glbSnapshot c) (exec_commandAccept dt g s) u ?_ ((Only.takenDev _ _ _).mono (by decide)) ?_
  · simp only [turn_elapse, turn, op, specOf_snapshot]
    exact acceptCmd_snapshot (by rw [Dev.ring_elapse]; exact kernel) (by rw [Dev.elapse_bdy]; exact single)
  · constructor
    · refine ⟨takenCmd (s.dev.elapse dt) glbSnapshot c, ?_, rfl, op, own, ?_⟩
      · rw [Dev.settle_hif, takenDev_inflight, Dev.elapse_hif]
        exact List.mem_map.2 ⟨c, flies, if_pos (by simp [Cmd.same])⟩
      · change CmdStage.accepted (s.dev.elapse dt).bel.seq = _
        rw [Dev.elapse_bel]
    · rw [Dev.settle_glb, takenDev_glb, Dev.elapse_glb]
      have up := u.1
      simp only [Dev.inService, Bool.and_eq_true, Bool.or_eq_true, beq_iff_eq] at up
      rcases up.1 with five | six
      · simp [five]
      · simp [six]

/-! ### Barriers (13 R451) -/

/-- Outside PAIRED a command's end is written to its completion ring, where that can take it. -/
theorem finish_completed {s : State} {d : Dev} {c : Cmd} (own : c.mirrored = false) (ends : c.stage ≠ .long) (single : d.bdy.state ≠ .paired)
    (bound : c.cring = (s.dev.ring c.e.ring).lCring) (tell : CanTell s c.e.ring) (rings : ∀ g, d.ring g = s.dev.ring g)
    (owed : d.hif.owed = s.dev.hif.owed) (st r : Nat) : Completed s (d.finish c st r) c.e c.op st r := by
  obtain ⟨lt, runs, room, unowed⟩ := tell
  refine ⟨?_, finish_cmdAt d c st r own⟩
  rw [finish_written own single bound lt (by rw [rings]; exact runs) (by rw [rings]; exact room) (by rw [owed]; exact unowed), writeEntry_out]
  refine ⟨_, _, List.mem_cons_self, ?_⟩
  have short : (c.stage == .long) = false := by simpa using ends
  have result : (c.completion st r).result = r := by simp [Cmd.completion, short]
  have fields := Compl.fields { c.completion st r with module := (leaving d c st).module } (leaving d c st).bell24
    (b2n (((leaving d c st).ring (32 + (s.dev.ring c.e.ring).lCring)).devIdx < ((leaving d c st).ring (32 + (s.dev.ring c.e.ring).lCring)).n))
  rw [result] at fields
  exact fields

theorem Completed.settle {s : State} {d : Dev} {e : CmdEntry} {op st r : Nat} (h : Completed s d e op st r) : Completed s d.settle e op st r := by
  obtain ⟨written, gone⟩ := h
  exact ⟨by rw [Dev.settle_out]; exact written, by rw [settle_cmdAt]; exact gone⟩

theorem barrier_released (dt g tag : Nat) (c : Cmd) (s : State) (u : Serving s) (found : s.dev.cmdAt g tag = some c) (op : c.op = 0x0103)
    (waits : c.stage = .waiting) (done : c.waits = []) (_ : g < 32) (bound : c.cring = (s.dev.ring g).lCring)
    (single : s.dev.bdy.state ≠ .paired) (tell : CanTell s g) : Does (.barrierRelease dt g tag) s [] fun x =>
      Completed s x c.e 0x0103 stOk c.waited := by
  obtain ⟨own, rfl, -⟩ := cmdAt_named found
  have single' : (s.dev.elapse dt).bdy.state ≠ .paired := by rw [Dev.elapse_bdy]; exact single
  refine Does.upTo (x := (s.dev.elapse dt).finish c stOk c.waited) (exec_barrierRelease dt c.e.ring tag s) u ?_
    ((Only.finishSingle _ c _ _ single' own).mono (by decide)) ?_
  · simp [found, op, waits, done]
  · refine Completed.settle ?_
    rw [← op]
    exact finish_completed own (by rw [waits]; decide) single' bound tell (Dev.ring_elapse s.dev dt) (by rw [Dev.elapse_hif]) stOk c.waited

/-! ### Progress (12 R420, 13 R455) -/

/-- A command changed in flight, but for what names it. -/
theorem cmdAt_cmdM {d : Dev} {g tag : Nat} {c : Cmd} (found : d.cmdAt g tag = some c) {f : Cmd → Cmd}
    (keeps : ∀ x, (f x).e = x.e ∧ (f x).mirrored = x.mirrored) : (d.cmdM c f).cmdAt g tag = some (f c) := by
  have named (x : Cmd) : (!(if x.same c then f x else x).mirrored && (if x.same c then f x else x).e.ring == g &&
      (if x.same c then f x else x).e.tag == tag) = (!x.mirrored && x.e.ring == g && x.e.tag == tag) := by
    split
    · rw [(keeps x).1, (keeps x).2]
    · rfl
  change List.find? _ (List.map _ d.hif.inflight) = _
  rw [List.find?_map]
  simp only [Function.comp_def, named]
  change Option.map _ (d.cmdAt g tag) = _
  rw [found]
  simp [Cmd.same]

theorem interim_cmdAt (d : Dev) (c : Cmd) (g tag : Nat) : (d.interim c).cmdAt g tag = d.cmdAt g tag := by
  unfold Dev.interim
  dsimp only
  repeat' split
  all_goals rfl

theorem Only.interim (d : Dev) (c : Cmd) : Only [.out, .cnt, .hif] d (d.interim c) := by
  simp [Dev.interim, (Only.hifM _ _).iff, (Only.writeEntryIn _ _ _).iff, (Only.count _ _ _).iff, Only.ite_iff, Only.refl]

theorem long_advances (dt g tag pos : Nat) (c : Cmd) (s : State) (u : Serving s) (found : s.dev.cmdAt g tag = some c) (op : c.op = 0x0B03)
    (runs : c.stage = .long) (free : c.held = false) (granted : s.dev.bgPaused = false) : Does (.longOpInterim dt g tag pos) s [] fun x =>
      x.cmdAt g tag = some { c with pos := max c.pos (min pos c.total) } := by
  let moved := (s.dev.elapse dt).cmdM c fun c' => { c' with pos := max c.pos (min pos c.total) }
  have moves : (s.dev.elapse dt).advance c pos = moved := by simp [Dev.advance, op, moved]
  have stands : moved.cmdAt g tag = some { c with pos := max c.pos (min pos c.total) } :=
    cmdAt_cmdM (by rw [cmdAt_elapse]; exact found) fun _ => ⟨rfl, rfl⟩
  have unpaused : (s.dev.elapse dt).bgPaused = false := by simpa [Dev.bgPaused] using granted
  refine Does.upTo (x := moved.interim { c with pos := max c.pos (min pos c.total) }) (exec_longOpInterim dt g tag pos s) u ?_ ?_ ?_
  · simp [found, runs, free, unpaused, moves, stands]
  · exact ((Only.cmdM _ _ _).mono (by decide)).trans ((Only.interim _ _).mono (by decide))
  · rw [settle_cmdAt, interim_cmdAt]
    exact stands

/-! ### The automatic snapshot (15 R486, R488) -/

/-- After a flip the frozen bank holds what the live one did, under the number of its bell. -/
theorem flip_banks (d : Dev) (seq cause : Nat) : (d.flip seq cause).cnt.snapSeq = seq ∧ (d.flip seq cause).cnt.flippedFor = seq ∧
    (d.flip seq cause).cnt.frozen = d.cnt.live := by
  let noted := d.cntM fun c => { c with frozen := c.live, frozenMarks := c.liveMarks, liveMarks := [], snapSeq := seq, flippedFor := seq }
  have peaks : Told noted noted.restartPeaks := Told.each _ (fun _ x => Told.when (Told.setLive x _ _)) noted
  have told : Told noted (d.flip seq cause) := peaks.trans (Told.post _ _ _)
  exact ⟨told.counts Cnt.snapSeq, told.counts Cnt.flippedFor, told.counts Cnt.frozen⟩

/-- What belongs to the next bell leaves the bell block as it was, where it leaves the block alone itself. -/
theorem Only.inNextBell_id (d : Dev) : Only [.out, .cnt, .hif] d (d.inNextBell id) := by
  unfold Dev.inNextBell
  dsimp only
  split
  · exact Only.refl _ d
  · have flips := Only.flipAt (d.belM fun b => { b with seq := b.seq + 1 }) (d.bel.seq + 1)
    intro a other
    by_cases bell : a = .bel
    · subst bell
      exact congrArg (fun b : Bel => { b with seq := b.seq - 1 }) (flips.bel (by decide))
    · refine ((Only.belM d _).mono (m := [.bel, .out, .cnt, .hif]) (by decide)).trans
        ((flips.mono (by decide)).trans ((Only.belM _ _).mono (by decide))) a ?_
      simpa [bell] using other

theorem snapshot_automatic (dt : Nat) (s : State) (u : Serving s) (due : s.dev.autoFlip (s.dev.bel.seq + 1) = true)
    (reached : s.dev.bel.nextAt ≤ s.dev.now + dt) (first : s.dev.cnt.flippedFor ≠ s.dev.bel.seq + 1) : Does (.autoSnapshot dt) s [] fun x =>
      x.cnt.snapSeq = s.dev.bel.seq + 1 ∧ x.cnt.flippedFor = s.dev.bel.seq + 1 ∧ x.cnt.frozen = (s.dev.elapse dt).cnt.live := by
  have passed := Told.elapse s.dev dt
  have due' : (s.dev.elapse dt).autoFlip (s.dev.bel.seq + 1) = true := by
    rw [Dev.autoFlip, passed.counts Cnt.autoBells]
    exact due
  have first' : (s.dev.elapse dt).cnt.flippedFor ≠ s.dev.bel.seq + 1 := by rw [passed.counts Cnt.flippedFor]; exact first
  let belled := (s.dev.elapse dt).belM fun b => { b with seq := b.seq + 1 }
  have flips : belled.flipAt (s.dev.bel.seq + 1) = belled.flip (s.dev.bel.seq + 1) (belled.flipCause (s.dev.bel.seq + 1)) := by
    refine if_neg (not_or.2 ⟨?_, first'⟩)
    have cause : belled.autoFlip (s.dev.bel.seq + 1) = true := due'
    simp [Dev.flipCause, cause, b2n]
  have banks := flip_banks belled (s.dev.bel.seq + 1) (belled.flipCause (s.dev.bel.seq + 1))
  rw [← flips] at banks
  have turned : ((s.dev.elapse dt).inNextBell id).cnt = (belled.flipAt (s.dev.bel.seq + 1)).cnt := by
    unfold Dev.inNextBell
    rw [if_neg (by simpa using reached)]
    simp [belled]
  refine Does.upTo (x := (s.dev.elapse dt).inNextBell id) (exec_autoSnapshot dt s) u ?_ ((Only.inNextBell_id _).mono (by decide)) ?_
  · exact if_pos (by rw [Dev.elapse_bel]; exact due')
  · have settled := Told.settle ((s.dev.elapse dt).inNextBell id)
    rw [settled.counts Cnt.snapSeq, settled.counts Cnt.flippedFor, settled.counts Cnt.frozen, turned]
    exact banks

/-- Settles O42: each row takes the one branch that its hypotheses leave; a flip is not undone by the peaks and the event that follow it. -/
theorem commandRows : Obligations.CommandRows := by
  unfold Obligations.CommandRows
  exact ⟨command_fetched, snapshot_accepted, barrier_released, long_advances, snapshot_automatic⟩

end Sys2Proof

namespace Sys2Proof

open Sys2Proof.Machine

/-! ## Descriptors of frames from the host (12 R411, R422 to R425) -/

theorem exec_txDescriptorFetch (dt r : Nat) (raw bytes : List Byte) (s : State) :
    exec (.txDescriptorFetch dt r raw bytes) s = execTxDescriptorFetch dt r raw bytes s := rfl
theorem exec_txDispatch (dt r : Nat) (s : State) : exec (.txDispatch dt r) s = s.arrive dt (.tx r) := rfl

/-! ### Time changes nothing that a fetch looks at -/

theorem mayFetchTx_elapse (d : Dev) (dt r : Nat) : (d.elapse dt).mayFetchTx r = d.mayFetchTx r := by
  simp only [Dev.mayFetchTx, Dev.ring_elapse, bindRoom_elapse, Dev.elapse_hif]

theorem descOf_elapse (d : Dev) (dt r : Nat) (raw bytes : List Byte) : (d.elapse dt).descOf r raw bytes = d.descOf r raw bytes := by
  simp [Dev.descOf, Dev.clampLane]

theorem flushedEntry_elapse (d : Dev) (dt : Nat) (t : TxDesc) : (d.elapse dt).flushedEntry t = d.flushedEntry t := by
  simp [Dev.flushedEntry]

theorem xoffNow_elapse (d : Dev) (dt point cls : Nat) : (d.elapse dt).xoffNow point cls = d.xoffNow point cls := by
  simp [Dev.xoffNow, Dev.acct, Dev.govXoff, Dev.quad]

/-! ### Fetch (12 R411, R422) -/

/-- The device index of a TX ring passes one entry. -/
def entryPassed (d : Dev) (r : Nat) : Dev := (d.ringM (64 + r) Ring.passEntry).count (cRing (64 + r) 2) 1

/-- A descriptor fetched: the device index passes its entry, and the descriptor is the last of those read. -/
def descTaken (d : Dev) (r : Nat) (t : TxDesc) : Dev := (entryPassed d r).hifM fun h => { h with tx := h.tx ++ [t] }

theorem ring_entryPassed (d : Dev) (r : Nat) : (entryPassed d r).ring (64 + r) = (d.ring (64 + r)).passEntry :=
  (Dev.ring_ringM d (64 + r) (64 + r) Ring.passEntry).trans (if_pos rfl)

/-- Outside PAIRED no record of a fetch is kept for the buddy. -/
theorem fetchRecord_single {d : Dev} (single : d.bdy.state ≠ .paired) (r : Nat) : d.fetchRecord r = d := if_neg (by simpa using single)

theorem descriptor_fetched (dt r : Nat) (raw bytes : List Byte) (s : State) (u : Serving s) (may : s.dev.mayFetchTx r = true)
    (single : s.dev.bdy.state ≠ .paired) (sound : s.dev.descBad (s.dev.descOf r raw bytes) = false)
    (unflushed : s.dev.flushedEntry (s.dev.descOf r raw bytes) = false)
    (on : s.dev.xoffNow (ptTx r) (s.dev.descOf r raw bytes).cls = false) : Does (.txDescriptorFetch dt r raw bytes) s [] fun x =>
      x.hif.tx = s.dev.hif.tx ++ [s.dev.descOf r raw bytes] ∧
        (x.ring (64 + r)).devIdx = ((s.dev.ring (64 + r)).devIdx + 1) % (2 * (s.dev.ring (64 + r)).n) := by
  generalize desc : s.dev.descOf r raw bytes = t at *
  refine Does.upTo (x := descTaken (s.dev.elapse dt) r t) (exec_txDescriptorFetch dt r raw bytes s) u ?_ ?_ ?_
  · have passed : (entryPassed (s.dev.elapse dt) r).fetchRecord r = entryPassed (s.dev.elapse dt) r :=
      fetchRecord_single (by change (s.dev.elapse dt).bdy.state ≠ _; rw [Dev.elapse_bdy]; exact single) r
    have sound' : (s.dev.elapse dt).descBad t = false := by simpa [Dev.descBad] using sound
    dsimp only
    rw [if_pos (by rw [mayFetchTx_elapse]; exact may), descOf_elapse, desc, if_neg (by rw [xoffNow_elapse, on]; decide), flushedEntry_elapse,
      unflushed]
    change (if ((entryPassed (s.dev.elapse dt) r).fetchRecord r).descBad t = true then _ else _) = _
    rw [passed]
    have read := congrArg (fun y : Dev => y.hifM fun h => { h with tx := h.tx ++ [t] }) passed
    exact (if_neg (ne_true_of_eq_false sound')).trans ((if_neg Bool.false_ne_true).trans read)
  · exact ((Only.ringM _ _ _).mono (by decide)).trans (((Only.count _ _ _).mono (by decide)).trans ((Only.hifM _ _).mono (by decide)))
  · constructor
    · rw [Dev.settle_hif, ← Dev.elapse_hif s.dev dt]
      rfl
    · rw [Dev.ring_settle]
      change ((entryPassed (s.dev.elapse dt) r).ring (64 + r)).devIdx = _
      rw [ring_entryPassed, Dev.ring_elapse]
      rfl

/-! ### Descriptors that wait for their dispatch stand (12 R425) -/

/-- The descriptors read and not yet dispatched are as they were. -/
def ReadStands (d x : Dev) : Prop := x.hif.tx.filter (fun t => t.stage == .read) = d.hif.tx.filter fun t => t.stage == .read

namespace ReadStands

variable {d x y : Dev}

theorem refl (d : Dev) : ReadStands d d := rfl

theorem trans (h : ReadStands d x) (k : ReadStands x y) : ReadStands d y := Eq.trans k h

theorem of_tx (h : x.hif.tx = d.hif.tx) : ReadStands d x := by rw [ReadStands, h]

theorem of_only {l : List Area} (h : Only l d x) (k : Area.hif ∉ l) : ReadStands d x := of_tx (by rw [h.hif k])

theorem of_told (h : Told d x) : ReadStands d x := of_tx (h.reads Hif.tx)

theorem when {c : Bool} {f : Dev → Dev} (h : ReadStands d (f d)) : ReadStands d (d.when c f) := by
  cases c
  · exact refl d
  · exact h

theorem either {c : Prop} [Decidable c] (h : ReadStands d x) (k : ReadStands d y) : ReadStands d (if c then x else y) := by
  split
  · exact h
  · exact k

/-- What one case goes on to do leaves them standing, and the other case does nothing. -/
theorem thenIf {c : Prop} [Decidable c] (h : ReadStands d x) (k : ReadStands x y) : ReadStands d (if c then y else x) :=
  either (h.trans k) h

theorem each {α : Type} (xs : List α) {f : α → Dev → Dev} (h : ∀ a x, ReadStands x (f a x)) (d : Dev) : ReadStands d (d.each xs f) := by
  induction xs generalizing d with
  | nil => exact refl d
  | cons a as ih => exact (h a d).trans (ih (f a d))

theorem txRead (h : ReadStands d x) (r : Nat) : x.txRead r = d.txRead r := by
  unfold Dev.txRead
  rw [← List.filter_filter, ← List.filter_filter, h]

theorem deliver (d : Dev) (k : Nat) (c : Compl) : ReadStands d (d.deliver k c) := by
  unfold Dev.deliver
  dsimp only
  repeat' split
  · exact of_tx rfl
  · exact of_told (Told.writeEntry d _ _)
  · exact of_tx rfl

theorem complete (d : Dev) (k : Nat) (c : Compl) : ReadStands d (d.complete k c) := by
  unfold Dev.complete
  dsimp only
  split
  · exact of_tx rfl
  · exact deliver d k _

/-- A frame whose last copy has gone ends a descriptor that was dispatched. -/
theorem txEnded (d : Dev) (fr : Frame) : ReadStands d (d.txEnded fr) := by
  have ended (x : Dev) (r i : Nat) :
      ReadStands x (x.hifM fun h => { h with tx := h.tx.filter fun t => !(t.ring == r && t.index == i && t.stage == .dispatched) }) := by
    change List.filter _ (List.filter _ x.hif.tx) = _
    rw [List.filter_filter]
    refine List.filter_congr fun t _ => ?_
    cases t.stage <;> simp
  have reported (fate : Option Nat) (l : Nat → List Nat) : ReadStands d
      (match fate with | some k => d.emit (.buddyMsg bmFate (l k)) | none => d) := by
    cases fate <;> exact of_tx rfl
  unfold Dev.txEnded
  dsimp only
  split
  · exact reported _ _
  · exact ((reported _ _).trans (ended _ _ _)).trans (complete _ _ _)

theorem settleFrame (d : Dev) (f : Nat) : ReadStands d (d.settleFrame f) := by
  have charged : ReadStands d (d.chargeMirrors f) := of_only (Only.chargeMirrors d f) (by decide)
  refine thenIf (thenIf (thenIf charged ?_) ?_) (of_tx rfl)
  · exact (of_only (Only.frameM _ _ _) (by decide)).trans (of_only (Only.uncharge _ _ _ _ _) (by decide))
  · exact (of_only (Only.frameM _ _ _) (by decide)).trans (txEnded _ _)

theorem endWait (d : Dev) (f : Nat) : ReadStands d (d.endWait f) := (of_only (Only.frameM _ _ _) (by decide)).trans (settleFrame _ f)

theorem flushCopy (d : Dev) (q : Nat) (c : Copy) : ReadStands d (d.flushCopy q c) := by
  have dropped (y : Dev) : ReadStands y (y.dropCopy c false) := (of_only (Only.frameM _ _ _) (by decide)).trans (settleFrame _ _)
  exact (of_told (((Told.count d _ _).trans (Told.count _ _ _)).trans (Told.count _ _ _))).trans (dropped _)

theorem spillLimit (d : Dev) : ReadStands d d.spillLimit := by
  have told (b : Bool) (ev : Nat) (items : List Item) : ReadStands d ((d.bufM fun y => { y with spillStopped := b }).post ev items) :=
    (of_only (Only.bufM d _) (by decide)).trans (of_told (Told.post _ ev items))
  unfold Dev.spillLimit
  repeat' split
  · exact told _ _ _
  · exact refl d
  · exact told _ _ _
  · exact refl d

theorem writePages (n q : Nat) (d : Dev) : ReadStands d (Dev.writePages n q d) := by
  induction n generalizing d with
  | zero => exact refl d
  | succ n ih =>
    unfold Dev.writePages
    dsimp only
    split
    · exact refl d
    · refine trans ?_ (ih _)
      refine trans (of_only (l := [.free, .cnt, .buf, .drc]) ?_ (by decide)) (spillLimit _)
      simp [(Only.count _ _ _).iff, (Only.drcM _ _).iff, (Only.askPage _ _ _ _ _ _).iff, (Only.tailWords _ _).iff, (Only.queueM _ _ _).iff,
        (Only.allocPage _ _).iff, Only.refl]

theorem spillStep (d : Dev) (q : Nat) : ReadStands d (d.spillStep q) := by
  have looked (y : Dev) : ReadStands y ((y.spillState q).askRecall q) :=
    (of_only (Only.spillState _ _) (by decide)).trans (of_only (Only.askRecall _ _) (by decide))
  have twice : ReadStands d ((d.spillState q).spillState q) :=
    (of_only (Only.spillState _ _) (by decide)).trans (of_only (Only.spillState _ _) (by decide))
  unfold Dev.spillStep
  split
  · exact refl d
  · refine trans ?_ ((looked _).trans (spillLimit _))
    split
    · exact (twice.trans (looked _)).trans (writePages _ _ _)
    · exact twice.trans (looked _)

theorem join (d : Dev) (n cls : Nat) (c : Copy) : ReadStands d (d.join n cls c) := by
  unfold Dev.join
  dsimp only
  split
  · refine of_only (l := [.out, .cnt, .mac, .buf, .bdy]) ?_ (by decide)
    simp [(Only.wake _ _).iff, (Only.xoffScan _).iff, (Only.bufM _ _).iff, Only.when_iff, Only.refl]
  · split
    · refine of_only (l := [.cnt, .buf]) ?_ (by decide)
      simp [(Only.queueM _ _ _).iff, (Only.count _ _ _).iff, Only.when_iff, Only.refl]
    · split
      · refine trans (of_only (l := [.cnt, .buf]) ?_ (by decide)) (spillStep _ _)
        simp [(Only.wake _ _).iff, (Only.queueM _ _ _).iff, Only.when_iff, Only.refl]
      · exact (of_only (Only.queueM _ _ _) (by decide)).trans (spillStep _ _)

theorem enqueue (d : Dev) (n cls : Nat) (c : Copy) : ReadStands d (d.enqueue n cls c) := by
  unfold Dev.enqueue
  split
  · exact join d n cls c
  · exact flushCopy d _ c

theorem rxWrite (d : Dev) (r : Nat) (x : RxInfo) (data : List Byte) : ReadStands d (d.rxWrite r x data) := by
  have pieces := Told.each (d.rxPlan r data).zipIdx (f := fun p y =>
    (y.emit (.data ((d.ring (128 + r)).bufAddr p.1.1) p.1.2)).writeEntry (128 + r)
      (rxEntry x p.1.2.length (p.2 == 0) (p.2 == (d.rxPlan r data).length - 1) y.bell24))
    (fun _ y => (Told.emit y _).trans (Told.writeEntry _ _ _)) d
  exact of_told (pieces.trans ((Told.count _ _ _).trans (Told.count _ _ _)))

theorem writeMirror (d : Dev) (m : MirrorOut) (sof : Nat) (bad : Bool) : ReadStands d (d.writeMirror m sof bad) := by
  have lost (y : Dev) (s : Nat) : ReadStands y (y.discardMirror s) := of_only (Only.discardMirror y s) (by decide)
  have counted (y : Dev) (k : Nat) : ReadStands y (y.count k 1) := of_told (Told.count y k 1)
  have changed (y : Dev) (r : Nat) (f : Region → Region) : ReadStands y (y.regionM r f) := of_only (Only.regionM y r f) (by decide)
  unfold Dev.writeMirror
  refine trans (of_only (Only.fcsBytes d m.data bad) (by decide)) (either (either ?_ (lost _ _)) (either (either ?_ ?_) (refl _)))
  · exact (rxWrite _ _ _ _).trans (counted _ _)
  · exact (((changed _ _ _).trans (of_only (Only.appendRec _ _ _ _) (by decide))).trans (counted _ _)).trans (counted _ _)
  · exact (changed _ _ _).trans (lost _ _)

theorem mirrorToPort (d : Dev) (s : Nat) (x : Mirror) (f : Nat) (data : List Byte) : ReadStands d (d.mirrorToPort s x f data) := by
  have marked (y : Dev) (g : Frame → Frame) : ReadStands y ((y.frameM f g).settleFrame f) :=
    (of_only (Only.frameM y f g) (by decide)).trans (settleFrame _ f)
  unfold Dev.mirrorToPort
  refine either (of_only (Only.discardMirror _ _) (by decide)) (trans ?_ (of_told (Told.count _ _ _)))
  exact ((of_only (Only.mirrorM _ _ _) (by decide)).trans (marked _ _)).trans (of_only (Only.schPortM _ _ _) (by decide))

theorem mirrorFrame (d : Dev) (s : Nat) (set : Mirror) (f port : Nat) (egress : Bool) (cls : Nat) (data : List Byte) (rx : Option Nat) :
    ReadStands d (d.mirrorFrame s set f port egress cls data rx) := by
  unfold Dev.mirrorFrame
  dsimp only
  refine trans (of_only (Only.sampled d s set.sample) (by decide)) ?_
  repeat' split
  · exact refl _
  · exact mirrorToPort _ _ _ _ _
  · exact of_tx rfl
  · exact writeMirror _ _ _ _

theorem queueCopy (d : Dev) (n cls f period : Nat) (data : List Byte) (cut : Bool) (egr : Option (Nat × Mirror)) (rx : Option Nat) :
    ReadStands d (d.queueCopy n cls f period data cut egr rx) := by
  cases egr with
  | none => exact enqueue d _ _ _
  | some _ => exact (enqueue d _ _ _).trans (when (mirrorFrame _ _ _ _ _ _ _ _ _))

/-- The copies of a frame that none goes to the buddy of. -/
theorem fan (d : Dev) (f : Nat) (o : Origin) (cls : Nat) (data bdata : List Byte) (ports : List Nat) (egr : AMap (Nat × Mirror))
    (stream : Option Nat) : ReadStands d (d.fan f o cls data bdata ports egr none stream) := by
  have queued (y : Dev) : ReadStands y (y.each ports fun p x => x.queueCopy p cls f o.period data o.cut (AMap.find? egr p) o.rx) :=
    each _ (fun p x => queueCopy x _ _ _ _ _ _ _ _) y
  exact ((of_only (Only.frameM d f _) (by decide)).trans (queued _)).trans (endWait _ f)

theorem takeCells (d : Dev) (point cls n : Nat) : ReadStands d (d.takeCells point cls n).1 := by
  unfold Dev.takeCells
  split
  next src failed step4 _ =>
    have posted (y : Dev) : ReadStands y (y.when step4 fun y =>
        (if (y.count (cAcct point cls 1) 1).buf.hdrmPosted then (y.count (cAcct point cls 1) 1).occur 0x0B03 [.index point, .index cls]
          else (y.count (cAcct point cls 1) 1).post 0x0B03 [.index point, .index cls]).bufM fun b => { b with hdrmPosted := true }) := by
      refine when ?_
      split
      · exact (of_told ((Told.count y _ _).trans (Told.occur _ _ _))).trans (of_tx rfl)
      · exact (of_told ((Told.count y _ _).trans (Told.post _ _ _))).trans (of_tx rfl)
    have stopped : ReadStands d (d.when (failed && !(d.acct point cls).xoff) fun d => d.setXoff point cls true) :=
      when (of_only (Only.setXoff _ _ _ _) (by decide))
    dsimp only
    split
    · exact (stopped.trans (posted _)).trans (of_tx rfl)
    · exact stopped.trans (posted _)

theorem admitFor (d : Dev) (point cls n len : Nat) : ReadStands d (d.admitFor point cls n len).1 := by
  have governed (y : Dev) : ReadStands y (y.govCount cls len) := of_only (Only.govCount y cls len) (by decide)
  have charged (y : Dev) (f : Account → Account) : ReadStands y (y.acctM point cls f) := of_only (Only.acctM y _ _ f) (by decide)
  have taken (c : Bool) : ReadStands d
      (if c then (d.acctM point cls fun a => a.charge .headroom n, some .headroom) else d.takeCells point cls n : Dev × Option CellSource).1 := by
    cases c
    · exact takeCells d _ _ _
    · exact charged d _
  unfold Dev.admitFor
  dsimp only
  split
  · exact (taken _).trans (governed _)
  · split
    · exact ((taken _).trans (charged _ _)).trans (governed _)
    · exact taken _

theorem noCell (d : Dev) (point cls : Nat) : ReadStands d (d.noCell point cls) := by
  have posted (y : Dev) (b : Bool) (ev : Nat) (items : List Item) : Told y (y.postOnce b ev items) := by
    unfold Dev.postOnce
    split
    · exact Told.occur _ _ _
    · exact Told.post _ _ _
  exact (of_told (((Told.count d _ _).trans (Told.count _ _ _)).trans (posted _ _ _ _))).trans (of_tx rfl)

theorem takeFrame (d : Dev) (o : Origin) (cls len : Nat) (data : List Byte) : ReadStands d (d.takeFrame o cls len data).2 := by
  have admitted := admitFor d o.point cls (cellsOf len) len
  unfold Dev.takeFrame
  split
  next e =>
    rw [e] at admitted
    exact admitted.trans (noCell _ _ _)
  next e =>
    rw [e] at admitted
    exact admitted.trans (of_tx rfl)

theorem place (d : Dev) (o : Origin) (cls : Nat) (data bdata : List Byte) (ports : List Nat) (stream : Option Nat) :
    ReadStands d (d.place o cls data bdata ports none stream).2 := by
  have taken := takeFrame d o cls (data.length + 4) data
  unfold Dev.place
  split
  next e =>
    rw [e] at taken
    exact trans taken (fan _ _ _ _ _ bdata _ _ stream)
  next e =>
    rw [e] at taken
    exact taken

end ReadStands

end Sys2Proof

namespace Sys2Proof

open Sys2Proof.Machine

/-! ### Dispatch (12 R425) -/

theorem txHalted_atArrival (d : Dev) (dt : Nat) (t : TxDesc) : (d.elapse dt).settle.txHalted t = d.txHalted t := by
  simp [Dev.txHalted, Dev.xoffNow, Dev.acct, Dev.govXoff, Dev.quad, port_atArrival]

theorem nearFree_atArrival (d : Dev) (dt : Nat) : (d.elapse dt).settle.nearFree = d.nearFree := by
  simp [Dev.nearFree, Dev.nearReserved, Dev.sharedUsed]

theorem sourceFor_atArrival (d : Dev) (dt point cls n : Nat) : (d.elapse dt).settle.sourceFor point cls n = d.sourceFor point cls n := by
  have account : (d.elapse dt).settle.acct point cls = d.acct point cls := by simp [Dev.acct]
  unfold Dev.sourceFor Dev.limitOf
  rw [account, nearFree_atArrival]

theorem txRead_atArrival (d : Dev) (dt r : Nat) : (d.elapse dt).settle.txRead r = d.txRead r := by simp [Dev.txRead]

/-- Of a ring's descriptors that wait, the first is marked. -/
theorem read_markDispatched (r : Nat) (l : List TxDesc) : (markDispatched r l).filter (fun t => t.ring == r && t.stage == .read) =
    (l.filter fun t => t.ring == r && t.stage == .read).tail := by
  induction l with
  | nil => rfl
  | cons t l ih =>
    by_cases waits : t.ring = r ∧ t.stage = .read
    · simp [markDispatched, waits]
    · have other : (t.ring == r && t.stage == .read) = false := by simpa using waits
      rw [markDispatched, if_neg waits, List.filter_cons_of_neg (by rw [other]; decide), ih, List.filter_cons_of_neg (by rw [other]; decide)]

/-- The oldest descriptor of a ring leaves those that wait, and its frame is counted. -/
def headTaken (d : Dev) (r : Nat) (t : TxDesc) : Dev :=
  ((d.hifM fun h => { h with tx := markDispatched r h.tx }).count (cRing (64 + r) 3) 1).count (cRing (64 + r) 4) t.data.length

theorem txRead_headTaken (d : Dev) (r : Nat) (t : TxDesc) : (headTaken d r t).txRead r = (d.txRead r).tail := read_markDispatched r d.hif.tx

/-- Where the frame of a descriptor comes from. -/
def hostOrigin (d : Dev) (t : TxDesc) : Origin where
  point := ptTx t.ring
  ingress := t.port
  sof := d.now
  tx := some (t.ring, t.index, t.cookie)
  ts := t.ts
  onestep := t.onestep
  period := d.bel.seq

/-- In port mode the frame of the oldest descriptor goes to its port alone (12 R423). -/
theorem txDispatch_port {d : Dev} {r : Nat} {t : TxDesc} (oldest : (d.txRead r).head? = some t) (free : d.txHalted t = false)
    (cells : (d.sourceFor (ptTx r) t.cls (cellsOf (t.data.length + 4))).1.isSome = true) (mode : t.mode = 0) (port : t.module = false) :
    d.txDispatch r = ((headTaken d r t).place (hostOrigin d t) t.cls t.data t.data [t.port] none none).2 := by
  unfold Dev.txDispatch
  rw [oldest]
  dsimp only
  rw [if_neg (by rw [free]; decide), if_neg (by rw [Option.isNone_iff_eq_none]; exact Option.isSome_iff_ne_none.1 cells),
    if_neg (by rw [mode]; decide), if_neg (by rw [port]; decide)]
  rfl

theorem Only.place (d : Dev) (o : Origin) (cls : Nat) (data bdata : List Byte) (ports : List Nat) (buddy : Option (Nat × Bool))
    (stream : Option Nat) :
    Only [.free, .out, .cnt, .hif, .mac, .fwd, .buf, .sch, .drc, .bdy, .gov] d (d.place o cls data bdata ports buddy stream).2 := by
  have stored := Only.takeFrame d o cls (data.length + 4) data
  unfold Dev.place
  split
  next e =>
    rw [e] at stored
    exact (stored.mono (by decide)).trans ((Only.fan _ _ o cls data bdata ports _ buddy stream).mono (by decide))
  next e =>
    rw [e] at stored
    exact stored.mono (by decide)

/-- The row of an arrival brings the device that deciding it leaves, once that has settled. -/
theorem decides_settled {i : Instr} {s : State} {as l : List Area} {P : Dev → Prop} {dt : Nat} {a : Arrival} (x : exec i s = s.arrive dt a)
    (u : Serving s) (o : Only l (s.dev.elapse dt).settle ((s.dev.elapse dt).settle.decideOne a)) (k : l ⊆ .time :: tells ++ as)
    (n : Area.arr ∉ l) (p : P ((s.dev.elapse dt).settle.decideOne a).settle) : Decides i s as P := by
  have q : (s.dev.elapse dt).settle.arrivals = [] := by simpa using u.2
  have up : (s.dev.elapse dt).settle.inService = true := by simpa [Dev.inService] using u.1
  have decided : ({ (s.dev.elapse dt).settle with arrivals := [a] } : Dev).decideAll = ((s.dev.elapse dt).settle.decideOne a).settle := by
    rw [decideAll_one q up]
    have none_left : ((s.dev.elapse dt).settle.decideOne a).settle.arrivals = [] := by rw [Dev.settle_arrivals, o.arrivals n, q]
    rw [← none_left]
  have only : Only (.time :: tells ++ as) s.dev ((s.dev.elapse dt).settle.decideOne a).settle :=
    ((Only.atArrival s.dev dt).mono (by simp [tells])).trans ((o.mono k).trans ((Only.settle _).mono (by simp [tells])))
  exact ⟨_, x.trans (arrive_quiet u.2 dt a), rfl, by simp, decided ▸ only, decided ▸ p⟩

theorem oldest_dispatched (dt r : Nat) (t : TxDesc) (s : State) (u : Serving s) (oldest : (s.dev.txRead r).head? = some t)
    (free : s.dev.txHalted t = false) (cells : (s.dev.sourceFor (ptTx r) t.cls (cellsOf (t.data.length + 4))).1.isSome = true)
    (mode : t.mode = 0) (port : t.module = false) : Decides (.txDispatch dt r) s (.gov :: wayOfFrames) fun x =>
      x.txRead r = (s.dev.txRead r).tail := by
  have sent := txDispatch_port (d := (s.dev.elapse dt).settle) (by rw [txRead_atArrival]; exact oldest)
    (by rw [txHalted_atArrival]; exact free) (by rw [sourceFor_atArrival]; exact cells) mode port
  have taking (d : Dev) : Only [.hif, .cnt] d (headTaken d r t) := by
    simp [headTaken, (Only.count _ _ _).iff, (Only.hifM _ _).iff, Only.refl]
  refine decides_settled (a := .tx r) (l := [.free, .out, .cnt, .hif, .mac, .fwd, .buf, .sch, .drc, .bdy, .gov]) (exec_txDispatch dt r s) u ?_
    (by decide) (by decide) ?_
  · change Only _ _ (Dev.txDispatch _ r)
    rw [sent]
    exact ((taking _).mono (by decide)).trans (Only.place _ _ _ _ _ _ _ _)
  · change (Dev.txDispatch _ r).settle.txRead r = _
    rw [sent]
    have stands := (ReadStands.place (headTaken (s.dev.elapse dt).settle r t) (hostOrigin (s.dev.elapse dt).settle t) t.cls t.data t.data
      [t.port] none).txRead r
    rw [txRead_headTaken, txRead_atArrival] at stands
    rw [← stands]
    exact (ReadStands.of_told (Told.settle _)).txRead r

end Sys2Proof

namespace Sys2Proof

open Sys2Proof.Machine

/-! ## Function-level resets, the ledger and the link (12 R433 to R437) -/

theorem exec_flr (dt : Nat) (s : State) : exec (.flr dt) s = execFlr dt s := rfl
theorem exec_d3hotEntry (dt : Nat) (s : State) : exec (.d3hotEntry dt) s = execD3hotEntry dt s := rfl
theorem exec_flrDone (dt : Nat) (s : State) : exec (.flrDone dt) s = execFlrDone dt s := rfl
theorem exec_ledgerWrite (dt : Nat) (s : State) : exec (.ledgerWrite dt) s = execLedgerWrite dt s := rfl
theorem exec_pcieLinkChanged (dt gen width : Nat) (s : State) : exec (.pcieLinkChanged dt gen width) s = execPcieLinkChanged dt gen width s := rfl

/-! ### The host interface restarts (12 R433, R434) -/

/-- The host interface as a reset leaves it: no ring is set up, and what was owed stands in the ledger. -/
def restarted (d : Dev) : Hif :=
  { d.hif with
    rings := [], ledgerRing := 0, msixTable := [], msixPending := [], flr := true, owed := []
    inflight := d.hif.inflight.map fun c => if c.mirrored then c else { c with cring := 32 }
    tx := (d.hif.tx.filter fun t => t.stage == .dispatched).map fun t => { t with ring := t.ring % 64 + 64 }
    ledger := d.hif.ledger ++ d.hif.owed.map (fun p => { p.2 with ledger := true }) ++ (List.range 64).flatMap d.txLedger }

/-- While no ring is set up an event changes nothing of the host interface. -/
theorem post_hif_of_no_rings {d : Dev} (none_up : d.hif.rings = []) (ev : Nat) (items : List Item) : (d.post ev items).hif = d.hif := by
  have none_takes : d.takers ev = [] := by simp [Dev.takers, Dev.ring, none_up, AMap.getD]
  rw [post_unrouted none_takes, Dev.count_hif, (Only.occur d ev items).hif (by decide)]

theorem each_post_hif {α : Type} (xs : List α) (ev : Nat) (items : α → List Item) {d : Dev} (none_up : d.hif.rings = []) :
    (d.each xs fun a x => x.post ev (items a)).hif = d.hif := by
  induction xs generalizing d with
  | nil => rfl
  | cons a as ih =>
    have posted := post_hif_of_no_rings none_up ev (items a)
    exact (ih (by rw [posted, none_up])).trans posted

theorem restartHif_hif (d : Dev) : d.restartHif.hif = restarted d := each_post_hif _ _ _ rfl

theorem Only.restartHif (d : Dev) : Only [.buf, .bdy, .cnt, .hif, .out] d d.restartHif := by
  simp [Dev.restartHif, (Only.postIn _ _ _).iff, (Only.bdyM _ _).iff, (Only.bufM _ _).iff, (Only.hifM _ _).iff, Only.each_iff, Only.refl]

theorem flrStart_idle {d : Dev} (done : d.hif.inflight.filter flrEnds = []) : d.flrStart = d.restartHif := by
  unfold Dev.flrStart
  rw [done]
  rfl

/-- A reset with no command left to end restarts the host interface. -/
theorem reset_restarts {i : Instr} {dt : Nat} {s : State} {P : Hif → Prop}
    (row : exec i s = s.actUp dt fun d => d.when d.prc.zeroizing.isNone Dev.flrStart) (u : Serving s) (kept : s.dev.prc.zeroizing = none)
    (done : s.dev.hif.inflight.filter flrEnds = []) (p : P (restarted (s.dev.elapse dt))) : Does i s [.buf, .bdy] fun x => P x.hif := by
  refine Does.upTo (x := (s.dev.elapse dt).restartHif) row u ?_ ((Only.restartHif _).mono (by decide)) ?_
  · rw [Dev.elapse_prc, kept, ← flrStart_idle (by rw [Dev.elapse_hif]; exact done)]
    rfl
  · rw [Dev.settle_hif, restartHif_hif]
    exact p

theorem reset_owes (dt : Nat) (s : State) (u : Serving s) (kept : s.dev.prc.zeroizing = none) (done : s.dev.hif.inflight.filter flrEnds = []) :
    Does (.flr dt) s [.buf, .bdy] fun x =>
      x.hif.flr = true ∧ x.hif.rings = [] ∧ x.hif.owed = [] ∧ x.hif.msixTable = [] ∧
        ∀ p ∈ s.dev.hif.owed, { p.2 with ledger := true } ∈ x.hif.ledger := by
  refine reset_restarts (P := fun h => h.flr = true ∧ h.rings = [] ∧ h.owed = [] ∧ h.msixTable = [] ∧
    ∀ p ∈ s.dev.hif.owed, { p.2 with ledger := true } ∈ h.ledger) (exec_flr dt s) u kept done ⟨rfl, rfl, rfl, rfl, fun p m => ?_⟩
  refine List.mem_append_left _ (List.mem_append_right _ (List.mem_map.2 ⟨p, ?_, rfl⟩))
  rw [Dev.elapse_hif]
  exact m

theorem d3hot_restarts (dt : Nat) (s : State) (u : Serving s) (kept : s.dev.prc.zeroizing = none)
    (done : s.dev.hif.inflight.filter flrEnds = []) : Does (.d3hotEntry dt) s [.buf, .bdy] fun x =>
      x.hif.flr = true ∧ x.hif.rings = [] ∧ x.hif.owed = [] ∧ ∀ c ∈ x.hif.inflight, c.mirrored = true ∨ c.cring = 32 := by
  refine reset_restarts (P := fun h => h.flr = true ∧ h.rings = [] ∧ h.owed = [] ∧ ∀ c ∈ h.inflight, c.mirrored = true ∨ c.cring = 32)
    (exec_d3hotEntry dt s) u kept done ⟨rfl, rfl, rfl, fun c m => ?_⟩
  obtain ⟨b, -, rfl⟩ := List.mem_map.1 m
  split
  next mirrored => exact .inl mirrored
  next => exact .inr rfl

/-- The reset is over, and the ledger is kept. -/
def resetOver (d : Dev) : Dev := d.hifM fun h => { h with flr := false }

theorem reset_ends (dt : Nat) (s : State) (u : Serving s) (under_way : s.dev.hif.flr = true) : Does (.flrDone dt) s [] fun x =>
    x.hif.flr = false ∧ x.hif.ledger = s.dev.hif.ledger := by
  have told := Told.post (resetOver (s.dev.elapse dt)) 0x0204 [.value (ledgerOrder (s.dev.elapse dt).hif.ledger).length]
  refine Does.upTo (exec_flrDone dt s) u (if_pos (by rw [Dev.elapse_hif]; exact under_way)) ?_ ?_
  · exact ((Only.hifM _ _).mono (by decide)).trans ((Only.post _ _ _).mono (by decide))
  · rw [Dev.settle_hif, ← Dev.elapse_hif s.dev dt]
    exact ⟨told.reads Hif.flr, told.reads Hif.ledger⟩

/-! ### The ledger (12 R435) -/

theorem ledgerOrder_command {c : Compl} (kind : c.kind = 0) (known : c.status ≠ 1) : ledgerOrder [c] = [c] := by
  simp [ledgerOrder, kind, known, insertCompl, mergeRuns]

/-- One entry of the ledger goes to a ring with room. -/
theorem writeLedger_one {d : Dev} {k : Nat} (room : (d.ring (32 + k)).room = true) (c : Compl) :
    d.writeLedger k [c] = (d.writeEntry (32 + k) (c.bytes d.bell24), []) := by
  simp [Dev.writeLedger, room]

/-- The one entry of the ledger is written to completion ring k, and the ledger is empty. -/
def ledgerTold (d : Dev) (k : Nat) (c : Compl) : Dev := (d.writeEntry (32 + k) (c.bytes d.bell24)).hifM fun h => { h with ledger := [] }

theorem ledger_written (dt : Nat) (c : Compl) (s : State) (u : Serving s) (holds : s.dev.hif.ledger = [c]) (command : c.kind = 0 ∧ c.status ≠ 1)
    (runs : (s.dev.ring (32 + s.dev.hif.ledgerRing)).state = .running) (room : (s.dev.ring (32 + s.dev.hif.ledgerRing)).room = true) :
    Does (.ledgerWrite dt) s [] fun x => x.hif.ledger = [] ∧ x.out.length = s.dev.out.length + 1 := by
  obtain ⟨kind, known⟩ := command
  refine Does.upTo (x := ledgerTold (s.dev.elapse dt) s.dev.hif.ledgerRing c) (exec_ledgerWrite dt s) u ?_ ?_ ?_
  · have later : [c].filter (fun c => c.status == 1) = [] := by simp [known]
    dsimp only
    rw [Dev.elapse_hif, holds, Dev.ring_elapse, ledgerOrder_command kind known, writeLedger_one (by rw [Dev.ring_elapse]; exact room), later]
    exact if_pos (by rw [runs]; rfl)
  · exact ((Only.writeEntry _ _ _).mono (by decide)).trans ((Only.hifM _ _).mono (by decide))
  · rw [Dev.settle_hif, Dev.settle_out, ← Dev.elapse_out s.dev dt]
    exact ⟨rfl, rfl⟩

/-! ### The link (12 R436, R437) -/

/-- A row that acts always does what holds of the device that its effect leaves. -/
theorem Does.actTo {i : Instr} {s : State} {as : List Area} {P : Dev → Prop} {dt : Nat} {f : Dev → Dev} {x : Dev}
    (row : exec i s = s.act dt f) (q : Quiet s) (branch : f (s.dev.elapse dt) = x) (o : Only (.time :: tells ++ as) (s.dev.elapse dt) x)
    (p : P x.settle) : Does i s as P := by
  subst branch
  exact Does.act row q o p

/-- The link has trained to a speed and a width. -/
def linkTrained (d : Dev) (gen width : Nat) : Dev := d.hifM fun h => { h with linkGen := gen % 8, linkWidth := width % 32 }

theorem link_kept (dt gen width : Nat) (s : State) (new : (s.dev.hif.linkGen, s.dev.hif.linkWidth) ≠ (gen, width))
    (fit : gen < 8 ∧ width < 32) (q : Quiet s) : Does (.pcieLinkChanged dt gen width) s [] fun x =>
      x.hif.linkGen = gen ∧ x.hif.linkWidth = width := by
  obtain ⟨gen_fits, width_fits⟩ := fit
  have told : Told (linkTrained (s.dev.elapse dt) gen width) ((linkTrained (s.dev.elapse dt) gen width).when (s.dev.elapse dt).inService fun d =>
      d.post 0x0205 [.value gen, .value width]) :=
    Told.when (f := fun d => d.post 0x0205 [.value gen, .value width]) (Told.post _ _ _)
  refine Does.actTo (exec_pcieLinkChanged dt gen width s) q (if_neg (by rw [Dev.elapse_hif]; simpa using new)) ?_ ?_
  · simp [(Only.postIn _ _ _).iff, (Only.hifM _ _).iff, Only.when_iff, Only.refl, tells]
  · rw [Dev.settle_hif]
    exact ⟨(told.reads Hif.linkGen).trans (Nat.mod_eq_of_lt gen_fits), (told.reads Hif.linkWidth).trans (Nat.mod_eq_of_lt width_fits)⟩

/-- Settles O43: a descriptor waits from its fetch until its dispatch takes it, which no copy of an older frame does; and a reset keeps
what it ends in the ledger. -/
theorem hostFramesAndResets : Obligations.HostFramesAndResets := by
  unfold Obligations.HostFramesAndResets
  exact ⟨descriptor_fetched, oldest_dispatched, reset_owes, d3hot_restarts, reset_ends, ledger_written, link_kept⟩

end Sys2Proof

namespace Sys2Proof

open Sys2Proof.Machine

/-! ## What every row has in common (15 R491, R492, 19 R591, R594) -/

/-! ### Rows out of service (19 R588, R594, R597) -/

set_option maxRecDepth 4000 in
/-- A row acts always, or only in service, or brings what is decided with its core-clock cycle. -/
theorem exec_kinds (i : Instr) (s : State) :
    ActsAlways i = true ∨ (∃ dt f, exec i s = s.actUp dt f) ∨ ∃ dt a, exec i s = s.arrive dt a := by
  cases i
  case bell | belCtrlWrite | thermalTrip | govRailLimitWrite | ringCtrlWrite | pcieLinkChanged | registerWrite | loRegisterRead
    | glbResetCtrlWrite | warmReset | firmwareActivation | officerKeyWrite | zeroizeNQualified | zeroizeAttemptDone | powerOn | resetPin
    | railOutOfTolerance | refclkLoss | refclkPcieLoss | clockRestored | perstAssert | watchdogExpiry | firmwareVerified | selftestsDone
    | memoryInitDone | drcTrainingDone | flashSelRelease | coreClockStable | zeroizeNChange => exact .inl rfl
  case frameRxHead | frameRxEnd | buddyFrameRx | txDispatch => exact .inr (.inr ⟨_, _, rfl⟩)
  all_goals exact .inr (.inl ⟨_, _, rfl⟩)

theorem Only.dropArrivals (d : Dev) (as : List Arrival) : Only [.arr] d { d with arrivals := as } := by
  intro a k
  cases a
  case arr => exact absurd (by decide) k
  all_goals rfl

/-- An arrival changes nothing else than what its cycle's decisions and the time before it do. -/
theorem Only.arrived {as : List Area} {d : Dev} (decided : Only as d d.decideAll) (has : [.time, .cnt, .arr] ⊆ as) (dt : Nat) (a : Arrival) :
    Only as d (Dev.arrived dt a d) := by
  have before : Only as d (if d.cycleEnds dt then d.decideAll else d) := Only.ite_iff.2 ⟨fun _ => decided, fun _ => Only.refl _ d⟩
  have passed := before.trans (((Only.atArrival _ dt).mono (by decide : _ ⊆ [Area.time, .cnt, .arr])).mono has)
  exact passed.trans (((Only.dropArrivals _ _).mono (by decide : _ ⊆ [Area.time, .cnt, .arr])).mono has)

/-- Settles O4: a row that does not act always has its effect only in service, and out of service an arrival is not decided. -/
theorem outOfServiceOnlyTimePasses : Obligations.OutOfServiceOnlyTimePasses := by
  intro i s sometimes down
  have undecided : Only [.time, .cnt, .arr] s.dev s.dev.decideAll := (Dev.decideAll_down down).mono (by decide)
  rcases exec_kinds i s with always | ⟨dt, f, row⟩ | ⟨dt, a, row⟩
  · exact absurd always (by simp [sometimes])
  · refine ⟨_, row.trans (actUp_down down dt f), rfl, ?_⟩
    exact undecided.trans ((Only.atArrival _ dt).mono (by decide))
  · exact ⟨_, row, rfl, Only.arrived undecided (List.Subset.refl _) dt a⟩

/-- Settles O2: whatever the row, it answers a state in which the monitors have looked again, with the queue as it was. -/
theorem everyCommandAnswersANextState : Obligations.EveryCommandAnswersANextState := by
  intro i s
  obtain ⟨d, as, answer⟩ := exec_settled i s
  exact ⟨_, answer, rfl⟩

/-! ### Peaks (15 R491, R492) -/

/-- A monitor's turn when the peaks take what a row left behind; d is the module as the row left it. -/
def peakTurn (d : Dev) (p : Nat × Monitor) (x : Dev) : Dev :=
  x.when p.2.live fun x =>
    x.setLive (cMon p.1 1) (p.2.peak (AMap.getD x.cnt.live (cMon p.1 1) 0) (d.occupancy p.2.kind p.2.index))

theorem settle_eq (d : Dev) : d.settle = d.each d.cnt.monitors (peakTurn d) := rfl

/-- A monitor's peak takes in an occupancy: no less than it, or no more for one that watches from below. -/
def Takes (m : Monitor) (peak occ : Nat) : Prop := if m.below then peak ≤ occ else occ ≤ peak

theorem takes_peak (m : Monitor) (old occ : Nat) : Takes m (m.peak old occ) occ := by
  unfold Takes Monitor.peak
  split
  · exact Nat.min_le_right old occ
  · exact Nat.le_max_right old occ

theorem peakTurn_takes (d x : Dev) (p : Nat × Monitor) (live : p.2.live = true) :
    Takes p.2 (AMap.getD (peakTurn d p x).cnt.live (cMon p.1 1) 0) (d.occupancy p.2.kind p.2.index) := by
  have written : AMap.getD (peakTurn d p x).cnt.live (cMon p.1 1) 0 =
      p.2.peak (AMap.getD x.cnt.live (cMon p.1 1) 0) (d.occupancy p.2.kind p.2.index) := by
    simp [peakTurn, Dev.when, live, Dev.setLive]
  rw [written]
  exact takes_peak _ _ _

/-- A monitor's turn leaves the peaks of the others. -/
theorem peakTurn_apart (d x : Dev) (p : Nat × Monitor) {m : Nat} (apart : m ≠ p.1) :
    AMap.getD (peakTurn d p x).cnt.live (cMon m 1) 0 = AMap.getD x.cnt.live (cMon m 1) 0 := by
  have other : cMon m 1 ≠ cMon p.1 1 := cMon_ne apart (by decide) (by decide)
  unfold peakTurn Dev.when
  split
  · simp [Dev.setLive, other]
  · rfl

theorem peakTurns_apart (d : Dev) {ms : AMap Monitor} {m : Nat} (apart : ∀ q ∈ ms, m ≠ q.1) (x : Dev) :
    AMap.getD (x.each ms (peakTurn d)).cnt.live (cMon m 1) 0 = AMap.getD x.cnt.live (cMon m 1) 0 := by
  induction ms generalizing x with
  | nil => rfl
  | cons q ms ih =>
    have rest := ih (fun r hr => apart r (List.mem_cons_of_mem q hr)) (peakTurn d q x)
    exact rest.trans (peakTurn_apart d x q (apart q List.mem_cons_self))

/-- Once every monitor has had its turn, each one's peak takes in what it watches. -/
theorem peakTurns_take (d : Dev) {ms : AMap Monitor} (rising : ms.Pairwise fun a b => a.1 < b.1) {p : Nat × Monitor} (listed : p ∈ ms)
    (live : p.2.live = true) (x : Dev) :
    Takes p.2 (AMap.getD (x.each ms (peakTurn d)).cnt.live (cMon p.1 1) 0) (d.occupancy p.2.kind p.2.index) := by
  induction ms generalizing x with
  | nil => cases listed
  | cons q ms ih =>
    obtain ⟨first, rest⟩ := List.pairwise_cons.1 rising
    rcases List.mem_cons.1 listed with rfl | later
    · have kept := peakTurns_apart d (fun r hr => Nat.ne_of_lt (first r hr)) (peakTurn d p x)
      change Takes p.2 (AMap.getD ((peakTurn d p x).each ms (peakTurn d)).cnt.live (cMon p.1 1) 0) _
      rw [kept]
      exact peakTurn_takes d x p live
    · exact ih rest later (peakTurn d q x)

theorem peakTurns_monitors (d x : Dev) (ms : AMap Monitor) : (x.each ms (peakTurn d)).cnt.monitors = x.cnt.monitors := by
  induction ms generalizing x with
  | nil => rfl
  | cons q ms ih =>
    have turn : (peakTurn d q x).cnt.monitors = x.cnt.monitors := by
      unfold peakTurn Dev.when
      split <;> rfl
    exact (ih (peakTurn d q x)).trans turn

theorem settle_monitors (d : Dev) : d.settle.cnt.monitors = d.cnt.monitors := peakTurns_monitors d d _

theorem peaksHold_settle (d : Dev) (as : List Arrival) : PeaksHold { d.settle with arrivals := as } := by
  intro rising p listed live
  change AMap.rising d.settle.cnt.monitors = true at rising
  change p ∈ d.settle.cnt.monitors at listed
  rw [settle_monitors] at rising listed
  change Takes p.2 (AMap.getD d.settle.cnt.live (cMon p.1 1) 0) (d.settle.occupancy p.2.kind p.2.index)
  rw [Dev.occupancy_settle]
  exact peakTurns_take d ((AMap.rising_iff _).1 rising) listed live d

/-- Settles O5: the monitors look again at the end of every row, and a module that idles is the same. -/
theorem everyStepKeepsThePeaks : Obligations.EveryStepKeepsThePeaks := by
  intro s t held steps
  unfold step at steps
  split at steps
  · cases steps; exact held
  · obtain ⟨d, as, answer⟩ := exec_settled _ _
    rw [answer] at steps
    cases steps
    exact peaksHold_settle d as

/-- Settles O6: at reset no monitor is set up. -/
theorem peaksHoldAtReset : Obligations.PeaksHoldAtReset := by
  intro _ p listed
  exact absurd listed (List.not_mem_nil)

/-! ### Reset values (19 R591) -/

/-- Settles O58: every block is at the values with which it is defined. -/
theorem resetHoldsTheSpecsValues : Obligations.ResetHoldsTheSpecsValues := by
  refine ⟨rfl, rfl, rfl, rfl, rfl, fun _ => rfl, rfl, rfl, rfl, rfl, fun _ => rfl, fun _ => ⟨rfl, rfl⟩, fun _ => rfl, rfl, rfl, rfl, ?_, ?_⟩
  · decide
  · decide

end Sys2Proof

namespace Sys2Proof

open Sys2Proof.Machine

/-! ## The buddy's journal and what the Proctor tells the host (17 R535, 18 R573, R574, R582) -/

/-! ### The journal of PAIRED (17 R535) -/

theorem stepNine_paired {d : Dev} {sp : CmdSpec} (c : Cmd) (paired : d.bdy.state = .paired) (kept : sp.journal = true)
    (allowed : d.pairRefuses sp = false) : d.stepNine sp c = (d.cmdM c fun c => { c with stage := .journalled }).sendJournal c := by
  simp [Dev.stepNine, allowed, paired, kept]

theorem sendJournal_out (d : Dev) (c : Cmd) : (d.sendJournal c).out =
    .buddyMsg bmJournal ([d.bdy.nextSeq, c.op, c.e.ring, c.entry, c.e.tag, c.e.cookie, c.e.body] ++ c.e.extBytes ++ c.e.mem) :: d.out := by
  simp [Dev.sendJournal, Dev.bdyM]

theorem sendJournal_bdy (d : Dev) (c : Cmd) : (d.sendJournal c).bdy = { d.bdy with nextSeq := d.bdy.nextSeq + 1 } := by
  simp [Dev.sendJournal, Dev.bdyM]

theorem sendJournal_hif (d : Dev) (c : Cmd) : (d.sendJournal c).hif = d.hif := rfl

theorem Only.sendJournal (d : Dev) (c : Cmd) : Only [.cnt, .out, .bdy] d (d.sendJournal c) := by
  simp [Dev.sendJournal, (Only.count _ _ _).iff, (Only.emit _ _).iff, (Only.bdyM _ _).iff, Only.refl]

/-- Once a command has been changed, whatever has its ring, its tag and its side is what the change made. -/
theorem cmdM_stage {d : Dev} {c x : Cmd} {st : CmdStage} (listed : x ∈ (d.cmdM c fun c => { c with stage := st }).hif.inflight)
    (ring : x.e.ring = c.e.ring) (tag : x.e.tag = c.e.tag) (side : x.mirrored = c.mirrored) : x.stage = st := by
  obtain ⟨y, -, rfl⟩ := List.mem_map.1 listed
  by_cases named : y.same c = true
  · rw [if_pos named]
  · rw [if_neg named] at ring tag side
    exact absurd (by simp [Cmd.same, ring, tag, side]) named

/-- Settles O57: in PAIRED step 9 marks the command as journalled and sends its record; the list of exceptions is the table's. -/
theorem pairedCommandsAreJournalled : Obligations.PairedCommandsAreJournalled := by
  refine ⟨fun d sp c paired kept allowed => ?_, by decide⟩
  rw [stepNine_paired c paired kept allowed]
  refine ⟨sendJournal_out _ c, sendJournal_bdy _ c, fun x listed ring tag side => ?_, ?_⟩
  · rw [sendJournal_hif] at listed
    exact cmdM_stage listed ring tag side
  · exact ((Only.cmdM d c _).mono (by decide)).trans ((Only.sendJournal _ c).mono (by decide))

/-! ### Replies written to the host (18 R573, R574, R582) -/

theorem deliver_sends {d : Dev} {o : Out} (sent : o ∈ d.out) (k : Nat) (c : Compl) : o ∈ (d.deliver k c).out := by
  unfold Dev.deliver
  dsimp only
  split
  · exact sent
  · split
    · rw [writeEntry_out]; exact List.mem_cons_of_mem _ sent
    · exact sent

theorem complete_sends {d : Dev} {o : Out} (sent : o ∈ d.out) (k : Nat) (c : Compl) : o ∈ (d.complete k c).out := by
  unfold Dev.complete
  dsimp only
  split
  · rw [Dev.count_out, Dev.emit_out]; exact List.mem_cons_of_mem _ sent
  · exact deliver_sends sent _ _

theorem leaving_out (d : Dev) (c : Cmd) (st : Nat) : (leaving d c st).out = d.out := by
  obtain ⟨l, e⟩ := leaving_eq d c st
  rw [e]; unfold Dev.when; split <;> rfl

/-- What was sent before a command ends stands when it has ended. -/
theorem finish_sends {d : Dev} {o : Out} (sent : o ∈ d.out) (c : Cmd) (st r : Nat) : o ∈ (d.finish c st r).out := by
  by_cases side : c.mirrored = true
  · simp only [Dev.finish, side, if_true]
    exact sent
  · simp only [Dev.finish, side]
    exact complete_sends (by change o ∈ (leaving d c st).out; rw [leaving_out]; exact sent) _ _

/-- A read that ends at once: its bytes are written to the host address, and its completion is written. -/
theorem reads {i : Instr} {s : State} {dt : Nat} {sp : CmdSpec} {e : CmdEntry} {as : List Area} {r : Nat} {bytes : List Byte} {P : Dev → Prop}
    {d : Dev} (row : exec i s = s.actUp dt fun d => d.submit sp e) (h : Ready s dt sp e) (tell : CanTell s e.ring) (short : ∀ c, sp.kind c = .short)
    (effect : sp.accept (recordOf s dt sp e) (tookUp s dt sp e) = d.readOut (recordOf s dt sp e) e.addr bytes r)
    (host : HostKept (tookUp s dt sp e) d) (only : Only (.time :: .glb :: tells ++ as) (tookUp s dt sp e) d) (apart : Area.bdy ∉ as)
    (p : ∀ x, Out.data e.addr bytes ∈ x.out → Only (.bdy :: tells) d x → P x) : CompletesAtOnce i sp e s as r P := by
  have sent : Out.data e.addr bytes ∈ ((d.emit (.data e.addr bytes)).finish (recordOf s dt sp e) stOk r).settle.out := by
    rw [Dev.settle_out]
    exact finish_sends (by simp) _ _ _
  have told : Only (.bdy :: tells) d ((d.emit (.data e.addr bytes)).finish (recordOf s dt sp e) stOk r).settle :=
    ((Only.emitIn d _).mono (by decide)).trans ((Only.finish _ _ _ _).trans ((Only.settle _).mono (by decide)))
  refine completes row h tell short effect (host.trans (HostKept.of_hif rfl)) (only.trans ((Only.emit d _).mono ?_)) ?_ (p _ sent told)
  · intro a listed; rw [List.mem_singleton] at listed; subst listed; simp [tells]
  · rw [Dev.emit_bdy, only.bdy (by simp [tells, apart]), h.tookOnly.bdy (by decide)]

theorem exec_prcGetTranscript (dt : Nat) (e : CmdEntry) (s : State) :
    exec (.prcGetTranscript dt e) s = s.actUp dt fun d => d.submit prcGetTranscript e := rfl
theorem exec_prcGetRandom (dt : Nat) (e : CmdEntry) (s : State) : exec (.prcGetRandom dt e) s = s.actUp dt fun d => d.submit prcGetRandom e := rfl
theorem exec_prcExportAudit (dt : Nat) (e : CmdEntry) (s : State) : exec (.prcExportAudit dt e) s = s.actUp dt fun d => d.submit prcExportAudit e := rfl

theorem acceptTranscript_chain {c : Cmd} (chain : c.e.f 16 0 0 = 1) (d : Dev) :
    acceptTranscript c d = d.readOut c c.e.addr (bytesLE 4 Config.certChain.length ++ Config.certChain) (4 + Config.certChain.length) := by
  simp [acceptTranscript, chain]

theorem acceptTranscript_quote {c : Cmd} (quote : c.e.f 16 0 0 = 0) (d : Dev) : acceptTranscript c d =
    (d.fresh.2.count (cDev 315) 1).readOut c c.e.addr (d.transcriptBody (c.e.bytes 32 32) ++ (d.sign (d.transcriptBody (c.e.bytes 32 32))).1)
      (384 + ranApproved) := by
  simp [acceptTranscript, quote, Dev.sign]

/-- The approved generator has been used once more, and its bytes are counted (18 R574). -/
def generated (n : Nat) (d : Dev) : Dev :=
  (d.fresh.2.prcM fun p => { p with generated := if 65536 ≤ p.generated + 1 then 0 else p.generated + 1 }).count (cDev 316) n

theorem Only.generated (n : Nat) (d : Dev) : Only [.free, .cnt, .prc] d (generated n d) := by
  simp [Sys2Proof.generated, (Only.count _ _ _).iff, (Only.prcM _ _).iff, (Only.fresh _).iff, Only.refl]

theorem acceptRandom_approved {c : Cmd} (approved : c.e.b 16 16 = false) (d : Dev) : acceptRandom c d =
    (generated (clamp 1 4096 (c.e.f 16 12 0)) d).readOut c c.e.addr
      ((List.range (clamp 1 4096 (c.e.f 16 12 0))).map fun i => Config.randomFree d.free i % 256) ranApproved := by
  simp [acceptRandom, approved, generated, Dev.fresh]

theorem acceptRandom_noise {c : Cmd} (noise : c.e.b 16 16 = true) (d : Dev) : acceptRandom c d =
    d.fresh.2.readOut c c.e.addr ((List.range (clamp 1 4096 (c.e.f 16 12 0))).map fun i => Config.noiseFree d.free i % 256) 0 := by
  simp [acceptRandom, noise, Dev.fresh]

theorem fresh_free (d : Dev) : d.fresh.2.free = d.free + 1 := rfl

theorem transcript_chain (dt : Nat) (e : CmdEntry) (s : State) (h : Ready s dt prcGetTranscript e) (tell : CanTell s e.ring)
    (chain : e.f 16 0 0 = 1) : CompletesAtOnce (.prcGetTranscript dt e) prcGetTranscript e s [] (4 + Config.certChain.length) fun x =>
      .data e.addr (bytesLE 4 Config.certChain.length ++ Config.certChain) ∈ x.out ∧ x.prc = s.dev.prc :=
  reads (exec_prcGetTranscript dt e s) h tell (fun _ => rfl) (acceptTranscript_chain (c := recordOf s dt prcGetTranscript e) chain _) (HostKept.refl _) (Only.refl _ _) (by decide)
    fun _ sent told => ⟨sent, by rw [told.prc (by decide), h.tookOnly.prc (by decide)]⟩

theorem transcript_quote (dt : Nat) (e : CmdEntry) (s : State) (h : Ready s dt prcGetTranscript e) (tell : CanTell s e.ring)
    (quote : e.f 16 0 0 = 0) : CompletesAtOnce (.prcGetTranscript dt e) prcGetTranscript e s [.free] (384 + ranApproved) fun x =>
      x.free = s.dev.free + 1 ∧ x.prc = s.dev.prc := by
  have only (d : Dev) : Only [.free, .cnt] d (d.fresh.2.count (cDev 315) 1) := ((Only.fresh d).mono (by decide)).trans ((Only.count _ _ _).mono (by decide))
  refine reads (exec_prcGetTranscript dt e s) h tell (fun _ => rfl) (acceptTranscript_quote (c := recordOf s dt prcGetTranscript e) quote _)
    (HostKept.of_hif rfl) ((only _).mono (by decide)) (by decide) fun _ _ told => ⟨?_, ?_⟩
  · rw [told.free (by decide), Dev.count_free, fresh_free, h.tookOnly.free (by decide)]
  · rw [told.prc (by decide), (only _).prc (by decide), h.tookOnly.prc (by decide)]

theorem random_approved (dt : Nat) (e : CmdEntry) (s : State) (h : Ready s dt prcGetRandom e) (tell : CanTell s e.ring)
    (approved : e.b 16 16 = false) : CompletesAtOnce (.prcGetRandom dt e) prcGetRandom e s [.free, .prc] ranApproved fun x =>
      .data e.addr ((List.range (clamp 1 4096 (e.f 16 12 0))).map fun i => Config.randomFree s.dev.free i % 256) ∈ x.out := by
  refine reads (exec_prcGetRandom dt e s) h tell (fun _ => rfl) (acceptRandom_approved (c := recordOf s dt prcGetRandom e) approved _)
    (HostKept.of_hif rfl) ((Only.generated _ _).mono (by decide)) (by decide) fun _ sent _ => ?_
  rw [h.tookOnly.free (by decide)] at sent
  exact sent

theorem random_noise (dt : Nat) (e : CmdEntry) (s : State) (h : Ready s dt prcGetRandom e) (tell : CanTell s e.ring)
    (noise : e.b 16 16 = true) : CompletesAtOnce (.prcGetRandom dt e) prcGetRandom e s [.free] 0 fun x =>
      .data e.addr ((List.range (clamp 1 4096 (e.f 16 12 0))).map fun i => Config.noiseFree s.dev.free i % 256) ∈ x.out := by
  refine reads (exec_prcGetRandom dt e s) h tell (fun _ => rfl) (acceptRandom_noise (c := recordOf s dt prcGetRandom e) noise _) (HostKept.of_hif rfl)
    ((Only.fresh _).mono (by decide)) (by decide) fun _ sent _ => ?_
  rw [h.tookOnly.free (by decide)] at sent
  exact sent

/-- The audit log of a module without an identity, as it is given out: the header, the records and an empty signature (18 R582). -/
def unsignedExport (p : Prc) (now from_ : Nat) : List Byte :=
  let rs := p.auditFrom from_
  let first := match rs with | r :: _ => r.seq | [] => p.auditNext
  packRec 64 [(0, 0, 16, 1), (4, 0, 32, rs.length), (8, 0, 64, Config.serial), (16, 0, 32, first), (20, 0, 32, p.auditNext), (24, 0, 64, now)] ++
    rs.flatMap AuditRec.bytes ++ List.replicate 64 0

theorem acceptExport_unsigned (c : Cmd) {d : Dev} (anonymous : d.prc.identity = false) :
    acceptExport c d = d.readOut c c.e.addr (unsignedExport d.prc d.now (c.e.f 16 31 0)) 0 := by
  simp [acceptExport, anonymous, unsignedExport] <;> rfl

/-- Settles O21: each reply is a read whose bytes the Proctor makes at once. -/
theorem proctorReadsAnswerTheHost : Obligations.ProctorReadsAnswerTheHost := by
  refine ⟨transcript_chain, transcript_quote, random_approved, random_noise, fun dt e s h tell anonymous => ?_⟩
  have prc : (tookUp s dt prcExportAudit e).prc = s.dev.prc := h.tookOnly.prc (by decide)
  refine reads (exec_prcExportAudit dt e s) h tell (fun _ => rfl) (acceptExport_unsigned _ (by rw [prc]; exact anonymous)) (HostKept.refl _)
    (Only.refl _ _) (by decide) fun _ sent _ => ?_
  rw [prc, h.tookNow] at sent
  exact sent

end Sys2Proof

namespace Sys2Proof

open Sys2Proof.Machine

/-! ## The Proctor's rows (18) -/

/-! ### What the Proctor's steps leave of its state -/

theorem setPrc_prc (d : Dev) (new : PrcState) : (d.setPrc new).prc = { d.prc with state := new } := by
  unfold Dev.setPrc
  dsimp only
  split
  next same => rw [← eq_of_beq same]
  next => rw [Dev.post_prc]; rfl

/-- A reading of the Proctor that leaves out its log is the same after a record. -/
theorem audit_reads {α : Type} (f : Prc → α) (d : Dev) (code a b : Nat)
    (k : ∀ p l n, f { p with audit := l, auditNext := n } = f p := by intros; rfl) : f (d.audit code a b).prc = f d.prc := by
  unfold Dev.audit
  dsimp only
  rw [Dev.post_prc]
  exact k _ _ _

theorem updateEnds_some {d : Dev} {u : FwUpdate} (runs : d.prc.update = some u) (status result : Nat) :
    d.updateEnds status result = (d.prcM fun p => { p with update := none }).finishAt u.ring u.tag status result := by
  simp [Dev.updateEnds, runs]

theorem updateEnds_prc (d : Dev) (status result : Nat) : (d.updateEnds status result).prc = { d.prc with update := none } := by
  unfold Dev.updateEnds
  split
  next none_runs => rw [← none_runs]
  next => rw [(Only.finishAt _ _ _ _ _).prc (by decide)]; rfl

/-- A reading of the Proctor that leaves out its banks is the same after an update has been cut short. -/
theorem updateCut_reads {α : Type} (f : Prc → α) (d : Dev)
    (k : ∀ p a b, f { p with bankA := a, bankB := b, staged := none } = f p := by intros; rfl) : f d.updateCut.prc = f d.prc := by
  have spoilt : f d.bankSpoilt.prc = f d.prc := by
    by_cases low : d.prc.bank = 0
    · simpa [Dev.bankSpoilt, Prc.setInactive, low] using k d.prc d.prc.bankA { valid := false }
    · simpa [Dev.bankSpoilt, Prc.setInactive, low] using k d.prc { valid := false } d.prc.bankB
  unfold Dev.updateCut Dev.when
  repeat' split
  all_goals first | exact spoilt | rfl

theorem prcStops_prc (d : Dev) (status : Nat) : (d.prcStops status).prc = { d.updateCut.prc with update := none, sealing := [] } := by
  unfold Dev.prcStops
  dsimp only
  rw [(Only.finishAll _ _ _).prc (by decide), Dev.prcM_prc, updateEnds_prc]

theorem Only.cmdAt {as : List Area} {d e : Dev} (h : Only as d e) (k : Area.hif ∉ as) (g tag : Nat) : e.cmdAt g tag = d.cmdAt g tag := by
  rw [Dev.cmdAt, h.hif k, Dev.cmdAt]

theorem HostKept.audit (d : Dev) (code a b : Nat) : HostKept d (d.audit code a b) := by
  unfold Dev.audit
  refine HostKept.trans ?_ (HostKept.post _ _ _)
  exact HostKept.of_hif rfl

theorem HostKept.setPrc (d : Dev) (new : PrcState) : HostKept d (d.setPrc new) := by
  unfold Dev.setPrc
  dsimp only
  split
  · exact HostKept.refl d
  · refine HostKept.trans ?_ (HostKept.post _ _ _)
    exact HostKept.of_hif rfl

theorem HostKept.cmdAt {d x : Dev} (h : HostKept d x) (g tag : Nat) : x.cmdAt g tag = d.cmdAt g tag := by
  rw [Dev.cmdAt, h.inflight, Dev.cmdAt]

theorem exec_firmwareStaged (dt : Nat) (s : State) : exec (.firmwareStaged dt) s = execFirmwareStaged dt s := rfl
theorem exec_sealDigestChecked (dt : Nat) (s : State) : exec (.sealDigestChecked dt) s = execSealDigestChecked dt s := rfl
theorem exec_noiseHealthFail (dt t : Nat) (s : State) : exec (.noiseHealthFail dt t) s = execNoiseHealthFail dt t s := rfl
theorem exec_zeroizeNChange (dt : Nat) (low : Bool) (s : State) : exec (.zeroizeNChange dt low) s = execZeroizeNChange dt low s := rfl
theorem exec_zeroizeNQualified (dt : Nat) (s : State) : exec (.zeroizeNQualified dt) s = execZeroizeNQualified dt s := rfl
theorem exec_zeroizeAttemptDone (dt : Nat) (ok : Bool) (s : State) : exec (.zeroizeAttemptDone dt ok) s = execZeroizeAttemptDone dt ok s := rfl

/-! ### A staged update (18 R567) -/

/-- The command that an update serves stands at its total. -/
def atTotal (c : Cmd) : Cmd := { c with pos := c.total }

/-- The image of an update has been checked: its load test has passed or failed. -/
def updateChecked (d : Dev) (u : FwUpdate) (c : Cmd) : Dev :=
  ((d.cmdM c atTotal).fresh.2).loadTest (imageFault u.image c.e.payload d.prc.rollback).isNone

theorem Only.updateChecked (d : Dev) (u : FwUpdate) (c : Cmd) : Only [.hif, .free, .prc] d (Sys2Proof.updateChecked d u c) := by
  simp [Sys2Proof.updateChecked, Dev.loadTest, (Only.prcM _ _).iff, (Only.fresh _).iff, (Only.cmdM _ _ _).iff, Only.refl]

theorem updateChecked_prc (d : Dev) (u : FwUpdate) (c : Cmd) : (updateChecked d u c).prc =
    { d.prc with passed := setBit d.prc.passed 9 (imageFault u.image c.e.payload d.prc.rollback).isNone } := rfl

theorem updateChecked_cmdAt {d : Dev} {u : FwUpdate} {c : Cmd} {g tag : Nat} (found : d.cmdAt g tag = some c) :
    (updateChecked d u c).cmdAt g tag = some (atTotal c) :=
  cmdAt_cmdM found fun _ => ⟨rfl, rfl⟩

/-- The other bank as an update fills it. -/
def updateBank (u : FwUpdate) : FwBank := { valid := true, version := u.version, secVersion := u.secVersion, image := u.image }

/-- The image of an update stands in the other bank, which the next reset runs. -/
def imageKept (d : Dev) (u : FwUpdate) : Dev :=
  (d.prcM fun p => { p.setInactive (updateBank u) with
    activeBank := 1 - p.bank, staged := some (u.version, u.secVersion)
    activateAt := if u.activate then some (d.now + 10 * qPerMs) else p.activateAt }).audit 8 u.version u.secVersion

/-- A reading of the Proctor that leaves out its banks, what is staged and the log is the same once an image has been kept. -/
theorem imageKept_reads {α : Type} (f : Prc → α) (d : Dev) (u : FwUpdate)
    (k : ∀ p a b n l w, f { p with activeBank := n, staged := l, activateAt := w, bankA := a, bankB := b } = f p := by intros; rfl)
    (log : ∀ p l n, f { p with audit := l, auditNext := n } = f p := by intros; rfl) : f (imageKept d u).prc = f d.prc := by
  refine (audit_reads f _ _ _ _ log).trans ?_
  by_cases low : d.prc.bank = 0
  · simpa [Prc.setInactive, low] using k d.prc d.prc.bankA (updateBank u) _ _ _
  · simpa [Prc.setInactive, low] using k d.prc (updateBank u) d.prc.bankB _ _ _

theorem imageKept_prc (d : Dev) (u : FwUpdate) : (imageKept d u).prc.staged = some (u.version, u.secVersion) ∧
    (imageKept d u).prc.activeBank = 1 - d.prc.bank ∧
    (imageKept d u).prc.activateAt = if u.activate then some (d.now + 10 * qPerMs) else d.prc.activateAt := by
  refine ⟨audit_reads Prc.staged _ _ _ _, (audit_reads Prc.activeBank _ _ _ _).trans ?_, (audit_reads Prc.activateAt _ _ _ _).trans ?_⟩
  · rfl
  · rfl

theorem Only.imageKept (d : Dev) (u : FwUpdate) : Only [.out, .cnt, .hif, .prc] d (Sys2Proof.imageKept d u) := by
  simp [Sys2Proof.imageKept, (Only.auditIn _ _ _ _).iff, (Only.prcM _ _).iff, Only.refl]

/-- How an update ends, its image checked: kept, or with the first of the reasons of 18 R567. -/
def stagedEnds (d : Dev) (u : FwUpdate) (c : Cmd) : Dev :=
  match (match imageFault u.image c.e.payload d.prc.rollback with | some r => some r | none => failsIf (!Config.flashGood d.free) 6) with
  | some r => (updateChecked d u c).bankSpoilt.updateEnds stFailed (r + ranApproved)
  | none => (imageKept (updateChecked d u c) u).updateEnds stOk ranApproved

theorem stagedEnds_good {d : Dev} {u : FwUpdate} {c : Cmd} (valid : imageFault u.image c.e.payload d.prc.rollback = none)
    (keeps : Config.flashGood d.free = true) : stagedEnds d u c = (imageKept (updateChecked d u c) u).updateEnds stOk ranApproved := by
  simp [stagedEnds, valid, keeps, failsIf]

theorem stagedEnds_bad {d : Dev} {u : FwUpdate} {c : Cmd}
    (bad : ¬(imageFault u.image c.e.payload d.prc.rollback = none ∧ Config.flashGood d.free = true)) :
    ∃ r, stagedEnds d u c = (updateChecked d u c).bankSpoilt.updateEnds stFailed r := by
  cases fault : imageFault u.image c.e.payload d.prc.rollback with
  | some r => exact ⟨r + ranApproved, by simp [stagedEnds, fault]⟩
  | none =>
    have lost : Config.flashGood d.free = false := by simpa [fault] using bad
    exact ⟨6 + ranApproved, by simp [stagedEnds, fault, lost, failsIf]⟩

/-- The row of a staged update: what it does where the command that the update serves stands and is not held. -/
theorem Does.staged {s : State} {as : List Area} {P : Dev → Prop} {dt : Nat} {u : FwUpdate} {c : Cmd} {x : Dev} (up : Serving s)
    (runs : s.dev.prc.update = some u) (found : s.dev.cmdAt u.ring u.tag = some c) (unheld : c.held = false)
    (ends : stagedEnds (s.dev.elapse dt) u c = x) (o : Only (.time :: tells ++ as) (s.dev.elapse dt) x) (p : P x.settle) :
    Does (.firmwareStaged dt) s as P := by
  have row : exec (.firmwareStaged dt) s = s.actUp dt fun d => match d.prc.update with
    | none => d
    | some u => match d.cmdAt u.ring u.tag with
      | none => d
      | some c => if c.held then d else stagedEnds d u c := exec_firmwareStaged dt s
  refine Does.upTo row up ?_ o p
  simp only [Dev.elapse_prc, runs, cmdAt_elapse, found, unheld]
  exact ends

theorem update_staged (dt : Nat) (u : FwUpdate) (c : Cmd) (s : State) (up : Serving s) (runs : s.dev.prc.update = some u)
    (found : s.dev.cmdAt u.ring u.tag = some c) (unheld : c.held = false) : Does (.firmwareStaged dt) s [.prc, .bdy, .free] fun x =>
      x.prc.update = none ∧ x.cmdAt u.ring u.tag = none ∧
        if imageFault u.image c.e.payload s.dev.prc.rollback = none ∧ Config.flashGood s.dev.free = true then
          x.prc.staged = some (u.version, u.secVersion) ∧ x.prc.activeBank = 1 - s.dev.prc.bank ∧
            x.prc.activateAt = if u.activate then some (s.dev.now + dt + 10 * qPerMs) else s.dev.prc.activateAt
        else (if s.dev.prc.bank = 0 then x.prc.bankB else x.prc.bankA) = { valid := false } := by
  have checked : (updateChecked (s.dev.elapse dt) u c).prc.update = some u := by rw [updateChecked_prc, Dev.elapse_prc]; exact runs
  by_cases good : imageFault u.image c.e.payload s.dev.prc.rollback = none ∧ Config.flashGood s.dev.free = true
  · have held : (imageKept (updateChecked (s.dev.elapse dt) u c) u).prc.update = some u := (imageKept_reads Prc.update _ u).trans checked
    refine Does.staged up runs found unheld (stagedEnds_good (by simpa using good.1) (by simpa using good.2)) ?_ ?_
    · simp [(Only.updateEnds _ _ _).iff, (Only.imageKept _ _).iff, (Only.updateChecked _ _ _).iff, tells, Only.refl]
    · obtain ⟨staged, active, activates⟩ := imageKept_prc (updateChecked (s.dev.elapse dt) u c) u
      rw [if_pos good, settle_cmdAt, Dev.settle_prc, updateEnds_prc, staged, active, activates, updateEnds_some held]
      exact ⟨rfl, finishAt_cmdAt _ _ _ _ _, rfl, by simp [updateChecked_prc], by simp [updateChecked_prc, (Only.updateChecked _ _ _).now]⟩
  · obtain ⟨r, ends⟩ := stagedEnds_bad (d := s.dev.elapse dt) (u := u) (c := c) (by simpa using good)
    have held : (updateChecked (s.dev.elapse dt) u c).bankSpoilt.prc.update = some u := by
      rw [← checked]; unfold Dev.bankSpoilt Prc.setInactive; simp only [Dev.prcM_prc]; split <;> rfl
    refine Does.staged up runs found unheld ends ?_ ?_
    · simp [(Only.updateEnds _ _ _).iff, (Only.bankSpoilt _).iff, (Only.updateChecked _ _ _).iff, tells, Only.refl]
    · rw [if_neg good, settle_cmdAt, Dev.settle_prc, updateEnds_prc, updateEnds_some held]
      refine ⟨rfl, finishAt_cmdAt _ _ _ _ _, ?_⟩
      by_cases low : s.dev.prc.bank = 0 <;> simp [Dev.bankSpoilt, Prc.setInactive, updateChecked_prc, low]

/-! ### A seal whose digest matches (18 R577) -/

/-- A scope is sealed under its payload, and nothing else waits to be. -/
def sealed (d : Dev) (y : SealPending) : Dev :=
  (d.prcM fun p => { p with sealing := [], sealed := y.scope, sealDigest := y.payload }).audit 10 y.scope (digestHead y.payload)

theorem Only.sealed (d : Dev) (y : SealPending) : Only [.out, .cnt, .hif, .prc] d (Sys2Proof.sealed d y) := by
  simp [Sys2Proof.sealed, (Only.auditIn _ _ _ _).iff, (Only.prcM _ _).iff, Only.refl]

theorem sealed_prc (d : Dev) (y : SealPending) :
    (sealed d y).prc.sealed = y.scope ∧ (sealed d y).prc.sealDigest = y.payload ∧ (sealed d y).prc.sealing = [] :=
  ⟨audit_reads Prc.sealed _ _ _ _, audit_reads Prc.sealDigest _ _ _ _, audit_reads Prc.sealing _ _ _ _⟩

/-- The row of a seal: what it does where the one seal that waits has a digest that matches. -/
theorem Does.sealing {s : State} {as : List Area} {P : Dev → Prop} {dt : Nat} {y : SealPending} (up : Serving s) (alone : s.dev.prc.sealing = [y])
    (agrees : y.computed = some y.payload)
    (o : Only (.time :: tells ++ as) (s.dev.elapse dt) ((sealed (s.dev.elapse dt) y).finishAt y.ring y.tag stOk ranApproved))
    (p : P ((sealed (s.dev.elapse dt) y).finishAt y.ring y.tag stOk ranApproved).settle) : Does (.sealDigestChecked dt) s as P := by
  refine Does.upTo (exec_sealDigestChecked dt s) up ?_ o p
  simp [alone, agrees, sealed, Dev.prcM]

theorem digest_seals (dt : Nat) (y : SealPending) (s : State) (up : Serving s) (alone : s.dev.prc.sealing = [y])
    (agrees : y.computed = some y.payload) : Does (.sealDigestChecked dt) s [.prc, .bdy] fun x =>
      x.prc.sealed = y.scope ∧ x.prc.sealDigest = y.payload ∧ x.prc.sealing = [] ∧ x.cmdAt y.ring y.tag = none := by
  refine Does.sealing up alone agrees ?_ ?_
  · simp [(Only.finishAtIn _ _ _ _ _).iff, (Only.sealed _ _).iff, tells, Only.refl]
  · obtain ⟨scope, digest, none_waits⟩ := sealed_prc (s.dev.elapse dt) y
    rw [settle_cmdAt, Dev.settle_prc, (Only.finishAt _ _ _ _ _).prc (by decide)]
    exact ⟨scope, digest, none_waits, finishAt_cmdAt _ _ _ _ _⟩

/-! ### Health tests (18 R568) -/

theorem Only.prcError (d : Dev) (test : Nat) : Only [.out, .cnt, .hif, .bdy, .prc] d (d.prcError test) := by
  simp [Dev.prcError, (Only.setPrc _ _).iff, (Only.prcStops _ _).iff, (Only.auditIn _ _ _ _).iff, (Only.prcM _ _).iff, Only.refl]

/-- Whatever of the Proctor's state a failed test, the end of what is under way and a record leave, an error leaves. -/
theorem prcError_prc (d : Dev) (test : Nat) : (d.prcError test).prc.state = .error ∧ (d.prcError test).prc.failed = test ∧
    (d.prcError test).prc.sealing = [] ∧ (d.prcError test).prc.update = none ∧ (d.prcError test).prc.sealed = d.prc.sealed := by
  unfold Dev.prcError
  rw [setPrc_prc, prcStops_prc]
  refine ⟨rfl, ?_, rfl, rfl, ?_⟩
  · exact (updateCut_reads Prc.failed _).trans (audit_reads Prc.failed _ _ _ _)
  · exact (updateCut_reads Prc.sealed _).trans (audit_reads Prc.sealed _ _ _ _)

theorem health_fails (dt t : Nat) (s : State) (up : Serving s) (serves : s.dev.serves = true) : Does (.noiseHealthFail dt t) s [.prc, .bdy] fun x =>
    x.prc.state = .error ∧ x.prc.failed = t ∧ x.prc.sealing = [] ∧ x.prc.update = none ∧ x.prc.sealed = s.dev.prc.sealed := by
  refine Does.guarded (exec_noiseHealthFail dt t s) up (by simpa [Dev.serves] using serves) ?_ ?_
  · simp [(Only.prcError _ _).iff, (Only.count _ _ _).iff, tells, Only.refl]
  · rw [Dev.settle_prc]
    simpa using prcError_prc ((s.dev.elapse dt).count (cDev 317) 1) t

/-! ### Zeroization (18 R578) -/

theorem contact_changes (dt : Nat) (low : Bool) (s : State) (changes : s.dev.prc.zeroizeLow ≠ low) (quiet : Quiet s) :
    Does (.zeroizeNChange dt low) s [.prc] fun x => x.prc.zeroizeLow = low ∧ x.prc.zeroizeSince = s.dev.now + dt ∧
      x.prc.zeroizeArmed = (s.dev.prc.zeroizeArmed || (low && decide (s.dev.prc.zeroizeSince + qPerMs ≤ s.dev.now + dt))) := by
  refine Does.actTo (exec_zeroizeNChange dt low s) quiet (if_neg (by simpa using changes)) ?_ ?_
  · exact (Only.prcM _ _).mono (by decide)
  · simp

/-- A contact has been held low for long enough. -/
def qualified (d : Dev) : Dev := (d.reach (d.prc.zeroizeSince + qPerMs)).prcM fun p => { p with zeroizeArmed := false }

theorem Only.qualified (d : Dev) : Only [.time, .cnt, .prc] d (Sys2Proof.qualified d) := by
  simp [Sys2Proof.qualified, (Only.prcM _ _).iff, (Only.reach _ _).iff, Only.refl]

theorem qualified_prc (d : Dev) : (qualified d).prc = { d.prc with zeroizeArmed := false } := by simp [qualified]

theorem zeroize_prc {d : Dev} (none_runs : d.prc.zeroizing = none) (contact : Bool) : (d.zeroize contact).prc =
    { (d.prcStops stAborted).prc with zeroizing := some { contact, began := d.prc.state.code }, state := .zeroizing } := by
  simp [Dev.zeroize, none_runs, setPrc_prc]

theorem contact_qualifies (dt : Nat) (s : State) (low : s.dev.prc.zeroizeLow = true) (armed : s.dev.prc.zeroizeArmed = true)
    (none_runs : s.dev.prc.zeroizing = none) (quiet : Quiet s) : Does (.zeroizeNQualified dt) s [.prc, .bdy] fun x =>
      x.prc.state = .zeroizing ∧ x.prc.zeroizing = some { contact := true, began := s.dev.prc.state.code } ∧ x.prc.update = none ∧
        x.now = max (s.dev.now + dt) (s.dev.prc.zeroizeSince + qPerMs) := by
  refine Does.actTo (x := (qualified (s.dev.elapse dt)).zeroize true) (exec_zeroizeNQualified dt s) quiet ?_ ?_ ?_
  · exact if_pos (by simp [low, armed])
  · simp [(Only.zeroize _ _).iff, (Only.qualified _).iff, tells, Only.refl]
  · have idle : (qualified (s.dev.elapse dt)).prc.zeroizing = none := by simp [qualified_prc, none_runs]
    have began : (qualified (s.dev.elapse dt)).prc.state = s.dev.prc.state := by simp [qualified_prc]
    rw [Dev.settle_prc, Dev.settle_now, zeroize_prc idle, prcStops_prc, began, (Only.zeroize _ _).now (by decide)]
    exact ⟨rfl, rfl, rfl, by simp [qualified]⟩

theorem Only.zeroizeEnds (d : Dev) (z : Zeroizing) (status : Nat) : Only [.out, .cnt, .hif, .bdy] d (d.zeroizeEnds z status) := by
  simp [Dev.zeroizeEnds, Only.each_iff, (Only.finishAtIn _ _ _ _ _).iff, (Only.bdyM _ _).iff, Only.refl]

/-- The keys and the seal are gone, the erasure is on record, and the commands that asked for it have ended. -/
def erased (d : Dev) (z : Zeroizing) : Dev :=
  (((d.prcM Prc.erased).audit 14 (b2n z.contact) z.began).zeroizeEnds z stOk).bootM fun b => { b with eraseFirst := false }

/-- What a cold reset keeps of the Proctor after an erasure: no key and no identity, but the counter of versions. -/
theorem erased_reads {α : Type} (f : Prc → α) (d : Dev) (z : Zeroizing)
    (k : ∀ p a b, f { p with bankA := a, bankB := b, staged := none } = f p := by intros; rfl)
    (log : ∀ p l n, f { p with audit := l, auditNext := n } = f p := by intros; rfl) : f (erased d z).updateCut.prc = f d.prc.erased := by
  refine (updateCut_reads f _ k).trans ?_
  rw [erased, Dev.bootM_prc, (Only.zeroizeEnds _ _ _).prc (by decide)]
  exact audit_reads f _ _ _ _ log

/-- The row of an attempt that has been verified resets the module. -/
theorem Gives.erased {s : State} {P : Dev → Prop} {dt : Nat} {z : Zeroizing} (runs : s.dev.prc.zeroizing = some z) (few : z.attempts < 3)
    (quiet : Quiet s) (p : P ((erased (s.dev.elapse dt) z).coldReset causeZeroize).settle) : Gives (.zeroizeAttemptDone dt true) s P := by
  refine Gives.act (exec_zeroizeAttemptDone dt true s) quiet ?_
  simp only [Dev.elapse_prc, runs, if_neg (Nat.not_le.2 few), if_true]
  exact p

theorem erasure_verified (dt : Nat) (z : Zeroizing) (s : State) (runs : s.dev.prc.zeroizing = some z) (few : z.attempts < 3) (quiet : Quiet s) :
    Gives (.zeroizeAttemptDone dt true) s fun x => x.prc.key = List.replicate 16 0 ∧ x.prc.keyLocks = 0 ∧ x.prc.identity = false ∧ x.prc.sealed = 0 ∧
      x.prc.zeroizing = none ∧ x.prc.state = .boot ∧ x.glb.phase = 0 ∧ x.glb.cause = 2 ^ 5 + 64 ∧ x.hif = {} ∧ x.bel = {} ∧ x.now = 0 ∧
        x.prc.rollback = s.dev.prc.rollback := by
  refine Gives.erased runs few quiet ?_
  simp only [Dev.settle_prc, Dev.settle_glb, Dev.settle_hif, Dev.settle_bel, Dev.settle_now]
  refine ⟨?_, ?_, ?_, rfl, rfl, rfl, rfl, rfl, rfl, rfl, rfl, ?_⟩
  · exact erased_reads Prc.key _ z
  · exact erased_reads Prc.keyLocks _ z
  · exact erased_reads Prc.identity _ z
  · exact (erased_reads Prc.rollback _ z).trans (by rw [Dev.elapse_prc]; rfl)

theorem erasure_retried (dt : Nat) (z : Zeroizing) (s : State) (runs : s.dev.prc.zeroizing = some z) (few : z.attempts < 2) (quiet : Quiet s) :
    Does (.zeroizeAttemptDone dt false) s [.prc] fun x => x.prc = { s.dev.prc with zeroizing := some { z with attempts := z.attempts + 1 } } := by
  refine Does.actTo (x := (s.dev.elapse dt).prcM fun p => { p with zeroizing := some { z with attempts := z.attempts + 1 } })
    (exec_zeroizeAttemptDone dt false s) quiet ?_ ((Only.prcM _ _).mono (by decide)) (by simp)
  have early : ¬ 3 ≤ z.attempts := by omega
  have again : ¬ 3 ≤ z.attempts + 1 := by omega
  simp only [Dev.elapse_prc, runs, if_neg early, if_neg again]
  rfl

/-- The third failed attempt halts the module. -/
theorem erasure_halts (dt : Nat) (z : Zeroizing) (s : State) (runs : s.dev.prc.zeroizing = some z) (third : z.attempts = 2) (quiet : Quiet s) :
    Gives (.zeroizeAttemptDone dt false) s fun x => x.glb.phase = 15 ∧ x.glb.haltCode = 8 ∧ x.boot.eraseFirst = true ∧ x.boot.stopped = .erase ∧
      x.inService = false ∧ x.buf.frames = [] := by
  refine Gives.act (exec_zeroizeAttemptDone dt false s) quiet ?_
  simp [runs, third, Dev.halt, loseFrames_frames, (Only.loseFrames _).glb, Dev.inService]

/-- Settles O49: each row of the Proctor by what it leaves of the Proctor's state. -/
theorem proctorRows : Obligations.ProctorRows :=
  ⟨update_staged, digest_seals, health_fails, contact_changes, contact_qualifies, erasure_verified, erasure_retried, erasure_halts⟩

end Sys2Proof

namespace Sys2Proof

open Sys2Proof.Machine

/-! ## Commands that the crypto officer signs (18 R571, R572) -/

theorem Fetchable.fetches {s : State} {sp : CmdSpec} {e : CmdEntry} (h : Fetchable s sp e) (dt : Nat) : Fetches (s.dev.elapse dt) e where
  ring := h.ring
  running := by rw [Dev.ring_elapse]; exact h.running
  still := by rw [Dev.ring_elapse]; exact h.still
  empty := by rw [Dev.ring_elapse]; exact h.empty
  room := by simpa [Dev.bindRoom] using h.room
  few := by simpa using h.few
  fresh := by simpa using h.fresh
  idle := by rw [Idle, Dev.elapse_hif]; exact h.alone

/-- A command whose turn it is goes from its fetch to its checks. -/
theorem Fetches.submit {d : Dev} {e : CmdEntry} (h : Fetches d e) (sp : CmdSpec) :
    d.submit sp e = (Dev.fetched d sp e).acceptCmd sp (fetchedCmd d sp e) := by
  have low : ¬ 32 ≤ e.ring := Nat.not_le.2 h.ring
  have runs : ((d.ring e.ring).state != .running) = false := by rw [h.running]; rfl
  have fetch : (d.hostPosts e.ring).fetchCmd true sp.op e = Dev.fetched d sp e := rfl
  unfold Dev.submit
  simp only [low, runs, h.may, fetch, h.turn]
  simp [fetchedCmd]

/-- Steps 4 to 9 outside PAIRED and SYNCING, when every check passes. -/
theorem stepsFour_passes {d : Dev} {sp : CmdSpec} {c : Cmd} (pass : d.checks sp c.e = none) (window : sp.kind c = .long → d.freeProg ≠ none)
    (mem : c.e.readFail = false) (pair : d.bdy.state ≠ .paired ∧ d.bdy.state ≠ .syncing ∧ d.pairRefuses sp = false) :
    d.stepsFour sp c = d.takeUp sp c := by
  have entry : (sp.kind c == .long && d.freeProg.isNone) = false := by
    by_cases long : sp.kind c = .long
    · obtain ⟨k, free⟩ := Option.ne_none_iff_exists'.1 (window long)
      simp [free]
    · simp [long]
  obtain ⟨single, settled, allowed⟩ := pair
  simp [Dev.stepsFour, Dev.stepNine, pass, entry, mem, single, settled, allowed]

/-- The module once it has found the officer's signature good. -/
def officerSigned (d : Dev) (op : Nat) (e : CmdEntry) : Dev :=
  ((d.prcM fun p => { p with officerSeq := natLE ((e.extBytes.drop 16).take 8) }).audit 6 op (natLE ((e.extBytes.drop 16).take 8))).count (cDev 312) 1

theorem officerStep_good {d : Dev} {op : Nat} {e : CmdEntry} (good : d.officerDenied op e = none) : d.officerStep op e = (officerSigned d op e, none) := by
  simp [Dev.officerStep, good, officerSigned]

theorem Only.officerSigned (d : Dev) (op : Nat) (e : CmdEntry) : Only [.out, .cnt, .hif, .prc] d (Sys2Proof.officerSigned d op e) := by
  simp [Sys2Proof.officerSigned, (Only.count _ _ _).iff, (Only.auditIn _ _ _ _).iff, (Only.prcM _ _).iff, Only.refl]

theorem HostKept.officerSigned (d : Dev) (op : Nat) (e : CmdEntry) : HostKept d (Sys2Proof.officerSigned d op e) := by
  refine HostKept.trans ?_ (HostKept.of_hif (d := (d.prcM _).audit 6 op _) rfl)
  refine HostKept.trans ?_ (HostKept.audit _ _ _ _)
  exact HostKept.of_hif rfl

theorem officerSigned_officerSeq (d : Dev) (op : Nat) (e : CmdEntry) : (officerSigned d op e).prc.officerSeq = natLE ((e.extBytes.drop 16).take 8) := by
  rw [officerSigned, Dev.count_prc]
  exact audit_reads Prc.officerSeq _ _ _ _

/-- A reading of the Proctor that leaves out its log and the officer's number is the same once a signature has been found good. -/
theorem officerSigned_reads {α : Type} (f : Prc → α) (d : Dev) (op : Nat) (e : CmdEntry)
    (log : ∀ p l n, f { p with audit := l, auditNext := n } = f p := by intros; rfl)
    (k : ∀ p n, f { p with officerSeq := n } = f p := by intros; rfl) : f (officerSigned d op e).prc = f d.prc := by
  rw [officerSigned, Dev.count_prc]
  exact (audit_reads f _ _ _ _ log).trans (k _ _)

section

variable {s : State} {dt : Nat} {sp : CmdSpec} {e : CmdEntry}

/-- A signed command as it stands when its row has fetched it and found its signature good. -/
def signedFor (s : State) (dt : Nat) (sp : CmdSpec) (e : CmdEntry) : Dev := officerSigned (Dev.fetched (s.dev.elapse dt) sp e) sp.op e

/-- The record of a signed command that has been taken up in its row. -/
def signedRecord (s : State) (dt : Nat) (sp : CmdSpec) (e : CmdEntry) : Cmd := takenCmd (signedFor s dt sp e) sp (fetchedCmd s.dev sp e)

/-- The module when it has taken a signed command up, before the command's own effect. -/
def signedUp (s : State) (dt : Nat) (sp : CmdSpec) (e : CmdEntry) : Dev := takenDev (signedFor s dt sp e) sp (fetchedCmd s.dev sp e)

theorem Signed.accepted (h : Signed s dt sp e) :
    (s.dev.elapse dt).submit sp e = sp.accept (signedRecord s dt sp e) (signedUp s dt sp e) := by
  have f := h.toFetchable.fetches dt
  have bdy : (signedFor s dt sp e).bdy = s.dev.bdy :=
    ((Only.officerSigned _ _ _).bdy (by decide)).trans (((f.only sp).bdy (by decide)).trans (Dev.elapse_bdy _ _))
  have user : ((((Dev.fetched (s.dev.elapse dt) sp e).ring e.ring).user) && !sp.user) = false := by
    have u := h.user
    rw [f.rings sp, if_pos rfl, Dev.ring_elapse]
    rcases u with u | u <;> simp [u]
  have pass : (signedFor s dt sp e).checks sp e = none := by
    have p := h.pass
    rwa [officerStep_good h.valid] at p
  have window : sp.kind (fetchedCmd s.dev sp e) = .long → (signedFor s dt sp e).freeProg ≠ none := by
    intro long
    have w := h.window long
    unfold Dev.freeProg at w ⊢
    rw [signedFor, (HostKept.officerSigned _ _ _).prog, f.prog, Dev.elapse_hif]
    exact w
  have pair : (signedFor s dt sp e).bdy.state ≠ .paired ∧ (signedFor s dt sp e).bdy.state ≠ .syncing ∧ (signedFor s dt sp e).pairRefuses sp = false := by
    have p := h.pair
    unfold Dev.pairRefuses at p ⊢
    rwa [bdy]
  have steps := stepsFour_passes (c := fetchedCmd s.dev sp e) pass window h.mem pair
  have accepts : (Dev.fetched (s.dev.elapse dt) sp e).acceptCmd sp (fetchedCmd s.dev sp e) =
      (signedFor s dt sp e).stepsFour sp (fetchedCmd s.dev sp e) := by
    have good := officerStep_good (op := (fetchedCmd s.dev sp e).op) (e := (fetchedCmd s.dev sp e).e) h.valid
    have mem : (fetchedCmd s.dev sp e).e.readFail = false := h.mem
    have same : (fetchedCmd s.dev sp e).e.ring = e.ring := rfl
    simp only [Dev.acceptCmd, same, user, h.officer, mem, good]
    simp [signedFor, fetchedCmd]
  rw [f.submit, fetchedCmd_elapse, accepts, steps, takeUp_eq]
  rfl

/-- The row of a signed command does what the command's effect on acceptance does. -/
theorem Gives.signed {i : Instr} {P : Dev → Prop} (row : exec i s = s.actUp dt fun d => d.submit sp e) (h : Signed s dt sp e)
    (p : P (sp.accept (signedRecord s dt sp e) (signedUp s dt sp e)).settle) : Gives i s P :=
  Gives.up row ⟨h.up, h.quiet⟩ (by rw [h.accepted]; exact p)

theorem Signed.inflight (h : Signed s dt sp e) : (signedUp s dt sp e).hif.inflight = s.dev.hif.inflight ++ [signedRecord s dt sp e] := by
  have f := h.toFetchable.fetches dt
  rw [signedUp, takenDev_inflight, signedFor, (HostKept.officerSigned _ _ _).inflight, f.inflight, fetchedCmd_elapse, Dev.elapse_hif]
  exact map_idle h.alone rfl

theorem Signed.only (h : Signed s dt sp e) : Only [.time, .out, .cnt, .hif, .glb, .prc] s.dev (signedUp s dt sp e) := by
  have f := h.toFetchable.fetches dt
  refine ((Only.elapse s.dev dt).mono (by decide)).trans (((f.only sp).mono (by decide)).trans (((Only.officerSigned _ sp.op e).mono (by decide)).trans ?_))
  exact (Only.takenDev _ _ _).mono (by decide)

theorem signedUp_prc (s : State) (dt : Nat) (sp : CmdSpec) (e : CmdEntry) : (signedUp s dt sp e).prc = (signedFor s dt sp e).prc :=
  (Only.takenDev _ _ _).prc (by decide)

theorem signedUp_officerSeq (s : State) (dt : Nat) (sp : CmdSpec) (e : CmdEntry) :
    (signedUp s dt sp e).prc.officerSeq = natLE ((e.extBytes.drop 16).take 8) := by
  rw [signedUp_prc]
  exact officerSigned_officerSeq _ _ _

theorem Signed.reads {α : Type} (h : Signed s dt sp e) (f : Prc → α)
    (log : ∀ p l n, f { p with audit := l, auditNext := n } = f p := by intros; rfl)
    (k : ∀ p n, f { p with officerSeq := n } = f p := by intros; rfl) : f (signedUp s dt sp e).prc = f s.dev.prc := by
  rw [signedUp_prc, signedFor]
  refine (officerSigned_reads f _ sp.op e log k).trans ?_
  rw [((h.toFetchable.fetches dt).only sp).prc (by decide), Dev.elapse_prc]

/-- A signed command stands in flight as long as its effect leaves what is in flight. -/
theorem Signed.flies (h : Signed s dt sp e) {d : Dev} (kept : d.hif.inflight = (signedUp s dt sp e).hif.inflight) :
    InFlight d e sp.op (signedRecord s dt sp e).stage :=
  ⟨signedRecord s dt sp e, by rw [kept, h.inflight]; simp, rfl, rfl, rfl, rfl⟩

end

/-! ### Their rows -/

theorem exec_prcUpdateFirmware (dt : Nat) (e : CmdEntry) (s : State) :
    exec (.prcUpdateFirmware dt e) s = s.actUp dt fun d => d.submit prcUpdateFirmware e := rfl
theorem exec_prcSealConfig (dt : Nat) (e : CmdEntry) (s : State) : exec (.prcSealConfig dt e) s = s.actUp dt fun d => d.submit prcSealConfig e := rfl
theorem exec_prcZeroize (dt : Nat) (e : CmdEntry) (s : State) : exec (.prcZeroize dt e) s = s.actUp dt fun d => d.submit prcZeroize e := rfl

theorem signedRecord_e (s : State) (dt : Nat) (sp : CmdSpec) (e : CmdEntry) : (signedRecord s dt sp e).e = e := rfl

theorem acceptUpdate_inflight (c : Cmd) (d : Dev) : (acceptUpdate c d).hif.inflight =
    d.hif.inflight.map fun x => if x.same c then { x with total := (fwLength c.e + 1023) / 1024 } else x := rfl

theorem acceptUpdate_officerSeq (c : Cmd) (d : Dev) : (acceptUpdate c d).prc.officerSeq = d.prc.officerSeq := rfl

theorem acceptUpdate_update (c : Cmd) (d : Dev) : ((acceptUpdate c d).prc.update.map fun u => (u.ring, u.tag, u.activate, u.image)) =
    some (c.e.ring, c.e.tag, c.e.b 20 0, Config.padTo (fwLength c.e) c.e.mem) := rfl

theorem update_taken (dt : Nat) (e : CmdEntry) (s : State) (h : Signed s dt prcUpdateFirmware e) : Gives (.prcUpdateFirmware dt e) s fun x =>
    InFlight x e 0x1202 .long ∧ x.prc.officerSeq = natLE ((e.extBytes.drop 16).take 8) ∧
      (x.prc.update.map fun u => (u.ring, u.tag, u.activate, u.image)) = some (e.ring, e.tag, e.b 20 0, Config.padTo (fwLength e) e.mem) := by
  refine Gives.signed (exec_prcUpdateFirmware dt e s) h ?_
  have accept : prcUpdateFirmware.accept = acceptUpdate := rfl
  rw [accept, Dev.settle_prc, acceptUpdate_update, acceptUpdate_officerSeq, signedUp_officerSeq, signedRecord_e]
  refine ⟨⟨{ signedRecord s dt prcUpdateFirmware e with total := (fwLength e + 1023) / 1024 }, ?_, rfl, rfl, rfl, rfl⟩, rfl, rfl⟩
  rw [Dev.settle_hif, acceptUpdate_inflight, h.inflight]
  exact List.mem_map.2 ⟨signedRecord s dt prcUpdateFirmware e, by simp, if_pos (by simp [Cmd.same])⟩

theorem acceptSeal_scope {c : Cmd} (some_scope : sealScope c.e ≠ 0) (d : Dev) : acceptSeal c d = d.prcM fun p => { p with sealing := p.sealing ++
    [{ ring := c.e.ring, tag := c.e.tag, scope := sealScope c.e, payload := c.e.payload, due := d.bel.seq + 2 }] } := if_neg some_scope

theorem seal_taken (dt : Nat) (e : CmdEntry) (s : State) (h : Signed s dt prcSealConfig e) (some_scope : sealScope e ≠ 0) :
    Gives (.prcSealConfig dt e) s fun x => InFlight x e 0x1205 .waiting ∧ x.prc.officerSeq = natLE ((e.extBytes.drop 16).take 8) ∧
      x.prc.sealing = s.dev.prc.sealing ++
        [{ ring := e.ring, tag := e.tag, scope := sealScope e, payload := e.payload, due := s.dev.bel.seq + 2 }] := by
  refine Gives.signed (exec_prcSealConfig dt e s) h ?_
  have accept : prcSealConfig.accept = acceptSeal := rfl
  rw [accept, acceptSeal_scope (by rw [signedRecord_e]; exact some_scope), signedRecord_e, Dev.settle_prc, Dev.prcM_prc]
  refine ⟨h.flies (by rw [Dev.settle_hif, Dev.prcM_hif]), ?_, ?_⟩
  · rw [← signedUp_officerSeq s dt prcSealConfig e]
  · rw [h.reads Prc.sealing, h.only.bel (by decide)]

/-- Where nothing is under way in the Proctor there is nothing to stop. -/
theorem prcStops_idle {d : Dev} (sealing : d.prc.sealing = []) (update : d.prc.update = none) (status : Nat) :
    d.prcStops status = d.prcM fun p => { p with sealing := [] } := by
  simp [Dev.prcStops, Dev.updateCut, Dev.updateEnds, sealing, update, Dev.finishAll, Dev.each]

theorem zeroize_idle {d : Dev} (none_runs : d.prc.zeroizing = none) (sealing : d.prc.sealing = []) (update : d.prc.update = none) (contact : Bool) :
    d.zeroize contact = (d.prcM fun p => { p with sealing := [], zeroizing := some { contact, began := d.prc.state.code } }).setPrc .zeroizing := by
  simp [Dev.zeroize, none_runs, prcStops_idle sealing update, Dev.prcM]

theorem acceptZeroize_hif (c : Cmd) (d : Dev) : (acceptZeroize c d).hif = (d.zeroize false).hif := rfl

theorem acceptZeroize_prc (c : Cmd) (d : Dev) : (acceptZeroize c d).prc = { (d.zeroize false).prc with
    zeroizing := (d.zeroize false).prc.zeroizing.map fun z => { z with commands := z.commands ++ [(c.e.ring, c.e.tag)] } } := rfl

theorem zeroize_taken (dt : Nat) (e : CmdEntry) (s : State) (h : Signed s dt prcZeroize e) (none_runs : s.dev.prc.zeroizing = none)
    (sealing : s.dev.prc.sealing = []) (update : s.dev.prc.update = none) : Gives (.prcZeroize dt e) s fun x =>
      InFlight x e 0x1203 .waiting ∧ x.prc.officerSeq = natLE ((e.extBytes.drop 16).take 8) ∧ x.prc.state = .zeroizing ∧
        (x.prc.zeroizing.map fun z => z.commands) = some [(e.ring, e.tag)] := by
  have begins := zeroize_idle (d := signedUp s dt prcZeroize e) ((h.reads Prc.zeroizing).trans none_runs) ((h.reads Prc.sealing).trans sealing)
    ((h.reads Prc.update).trans update) false
  refine Gives.signed (exec_prcZeroize dt e s) h ?_
  have accept : prcZeroize.accept = acceptZeroize := rfl
  rw [accept, Dev.settle_prc, acceptZeroize_prc, begins, setPrc_prc, signedRecord_e]
  refine ⟨h.flies ?_, ?_, rfl, rfl⟩
  · rw [Dev.settle_hif, acceptZeroize_hif, begins, (HostKept.setPrc _ _).inflight, Dev.prcM_hif]
  · rw [← signedUp_officerSeq s dt prcZeroize e, Dev.prcM_prc]

/-! ### Their ends (18 R567, R577, R578) -/

/-- Outside PAIRED a command's end is written to its completion ring, with the totals that a long one carries. -/
theorem finish_told {s : State} {d : Dev} {c : Cmd} (own : c.mirrored = false) (single : d.bdy.state ≠ .paired)
    (bound : c.cring = (s.dev.ring c.e.ring).lCring) (tell : CanTell s c.e.ring) (rings : ∀ g < 192, d.ring g = s.dev.ring g)
    (owed : d.hif.owed = s.dev.hif.owed) (st r : Nat) : Completed s (d.finish c st r) c.e c.op st (c.completion st r).result := by
  obtain ⟨lt, runs, room, unowed⟩ := tell
  have ring := rings (32 + (s.dev.ring c.e.ring).lCring) (by omega)
  refine ⟨?_, finish_cmdAt d c st r own⟩
  rw [finish_written own single bound lt (by rw [ring]; exact runs) (by rw [ring]; exact room) (by rw [owed]; exact unowed), writeEntry_out]
  exact ⟨_, _, List.mem_cons_self, Compl.fields _ _ _⟩

theorem finishAt_found {d : Dev} {c : Cmd} {g tag : Nat} (found : d.cmdAt g tag = some c) (st r : Nat) : d.finishAt g tag st r = d.finish c st r := by
  simp [Dev.finishAt, found]

/-- The image of an update has been kept, and the update has ended. -/
def updateDone (d : Dev) (u : FwUpdate) (c : Cmd) : Dev := (imageKept (updateChecked d u c) u).prcM fun p => { p with update := none }

theorem Only.updateDone (d : Dev) (u : FwUpdate) (c : Cmd) : Only [.out, .cnt, .hif, .free, .prc] d (Sys2Proof.updateDone d u c) := by
  simp [Sys2Proof.updateDone, (Only.prcM _ _).iff, (Only.imageKept _ _).iff, (Only.updateChecked _ _ _).iff, Only.refl]

theorem HostKept.updateDone (d : Dev) (u : FwUpdate) (c : Cmd) : HostKept (updateChecked d u c) (Sys2Proof.updateDone d u c) := by
  have kept : HostKept (updateChecked d u c) (imageKept (updateChecked d u c) u) := by
    refine HostKept.trans ?_ (HostKept.audit _ _ _ _)
    exact HostKept.of_hif rfl
  refine kept.trans ?_
  exact HostKept.of_hif rfl

theorem updateDone_ring (d : Dev) (u : FwUpdate) (c : Cmd) {g : Nat} (low : g < 192) : (updateDone d u c).ring g = d.ring g :=
  (HostKept.updateDone d u c).rings g low

theorem updateDone_owed (d : Dev) (u : FwUpdate) (c : Cmd) : (updateDone d u c).hif.owed = d.hif.owed := (HostKept.updateDone d u c).owed

/-- The total of a firmware update stands in its completion (13 R458). -/
theorem update_result {c : Cmd} (op : c.op = prcUpdateFirmware.op) (long : c.stage = .long) (st r : Nat) :
    ((atTotal c).completion st r).result = c.total ||| r := by
  simp [Cmd.completion, Cmd.reports, atTotal, op, long, prcUpdateFirmware]

theorem update_completes (dt : Nat) (u : FwUpdate) (c : Cmd) (s : State) (up : Serving s) (stands : Stands s c) (single : s.dev.bdy.state ≠ .paired)
    (runs : s.dev.prc.update = some u) (named : u.ring = c.e.ring ∧ u.tag = c.e.tag) (op : c.op = prcUpdateFirmware.op) (long : c.stage = .long)
    (unheld : c.held = false) (valid : imageFault u.image c.e.payload s.dev.prc.rollback = none) (keeps : Config.flashGood s.dev.free = true) :
    Does (.firmwareStaged dt) s [.prc, .free] fun x => x.prc.update = none ∧ x.prc.staged = some (u.version, u.secVersion) ∧
      x.prc.activeBank = 1 - s.dev.prc.bank ∧ Completed s x c.e c.op stOk (c.total ||| ranApproved) := by
  obtain ⟨found, bound, tell⟩ := stands
  obtain ⟨ring, tag⟩ := named
  have own : c.mirrored = false := (cmdAt_named found).1
  have checked : (imageKept (updateChecked (s.dev.elapse dt) u c) u).prc.update = some u :=
    (imageKept_reads Prc.update _ u).trans (by rw [updateChecked_prc, Dev.elapse_prc]; exact runs)
  have stands : (updateDone (s.dev.elapse dt) u c).cmdAt u.ring u.tag = some (atTotal c) := by
    rw [(HostKept.updateDone _ u c).cmdAt, ring, tag]
    exact updateChecked_cmdAt (by rw [cmdAt_elapse]; exact found)
  have single' : (updateDone (s.dev.elapse dt) u c).bdy.state ≠ .paired := by
    rw [(Only.updateDone _ u c).bdy (by decide), Dev.elapse_bdy]; exact single
  have ends : stagedEnds (s.dev.elapse dt) u c = (updateDone (s.dev.elapse dt) u c).finish (atTotal c) stOk ranApproved := by
    rw [stagedEnds_good (by simpa using valid) (by simpa using keeps), updateEnds_some checked]
    exact finishAt_found stands _ _
  obtain ⟨staged, active, -⟩ := imageKept_prc (updateChecked (s.dev.elapse dt) u c) u
  refine Does.staged up runs (by rw [ring, tag]; exact found) unheld ends ?_ ?_
  · exact ((Only.updateDone _ u c).mono (by decide)).trans ((Only.finishSingle _ (atTotal c) _ _ single' own).mono (by decide))
  · rw [Dev.settle_prc, (Only.finish _ _ _ _).prc (by decide)]
    refine ⟨rfl, staged, active.trans (by rw [updateChecked_prc, Dev.elapse_prc]), Completed.settle ?_⟩
    rw [← update_result op long stOk ranApproved]
    exact finish_told (c := atTotal c) own single' bound tell (fun g low => by rw [updateDone_ring _ _ _ low, Dev.ring_elapse])
      (by rw [updateDone_owed, Dev.elapse_hif]) stOk ranApproved

theorem HostKept.sealed (d : Dev) (y : SealPending) : HostKept d (Sys2Proof.sealed d y) := by
  refine HostKept.trans ?_ (HostKept.audit _ _ _ _)
  exact HostKept.of_hif rfl

/-- A command that has waited carries its result alone. -/
theorem finish_waiting {s : State} {d : Dev} {c : Cmd} (waits : c.stage = .waiting) (own : c.mirrored = false) (single : d.bdy.state ≠ .paired)
    (bound : c.cring = (s.dev.ring c.e.ring).lCring) (tell : CanTell s c.e.ring) (rings : ∀ g < 192, d.ring g = s.dev.ring g)
    (owed : d.hif.owed = s.dev.hif.owed) (st r : Nat) : Completed s (d.finish c st r) c.e c.op st r := by
  have told := finish_told own single bound tell rings owed st r
  have alone : (c.completion st r).result = r := by simp [Cmd.completion, waits]
  rwa [alone] at told

theorem seal_completes (dt : Nat) (y : SealPending) (c : Cmd) (s : State) (up : Serving s) (stands : Stands s c) (single : s.dev.bdy.state ≠ .paired)
    (_op : c.op = prcSealConfig.op) (waits : c.stage = .waiting) (named : y.ring = c.e.ring ∧ y.tag = c.e.tag) (alone : s.dev.prc.sealing = [y])
    (agrees : y.computed = some y.payload) : Does (.sealDigestChecked dt) s [.prc] fun x =>
      x.prc.sealed = y.scope ∧ x.prc.sealDigest = y.payload ∧ x.prc.sealing = [] ∧ Completed s x c.e c.op stOk ranApproved := by
  obtain ⟨found, bound, tell⟩ := stands
  obtain ⟨ring, tag⟩ := named
  have own : c.mirrored = false := (cmdAt_named found).1
  have kept := HostKept.sealed (s.dev.elapse dt) y
  have ends : (sealed (s.dev.elapse dt) y).finishAt y.ring y.tag stOk ranApproved = (sealed (s.dev.elapse dt) y).finish c stOk ranApproved :=
    finishAt_found (by rw [kept.cmdAt, ring, tag, cmdAt_elapse]; exact found) _ _
  have single' : (sealed (s.dev.elapse dt) y).bdy.state ≠ .paired := by
    rw [(Only.sealed _ y).bdy (by decide), Dev.elapse_bdy]; exact single
  refine Does.sealing up alone agrees ?_ ?_
  · rw [ends]
    exact ((Only.sealed _ y).mono (by decide)).trans ((Only.finishSingle _ c _ _ single' own).mono (by decide))
  · obtain ⟨scope, digest, none_waits⟩ := sealed_prc (s.dev.elapse dt) y
    rw [ends, Dev.settle_prc, (Only.finish _ _ _ _).prc (by decide)]
    refine ⟨scope, digest, none_waits, Completed.settle ?_⟩
    exact finish_waiting waits own single' bound tell (fun g low => by rw [kept.rings g low, Dev.ring_elapse])
      (by rw [kept.owed, Dev.elapse_hif]) stOk ranApproved

/-- The module once its keys are gone and it has left the pair, before it tells the commands that asked for it. -/
def erasedApart (d : Dev) (z : Zeroizing) : Dev := ((d.prcM Prc.erased).audit 14 (b2n z.contact) z.began).bdyM fun b => { b with state := .off }

theorem HostKept.erasedApart (d : Dev) (z : Zeroizing) : HostKept d (Sys2Proof.erasedApart d z) := by
  have audited : HostKept d ((d.prcM Prc.erased).audit 14 (b2n z.contact) z.began) := by
    refine HostKept.trans ?_ (HostKept.audit _ _ _ _)
    exact HostKept.of_hif rfl
  refine audited.trans ?_
  exact HostKept.of_hif rfl

/-- One command that asked for an erasure is told of its end as of an approved service. -/
theorem erased_ends {d : Dev} {z : Zeroizing} {c : Cmd} (asked : z.commands = [(c.e.ring, c.e.tag)]) (approved : z.began = 2 ∨ z.began = 5)
    (found : d.cmdAt c.e.ring c.e.tag = some c) :
    erased d z = ((erasedApart d z).finish c stOk ranApproved).bootM fun b => { b with eraseFirst := false } := by
  have ends := finishAt_found (d := erasedApart d z) (by rw [(HostKept.erasedApart d z).cmdAt]; exact found) stOk ranApproved
  rw [← ends]
  simp [erased, Dev.zeroizeEnds, asked, approved, Dev.each, erasedApart]

/-- What has been told before a cold reset stays told, and nothing is in flight behind it. -/
theorem Completed.coldReset {s : State} {d : Dev} {e : CmdEntry} {op st r : Nat} (h : Completed s d e op st r) (cause : Nat) :
    Completed s (d.coldReset cause) e op st r := by
  obtain ⟨written, -⟩ := h
  have out : (d.coldReset cause).out = d.out := (Only.updateCut d).out (by decide)
  exact ⟨by rw [out]; exact written, rfl⟩

theorem erasure_completes (dt : Nat) (z : Zeroizing) (c : Cmd) (s : State) (quiet : Quiet s) (stands : Stands s c) (runs : s.dev.prc.zeroizing = some z)
    (few : z.attempts < 3) (asked : z.commands = [(c.e.ring, c.e.tag)]) (approved : z.began = 2 ∨ z.began = 5) (_op : c.op = prcZeroize.op)
    (waits : c.stage = .waiting) : Gives (.zeroizeAttemptDone dt true) s fun x => x.prc.key = List.replicate 16 0 ∧ x.prc.keyLocks = 0 ∧
      x.prc.identity = false ∧ x.prc.sealed = 0 ∧ x.prc.state = .boot ∧ x.glb.phase = 0 ∧ Completed s x c.e c.op stOk ranApproved := by
  obtain ⟨found, bound, tell⟩ := stands
  have own : c.mirrored = false := (cmdAt_named found).1
  have kept := HostKept.erasedApart (s.dev.elapse dt) z
  have ends := erased_ends asked approved (by rw [cmdAt_elapse]; exact found : (s.dev.elapse dt).cmdAt c.e.ring c.e.tag = some c)
  have told : Completed s (erased (s.dev.elapse dt) z) c.e c.op stOk ranApproved := by
    rw [ends]
    obtain ⟨written, gone⟩ := finish_waiting (d := erasedApart (s.dev.elapse dt) z) waits own (by simp [erasedApart, Dev.bdyM]) bound tell
      (fun g low => by rw [kept.rings g low, Dev.ring_elapse]) (by rw [kept.owed, Dev.elapse_hif]) stOk ranApproved
    exact ⟨written, gone⟩
  refine Gives.erased runs few quiet ⟨?_, ?_, ?_, ?_, ?_, ?_, (told.coldReset causeZeroize).settle⟩
  all_goals simp only [Dev.settle_prc, Dev.settle_glb]
  · exact erased_reads Prc.key _ z
  · exact erased_reads Prc.keyLocks _ z
  · exact erased_reads Prc.identity _ z
  all_goals rfl

/-- Settles O26: signed commands are taken up like others but for the officer's number, and each ending row tells its command. -/
theorem officerCommandsTakeUpAndComplete : Obligations.OfficerCommandsTakeUpAndComplete :=
  ⟨update_taken, seal_taken, zeroize_taken, update_completes, seal_completes, erasure_completes⟩

end Sys2Proof

namespace Sys2Proof

open Sys2Proof.Machine

/-! ## Register access (14 R463 to R481) -/

theorem exec_registerWrite (dt a n v : Nat) (p : Bool) (s : State) : exec (.registerWrite dt a n v p) s = s.act dt fun d => d.busWrite a n v p := rfl
theorem exec_loRegisterRead (dt a : Nat) (s : State) : exec (.loRegisterRead dt a) s = execLoRegisterRead dt a s := rfl
theorem exec_glbResetCtrlWrite (dt : Nat) (w : RegWrite) (s : State) : exec (.glbResetCtrlWrite dt w) s = s.act dt fun d => d.regWrite 0x60 w := rfl
theorem exec_belCtrlWrite (dt : Nat) (w : RegWrite) (s : State) : exec (.belCtrlWrite dt w) s = s.act dt fun d => d.regWrite 0x200000 w := rfl
theorem exec_govRailLimitWrite (dt q : Nat) (w : RegWrite) (s : State) :
    exec (.govRailLimitWrite dt q w) s = s.act dt fun d => d.when (decide (q < 4)) fun d => d.regWrite (0xD10000 + q * 16) w := rfl
theorem exec_officerKeyWrite (dt k : Nat) (w : RegWrite) (s : State) :
    exec (.officerKeyWrite dt k w) s = s.act dt fun d => d.when (decide (k < 16)) fun d => d.regWrite (0xF90000 + k * 16) w := rfl

@[simp] theorem busUp_elapse (d : Dev) (dt : Nat) : (d.elapse dt).busUp = d.busUp := by simp [Dev.busUp]
@[simp] theorem regsUp_elapse (d : Dev) (dt : Nat) : (d.elapse dt).regsUp = d.regsUp := by simp [Dev.regsUp]
@[simp] theorem mayWarm_elapse (d : Dev) (dt : Nat) : (d.elapse dt).mayWarm = d.mayWarm := by simp [Dev.mayWarm]
@[simp] theorem sealScopes_elapse (d : Dev) (dt : Nat) : (d.elapse dt).sealScopes = d.sealScopes := by simp [Dev.sealScopes]

/-! ### The registers at some addresses -/

/-- A register covers an address, through whichever of its addresses. -/
def covers (addr : Nat) (r : Reg) : Bool :=
  decide (r.base ≤ addr) && decide (addr < r.base + r.n * r.stride) && decide ((addr - r.base) % r.stride < 16)

theorem regAt_eq (addr : Nat) : regAt addr = registers[registers.findIdx (covers addr)]?.map fun r => (r, (addr - r.base) / r.stride) := by
  rw [← List.find?_eq_getElem?_findIdx]
  rfl

/-- GLB_SCRATCH, GLB_RESET_CTRL, BEL_CTRL, GOV_RAIL_LIMIT and PRC_OFFICER_KEY (14 R480, 01 R40, 11 R394, 18 R583). -/
def scratchReg : Reg := rw 0x90 (fun d => d.glb.scratch) fun v d => d.glbM fun g => { g with scratch := v }
def resetCtrlReg : Reg := { base := 0x60, get := fun _ _ => 0, kind := .resetCtrl }
def belCtrlReg : Reg := { base := 0x200000, get := fun d _ => d.bel.ctrlWord, put := fun _ v d => d.putBelCtrl v, kind := .belCtrl }
def railLimitReg : Reg := { perQuad 0xD10000 (fun d q => (d.quad q).limit) with put := fun q v d => d.putRailLimit q v, kind := .railLimit }
def officerKeyReg : Reg := { base := 0xF90000, n := 16, get := fun d k => lo32 (nth d.prc.key k 0), kind := .officerKey }

theorem findIdx_scratch : ∀ w < 4, registers.findIdx (covers (0x90 + 4 * w)) = 9 := by decide
theorem findIdx_resetCtrl : registers.findIdx (covers 0x60) = 6 := by decide
theorem findIdx_belCtrl : registers.findIdx (covers 0x200000) = 24 := by decide
set_option maxRecDepth 4000 in
theorem findIdx_railLimit : ∀ w < 16, registers.findIdx (covers (0xD10000 + 4 * w)) = 186 := by decide
set_option maxRecDepth 4000 in
theorem findIdx_officerKey : ∀ w < 64, registers.findIdx (covers (0xF90000 + 4 * w)) = 221 := by decide

theorem regAt_scratch {w : Nat} (lt : w < 4) : regAt (0x90 + 4 * w) = some (scratchReg, 0) := by
  have here : registers[9]? = some scratchReg := rfl
  have index : (0x90 + 4 * w - 0x90) / 16 = 0 := by omega
  rw [regAt_eq, findIdx_scratch w lt, here]
  exact congrArg (fun i => some (scratchReg, i)) index

theorem regAt_resetCtrl : regAt 0x60 = some (resetCtrlReg, 0) := by
  rw [regAt_eq, findIdx_resetCtrl]
  rfl

theorem regAt_belCtrl : regAt 0x200000 = some (belCtrlReg, 0) := by
  rw [regAt_eq, findIdx_belCtrl]
  rfl

theorem regAt_railLimit {w : Nat} (lt : w < 16) : regAt (0xD10000 + 4 * w) = some (railLimitReg, w / 4) := by
  have here : registers[186]? = some railLimitReg := rfl
  have index : (0xD10000 + 4 * w - 0xD10000) / 16 = w / 4 := by omega
  rw [regAt_eq, findIdx_railLimit w lt, here]
  exact congrArg (fun i => some (railLimitReg, i)) index

theorem regAt_officerKey {w : Nat} (lt : w < 64) : regAt (0xF90000 + 4 * w) = some (officerKeyReg, w / 4) := by
  have here : registers[221]? = some officerKeyReg := rfl
  have index : (0xF90000 + 4 * w - 0xF90000) / 16 = w / 4 := by omega
  rw [regAt_eq, findIdx_officerKey w lt, here]
  exact congrArg (fun i => some (officerKeyReg, i)) index

/-! ### Writes of the scratch register through its aliases (14 R463) -/

/-- A sound whole dword reaches the register that lies there. -/
theorem busWrite_whole {d : Dev} {addr : Nat} (v : Nat) (bus : d.busUp = true) (aligned : addr % 4 = 0) (outside : inMsix addr = false) :
    d.busWrite addr 4 v false = d.writeDword addr (v % 2 ^ 32) := by
  simp [Dev.busWrite, bus, Dev.writeSpan, aligned, outside]

theorem writeDword_scratch {w : Nat} (lt : w < 4) (d : Dev) (x : Nat) : d.writeDword (0x90 + 4 * w) x =
    (d.glbM fun g => { g with scratch := aliasValue w d.glb.scratch x % 2 ^ 32 }).cfgLook := by
  have here : d.regHere (0x90 + 4 * w) = some (scratchReg, 0) := by rw [Dev.regHere, regAt_scratch lt]; rfl
  have through : (0x90 + 4 * w) % 16 / 4 = w := by omega
  rw [Dev.writeDword, here]
  change (if (d.regsUp || false || true) = true then d.applyWrite scratchReg 0 (0x90 + 4 * w) x else d) = _
  rw [Bool.or_true, if_pos rfl, Dev.applyWrite, through]
  rfl

theorem scratch_written (dt w v : Nat) (s : State) (lt : w < 4) (bus : s.dev.busUp = true) (quiet : Quiet s) :
    Does (.registerWrite dt (0x90 + 4 * w) 4 v false) s [.glb, .bdy] fun x =>
      x.glb = { s.dev.glb with scratch := aliasValue w s.dev.glb.scratch (v % 2 ^ 32) % 2 ^ 32 } := by
  have below : ¬ msixBase ≤ 0x90 + 4 * w := by unfold msixBase; omega
  have outside : inMsix (0x90 + 4 * w) = false := by simp [inMsix, below]
  have written := (busWrite_whole (d := s.dev.elapse dt) v (by rw [busUp_elapse]; exact bus) (by omega) outside).trans (writeDword_scratch lt _ _)
  refine Does.actTo (exec_registerWrite dt _ 4 v false s) quiet written ?_ ?_
  · exact ((Only.glbM _ _).mono (by decide)).trans ((Only.cfgLook _).mono (by decide))
  · rw [Dev.settle_glb, (Only.cfgLook _).glb (by decide), Dev.glbM_glb, Dev.elapse_glb]

/-- A masked write leaves the upper half of the register. -/
theorem masked_upper (v x : Nat) : bits (aliasValue 3 v x % 2 ^ 32) 31 16 = bits v 31 16 := by
  have low : (v % 2 ^ 16 - (v % 2 ^ 16 &&& x / 2 ^ 16)) ||| (x % 2 ^ 16 &&& x / 2 ^ 16) < 2 ^ 16 := by
    refine Nat.or_lt_two_pow (lt_of_le_of_lt (Nat.sub_le _ _) (Nat.mod_lt _ (by decide))) ?_
    exact lt_of_le_of_lt Nat.and_le_left (Nat.mod_lt _ (by decide))
  have value : aliasValue 3 v x = v / 2 ^ 16 * 2 ^ 16 + ((v % 2 ^ 16 - (v % 2 ^ 16 &&& x / 2 ^ 16)) ||| (x % 2 ^ 16 &&& x / 2 ^ 16)) := rfl
  rw [bits_eq, bits_eq, value]
  omega

theorem bit_eq_testBit (x i : Nat) : bit x i = x.testBit i := by
  rw [bit, Nat.testBit_eq_decide_div_mod_eq, Nat.shiftRight_eq_div_pow]
  rfl

/-- Half of a number without the bits of a mask. -/
theorem sub_and_div_two (a m : Nat) : (a - (a &&& m)) / 2 = a / 2 - (a / 2 &&& m / 2) ∧ ((a - (a &&& m)) % 2 = 1 ↔ a % 2 = 1 ∧ ¬ m % 2 = 1) := by
  have half : (a &&& m) / 2 = a / 2 &&& m / 2 := Nat.and_div_two
  have le : a / 2 &&& m / 2 ≤ a / 2 := Nat.and_le_left
  have odd : (a &&& m) % 2 = 1 ↔ a % 2 = 1 ∧ m % 2 = 1 := Nat.and_mod_two_eq_one
  generalize a &&& m = p at *
  generalize a / 2 &&& m / 2 = q at *
  constructor <;> omega

/-- The bits that stay when those of a mask are taken out. -/
theorem testBit_sub_and (a m k : Nat) : (a - (a &&& m)).testBit k = (a.testBit k && !m.testBit k) := by
  induction k generalizing a m with
  | zero =>
    simp only [Nat.testBit_zero, (sub_and_div_two a m).2, Bool.decide_and, decide_not]
  | succ k ih => rw [Nat.testBit_add_one, (sub_and_div_two a m).1, ih, ← Nat.testBit_add_one, ← Nat.testBit_add_one]

/-- A masked write changes the bits of the lower half that its mask names. -/
theorem masked_lower (v x : Nat) {k : Nat} (low : k < 16) :
    bit (aliasValue 3 v (x % 2 ^ 32) % 2 ^ 32) k = if bit x (16 + k) then bit x k else bit v k := by
  have fits : (v % 2 ^ 16 - (v % 2 ^ 16 &&& x % 2 ^ 32 / 2 ^ 16)) ||| (x % 2 ^ 32 % 2 ^ 16 &&& x % 2 ^ 32 / 2 ^ 16) < 2 ^ 16 := by
    refine Nat.or_lt_two_pow (lt_of_le_of_lt (Nat.sub_le _ _) (Nat.mod_lt _ (by decide))) ?_
    exact lt_of_le_of_lt Nat.and_le_left (Nat.mod_lt _ (by decide))
  have value : aliasValue 3 v (x % 2 ^ 32) = 2 ^ 16 * (v / 2 ^ 16) +
      ((v % 2 ^ 16 - (v % 2 ^ 16 &&& x % 2 ^ 32 / 2 ^ 16)) ||| (x % 2 ^ 32 % 2 ^ 16 &&& x % 2 ^ 32 / 2 ^ 16)) := by
    rw [Nat.mul_comm]
    rfl
  have named : (x % 2 ^ 32 / 2 ^ 16).testBit k = x.testBit (16 + k) := by
    rw [← Nat.testBit_add, Nat.testBit_mod_two_pow, Nat.add_comm k 16]
    simp
    omega
  simp only [bit_eq_testBit]
  rw [value, Nat.testBit_mod_two_pow, Nat.testBit_two_pow_mul_add _ fits, if_pos low, Nat.testBit_or, testBit_sub_and, Nat.testBit_and, named]
  have inner : k < 32 := by omega
  simp only [Nat.testBit_mod_two_pow, low, inner, decide_true, Bool.true_and]
  cases x.testBit (16 + k) <;> simp

theorem scratch_masked (dt v : Nat) (s : State) (bus : s.dev.busUp = true) (quiet : Quiet s) :
    Does (.registerWrite dt 0x9C 4 v false) s [.glb, .bdy] fun x => bits x.glb.scratch 31 16 = bits s.dev.glb.scratch 31 16 ∧
      (∀ k ∈ List.range 16, bit x.glb.scratch k = if bit v (16 + k) then bit v k else bit s.dev.glb.scratch k) := by
  refine (scratch_written dt 3 v s (by decide) bus quiet).imp fun x written => ?_
  rw [written]
  exact ⟨masked_upper _ _, fun k listed => masked_lower _ _ (List.mem_range.1 listed)⟩

/-! ### Writes without an effect, and reads (14 R464, R466, R467) -/

theorem poisoned_discarded (dt a n v : Nat) (s : State) (quiet : Quiet s) : Does (.registerWrite dt a n v true) s [] fun x =>
    x.hif = s.dev.hif ∧ x.out = s.dev.out := by
  refine Does.actTo (x := s.dev.elapse dt) (exec_registerWrite dt a n v true s) quiet (by simp [Dev.busWrite]) (Only.refl _ _) ?_
  simp

theorem writeSpan_nothing (fuel a data : Nat) (d : Dev) : Dev.writeSpan fuel a 0 data d = d := by cases fuel <;> rfl

/-- Less than a dword inside one dword is at most counted. -/
theorem busWrite_part {d : Dev} {a n : Nat} (v : Nat) (short : n < 4) (inside : a % 4 + n ≤ 4) :
    ∃ c, d.busWrite a n v false = d.when c fun d => d.count (cDev 0) 1 := by
  by_cases bus : d.busUp = true
  · have part : min n (4 - a % 4) = n := by omega
    by_cases none_left : n = 0
    · exact ⟨false, by simp [Dev.busWrite, bus, none_left, writeSpan_nothing, Dev.when]⟩
    · have once : d.busWrite a n v false = if inMsix a then d else d.writePart a := by
        have partial_ : n ≠ 4 := by omega
        simp [Dev.busWrite, bus, Dev.writeSpan, none_left, part, partial_]
      by_cases table : inMsix a = true
      · exact ⟨false, by simp [once, table, Dev.when]⟩
      · refine ⟨d.regsUp && (d.regHere a).isSome, ?_⟩
        rw [once, if_neg table]
        rfl
  · exact ⟨false, by simp [Dev.busWrite, bus, Dev.when]⟩

theorem part_discarded (dt a n v : Nat) (s : State) (short : n < 4) (inside : a % 4 + n ≤ 4) (quiet : Quiet s) :
    Does (.registerWrite dt a n v false) s [] fun x => x.hif = s.dev.hif ∧ x.out = s.dev.out := by
  obtain ⟨c, written⟩ := busWrite_part (d := s.dev.elapse dt) v short inside
  have counted : Only [.cnt] (s.dev.elapse dt) ((s.dev.elapse dt).when c fun d => d.count (cDev 0) 1) := Only.when _ (Only.count _ _ _)
  refine Does.actTo (exec_registerWrite dt a n v false s) quiet written (counted.mono (by decide)) ?_
  rw [Dev.settle_hif, Dev.settle_out, counted.hif (by decide), counted.out (by decide)]
  simp

theorem Only.latch (d : Dev) (a : Nat) : Only [.glb] d (d.latch a) := by
  unfold Dev.latch
  cases d.regHere a with
  | none => exact Only.refl _ d
  | some p =>
    dsimp only
    cases d.regHere (a / 16 * 16 + p.1.pair) with
    | none => exact Only.refl _ d
    | some h => exact Only.ite_iff.2 ⟨fun _ => Only.glbM d _, fun _ => Only.refl _ d⟩

theorem read_told (dt a : Nat) (s : State) (bus : s.dev.busUp = true) (quiet : Quiet s) : Does (.loRegisterRead dt a) s [.glb] fun x =>
    x.out = .readData a ((s.dev.elapse dt).readDword a) :: s.dev.out := by
  refine Does.actTo (exec_loRegisterRead dt a s) quiet (if_pos (by rw [busUp_elapse]; exact bus)) ?_ ?_
  · exact ((Only.emit _ _).mono (by decide)).trans ((Only.latch _ _).mono (by decide))
  · rw [Dev.settle_out, (Only.latch _ _).out (by decide), Dev.emit_out, Dev.elapse_out]

/-! ### The reset control (14 R481) -/

theorem regWrite_resetCtrl {d : Dev} {w : RegWrite} (bus : d.busUp = true) (whole : w.off = 0 ∧ w.len = 4 ∧ w.poisoned = false) :
    d.regWrite 0x60 w = if (resetCtrlKey (w.data % 2 ^ 32) && d.mayWarm) = true then d.askWarm causeHostWarm else d := by
  have here : d.regHere 0x60 = some (resetCtrlReg, 0) := by rw [Dev.regHere, regAt_resetCtrl]; rfl
  rw [regWrite_whole bus whole (by decide) (by decide), Dev.writeDword, here]
  change (if (d.regsUp || true || false) = true then d.applyWrite resetCtrlReg 0 0x60 (w.data % 2 ^ 32) else d) = _
  rw [Bool.or_true, Bool.true_or, if_pos rfl]
  simp [Dev.applyWrite, resetCtrlReg]

theorem reset_asked (dt : Nat) (w : RegWrite) (s : State) (bus : s.dev.busUp = true) (whole : w.off = 0 ∧ w.len = 4 ∧ w.poisoned = false)
    (key : resetCtrlKey (w.data % 2 ^ 32) = true) (may : s.dev.mayWarm = true) (quiet : Quiet s) : Does (.glbResetCtrlWrite dt w) s [.boot] fun x =>
      x.boot = { s.dev.boot with warmDue := some causeHostWarm } := by
  refine Does.actTo (exec_glbResetCtrlWrite dt w s) quiet ((regWrite_resetCtrl (by rw [busUp_elapse]; exact bus) whole).trans (if_pos ?_)) ?_ ?_
  · rw [key, mayWarm_elapse, may]; rfl
  · exact (Only.bootM _ _).mono (by decide)
  · simp [Dev.askWarm]

theorem reset_unasked (dt : Nat) (w : RegWrite) (s : State) (bus : s.dev.busUp = true) (whole : w.off = 0 ∧ w.len = 4 ∧ w.poisoned = false)
    (other : resetCtrlKey (w.data % 2 ^ 32) = false) (quiet : Quiet s) : Does (.glbResetCtrlWrite dt w) s [] fun x => x.boot = s.dev.boot := by
  refine Does.actTo (exec_glbResetCtrlWrite dt w s) quiet ((regWrite_resetCtrl (by rw [busUp_elapse]; exact bus) whole).trans (if_neg ?_))
    (Only.refl _ _) (by simp)
  rw [other, Bool.false_and]; decide

/-! ### BEL_CTRL (01 R31, 18 R575) -/

theorem bits_mod (v : Nat) {hi lo : Nat} (le : hi < 32) : bits (v % 2 ^ 32) hi lo = bits v hi lo := by
  refine Nat.eq_of_testBit_eq fun i => ?_
  simp only [bits, Nat.testBit_mod_two_pow, Nat.testBit_shiftRight]
  by_cases inside : i < hi + 1 - lo
  · have low : lo + i < 32 := by omega
    simp [low]
  · simp [inside]

theorem bit_mod (v : Nat) {k : Nat} (lt : k < 32) : bit (v % 2 ^ 32) k = bit v k := by
  rw [bit_eq_testBit, bit_eq_testBit, Nat.testBit_mod_two_pow, decide_eq_true lt, Bool.true_and]

@[simp] theorem portList_elapse (d : Dev) (dt : Nat) : (d.elapse dt).portList = d.portList := by simp [Dev.portList]
@[simp] theorem belPort_elapse (d : Dev) (dt n : Nat) : (d.elapse dt).belPort n = d.belPort n := by simp [Dev.belPort]
@[simp] theorem assignedMost_elapse (d : Dev) (dt n : Nat) : (d.elapse dt).assignedMost n = d.assignedMost n := by
  simp [Dev.assignedMost, Dev.assignedActive, Dev.assignedStandby, Dev.portLanes, Dev.port, Dev.ttbLane]
@[simp] theorem rateNum_elapse (d : Dev) (dt n a : Nat) : (d.elapse dt).rateNum n a = d.rateNum n a := by
  rw [Dev.rateNum, Dev.rateNum, port_elapse, flexe_elapse]
@[simp] theorem portFits_elapse (d : Dev) (dt : Nat) (b : BelPort) (r slew guard : Nat) :
    (d.elapse dt).portFits b r slew guard = d.portFits b r slew guard := by
  rw [Dev.portFits, Dev.portFits, Dev.periods, Dev.periods, Dev.elapse_bel]
@[simp] theorem overfilledPort_elapse (d : Dev) (dt slew guard : Nat) : (d.elapse dt).overfilledPort slew guard = d.overfilledPort slew guard := by
  simp only [Dev.overfilledPort, portList_elapse, belPort_elapse, assignedMost_elapse, rateNum_elapse, portFits_elapse]

theorem regWrite_belCtrl {d : Dev} {w : RegWrite} (up : d.busUp = true ∧ d.regsUp = true) (whole : w.off = 0 ∧ w.len = 4 ∧ w.poisoned = false) :
    d.regWrite 0x200000 w =
      if bit d.sealScopes 0 then d.lockedWrite 0x200000 else (d.putBelCtrl (w.data % 2 ^ 32 % 2 ^ 32)).cfgLook := by
  have here : d.regHere 0x200000 = some (belCtrlReg, 0) := by rw [Dev.regHere, regAt_belCtrl]; rfl
  rw [regWrite_whole up.1 whole (by decide) (by decide), Dev.writeDword, here, up.2]
  rfl

/-- BEL_CTRL takes a value that overfills no port. -/
theorem putBelCtrl_fits {d : Dev} {v : Nat} (fits : d.overfilledPort (bits v 7 0) (bits v 15 8) = none) :
    d.putBelCtrl v = d.belM fun b => { b with slew := bits v 7 0, guard := bits v 15 8, stepEn := bit v 16 } := by
  simp [Dev.putBelCtrl, fits]

theorem belCtrl_written (dt : Nat) (w : RegWrite) (s : State) (up : s.dev.busUp = true ∧ s.dev.regsUp = true)
    (whole : w.off = 0 ∧ w.len = 4 ∧ w.poisoned = false) (free : bit s.dev.sealScopes 0 = false)
    (fits : s.dev.overfilledPort (bits w.data 7 0) (bits w.data 15 8) = none) (quiet : Quiet s) : Does (.belCtrlWrite dt w) s [.bel, .bdy] fun x =>
      x.bel = { s.dev.bel with slew := bits w.data 7 0, guard := bits w.data 15 8, stepEn := bit w.data 16 } := by
  have slew : bits (w.data % 2 ^ 32 % 2 ^ 32) 7 0 = bits w.data 7 0 := by rw [Nat.mod_mod, bits_mod _ (by decide)]
  have guard : bits (w.data % 2 ^ 32 % 2 ^ 32) 15 8 = bits w.data 15 8 := by rw [Nat.mod_mod, bits_mod _ (by decide)]
  have step : bit (w.data % 2 ^ 32 % 2 ^ 32) 16 = bit w.data 16 := by rw [Nat.mod_mod, bit_mod _ (by decide)]
  have put := putBelCtrl_fits (d := s.dev.elapse dt) (v := w.data % 2 ^ 32 % 2 ^ 32) (by rw [slew, guard, overfilledPort_elapse]; exact fits)
  rw [slew, guard, step] at put
  have written := regWrite_belCtrl (d := s.dev.elapse dt) (by simpa using up) whole
  rw [sealScopes_elapse, if_neg (by rw [free]; decide), put] at written
  refine Does.actTo (exec_belCtrlWrite dt w s) quiet written ?_ ?_
  · exact ((Only.belM _ _).mono (by decide)).trans ((Only.cfgLook _).mono (by decide))
  · rw [Dev.settle_bel, (Only.cfgLook _).bel (by decide), Dev.belM_bel, Dev.elapse_bel]

/-! ### Locked registers (14 R475, R476) -/

theorem Only.lockedWrite (d : Dev) (a : Nat) : Only [.prc, .cnt, .hif, .out] d (d.lockedWrite a) :=
  ((Only.auditFold d _ _ _ _).mono (by decide)).trans ((Only.count _ _ _).mono (by decide))

/-- A reading of the Proctor that leaves out its log is the same after a refused write. -/
theorem lockedWrite_reads {α : Type} (f : Prc → α) (d : Dev) (a : Nat)
    (log : ∀ p l n, f { p with audit := l, auditNext := n } = f p := by intros; rfl)
    (fold : ∀ p l, f { p with audit := l } = f p := by intros; rfl) (noted : ∀ p l, f { p with folded := l } = f p := by intros; rfl) :
    f (d.lockedWrite a).prc = f d.prc := by
  rw [Dev.lockedWrite, Dev.count_prc]
  unfold Dev.auditFold
  split
  · exact fold _ _
  · exact (noted _ _).trans (audit_reads f _ _ _ _ log)

theorem belCtrl_sealed (dt : Nat) (w : RegWrite) (s : State) (up : s.dev.busUp = true ∧ s.dev.regsUp = true)
    (whole : w.off = 0 ∧ w.len = 4 ∧ w.poisoned = false) (locked : bit s.dev.sealScopes 0 = true) (quiet : Quiet s) :
    Does (.belCtrlWrite dt w) s [.prc] fun x => x.prc.sealed = s.dev.prc.sealed ∧ x.prc.key = s.dev.prc.key := by
  have written := (regWrite_belCtrl (d := s.dev.elapse dt) (by simpa using up) whole).trans (if_pos (by rw [sealScopes_elapse]; exact locked))
  refine Does.actTo (exec_belCtrlWrite dt w s) quiet written ((Only.lockedWrite _ _).mono (by decide)) ?_
  rw [Dev.settle_prc, lockedWrite_reads Prc.sealed, lockedWrite_reads Prc.key, Dev.elapse_prc]
  exact ⟨rfl, rfl⟩

/-- What holds before a write of any span inside some addresses, and through each whole dword and each part of one there, holds after it. -/
theorem writeSpan_keeps {I : Dev → Prop} {lo hi : Nat} (outside : ∀ a, lo ≤ a → a < hi → inMsix a = false)
    (dword : ∀ w x d, lo ≤ 4 * w → 4 * w < hi → I d → I (d.writeDword (4 * w) x)) (part : ∀ a d, I d → I (d.writePart a))
    (fuel : Nat) {a len : Nat} (data : Nat) {d : Dev} (above : lo ≤ a) (below : a + len ≤ hi) (now : I d) : I (Dev.writeSpan fuel a len data d) := by
  induction fuel generalizing a len data d with
  | zero => exact now
  | succ fuel ih =>
    unfold Dev.writeSpan
    split
    · exact now
    · rw [outside a above (by omega)]
      refine ih _ (by omega) (by omega) ?_
      by_cases whole : min len (4 - a % 4) = 4
      · obtain ⟨w, rfl⟩ : ∃ w, a = 4 * w := ⟨a / 4, by omega⟩
        rw [if_neg Bool.false_ne_true, if_pos whole]
        exact dword w _ d above (by omega) now
      · rw [if_neg Bool.false_ne_true, if_neg whole]
        exact part a d now

/-- The same for a register's row. -/
theorem regWrite_keeps {I : Dev → Prop} {lo hi : Nat} (outside : ∀ a, lo ≤ a → a < hi → inMsix a = false)
    (dword : ∀ w x d, lo ≤ 4 * w → 4 * w < hi → I d → I (d.writeDword (4 * w) x)) (part : ∀ a d, I d → I (d.writePart a))
    {w : RegWrite} {d : Dev} (inside : lo + w.off % 16 + w.len ≤ hi) (now : I d) : I (d.regWrite lo w) := by
  unfold Dev.regWrite Dev.busWrite
  split
  · exact now
  · exact writeSpan_keeps outside dword part _ _ (by omega) inside now

theorem Only.writePart (d : Dev) (a : Nat) : Only [.cnt] d (d.writePart a) := Only.ite_iff.2 ⟨fun _ => Only.count _ _ _, fun _ => Only.refl _ _⟩

/-! ### The limits of the rails (11 R386) -/

theorem quads_le (p : Part) : p.quads ≤ 4 := by cases p <;> decide

theorem quad_glbM (d : Dev) (f : Glb → Glb) (q : Nat) : (d.glbM f).quad q = d.quad q := rfl

theorem railLimit_here {d : Dev} {q : Nat} (fitted : q < d.glb.part.quads) : d.regHere (0xD10000 + q * 16) = some (railLimitReg, q) := by
  have lt := quads_le d.glb.part
  have place : 0xD10000 + q * 16 = 0xD10000 + 4 * (4 * q) := by omega
  have index : 4 * q / 4 = q := by omega
  have has : railLimitReg.has d q = true := decide_eq_true fitted
  rw [Dev.regHere, place, regAt_railLimit (by omega), index]
  exact if_pos has

/-- A free rail takes its limit, and is locked. -/
theorem railLimit_free {d : Dev} {q : Nat} {w : RegWrite} (up : d.busUp = true ∧ d.regsUp = true) (whole : w.off = 0 ∧ w.len = 4 ∧ w.poisoned = false)
    (fitted : q < d.glb.part.quads) (free : d.glb.railLocks.contains q = false) : d.regWrite (0xD10000 + q * 16) w =
      (d.putRailLimit q (w.data % 2 ^ 32 % 2 ^ 32)).glbM fun g => { g with railLocks := g.railLocks ++ [q] } := by
  have outside : inMsix (0xD10000 + q * 16) = false := by
    have above : ¬ 0xD10000 + q * 16 < msixBase + 4096 := by unfold msixBase; omega
    simp [inMsix, above]
  have direct : (0xD10000 + q * 16) % 16 / 4 = 0 := by omega
  rw [regWrite_whole up.1 whole (by omega) outside, Dev.writeDword, railLimit_here fitted, up.2]
  simp only [Dev.applyWrite, direct]
  change (if d.glb.railLocks.contains q = true then _ else _) = _
  rw [if_neg (by rw [free]; decide)]
  rfl

theorem railLimit_written (dt q : Nat) (w : RegWrite) (s : State) (up : s.dev.busUp = true ∧ s.dev.regsUp = true)
    (whole : w.off = 0 ∧ w.len = 4 ∧ w.poisoned = false) (fitted : q < s.dev.glb.part.quads) (free : s.dev.glb.railLocks.contains q = false)
    (quiet : Quiet s) : Does (.govRailLimitWrite dt q w) s [.gov, .glb, .bdy] fun x =>
      x.quad q = { s.dev.quad q with limit := max 40 (min (bits w.data 9 0) 200) } ∧ x.glb = { s.dev.glb with railLocks := s.dev.glb.railLocks ++ [q] } := by
  have lt := quads_le s.dev.glb.part
  have written := railLimit_free (d := s.dev.elapse dt) (by simpa using up) whole (by simpa using fitted) (by simpa using free)
  refine Does.actTo (exec_govRailLimitWrite dt q w s) quiet ((if_pos (decide_eq_true (by omega))).trans written) ?_ ?_
  · exact ((Only.govM _ _).mono (by decide)).trans ((Only.glbM _ _).mono (by decide))
  · rw [quad_settle, quad_glbM, Dev.settle_glb, Dev.glbM_glb, Dev.putRailLimit, quad_quadM, if_pos rfl, quad_elapse, Nat.mod_mod,
      bits_mod _ (by decide), clamp_eq_max_min (by decide)]
    exact ⟨rfl, by simp [Dev.quadM]⟩

theorem outside_railLimit {a : Nat} (above : 0xD10000 ≤ a) : inMsix a = false := by
  have high : ¬ a < msixBase + 4096 := by unfold msixBase; omega
  simp [inMsix, high]

/-- A dword written to a locked rail is refused. -/
theorem writeDword_railLocked {d : Dev} {q w : Nat} (lt : q < 4) (first : 0xD10000 + q * 16 ≤ 4 * w) (last : 4 * w < 0xD10000 + q * 16 + 16)
    (locked : d.glb.railLocks.contains q = true) (x : Nat) : Only [.prc, .cnt, .hif, .out] d (d.writeDword (4 * w) x) := by
  obtain ⟨v, rfl⟩ : ∃ v, w = 0x344000 + v := ⟨w - 0x344000, by omega⟩
  have place : 4 * (0x344000 + v) = 0xD10000 + 4 * v := by omega
  have index : v / 4 = q := by omega
  rw [Dev.writeDword, Dev.regHere, place, regAt_railLimit (by omega), index]
  dsimp only
  by_cases fitted : railLimitReg.has d q = true
  · rw [if_pos fitted]
    refine Only.ite_iff.2 ⟨fun _ => ?_, fun _ => Only.refl _ d⟩
    have refused : d.applyWrite railLimitReg q (0xD10000 + 4 * v) x = d.lockedWrite (0xD10000 + 4 * v) := if_pos locked
    rw [refused]
    exact Only.lockedWrite _ _
  · rw [if_neg fitted]
    exact Only.refl _ d

theorem railLimit_refused (dt q : Nat) (w : RegWrite) (s : State) (locked : s.dev.glb.railLocks.contains q = true) (inside : w.off % 16 + w.len ≤ 16)
    (quiet : Quiet s) : Does (.govRailLimitWrite dt q w) s [.prc] fun x => x.quad q = s.dev.quad q := by
  have only : Only [.prc, .cnt, .hif, .out] (s.dev.elapse dt) ((s.dev.elapse dt).when (decide (q < 4)) fun d => d.regWrite (0xD10000 + q * 16) w) := by
    by_cases lt : q < 4
    · rw [decide_eq_true lt]
      refine regWrite_keeps (lo := 0xD10000 + q * 16) (hi := 0xD10000 + q * 16 + 16) (I := Only [.prc, .cnt, .hif, .out] (s.dev.elapse dt))
        (fun a above _ => outside_railLimit (by omega)) (fun k x d first last so_far => ?_) (fun a d so_far => ?_) (by omega) (Only.refl _ _)
      · refine so_far.trans (writeDword_railLocked lt first last ?_ x)
        rw [so_far.glb (by decide), Dev.elapse_glb]
        exact locked
      · exact so_far.trans ((Only.writePart d a).mono (by decide))
    · rw [decide_eq_false lt]
      exact Only.refl _ _
  refine Does.act (exec_govRailLimitWrite dt q w s) quiet (only.mono (by decide)) ?_
  rw [quad_settle, only.quad (by decide), quad_elapse]

/-! ### The officer key (18 R570) -/

/-- A free word takes its value and locks; with the sixteenth the key is checked. -/
theorem officerKey_free {d : Dev} {k : Nat} {w : RegWrite} (up : d.busUp = true ∧ d.regsUp = true) (whole : w.off = 0 ∧ w.len = 4 ∧ w.poisoned = false)
    (lt : k < 16) (free : bit d.prc.keyLocks k = false) : d.regWrite (0xF90000 + k * 16) w = d.lockKeyWord k (w.data % 2 ^ 32 % 2 ^ 32) := by
  have outside : inMsix (0xF90000 + k * 16) = false := by
    have above : ¬ 0xF90000 + k * 16 < msixBase + 4096 := by unfold msixBase; omega
    simp [inMsix, above]
  have direct : (0xF90000 + k * 16) % 16 / 4 = 0 := by omega
  have place : 0xF90000 + k * 16 = 0xF90000 + 4 * (4 * k) := by omega
  have index : 4 * k / 4 = k := by omega
  have here : d.regHere (0xF90000 + k * 16) = some (officerKeyReg, k) := by
    rw [Dev.regHere, place, regAt_officerKey (by omega), index]
    rfl
  rw [regWrite_whole up.1 whole (by omega) outside, Dev.writeDword, here, up.2]
  simp only [Dev.applyWrite, direct]
  change (if bit d.prc.keyLocks k = true then _ else _) = _
  rw [if_neg (by rw [free]; decide)]
  rfl

theorem officerKey_written (dt k : Nat) (w : RegWrite) (s : State) (up : s.dev.busUp = true ∧ s.dev.regsUp = true)
    (whole : w.off = 0 ∧ w.len = 4 ∧ w.poisoned = false) (lt : k < 16) (free : bit s.dev.prc.keyLocks k = false)
    (early : setBit s.dev.prc.keyLocks k true ≠ 65535) (quiet : Quiet s) : Does (.officerKeyWrite dt k w) s [.prc] fun x =>
      x.prc = { s.dev.prc with key := s.dev.prc.key.set k (w.data % 2 ^ 32), keyLocks := setBit s.dev.prc.keyLocks k true, keyState := 1 } := by
  have written := officerKey_free (d := s.dev.elapse dt) (by simpa using up) whole lt (by simpa using free)
  have locks : (s.dev.elapse dt).lockKeyWord k (w.data % 2 ^ 32 % 2 ^ 32) = (s.dev.elapse dt).prcM fun p =>
      { p with key := p.key.set k (w.data % 2 ^ 32), keyLocks := setBit p.keyLocks k true, keyState := 1 } := by
    simp [Dev.lockKeyWord, early]
  refine Does.actTo (exec_officerKeyWrite dt k w s) quiet (((if_pos (decide_eq_true lt)).trans written).trans locks) ((Only.prcM _ _).mono (by decide)) ?_
  rw [Dev.settle_prc, Dev.prcM_prc, Dev.elapse_prc]

/-- A dword written to a locked word of the key is refused. -/
theorem writeDword_keyLocked {d : Dev} {k w : Nat} (lt : k < 16) (first : 0xF90000 + k * 16 ≤ 4 * w) (last : 4 * w < 0xF90000 + k * 16 + 16)
    (locked : bit d.prc.keyLocks k = true) (x : Nat) : d.writeDword (4 * w) x = if d.regsUp then d.lockedWrite (4 * w) else d := by
  obtain ⟨v, rfl⟩ : ∃ v, w = 0x3E4000 + v := ⟨w - 0x3E4000, by omega⟩
  have place : 4 * (0x3E4000 + v) = 0xF90000 + 4 * v := by omega
  have index : v / 4 = k := by omega
  have here : d.regHere (0xF90000 + 4 * v) = some (officerKeyReg, k) := by
    rw [Dev.regHere, regAt_officerKey (by omega), index]
    rfl
  have refused : d.applyWrite officerKeyReg k (0xF90000 + 4 * v) x = d.lockedWrite (0xF90000 + 4 * v) := if_pos locked
  rw [Dev.writeDword, place, here, ← refused]
  change (if (d.regsUp || false || false) = true then _ else _) = _
  rw [Bool.or_false, Bool.or_false]

/-- The words of the officer key and which of them are locked. -/
def keyWords (p : Prc) : List Nat × Nat := (p.key, p.keyLocks)

theorem officerKey_refused (dt k : Nat) (w : RegWrite) (s : State) (locked : bit s.dev.prc.keyLocks k = true) (inside : w.off % 16 + w.len ≤ 16)
    (quiet : Quiet s) : Does (.officerKeyWrite dt k w) s [.prc] fun x => x.prc.key = s.dev.prc.key ∧ x.prc.keyLocks = s.dev.prc.keyLocks := by
  have kept : Only [.prc, .cnt, .hif, .out] (s.dev.elapse dt) ((s.dev.elapse dt).when (decide (k < 16)) fun d => d.regWrite (0xF90000 + k * 16) w) ∧
      keyWords ((s.dev.elapse dt).when (decide (k < 16)) fun d => d.regWrite (0xF90000 + k * 16) w).prc = keyWords s.dev.prc := by
    by_cases lt : k < 16
    · rw [decide_eq_true lt]
      refine regWrite_keeps (lo := 0xF90000 + k * 16) (hi := 0xF90000 + k * 16 + 16)
        (I := fun d => Only [.prc, .cnt, .hif, .out] (s.dev.elapse dt) d ∧ keyWords d.prc = keyWords s.dev.prc)
        (fun a above _ => outside_railLimit (by omega)) (fun v x d first last so_far => ?_) (fun a d so_far => ?_) (by omega)
        ⟨Only.refl _ _, by rw [Dev.elapse_prc]⟩
      · obtain ⟨only, words⟩ := so_far
        have locks : d.prc.keyLocks = s.dev.prc.keyLocks := congrArg Prod.snd words
        have still : bit d.prc.keyLocks k = true := by rw [locks]; exact locked
        rw [writeDword_keyLocked lt first last still]
        split
        · exact ⟨only.trans (Only.lockedWrite _ _), (lockedWrite_reads keyWords _ _).trans words⟩
        · exact ⟨only, words⟩
      · obtain ⟨only, words⟩ := so_far
        exact ⟨only.trans ((Only.writePart d a).mono (by decide)), by rw [(Only.writePart d a).prc (by decide)]; exact words⟩
    · rw [decide_eq_false lt]
      exact ⟨Only.refl _ _, congrArg keyWords (Dev.elapse_prc _ _)⟩
  obtain ⟨only, words⟩ := kept
  refine Does.act (exec_officerKeyWrite dt k w s) quiet (only.mono (by decide)) ?_
  rw [Dev.settle_prc]
  exact ⟨congrArg Prod.fst words, congrArg Prod.snd words⟩

/-- Settles O45: the scratch register through its four aliases, the writes that are discarded, the read, and each locked register, free and
locked. -/
theorem registerAccess : Obligations.RegisterAccess :=
  ⟨fun dt v s bus quiet => (scratch_written dt 0 v s (by decide) bus quiet).imp fun x written => by rw [written, aliasValue, Nat.mod_mod],
    fun dt v s bus quiet => scratch_written dt 1 v s (by decide) bus quiet, fun dt v s bus quiet => scratch_written dt 2 v s (by decide) bus quiet,
    scratch_masked, poisoned_discarded, part_discarded, read_told, reset_asked, reset_unasked, belCtrl_written, belCtrl_sealed, railLimit_written,
    railLimit_refused, officerKey_written, officerKey_refused⟩

end Sys2Proof

namespace Sys2Proof

open Sys2Proof.Machine

/-! ## Cold resets and stops (19 R586 to R591, 20 R606) -/

theorem exec_powerOn (dt : Nat) (held : Bool) (flash : List FlashImage) (s : State) : exec (.powerOn dt held flash) s = execPowerOn dt held flash s := rfl
theorem exec_resetPin (dt : Nat) (held : Bool) (flash : List FlashImage) (s : State) : exec (.resetPin dt held flash) s = execResetPin dt held flash s := rfl
theorem exec_clockRestored (dt : Nat) (s : State) : exec (.clockRestored dt) s = execClockRestored dt s := rfl
theorem exec_railOutOfTolerance (dt r : Nat) (s : State) : exec (.railOutOfTolerance dt r) s = execRailOutOfTolerance dt r s := rfl
theorem exec_refclkLoss (dt : Nat) (aux : Bool) (s : State) : exec (.refclkLoss dt aux) s = execRefclkLoss dt aux s := rfl
theorem exec_perstAssert (dt : Nat) (s : State) : exec (.perstAssert dt) s = s.act dt Dev.linkDown := rfl
theorem exec_refclkPcieLoss (dt : Nat) (s : State) : exec (.refclkPcieLoss dt) s = s.act dt Dev.linkDown := rfl

/-! ### What a cold reset leaves (19 R591) -/

/-- The blocks of which a cold reset keeps nothing stand as at reset. -/
structure AsAtReset (x : Dev) : Prop where
  now : x.now = 0
  hif : x.hif = {}
  bel : x.bel = {}
  tim : x.tim = {}
  lne : x.lne = {}
  mac : x.mac = {}
  zbn : x.zbn = {}
  ttb : x.ttb = {}
  prs : x.prs = {}
  fwd : x.fwd = {}
  buf : x.buf = {}
  sch : x.sch = {}
  gov : x.gov = {}
  sub : x.sub = {}
  bdy : x.bdy = {}

theorem AsAtReset.settle {x : Dev} (h : AsAtReset x) : AsAtReset x.settle := by
  obtain ⟨now, hif, bel, tim, lne, mac, zbn, ttb, prs, fwd, buf, sch, gov, sub, bdy⟩ := h
  constructor <;> simpa

theorem AsAtReset.pinsM {x : Dev} (h : AsAtReset x) (f : Pins → Pins) : AsAtReset (x.pinsM f) := { h with }

theorem coldReset_blocks (d : Dev) (cause : Nat) : AsAtReset (d.coldReset cause) := by constructor <;> rfl

theorem coldReset_glb (d : Dev) (cause : Nat) : (d.coldReset cause).glb =
    { part := d.glb.part, cause := 2 ^ cause + 64, afterTrip := cause != causePowerOn && (d.boot.stopped == .trip || d.glb.afterTrip) } := by
  have glb : d.updateCut.glb = d.glb := (Only.updateCut d).glb (by decide)
  have boot : d.updateCut.boot = d.boot := (Only.updateCut d).boot (by decide)
  rw [← glb, ← boot]
  rfl

theorem coldReset_boot (d : Dev) (cause : Nat) : (d.coldReset cause).boot = { eraseFirst := d.boot.eraseFirst } := by
  rw [← (Only.updateCut d).boot (by decide)]
  rfl

theorem coldReset_pins (d : Dev) (cause : Nat) : (d.coldReset cause).pins = { thermtripN := d.pins.thermtripN, flashSelHeld := d.pins.flashSelHeld } := by
  rw [← (Only.updateCut d).pins (by decide)]
  rfl

/-- Of the Proctor a cold reset keeps the key and the log. -/
theorem coldReset_kept (d : Dev) (cause : Nat) : (d.coldReset cause).prc.key = d.prc.key ∧ (d.coldReset cause).prc.audit = d.prc.audit :=
  ⟨updateCut_reads Prc.key d, updateCut_reads Prc.audit d⟩

theorem coldReset_prc {d : Dev} (none_runs : d.prc.update = none) (cause : Nat) : (d.coldReset cause).prc = d.prc.cold := by
  have whole : d.updateCut = d := by simp [Dev.updateCut, none_runs]
  change d.updateCut.prc.cold = _
  rw [whole]

/-- Where no external programmer has written, only the strap is read. -/
theorem flashPath_nothing (d : Dev) : d.flashPath false [] = d.pinsM fun p => { p with flashSelHeld := false } := rfl

/-! ### Power-on, RESET_N and the return of a clock (19 R586, R587) -/

theorem power_on (dt : Nat) (s : State) (kept : s.dev.prc.zeroizing = none) (none_runs : s.dev.prc.update = none)
    (supplied : s.dev.boot.railsOut = [] ∨ 0 ∈ s.dev.boot.railsOut) (quiet : Quiet s) : Gives (.powerOn dt false []) s fun x =>
      x.now = 0 ∧ x.hif = {} ∧ x.bel = {} ∧ x.tim = {} ∧ x.lne = {} ∧ x.mac = {} ∧ x.zbn = {} ∧ x.ttb = {} ∧ x.prs = {} ∧ x.fwd = {} ∧ x.buf = {} ∧ x.sch = {} ∧
        x.gov = {} ∧ x.sub = {} ∧ x.bdy = {} ∧ x.glb = { part := s.dev.glb.part, cause := 65 } ∧ x.pins = {} ∧
        x.boot = { eraseFirst := s.dev.boot.eraseFirst } ∧ x.prc.key = s.dev.prc.key ∧ x.prc.audit = s.dev.prc.audit ∧ x.prc.bankA = s.dev.prc.bankA ∧
        x.prc.sealed = 0 ∧ x.prc.state = .boot := by
  have released : (s.dev.elapse dt).releaseTrip = (s.dev.elapse dt).pinsM fun p => { p with thermtripN := true } := by
    have ends : s.dev.boot.railsOut.isEmpty || s.dev.boot.railsOut.contains 0 := by
      rcases supplied with none_out | main
      · simp [none_out]
      · simp [main]
    unfold Dev.releaseTrip
    rw [Dev.elapse_boot]
    exact if_pos ends
  refine Gives.act (exec_powerOn dt false [] s) quiet ?_
  dsimp only
  rw [Dev.elapse_prc, kept, released, flashPath_nothing]
  obtain ⟨now, hif, bel, tim, lne, mac, zbn, ttb, prs, fwd, buf, sch, gov, sub, bdy⟩ := (coldReset_blocks
    (((s.dev.elapse dt).pinsM fun p => { p with thermtripN := true }).pinsM fun p => { p with flashSelHeld := false }) causePowerOn).settle
  refine ⟨now, hif, bel, tim, lne, mac, zbn, ttb, prs, fwd, buf, sch, gov, sub, bdy, ?_, ?_, ?_, ?_⟩
  · rw [Dev.settle_glb, coldReset_glb]
    simp [causePowerOn]
  · rw [Dev.settle_pins, coldReset_pins]
    rfl
  · rw [Dev.settle_boot, coldReset_boot]
    simp
  · rw [Dev.settle_prc, coldReset_prc (by simpa using none_runs)]
    simp [Prc.cold]

theorem reset_pin (dt : Nat) (s : State) (kept : s.dev.prc.zeroizing = none) (supplied : s.dev.boot.stopped ≠ .supply) (quiet : Quiet s) :
    Gives (.resetPin dt false []) s fun x =>
      x.now = 0 ∧ x.hif = {} ∧ x.bel = {} ∧ x.tim = {} ∧ x.lne = {} ∧ x.mac = {} ∧ x.zbn = {} ∧ x.ttb = {} ∧ x.prs = {} ∧ x.fwd = {} ∧ x.buf = {} ∧ x.sch = {} ∧
        x.gov = {} ∧ x.sub = {} ∧ x.bdy = {} ∧ x.glb.phase = 0 ∧ x.glb.cause = 66 ∧
        x.glb.afterTrip = (s.dev.boot.stopped == .trip || s.dev.glb.afterTrip) ∧ x.prc.key = s.dev.prc.key ∧ x.prc.audit = s.dev.prc.audit ∧
        x.prc.state = .boot := by
  let d := (s.dev.elapse dt).pinsM fun p => { p with flashSelHeld := false }
  have row : (if (s.dev.elapse dt).boot.stopped == .supply || (s.dev.elapse dt).prc.zeroizing.isSome then s.dev.elapse dt
      else (((s.dev.elapse dt).flashPath false []).coldReset causePin).pinsM fun p => { p with thermtripN := true }) =
      (d.coldReset causePin).pinsM fun p => { p with thermtripN := true } := if_neg (by simp [kept, supplied])
  refine Gives.act (exec_resetPin dt false [] s) quiet ?_
  rw [row]
  obtain ⟨now, hif, bel, tim, lne, mac, zbn, ttb, prs, fwd, buf, sch, gov, sub, bdy⟩ := ((coldReset_blocks d causePin).pinsM _).settle
  obtain ⟨key, audit⟩ := coldReset_kept d causePin
  have same : d.prc = s.dev.prc := Dev.elapse_prc _ _
  refine ⟨now, hif, bel, tim, lne, mac, zbn, ttb, prs, fwd, buf, sch, gov, sub, bdy, ?_, ?_, ?_, ?_, ?_, ?_⟩
  · rw [Dev.settle_glb, Dev.pinsM_glb, coldReset_glb]
  · rw [Dev.settle_glb, Dev.pinsM_glb, coldReset_glb]
    simp [causePin]
  · rw [Dev.settle_glb, Dev.pinsM_glb, coldReset_glb]
    simp [causePin, causePowerOn, d]
  · rw [Dev.settle_prc, Dev.pinsM_prc, key, same]
  · rw [Dev.settle_prc, Dev.pinsM_prc, audit, same]
  · rw [Dev.settle_prc]
    rfl

theorem clock_returns (dt : Nat) (s : State) (kept : s.dev.prc.zeroizing = none) (lost : s.dev.boot.stopped = .clock) (quiet : Quiet s) :
    Gives (.clockRestored dt) s fun x => x.now = 0 ∧ x.hif = {} ∧ x.bel = {} ∧ x.mac = {} ∧ x.buf = {} ∧ x.bdy = {} ∧
      x.glb = { part := s.dev.glb.part, cause := 65 } ∧ x.boot.stopped = .no ∧ x.prc.key = s.dev.prc.key := by
  have row : ((s.dev.elapse dt).when ((s.dev.elapse dt).boot.stopped == .clock && (s.dev.elapse dt).prc.zeroizing.isNone) fun d =>
      d.coldReset causePowerOn) = (s.dev.elapse dt).coldReset causePowerOn := if_pos (by simp [kept, lost])
  refine Gives.act (exec_clockRestored dt s) quiet ?_
  rw [row]
  have blocks := (coldReset_blocks (s.dev.elapse dt) causePowerOn).settle
  refine ⟨blocks.now, blocks.hif, blocks.bel, blocks.mac, blocks.buf, blocks.bdy, ?_, ?_, ?_⟩
  · rw [Dev.settle_glb, coldReset_glb]
    simp [causePowerOn]
  · rw [Dev.settle_boot, coldReset_boot]
  · rw [Dev.settle_prc, (coldReset_kept _ _).1, Dev.elapse_prc]

/-! ### Stops (19 R588, 20 R606) -/

/-- A module that still runs stops: its frames are lost. -/
theorem stopAll_running {d : Dev} (runs : d.boot.stopped = .no) (why : Stopped) :
    d.stopAll why = d.loseFrames.bootM fun b => { b with stopped := why } := by
  simp [Dev.stopAll, runs]

theorem loseFrames_boot (d : Dev) : d.loseFrames.boot = d.boot := (Only.loseFrames d).boot (by decide)

/-- A rail is noted as out of tolerance; a module that a lost clock has stopped waits for its supplies. -/
def railNoted (r : Nat) (b : Boot) : Boot :=
  { b with railsOut := r :: b.railsOut.filter (· != r), stopped := if b.stopped == .clock then .supply else b.stopped }

theorem rail_lost (dt r : Nat) (s : State) (has : s.dev.glb.part.hasRail r = true) (runs : s.dev.boot.stopped = .no) (quiet : Quiet s) :
    Does (.railOutOfTolerance dt r) s [.boot, .buf, .sch, .fwd, .ttb, .drc, .bdy] fun x =>
      x.boot = { s.dev.boot with stopped := .supply, railsOut := r :: s.dev.boot.railsOut.filter (· != r) } ∧ x.buf.frames = [] ∧ x.inService = false := by
  let stopped := ((s.dev.elapse dt).loseFrames.bootM fun b => { b with stopped := .supply }).bootM (railNoted r)
  have boot : stopped.boot = { s.dev.boot with stopped := .supply, railsOut := r :: s.dev.boot.railsOut.filter (· != r) } := by
    simp [stopped, railNoted, loseFrames_boot]
  refine Does.actTo (x := stopped) (exec_railOutOfTolerance dt r s) quiet ?_ ?_ ?_
  · rw [Dev.elapse_glb, has]
    exact congrArg (fun d => Dev.bootM d (railNoted r)) (stopAll_running (d := s.dev.elapse dt) (by rw [Dev.elapse_boot]; exact runs) .supply)
  · exact ((Only.loseFrames _).mono (by decide)).trans (((Only.bootM _ _).mono (by decide)).trans ((Only.bootM _ _).mono (by decide)))
  · rw [Dev.settle_boot, Dev.settle_buf]
    exact ⟨boot, loseFrames_frames _, by simp [Dev.inService, boot]⟩

theorem refclk_lost (dt : Nat) (aux : Bool) (s : State) (on : s.dev.boot.clockOn = true) (runs : s.dev.boot.stopped = .no) (quiet : Quiet s) :
    Does (.refclkLoss dt aux) s [.boot, .buf, .sch, .fwd, .ttb, .drc, .bdy] fun x =>
      x.boot = { s.dev.boot with stopped := .clock } ∧ x.buf.frames = [] ∧ x.inService = false := by
  let stopped := (s.dev.elapse dt).loseFrames.bootM fun b => { b with stopped := .clock }
  have boot : stopped.boot = { s.dev.boot with stopped := .clock } := by simp [stopped, loseFrames_boot]
  refine Does.actTo (x := stopped) (exec_refclkLoss dt aux s) quiet ?_ ?_ ?_
  · rw [Dev.elapse_boot, on]
    exact stopAll_running (d := s.dev.elapse dt) (by rw [Dev.elapse_boot]; exact runs) .clock
  · exact ((Only.loseFrames _).mono (by decide)).trans ((Only.bootM _ _).mono (by decide))
  · rw [Dev.settle_boot, Dev.settle_buf]
    exact ⟨boot, loseFrames_frames _, by simp [Dev.inService, boot]⟩

/-! ### The loss of PCI Express (19 R589, 20 R606) -/

/-- The host interface has restarted and its link is down. -/
def linkLost (d : Dev) : Dev := d.restartHif.hifM fun h => { h with linkGen := 0, linkWidth := 0 }

theorem linkLost_hif (d : Dev) : (linkLost d).hif = { restarted d with linkGen := 0, linkWidth := 0 } := by
  rw [linkLost, Dev.hifM_hif, restartHif_hif]

/-- In service, with no command for the reset to end, the loss of the link restarts the host interface and is told to nobody. -/
theorem linkDown_restarts {d : Dev} (up : d.inService = true) (kept : d.prc.zeroizing = none) (done : d.hif.inflight.filter flrEnds = []) :
    Only [.buf, .bdy, .cnt, .hif, .out] d d.linkDown ∧ d.linkDown.hif = (linkLost d).hif := by
  have starts : (d.when (d.inService && d.prc.zeroizing.isNone) fun d => d.flrStart) = d.restartHif := by
    rw [up, kept, ← flrStart_idle done]
    rfl
  obtain ⟨c, down⟩ : ∃ c, d.linkDown = (linkLost d).when c fun d => d.post 0x0205 [.value 0, .value 0] := by
    unfold Dev.linkDown
    dsimp only
    rw [starts]
    exact ⟨_, rfl⟩
  have lost : Only [.buf, .bdy, .cnt, .hif, .out] d (linkLost d) := (Only.restartHif d).trans ((Only.hifM _ _).mono (by decide))
  rw [down]
  cases c with
  | false => exact ⟨lost, rfl⟩
  | true => exact ⟨lost.trans ((Only.post _ _ _).mono (by decide)), post_hif_of_no_rings (by rw [linkLost_hif]; rfl) _ _⟩

/-- A row that takes the link down. -/
theorem link_lost {i : Instr} {dt : Nat} {s : State} (row : exec i s = s.act dt Dev.linkDown) (u : Serving s) (kept : s.dev.prc.zeroizing = none)
    (done : s.dev.hif.inflight.filter flrEnds = []) : Does i s [.buf, .bdy] fun x =>
      x.hif.flr = true ∧ x.hif.rings = [] ∧ x.hif.linkGen = 0 ∧ x.hif.linkWidth = 0 := by
  obtain ⟨only, hif⟩ := linkDown_restarts (d := s.dev.elapse dt) (by rw [Dev.inService_elapse]; exact u.1) (by rw [Dev.elapse_prc]; exact kept)
    (by rw [Dev.elapse_hif]; exact done)
  refine Does.act row u.2 (only.mono (by decide)) ?_
  rw [Dev.settle_hif, hif, linkLost_hif]
  exact ⟨rfl, rfl, rfl, rfl⟩

/-- Settles O50: the three starts are one cold reset with a cause, the two stops lose the frames, and the link goes down as a reset of the
function. -/
theorem coldResets : Obligations.ColdResets :=
  ⟨power_on, reset_pin, clock_returns, rail_lost, refclk_lost, fun dt s => link_lost (exec_perstAssert dt s),
    fun dt s => link_lost (exec_refclkPcieLoss dt s)⟩

end Sys2Proof

namespace Sys2Proof

open Sys2Proof.Machine

/-! ## What goes on beside the pair and leaves it alone

A recorder that is triggered, a lane that is supervised or taken down, a command that ends and cells that come free each reach far into
the module. Of the pair they change only the records on their way, and what has ended stays ended. -/

/-- The pair but for what commands that end and cells that come free change of it. -/
def standing (b : Bdy) : Bdy := { b with nextSeq := 0, own := [], creditOwed := [], held := [] }

/-- The pair and the forwarding table stand; no ring starts, no command comes and no frame is taken. -/
structure Calm (d x : Dev) : Prop where
  pair : standing x.bdy = standing d.bdy
  own : d.bdy.state ≠ .paired → x.bdy.own = d.bdy.own
  fdb : x.fwd.fdb = d.fwd.fdb
  rings : d.hif.rings = [] → x.hif.rings = []
  flight : d.hif.inflight = [] → x.hif.inflight = []
  gone : ∀ g t, d.cmdAt g t = none → x.cmdAt g t = none
  frames : d.buf.frames = [] → x.buf.frames = []
  next : x.buf.nextFrame = d.buf.nextFrame

namespace Calm

theorem refl (d : Dev) : Calm d d := ⟨rfl, fun _ => rfl, rfl, id, id, fun _ _ => id, id, rfl⟩

/-- A part of the pair that nothing here changes. -/
theorem reads {d x : Dev} (h : Calm d x) {α : Type} (f : Bdy → α) (apart : ∀ b, f (standing b) = f b) : f x.bdy = f d.bdy := by
  rw [← apart x.bdy, h.pair, apart]

theorem state {d x : Dev} (h : Calm d x) : x.bdy.state = d.bdy.state := h.reads Bdy.state fun _ => rfl

theorem trans {d e x : Dev} (h : Calm d e) (k : Calm e x) : Calm d x where
  pair := k.pair.trans h.pair
  own p := (k.own (by rw [h.state]; exact p)).trans (h.own p)
  fdb := k.fdb.trans h.fdb
  rings p := k.rings (h.rings p)
  flight p := k.flight (h.flight p)
  gone g t p := k.gone g t (h.gone g t p)
  frames p := k.frames (h.frames p)
  next := k.next.trans h.next

theorem when {d e : Dev} (h : Calm d e) (c : Bool) {f : Dev → Dev} (k : ∀ {y}, Calm d y → Calm d (f y)) : Calm d (e.when c f) := by
  cases c
  · exact h
  · exact k h

theorem each {α : Type} {d e : Dev} (h : Calm d e) (xs : List α) {f : α → Dev → Dev} (k : ∀ a {y}, Calm d y → Calm d (f a y)) :
    Calm d (e.each xs f) := by
  induction xs generalizing e with
  | nil => exact h
  | cons a as ih => exact ih (k a h)

variable {d e : Dev}

theorem ite {c : Prop} {_ : Decidable c} {x y : Dev} (h : Calm d x) (k : Calm d y) : Calm d (if c then x else y) := by split <;> assumption

/-- A change that keeps to other blocks. -/
theorem only (h : Calm d e) {x : Dev} {l : List Area} (o : Only l e x) (apart : ∀ a ∈ l, a ≠ .bdy ∧ a ≠ .fwd ∧ a ≠ .hif ∧ a ≠ .buf) : Calm d x := by
  have bdy := o.bdy fun m => (apart _ m).1 rfl
  have fwd := o.fwd fun m => (apart _ m).2.1 rfl
  have hif := o.hif fun m => (apart _ m).2.2.1 rfl
  have buf := o.buf fun m => (apart _ m).2.2.2 rfl
  exact h.trans ⟨by rw [bdy], fun _ => by rw [bdy], by rw [fwd], by rw [hif]; exact id, by rw [hif]; exact id,
    fun g t => by unfold Dev.cmdAt; rw [hif]; exact id, by rw [buf]; exact id, by rw [buf]⟩

/-- A change of the host interface that starts no ring and brings no command. -/
theorem host (h : Calm d e) {x : Dev} (o : Only tells e x) (flight : x.hif.inflight = e.hif.inflight)
    (rings : e.hif.rings = [] → x.hif.rings = []) : Calm d x := by
  have bdy := o.bdy (by decide)
  exact h.trans ⟨by rw [bdy], fun _ => by rw [bdy], by rw [o.fwd (by decide)], rings, by rw [flight]; exact id,
    fun g t => by unfold Dev.cmdAt; rw [flight]; exact id, by rw [o.buf (by decide)]; exact id, by rw [o.buf (by decide)]⟩

theorem bdyM (h : Calm d e) {f : Bdy → Bdy} (pair : standing (f e.bdy) = standing e.bdy) (own : (f e.bdy).own = e.bdy.own) : Calm d (e.bdyM f) :=
  h.trans ⟨pair, fun _ => own, rfl, id, id, fun _ _ => id, id, rfl⟩

theorem bufM (h : Calm d e) {f : Buf → Buf} (frames : e.buf.frames = [] → (f e.buf).frames = [])
    (next : (f e.buf).nextFrame = e.buf.nextFrame := by rfl) : Calm d (e.bufM f) :=
  h.trans ⟨rfl, fun _ => rfl, rfl, id, id, fun _ _ => id, frames, next⟩

theorem fwdM (h : Calm d e) {f : Fwd → Fwd} (fdb : (f e.fwd).fdb = e.fwd.fdb) : Calm d (e.fwdM f) :=
  h.trans ⟨rfl, fun _ => rfl, fdb, id, id, fun _ _ => id, id, rfl⟩

theorem count (h : Calm d e) (k n : Nat) : Calm d (e.count k n) := h.only (Only.count e k n) (by decide)

theorem emit (h : Calm d e) (o : Out) : Calm d (e.emit o) := h.only (Only.emit e o) (by decide)

theorem fresh (h : Calm d e) : Calm d e.fresh.2 := h.only (Only.fresh e) (by decide)

theorem drcM (h : Calm d e) (f : Drc → Drc) : Calm d (e.drcM f) := h.only (Only.drcM e f) (by decide)

theorem schM (h : Calm d e) (f : Sch → Sch) : Calm d (e.schM f) := h.only (Only.schM e f) (by decide)

theorem zbnM (h : Calm d e) (f : Zbn → Zbn) : Calm d (e.zbnM f) := h.only (Only.zbnM e f) (by decide)

theorem ttbM (h : Calm d e) (f : Ttb → Ttb) : Calm d (e.ttbM f) := h.only (Only.ttbM e f) (by decide)

theorem subM (h : Calm d e) (f : Sub → Sub) : Calm d (e.subM f) := h.only (Only.subM e f) (by decide)

theorem lneM (h : Calm d e) (f : Lne → Lne) : Calm d (e.lneM f) := h.only (Only.lneM e f) (by decide)

theorem macM (h : Calm d e) (f : Mac → Mac) : Calm d (e.macM f) := h.only (Only.macM e f) (by decide)

theorem post (h : Calm d e) (ev : Nat) (items : List Item) : Calm d (e.post ev items) :=
  h.host ((Only.postIn e ev items).mono (by decide)) (HostKept.post e ev items).inflight fun none_up => by rw [post_hif_of_no_rings none_up, none_up]

/-! ### Commands that end -/

/-- What is delivered goes to a ring that runs, or to the ledger. -/
theorem deliver (h : Calm d e) (k : Nat) (c : Compl) : Calm d (e.deliver k c) := by
  refine h.host ((Only.deliverIn e k c).mono (by decide)) ?_ fun none_up => ?_
  · unfold Dev.deliver
    dsimp only
    repeat' split
    all_goals rfl
  · have off : (e.ring (32 + k)).state = .off := by simp [Dev.ring, none_up, AMap.getD]
    rw [Dev.deliver, off]
    simpa using none_up

theorem complete (h : Calm d e) (k : Nat) (c : Compl) : Calm d (e.complete k c) := by
  unfold Dev.complete
  dsimp only
  split
  next paired =>
    refine count (emit ?_ _) _ _
    exact h.trans ⟨rfl, fun apart => absurd (eq_of_beq paired) apart, rfl, id, id, fun _ _ => id, id, rfl⟩
  · exact h.deliver k _

theorem unflight (h : Calm d e) (c : Cmd) : Calm d (e.unflight c) := by
  refine h.trans ⟨rfl, fun _ => rfl, rfl, id, fun none_flies => ?_, fun g t none_flies => ?_, id, rfl⟩
  · simp [Dev.unflight, none_flies]
  · unfold Dev.cmdAt at none_flies ⊢
    rw [List.find?_eq_none] at none_flies ⊢
    intro x flies
    simp only [Dev.unflight, Dev.hifM_hif, List.mem_map, List.mem_filter] at flies
    obtain ⟨y, ⟨flew, _⟩, rfl⟩ := flies
    have other := none_flies y flew
    split <;> exact other

theorem setFate (h : Calm d e) (c : Cmd) (fate : Nat) : Calm d (e.setFate c fate) := h.bdyM rfl rfl

theorem noteLocal (h : Calm d e) (c : Cmd) : Calm d (e.noteLocal c) := by
  unfold Dev.noteLocal
  split
  · exact h.host ((Only.hifM _ _).mono (by decide)) rfl id
  · exact h

theorem finish (h : Calm d e) (c : Cmd) (st r : Nat) : Calm d (e.finish c st r) := by
  unfold Dev.finish
  dsimp only
  split
  · exact (h.unflight c).setFate c _
  · exact (((h.unflight c).when _ fun k => k.noteLocal c).when _ fun k => k.count _ _).complete _ _

theorem finishAt (h : Calm d e) (g t st r : Nat) : Calm d (e.finishAt g t st r) := by
  unfold Dev.finishAt
  split
  · exact h.finish _ st r
  · exact h

theorem finishAll (h : Calm d e) (l : List (Nat × Nat)) (st : Nat) : Calm d (e.finishAll l st) := h.each l fun _ _ k => k.finishAt _ _ _ _

/-! ### The far store and its pages (08 R287, R297 to R300) -/

theorem queueM (h : Calm d e) (q : Nat) (f : Queue → Queue) : Calm d (e.queueM q f) := h.bufM id

theorem pickPage (h : Calm d e) (avoid : Option Nat) : Calm d (e.pickPage avoid).2 := h.only (Only.pickPage e avoid) (by decide)

theorem allocPage (h : Calm d e) (q : Nat) : Calm d (e.allocPage q).2 := by
  unfold Dev.allocPage
  dsimp only
  refine bufM (when (h.pickPage none) _ fun k => ?_) id
  exact ((k.pickPage none).pickPage _).queueM q _

theorem wake (h : Calm d e) (q : Nat) : Calm d (e.wake q) := by
  unfold Dev.wake
  split
  · exact (h.queueM q _).count _ _
  · exact h

theorem joinTail (h : Calm d e) (q : Nat) : Calm d (e.joinTail q) := by
  unfold Dev.joinTail
  dsimp only
  split
  · exact h
  · exact (h.queueM q _).when _ fun k => k.wake q

theorem askPage (h : Calm d e) (p rank : Nat) (write : Bool) (first n : Nat) : Calm d (e.askPage p rank write first n) :=
  h.only (Only.askPage e p rank write first n) (by decide)

theorem pageNow (h : Calm d e) (p rank : Nat) (write : Bool) (first n : Nat) : Calm d (e.pageNow p rank write first n) :=
  h.only (Only.pageNow e p rank write first n) (by decide)

theorem tailWords (h : Calm d e) (q : Nat) : Calm d (e.tailWords q) := h.only (Only.tailWords e q) (by decide)

theorem spillLimit (h : Calm d e) : Calm d e.spillLimit := by
  unfold Dev.spillLimit
  split
  · split
    · exact (h.bufM id).post _ _
    · exact h
  · split
    · exact (h.bufM id).post _ _
    · exact h

theorem writePages (n q : Nat) (h : Calm d e) : Calm d (Dev.writePages n q e) := by
  induction n generalizing e with
  | zero => exact h
  | succ n ih =>
    unfold Dev.writePages
    dsimp only
    split
    · exact h
    · exact ih (((((((h.allocPage q).queueM q _).tailWords q).askPage _ _ _ _ _).drcM _).count _ _).spillLimit)

theorem spillState (h : Calm d e) (q : Nat) : Calm d (e.spillState q) := by
  unfold Dev.spillState
  dsimp only
  split
  · split
    · exact (h.queueM q _).count _ _
    · exact h
  · split
    · exact h.queueM q _
    · split
      · exact h.joinTail q
      · exact h
  · split
    · exact (h.queueM q _).count _ _
    · split
      · exact (h.joinTail q).queueM q _
      · exact h

theorem askPages (n q : Nat) (h : Calm d e) : Calm d (Dev.askPages n q e) := by
  induction n generalizing e with
  | zero => exact h
  | succ n ih =>
    unfold Dev.askPages
    dsimp only
    split
    · split
      · exact ih ((((h.askPage _ _ _ _ _).queueM q _).drcM _).only (Only.panicLook _ _) (by decide))
      · exact h
    · exact h

theorem spillStep (h : Calm d e) (q : Nat) : Calm d (e.spillStep q) := by
  unfold Dev.spillStep
  split
  · exact h
  · have moved := askPages (((((e.spillState q).spillState q).spillState q).queue q).f.length) q (((h.spillState q).spillState q).spillState q)
    dsimp only
    split
    · exact (askPages _ q ((writePages _ q moved).spillState q)).spillLimit
    · exact (askPages _ q (moved.spillState q)).spillLimit

theorem keptFreed (h : Calm d e) : Calm d e.keptFreed := h.only (Only.keptFreed e) (by decide)

theorem farFreed (h : Calm d e) : Calm d e.farFreed := h.spillLimit.when _ fun k => k.each _ fun q _ k => k.spillStep q

/-! ### Recorders (07 R263 to R266) -/

theorem regionM (h : Calm d e) (r : Nat) (f : Region → Region) : Calm d (e.regionM r f) := h.fwdM rfl

theorem writeRecPage (h : Calm d e) (r : Nat) : Calm d (e.writeRecPage r) := ((h.pageNow _ _ _ _ _).regionM r _).count _ _

theorem rearmRegion (h : Calm d e) (r : Nat) : Calm d (e.rearmRegion r) := (h.regionM r _).finishAll _ _

theorem disableRegion (h : Calm d e) (r : Nat) : Calm d (e.disableRegion r) :=
  ((((h.bufM id).keptFreed.farFreed).regionM r _).finishAll _ _).finishAll _ _

theorem afterFrozen (h : Calm d e) (r : Nat) : Calm d (e.afterFrozen r) := by
  unfold Dev.afterFrozen
  split
  · split
    · exact h
    · exact h.rearmRegion r
  · exact h.disableRegion r

theorem toFrozen (h : Calm d e) (r : Nat) : Calm d (e.toFrozen r) := by
  unfold Dev.toFrozen
  dsimp only
  split
  · exact (h.regionM r _).fresh.post _ _
  · exact (h.regionM r _).post _ _

theorem freeze (h : Calm d e) (r : Nat) : Calm d (e.freeze r) := by
  unfold Dev.freeze
  dsimp only
  split
  · exact (((h.regionM r _).toFrozen r).finishAll _ _).afterFrozen r
  · exact ((((h.writeRecPage r).regionM r _).toFrozen r).finishAll _ _).afterFrozen r

theorem fireRegion (h : Calm d e) (r code : Nat) : Calm d (e.fireRegion r code) := by
  unfold Dev.fireRegion
  dsimp only
  split
  · exact ((h.regionM r _).post _ _).freeze r
  · exact (h.regionM r _).post _ _

theorem triggerRegion (h : Calm d e) (r code : Nat) : Calm d (e.triggerRegion r code) := by
  unfold Dev.triggerRegion
  split
  · exact h.fireRegion r code
  · exact h.count _ _
  · exact h.count _ _
  · exact h

theorem trigger (h : Calm d e) (code : Nat) : Calm d (e.trigger code) := h.each _ fun r _ k => k.when _ fun k => k.triggerRegion r code

/-! ### Protection and lanes (03 R121, 04 R143 to R145, 05 R184 to R186) -/

theorem protM (h : Calm d e) (i : Nat) (f : Prot → Prot) : Calm d (e.protM i f) := h.only (Only.protM e i f) (by decide)

theorem protDecide (h : Calm d e) (i : Nat) : Calm d (e.protDecide i) :=
  (h.protM i _).when _ fun k => (((k.count _ _).when _ fun k => (k.count _ _).protM i _).post _ _).trigger 1

theorem protRefresh (h : Calm d e) (i : Nat) : Calm d (e.protRefresh i) := (h.protM i _).protDecide i

theorem protScan (h : Calm d e) : Calm d e.protScan := h.each _ fun i _ k => k.protRefresh i

theorem protReset (h : Calm d e) (i : Nat) (f : Prot → Prot) : Calm d (e.protReset i f) :=
  (h.protM i _).when _ fun k => ((k.count _ _).post _ _).trigger 1

theorem rewire (h : Calm d e) (i : Nat) : Calm d (e.rewire i) := by
  unfold Dev.rewire
  dsimp only
  split
  · split
    · exact h.protM i _
    · exact (h.protReset i _).protRefresh i
  · split
    · exact h.protReset i id
    · exact h

theorem rewireAll (h : Calm d e) : Calm d e.rewireAll := h.each _ fun i _ k => k.rewire i

theorem zlaneM (h : Calm d e) (l : Nat) (f : ZLane → ZLane) : Calm d (e.zlaneM l f) := h.zbnM _

theorem ttbLaneM (h : Calm d e) (l : Nat) (f : TtbLane → TtbLane) : Calm d (e.ttbLaneM l f) := h.ttbM _

theorem forwardSlot (h : Calm d e) (l s : Nat) (blocks : List Block) (bad : Bool) : Calm d (e.forwardSlot l s blocks bad) :=
  h.only (Only.forwardSlot e l s blocks bad) (by decide)

theorem superviseLane (h : Calm d e) (l : Nat) : Calm d (e.superviseLane l) := by
  unfold Dev.superviseLane
  split
  · exact h
  · refine protScan (((h.zlaneM l _).when _ fun k => ((k.zlaneM l _).post _ _).when _ fun k => k.trigger 2).each _ fun s _ k => ?_)
    exact (k.when _ fun k => (k.zbnM _).post _ _).when _ fun k => k.forwardSlot l s [] false

theorem switchFail (h : Calm d e) (l reason : Nat) : Calm d (e.switchFail l reason) := by
  unfold Dev.switchFail
  split
  · exact h
  · exact ((h.ttbLaneM l _).post _ _).finishAt _ _ _ _

theorem hsFail (h : Calm d e) (l reason : Nat) : Calm d (e.hsFail l reason) :=
  ((h.zlaneM l _).when _ fun k => (k.count _ _).post _ _).switchFail l reason

theorem huntLane (h : Calm d e) (l : Nat) : Calm d (e.huntLane l) := h.only (Only.huntLane e l) (by decide)

theorem leaveSync (h : Calm d e) (l : Nat) : Calm d (e.leaveSync l) := (((h.huntLane l).count _ _).hsFail l 4).superviseLane l

theorem failMgmt (h : Calm d e) (l : Nat) : Calm d (e.failMgmt l) := (h.zlaneM l _).finishAll _ _

theorem zubenLaneChange (h : Calm d e) (i : Nat) (wasUp : Bool) : Calm d (e.zubenLaneChange i wasUp) := by
  unfold Dev.zubenLaneChange
  dsimp only
  split
  · exact h
  · split
    · split
      · exact h
      · split
        · exact (h.huntLane _).superviseLane _
        · split
          · exact (h.failMgmt _).leaveSync _
          · exact ((h.failMgmt _).huntLane _).superviseLane _
    · split
      · exact h
      · split
        · exact (h.huntLane i).only (Only.subStep _ i 1) (by decide)
        · split
          · exact (h.huntLane i).count _ _
          · exact h.huntLane i

theorem laneTo (h : Calm d e) (i : Nat) (new : LaneState) (f : Lane → Lane) : Calm d (e.laneTo i new f) :=
  (((h.lneM _).when _ fun k => k.when _ fun k => k.count _ _).when _ fun k => k.post _ _).zubenLaneChange i _

/-! ### Frames whose last copy goes (08 R286, R291) -/

theorem frameM (h : Calm d e) (f : Nat) (g : Frame → Frame) : Calm d (e.frameM f g) := h.bufM fun none_stored => by simp [none_stored, AMap.adjust]

theorem mirrorM (h : Calm d e) (s : Nat) (f : Mirror → Mirror) : Calm d (e.mirrorM s f) := h.fwdM rfl

theorem returnCredit (h : Calm d e) (cls : Nat) : Calm d (e.returnCredit cls) := by
  unfold Dev.returnCredit
  dsimp only
  split
  · exact h
  · exact (h.bdyM rfl rfl).emit _

theorem setXoff (h : Calm d e) (point cls : Nat) (on : Bool) : Calm d (e.setXoff point cls on) :=
  ((h.bufM id).when _ fun k => k.count _ _).when _ fun k => k.macM _

theorem xoffScan (h : Calm d e) : Calm d e.xoffScan := by
  refine h.each _ fun a y k => ?_
  dsimp only
  refine when ?_ _ fun k => k.returnCredit _
  split
  · exact k.when _ fun k => k.setXoff _ _ false
  · exact k.when _ fun k => k.setXoff _ _ true

theorem uncharge (h : Calm d e) (point cls : Nat) (src : CellSource) (n : Nat) : Calm d (e.uncharge point cls src n) := by
  unfold Dev.uncharge
  split
  · exact h
  · exact ((h.bufM id).when _ fun k => k.bdyM rfl rfl).xoffScan

theorem chargeMirrors (h : Calm d e) (f : Nat) : Calm d (e.chargeMirrors f) := by
  unfold Dev.chargeMirrors
  dsimp only
  split
  · exact h
  · refine (frameM ?_ f _).xoffScan
    have before : Calm d (match (e.frameAt f).owner with | some (s, n) => e.mirrorM s fun m => { m with cells := m.cells - n } | none => e) := by
      split
      · exact h.mirrorM _ _
      · exact h
    split
    · exact before.mirrorM _ _
    · exact before

theorem txEnded (h : Calm d e) (fr : Frame) : Calm d (e.txEnded fr) := by
  have told : Calm d (match fr.fate with | some k => e.emit (.buddyMsg bmFate [k, b2n fr.sent, fr.flushed, fr.txTime]) | none => e) := by
    split
    · exact h.emit _
    · exact h
  unfold Dev.txEnded
  dsimp only
  split
  · exact told
  · exact (told.host ((Only.hifM _ _).mono (by decide)) rfl id).complete _ _

theorem settleFrame (h : Calm d e) (f : Nat) : Calm d (e.settleFrame f) := by
  refine ite (bufM ?ended fun none_stored => by rw [none_stored]; rfl) ?ended
  refine ite (txEnded (frameM ?freed f _) _) ?freed
  exact ite (((h.chargeMirrors f).frameM f _).uncharge _ _ _ _) (h.chargeMirrors f)

theorem dropCopy (h : Calm d e) (c : Copy) (left : Bool) : Calm d (e.dropCopy c left) := (h.frameM _ _).settleFrame _

theorem loseAway (h : Calm d e) : Calm d e.loseAway := h.each _ fun _ _ k => (k.frameM _ _).settleFrame _

theorem buddyLaneTo (h : Calm d e) (k : Nat) (new : LaneState) : Calm d (e.buddyLaneTo k new) := h.laneTo _ _ _

end Calm

end Sys2Proof

namespace Sys2Proof

open Sys2Proof.Machine

/-! ## Warm resets and start-up (19 R589 to R597) -/

theorem exec_watchdogExpiry (dt : Nat) (s : State) : exec (.watchdogExpiry dt) s = execWatchdogExpiry dt s := rfl
theorem exec_firmwareActivation (dt : Nat) (s : State) : exec (.firmwareActivation dt) s = execFirmwareActivation dt s := rfl
theorem exec_warmReset (dt k : Nat) (s : State) : exec (.warmReset dt k) s = execWarmReset dt k s := rfl
theorem exec_coreClockStable (dt : Nat) (ok : Bool) (s : State) : exec (.coreClockStable dt ok) s = execCoreClockStable dt ok s := rfl
theorem exec_flashSelRelease (dt : Nat) (s : State) : exec (.flashSelRelease dt) s = execFlashSelRelease dt s := rfl
theorem exec_firmwareVerified (dt k : Nat) (good : Bool) (s : State) : exec (.firmwareVerified dt k good) s = execFirmwareVerified dt k good s := rfl
theorem exec_selftestsDone (dt failed ms : Nat) (s : State) : exec (.selftestsDone dt failed ms) s = execSelftestsDone dt failed ms s := rfl
theorem exec_memoryInitDone (dt : Nat) (failed : List (Nat × Nat)) (s : State) : exec (.memoryInitDone dt failed) s = execMemoryInitDone dt failed s := rfl
theorem exec_drcTrainingDone (dt : Nat) (ts : List LaneTrain) (s : State) : exec (.drcTrainingDone dt ts) s = execDrcTrainingDone dt ts s := rfl

@[simp] theorem inPhase_elapse (d : Dev) (dt k : Nat) : (d.elapse dt).inPhase k = d.inPhase k := by simp [Dev.inPhase]

theorem satTo_min (hi x : Nat) : satTo hi x = min x hi := by unfold satTo; split <;> omega

/-- A module in service runs in phase 5 or 6. -/
theorem inService_phase {d : Dev} (up : d.inService = true) : d.boot.stopped = .no ∧ d.glb.phase ≠ 15 := by
  simp only [Dev.inService, Bool.and_eq_true, Bool.or_eq_true, beq_iff_eq] at up
  exact ⟨up.2, by omega⟩

/-! ### A warm reset is asked for (19 R589) -/

theorem watchdog_asks (dt : Nat) (s : State) (u : Serving s) (kept : s.dev.prc.zeroizing = none) : Does (.watchdogExpiry dt) s [.boot] fun x =>
    x.boot = { s.dev.boot with warmDue := some causeWatchdog } := by
  obtain ⟨runs, not_halted⟩ := inService_phase u.1
  refine Does.actTo (x := (s.dev.elapse dt).askWarm causeWatchdog) (exec_watchdogExpiry dt s) u.2 ?_ ((Only.bootM _ _).mono (by decide)) ?_
  · simp [runs, not_halted, kept, u.1]
  · simp [Dev.askWarm]

theorem activation_asks (dt v w t : Nat) (s : State) (u : Serving s) (kept : s.dev.prc.zeroizing = none) (due : s.dev.prc.activateAt = some t)
    (staged : s.dev.prc.staged = some (v, w)) (same_major : v / 2 ^ 24 = s.dev.glb.fwVersion / 2 ^ 24) :
    Does (.firmwareActivation dt) s [.boot, .prc] fun x => x.boot = { s.dev.boot with warmDue := some causeFwUpdate } ∧
      x.prc = { s.dev.prc with activateAt := none } ∧ x.now = max (s.dev.now + dt) t := by
  obtain ⟨runs, not_halted⟩ := inService_phase u.1
  refine Does.actTo (x := (((s.dev.elapse dt).reach t).prcM fun p => { p with activateAt := none }).askWarm causeFwUpdate)
    (exec_firmwareActivation dt s) u.2 ?_ ?_ ?_
  · simp only [Dev.elapse_prc, Dev.elapse_boot, Dev.elapse_glb, Dev.prcM_glb, Dev.reach_glb, due, staged, same_major, if_true]
    exact if_neg (by simp [runs, not_halted, kept])
  · exact ((Only.reach _ _).mono (by decide)).trans (((Only.prcM _ _).mono (by decide)).trans ((Only.bootM _ _).mono (by decide)))
  · simp [Dev.askWarm]

/-! ### Phases 0 to 4 (19 R594 to R597) -/

/-- The first bell rings on the grid, at most a period from now. -/
theorem firstBell_bel (d : Dev) (runs : 0 < d.bel.period) : d.firstBell.bel.seq = 0 ∧ d.now ≤ d.firstBell.bel.lastAt ∧
    d.firstBell.bel.lastAt < d.now + d.bel.period * qPerNs ∧ d.firstBell.bel.lastAt % (d.bel.period * qPerNs) = 0 ∧
    d.firstBell.bel.nextAt = d.firstBell.bel.lastAt + d.bel.period * qPerNs := by
  have pos : 0 < d.bel.period * qPerNs := Nat.mul_pos runs (by decide)
  have at_grid : d.firstBell.bel.lastAt = (d.now + d.bel.period * qPerNs - 1) / (d.bel.period * qPerNs) * (d.bel.period * qPerNs) := rfl
  have next : d.firstBell.bel.nextAt = d.firstBell.bel.lastAt + d.bel.period * qPerNs := rfl
  have below := Nat.div_mul_le_self (d.now + d.bel.period * qPerNs - 1) (d.bel.period * qPerNs)
  have above := Nat.lt_div_mul_add (a := d.now + d.bel.period * qPerNs - 1) pos
  refine ⟨rfl, ?_, ?_, ?_, next⟩
  · omega
  · omega
  · rw [at_grid, Nat.mul_mod_left]

theorem Only.firstBell (d : Dev) : Only [.time, .cnt, .bel] d d.firstBell :=
  ((Only.reach _ _).mono (by decide)).trans ((Only.belM _ _).mono (by decide))

theorem clock_stable (dt : Nat) (s : State) (starting : s.dev.inPhase 0 = true) (off : s.dev.boot.clockOn = false)
    (released : s.dev.pins.flashSelHeld = false) (runs : 0 < s.dev.bel.period) (quiet : Quiet s) :
    Does (.coreClockStable dt true) s [.bel, .glb, .boot] fun x =>
      x.glb = { s.dev.glb with phase := 1 } ∧ x.boot.clockOn = true ∧ x.bel.seq = 0 ∧ s.dev.now + dt ≤ x.bel.lastAt ∧
        x.bel.lastAt < s.dev.now + dt + s.dev.bel.period * qPerNs ∧ x.bel.lastAt % (s.dev.bel.period * qPerNs) = 0 ∧
        x.bel.nextAt = x.bel.lastAt + s.dev.bel.period * qPerNs := by
  have rung := Only.firstBell (s.dev.elapse dt)
  have bell := firstBell_bel (s.dev.elapse dt) (by simpa using runs)
  refine Does.actTo (x := ((s.dev.elapse dt).firstBell.bootM fun b => { b with clockOn := true }).glbM fun g => { g with phase := 1 })
    (exec_coreClockStable dt true s) quiet ?_ ?_ ?_
  · simp [starting, off, rung.pins (by decide), released]
  · exact (rung.mono (by decide)).trans (((Only.bootM _ _).mono (by decide)).trans ((Only.glbM _ _).mono (by decide)))
  · simpa [rung.glb (by decide)] using bell

theorem clock_fails (dt : Nat) (s : State) (starting : s.dev.inPhase 0 = true) (quiet : Quiet s) : Does (.coreClockStable dt false) s [.glb] fun x =>
    x.glb = { s.dev.glb with phase := 15, haltCode := 2, hifReady := false } := by
  refine Does.actTo (x := (s.dev.elapse dt).halt 2) (exec_coreClockStable dt false s) quiet ?_ ((Only.glbM _ _).mono (by decide)) ?_
  · simp [starting]
  · simp [Dev.halt]

theorem flash_released (dt : Nat) (s : State) (starting : s.dev.inPhase 0 = true) (on : s.dev.boot.clockOn = true)
    (held : s.dev.pins.flashSelHeld = true) (quiet : Quiet s) : Does (.flashSelRelease dt) s [.glb, .pins] fun x =>
      x.glb = { s.dev.glb with phase := 1 } ∧ x.pins = { s.dev.pins with flashSelHeld := false } := by
  have waits : ((s.dev.elapse dt).pinsM fun p => { p with flashSelHeld := false }).inPhase 0 = true := by simpa [Dev.inPhase] using starting
  refine Does.actTo (x := ((s.dev.elapse dt).pinsM fun p => { p with flashSelHeld := false }).glbM fun g => { g with phase := 1 })
    (exec_flashSelRelease dt s) quiet ?_ (((Only.pinsM _ _).mono (by decide)).trans ((Only.glbM _ _).mono (by decide))) ?_
  · simp [held, waits, on, Dev.when]
  · simp

/-- The bank that has been verified runs. -/
def bankRuns (d : Dev) (k : Nat) : Dev :=
  (d.glbM fun g => { g with phase := 2, fwVersion := (d.prc.bankAt k).version }).prcM fun p =>
    { p with bank := k, running := (d.prc.bankAt k).secVersion, staged := none, passed := setBit p.passed 0 true }

theorem bank_verified (dt k : Nat) (s : State) (starting : s.dev.inPhase 1 = true) (boots : s.dev.prc.bootBank = some k) (quiet : Quiet s) :
    Does (.firmwareVerified dt k true) s [.glb, .prc] fun x =>
      x.glb = { s.dev.glb with phase := 2, fwVersion := (s.dev.prc.bankAt k).version } ∧ x.prc.state = .selftest ∧ x.prc.bank = k ∧
        x.prc.running = (s.dev.prc.bankAt k).secVersion := by
  let d := bankRuns (s.dev.elapse dt) k
  let told := d.audit 1 (s.dev.prc.bankAt k).version (k + (s.dev.prc.bankAt k).secVersion * 256)
  have logged : Only [.out, .cnt, .hif, .prc] d (told.setPrc .selftest) := (Only.auditIn _ _ _ _).trans (Only.setPrc _ _)
  refine Does.actTo (x := told.setPrc .selftest) (exec_firmwareVerified dt k true s) quiet ?_ ?_ ?_
  · have may : ¬((s.dev.elapse dt).inPhase 1 = false ∨ (s.dev.elapse dt).prc.bootBank ≠ some k) := by simp [starting, boots]
    refine (if_neg may).trans ?_
    simp only [told, d, bankRuns, Dev.elapse_prc]
    rfl
  · exact (((Only.glbM _ _).mono (by decide)).trans ((Only.prcM _ _).mono (by decide))).trans (logged.mono (by decide))
  · rw [Dev.settle_glb, logged.glb (by decide), Dev.settle_prc, setPrc_prc]
    refine ⟨?_, rfl, ?_, ?_⟩
    · simp [d, bankRuns]
    · exact audit_reads Prc.bank d _ _ _
    · refine (audit_reads Prc.running d _ _ _).trans ?_
      simp [d, bankRuns]

theorem no_bank (dt k : Nat) (s : State) (starting : s.dev.inPhase 1 = true) (none_boots : s.dev.prc.bootBank = none) (quiet : Quiet s) :
    Does (.firmwareVerified dt k false) s [.glb] fun x => x.glb = { s.dev.glb with phase := 15, haltCode := 1, hifReady := false } := by
  refine Does.actTo (x := (s.dev.elapse dt).halt 1) (exec_firmwareVerified dt k false s) quiet ?_ ((Only.glbM _ _).mono (by decide)) ?_
  · simp [starting, none_boots]
  · simp [Dev.halt]

/-- The tests have passed. -/
def testsPassed (d : Dev) (ms : Nat) : Dev :=
  ((d.prcM fun p => { p with powerUpMs := satTo 4095 ms }).glbM fun g => { g with phase := 3 }).prcM fun p =>
    { p with failed := 0, passed := if p.identity then 127 else 63 }

/-- The counter of security versions follows the image that runs. -/
def rollbackRaised (d : Dev) : Dev :=
  if d.prc.rollback < d.prc.running then (d.prcM fun p => { p with rollback := p.running }).audit 9 d.prc.running 0 else d

theorem Only.rollbackRaised (d : Dev) : Only [.out, .cnt, .hif, .prc] d (rollbackRaised d) := by
  simp [Sys2Proof.rollbackRaised, (Only.auditIn _ _ _ _).iff, (Only.prcM _ _).iff, Only.ite_iff, Only.refl]

theorem rollbackRaised_reads {α : Type} (f : Prc → α) (d : Dev)
    (k : ∀ p l n m, f { p with audit := l, auditNext := n, rollback := m } = f p := by intros; rfl) : f (rollbackRaised d).prc = f d.prc := by
  unfold rollbackRaised
  split
  · exact (audit_reads f _ _ _ _ fun p l n => k p l n p.rollback).trans (k d.prc d.prc.audit d.prc.auditNext d.prc.running)
  · rfl

theorem rollbackRaised_rollback (d : Dev) : (rollbackRaised d).prc.rollback = max d.prc.rollback d.prc.running := by
  unfold rollbackRaised
  split
  next lt => exact (audit_reads Prc.rollback _ _ _ _).trans (Nat.max_eq_right (Nat.le_of_lt lt)).symm
  next ge => exact (Nat.max_eq_left (Nat.le_of_not_lt ge)).symm

theorem tests_pass (dt ms : Nat) (s : State) (starting : s.dev.inPhase 2 = true) (known : s.dev.prc.identity = true) (quiet : Quiet s) :
    Does (.selftestsDone dt 0 ms) s [.glb, .prc] fun x =>
      x.glb = { s.dev.glb with phase := 3 } ∧ x.prc.state = .operational ∧ x.prc.passed = 127 ∧ x.prc.powerUpMs = min ms 4095 ∧
        x.prc.rollback = max s.dev.prc.rollback s.dev.prc.running := by
  let d := testsPassed (s.dev.elapse dt) ms
  let told := (d.audit 2 (ms * 1000) 0).setPrc .operational
  have passed : d.prc = { s.dev.prc with powerUpMs := satTo 4095 ms, failed := 0, passed := 127 } := by simp [d, testsPassed, known]
  have logged : Only [.out, .cnt, .hif, .prc] d (rollbackRaised told) :=
    ((Only.auditIn _ _ _ _).trans (Only.setPrc _ _)).trans (Only.rollbackRaised _)
  have reads {α : Type} (f : Prc → α) (k : ∀ p l n st, f { p with audit := l, auditNext := n, state := st } = f p) : f told.prc = f d.prc := by
    rw [setPrc_prc]
    exact (k _ _ _ _).trans (audit_reads f d _ _ _ fun p l n => k p l n p.state)
  refine Does.actTo (x := rollbackRaised told) (exec_selftestsDone dt 0 ms s) quiet ?_ ?_ ?_
  · have known' : d.prc.identity = true := by rw [passed]; exact known
    have start : ¬((!(s.dev.elapse dt).inPhase 2) = true) := by simp [starting]
    refine (if_neg start).trans ?_
    change rollbackRaised ((d.audit 2 (ms * 1000) 0).setPrc (if d.prc.identity = true then .operational else .zeroized)) = _
    rw [known']
    rfl
  · exact (((Only.prcM _ _).mono (by decide)).trans (((Only.glbM _ _).mono (by decide)).trans ((Only.prcM _ _).mono (by decide)))).trans
      (logged.mono (by decide))
  · rw [Dev.settle_glb, logged.glb (by decide), Dev.settle_prc, rollbackRaised_reads Prc.state, rollbackRaised_reads Prc.passed,
      rollbackRaised_reads Prc.powerUpMs, rollbackRaised_rollback, reads Prc.passed (by intros; rfl), reads Prc.powerUpMs (by intros; rfl),
      reads Prc.rollback (by intros; rfl), reads Prc.running (by intros; rfl), passed, ← satTo_min]
    refine ⟨?_, ?_, rfl, rfl, rfl⟩
    · simp [d, testsPassed]
    · rw [setPrc_prc]

theorem bistUnits_none (kind hi : Nat) : bistUnits [] kind hi = [] := by simp [bistUnits]

theorem memory_initialised (dt : Nat) (s : State) (starting : s.dev.inPhase 3 = true) (cold : s.dev.boot.warm = false) (quiet : Quiet s) :
    Does (.memoryInitDone dt []) s [.glb, .drc] fun x =>
      x.glb = { s.dev.glb with phase := 4 } ∧ x.drc = { s.dev.drc with training := true } := by
  refine Does.actTo (x := ((s.dev.elapse dt).glbM fun g => { g with phase := 4 }).drcM fun r => { r with training := true })
    (exec_memoryInitDone dt [] s) quiet ?_ (((Only.glbM _ _).mono (by decide)).trans ((Only.drcM _ _).mono (by decide))) ?_
  · simp [starting, cold, bistUnits_none, Dev.each]
  · simp

/-! ### Phase 5 (10 R359, R360, 19 R594) -/

theorem Only.laneTrained (d : Dev) (t : LaneTrain) : Only [.drc, .out, .cnt, .hif] d (d.laneTrained t) := by
  simp [Dev.laneTrained, (Only.postIn _ _ _).iff, (Only.drcM _ _).iff, Only.when_iff, Only.refl]

theorem Only.mapStack (d : Dev) (k : Nat) : Only [.drc, .out, .cnt, .hif] d (d.mapStack k) := by
  simp [Dev.mapStack, (Only.postIn _ _ _).iff, (Only.stackM _ _ _).iff, (Only.chanM _ _ _).iff, Only.each_iff, Only.when_iff, Only.refl]

theorem Only.drcTrained (d : Dev) (ts : List LaneTrain) : Only [.drc, .buf, .out, .cnt, .hif] d (d.drcTrained ts) := by
  simp [Dev.drcTrained, (Only.postIn _ _ _).iff, (Only.drcM _ _).iff, (Only.bufM _ _).iff, (Only.mapStack _ _).iff, (Only.laneTrained _ _).iff,
    Only.each_iff, Only.refl]

theorem drcTrained_ready (d : Dev) (ts : List LaneTrain) : (d.drcTrained ts).drc.ready = true ∧ (d.drcTrained ts).drc.training = false := by
  unfold Dev.drcTrained
  dsimp only
  rw [Dev.post_drc]
  exact ⟨rfl, rfl⟩

/-- A cold start has nothing to train and no ledger to announce. -/
theorem toPhase5_cold {d : Dev} (cold : d.boot.warm = false) : d.toPhase5 =
    (d.glbM fun g => { g with phase := 5, hifReady := true }).bootM fun b => { b with resetting := false, watchdogs := 0, warm := false } := by
  unfold Dev.toPhase5
  rw [cold]
  rfl

theorem dram_trained (dt : Nat) (ts : List LaneTrain) (s : State) (starting : s.dev.inPhase 4 = true) (cold : s.dev.boot.warm = false)
    (quiet : Quiet s) : Does (.drcTrainingDone dt ts) s [.glb, .boot, .drc, .buf] fun x =>
      x.glb = { s.dev.glb with phase := 5, hifReady := true } ∧ x.drc.ready = true ∧ x.drc.training = false ∧ x.boot.watchdogs = 0 ∧
        x.inService = true := by
  let d := (s.dev.elapse dt).drcTrained ts
  have trained : Only [.drc, .buf, .out, .cnt, .hif] (s.dev.elapse dt) d := Only.drcTrained _ ts
  have glb : d.glb = s.dev.glb := (trained.glb (by decide)).trans (Dev.elapse_glb _ _)
  have boot : d.boot = s.dev.boot := (trained.boot (by decide)).trans (Dev.elapse_boot _ _)
  have runs : s.dev.boot.stopped = .no := by
    simp only [Dev.inPhase, Bool.and_eq_true, beq_iff_eq] at starting
    exact starting.1.2
  refine Does.actTo (exec_drcTrainingDone dt ts s) quiet (x := d.toPhase5) ?_ ?_ ?_
  · simp [starting, Dev.when, d]
  · rw [toPhase5_cold (by rw [boot]; exact cold)]
    exact (trained.mono (by decide)).trans (((Only.glbM _ _).mono (by decide)).trans ((Only.bootM _ _).mono (by decide)))
  · rw [toPhase5_cold (by rw [boot]; exact cold)]
    obtain ⟨ready, training⟩ := drcTrained_ready (s.dev.elapse dt) ts
    simp [Dev.inService, glb, boot, runs, d, ready, training]

/-! ### What a warm reset leaves (19 R591, R592) -/

/-- The areas that a warm reset may change before the phase, the cause and the Proctor are set. -/
def resetWarm : List Area := [.free, .out, .cnt, .hif, .bel, .lne, .mac, .zbn, .ttb, .prs, .fwd, .buf, .sch, .drc, .sub, .bdy]

theorem Only.freeShadow (d : Dev) : Only [.free, .out, .cnt, .hif, .buf, .drc, .sch, .bdy] d d.freeShadow := by
  simp [Dev.freeShadow, (Only.farFreed _).iff, (Only.keptFreed _).iff, (Only.bufM _ _).iff, (Only.bdyM _ _).iff, Only.ite_iff, Only.refl]

theorem Only.pairOff (d : Dev) : Only [.free, .out, .cnt, .hif, .buf, .drc, .sch, .bdy] d d.pairOff := by
  simp [Dev.pairOff, (Only.freeShadow _).iff, (Only.releaseOwn _).iff, (Only.bdyM _ _).iff, Only.refl]

/-- The shadow's pages come back. -/
def shadowPages (d : Dev) : Dev := (d.bufM fun b => { b with farReserved := b.farReserved - 4096 }).keptFreed.farFreed

theorem freeShadow_reserved {d : Dev} (reserved : d.bdy.shadowReserved = true) :
    d.freeShadow = (shadowPages d).bdyM fun b => { b with shadowReserved := false, shadow := [] } := by
  unfold Dev.freeShadow
  rw [if_pos reserved]
  rfl

theorem freeShadow_none {d : Dev} (none_reserved : d.bdy.shadowReserved = false) : d.freeShadow = d := by simp [Dev.freeShadow, none_reserved]

theorem Calm.shadowPages {d e : Dev} (h : Calm d e) : Calm d (shadowPages e) := (h.bufM id).keptFreed.farFreed

/-- Giving the shadow's pages back brings no command. -/
theorem freeShadow_inflight {d : Dev} (none_flies : d.hif.inflight = []) : d.freeShadow.hif.inflight = [] := by
  cases reserved : d.bdy.shadowReserved with
  | true => rw [freeShadow_reserved reserved, Dev.bdyM_hif]; exact (Calm.refl d).shadowPages.flight none_flies
  | false => rw [freeShadow_none reserved]; exact none_flies

/-- The completions that waited for the buddy are written, or enter the ledger. -/
theorem Calm.releaseOwn {d e : Dev} (h : Calm d (e.bdyM fun b => { b with own := [] })) : Calm d e.releaseOwn := by
  refine h.each _ fun o y k => ?_
  cases o with
  | completion n g c => exact k.deliver g c
  | fetch n g c => exact k

theorem pairOff_inflight {d : Dev} (none_flies : d.hif.inflight = []) : d.pairOff.hif.inflight = [] :=
  freeShadow_inflight ((Calm.refl _).releaseOwn.flight none_flies)

theorem Only.restartIn (d : Dev) (f g : Hif → Hif) : Only [.buf, .bdy, .cnt, .hif, .out] d ((d.hifM f).restartHif.hifM g) :=
  ((Only.hifM _ _).mono (by decide)).trans ((Only.restartHif _).trans ((Only.hifM _ _).mono (by decide)))

/-- With no command under way the ledger takes only descriptors and what is owed. -/
theorem warmLedger_idle {d : Dev} (none_flies : d.hif.inflight = []) : ∃ f g, (∀ h, (g h).rings = h.rings) ∧
    d.warmLedger = ((d.hifM f).restartHif).hifM g := by
  refine ⟨fun h => { h with inflight := [], prog := [] }, fun h => { h with
    ledger := h.ledger.map (((d.hifM fun h => { h with inflight := [], prog := [] }).restartHif).txOutcome), tx := [] }, fun _ => rfl, ?_⟩
  unfold Dev.warmLedger
  rw [none_flies]
  rfl

theorem restartHif_state (d : Dev) : d.restartHif.bdy.state = d.bdy.state := by
  unfold Dev.restartHif
  dsimp only
  rw [(Only.each _ (fun _ _ => Only.postIn _ _ _) _).bdy (by decide)]
  rfl

theorem Only.warmSubs (d : Dev) : Only resetWarm d d.warmSubs := by
  simp [resetWarm, Dev.warmSubs, (Only.subM _ _).iff, (Only.dropCopySlot _ _ _).iff, (Only.undoSub _ _).iff, Only.each_iff, Only.ite_iff, Only.refl]

theorem Calm.undoSub {d e : Dev} (h : Calm d e) (x : SubSlot) : Calm d (e.undoSub x) := by
  unfold Dev.undoSub
  split
  · exact h
  · split
    · exact ((h.subM _).laneTo _ _ _).zbnM _
    · exact h.laneTo _ _ _
    · split
      · exact h.only (Only.dropCopySlot _ _ _) (by decide)
      · exact h
    · exact (h.subM _).subM _

theorem Calm.warmSubs {d e : Dev} (h : Calm d e) : Calm d e.warmSubs := by
  unfold Dev.warmSubs
  dsimp only
  refine subM (each (each h _ fun x _ k => (k.undoSub x.2).subM _) _ fun x _ k => ?_) _
  exact ite k (k.only (Only.dropCopySlot _ _ _) (by decide))

theorem Only.warmRegion (d : Dev) (r : Nat) : Only [.free, .out, .cnt, .hif, .fwd, .drc] d (d.warmRegion r) := by
  simp [Dev.warmRegion, (Only.toFrozen _ _).iff, (Only.regionM _ _ _).iff, (Only.writeRecPage _ _).iff, Only.ite_iff, Only.refl]

theorem Calm.warmRegion {d e : Dev} (h : Calm d e) (r : Nat) : Calm d (e.warmRegion r) := by
  unfold Dev.warmRegion
  dsimp only
  split
  · split
    · exact (h.regionM r _).toFrozen r
    · exact ((h.writeRecPage r).regionM r _).toFrozen r
  · split
    · exact (h.regionM r _).toFrozen r
    · exact h

theorem Only.warmBlocks (d : Dev) : Only resetWarm d d.warmBlocks := by
  simp [resetWarm, Dev.warmBlocks, (Only.belM _ _).iff, (Only.warmRegion _ _).iff, (Only.fwdM _ _).iff, (Only.prsM _ _).iff, (Only.rewireAll _).iff,
    (Only.ttbM _ _).iff, (Only.zbnM _ _).iff, (Only.lneM _ _).iff, (Only.macM _ _).iff, Only.each_iff, Only.refl]

theorem Calm.warmBlocks {d e : Dev} (h : Calm d e) : Calm d e.warmBlocks := by
  unfold Dev.warmBlocks
  dsimp only
  refine only ?regions (Only.belM _ _) (by decide)
  refine each (fwdM (only ?wired (Only.prsM _ _) (by decide)) rfl) _ fun r _ k => k.warmRegion r
  exact ((((h.macM _).lneM _).zbnM _).ttbM _).rewireAll

/-! ### The warm reset (19 R591, R592) -/

/-- What a warm reset stops of a module that runs. -/
def blocksStopped (d : Dev) : Dev := d.pairOff.warmLedger.warmSubs.loseFrames.warmBlocks

theorem Only.blocksStopped {d : Dev} (none_flies : d.hif.inflight = []) : Only resetWarm d (blocksStopped d) := by
  obtain ⟨f, g, _, ledger⟩ := warmLedger_idle (pairOff_inflight none_flies)
  have kept : Only resetWarm d d.pairOff.warmLedger := by
    rw [ledger]
    exact ((Only.pairOff _).mono (by decide)).trans ((Only.restartIn _ f g).mono (by decide))
  exact ((kept.trans (Only.warmSubs _)).trans ((Only.loseFrames _).mono (by decide))).trans (Only.warmBlocks _)

theorem loseFrames_state (d : Dev) : d.loseFrames.bdy.state = d.bdy.state := rfl

/-- The host interface is down, no frame is left, and the module is in no pair. -/
theorem blocksStopped_down {d : Dev} (none_flies : d.hif.inflight = []) :
    (blocksStopped d).hif.rings = [] ∧ (blocksStopped d).buf.frames = [] ∧ (blocksStopped d).bdy.state = .off := by
  obtain ⟨f, g, same, ledger⟩ := warmLedger_idle (pairOff_inflight none_flies)
  have rings : d.pairOff.warmLedger.hif.rings = [] := by rw [ledger, Dev.hifM_hif, same, restartHif_hif]; rfl
  have pair : d.pairOff.warmLedger.bdy.state = .off := by
    rw [ledger]
    exact (restartHif_state _).trans rfl
  have subs := (Calm.refl d.pairOff.warmLedger).warmSubs
  have blocks := (Calm.refl d.pairOff.warmLedger.warmSubs.loseFrames).warmBlocks
  refine ⟨blocks.rings ?_, blocks.frames (loseFrames_frames _), blocks.state.trans ((loseFrames_state _).trans (subs.state.trans pair))⟩
  rw [(Only.loseFrames _).hif (by decide)]
  exact subs.rings rings

/-- The last steps of a warm reset: the Proctor starts over, and the cause is kept. -/
def restartsWarm (d : Dev) (k : Nat) : Dev :=
  (((d.setPrc .boot).prcM Prc.warm).glbM fun g =>
    { g with phase := 0, hifReady := false, cause := 2 ^ k, warmCount := satTo 65535 (g.warmCount + 1) }).bootM fun b =>
      { b with resetting := true, warmDue := none }

theorem Calm.restartsWarm {d e : Dev} (h : Calm d e) (k : Nat) : Calm d (restartsWarm e k) := by
  have booting : Calm d (e.setPrc .boot) := by
    unfold Dev.setPrc
    dsimp only
    split
    · exact h
    · exact (h.only (Only.prcM _ _) (by decide)).post _ _
  exact ((booting.only (Only.prcM _ _) (by decide)).only (Only.glbM _ _) (by decide)).only (Only.bootM _ _) (by decide)

theorem restartsWarm_glb (d : Dev) (k : Nat) : (restartsWarm d k).glb =
    { d.glb with phase := 0, hifReady := false, cause := 2 ^ k, warmCount := satTo 65535 (d.glb.warmCount + 1) } := by
  simp [restartsWarm, (Only.setPrc d .boot).glb (by decide)]

theorem restartsWarm_prc (d : Dev) (k : Nat) : (restartsWarm d k).prc = Prc.warm { d.prc with state := .boot } := by
  simp [restartsWarm, setPrc_prc]

theorem restartsWarm_boot (d : Dev) (k : Nat) : (restartsWarm d k).boot = { d.boot with resetting := true, warmDue := none } := by
  simp [restartsWarm, (Only.setPrc d .boot).boot (by decide)]

/-- Whether a module runs that a warm reset stops. -/
def runsPhase (d : Dev) : Bool := d.glb.phase == 5 || d.glb.phase == 6

theorem warmReset_stops {d : Dev} (k : Nat) : d.warmReset k =
    restartsWarm (d.when (runsPhase d) fun d => (blocksStopped d).bootM fun b => { b with warm := true }) k := rfl

theorem reset_warm (dt k : Nat) (s : State) (due : s.dev.boot.warmDue = some k) (runs : s.dev.boot.stopped = .no) (not_halted : s.dev.glb.phase ≠ 15)
    (kept : s.dev.prc.zeroizing = none) (none_flies : s.dev.hif.inflight = []) (quiet : Quiet s) : Gives (.warmReset dt k) s fun x =>
      x.glb.phase = 0 ∧ x.glb.hifReady = false ∧ x.glb.cause = 2 ^ k ∧ x.glb.warmCount = min (s.dev.glb.warmCount + 1) 65535 ∧
        x.boot.resetting = true ∧ x.boot.warmDue = none ∧ x.prc.state = .boot ∧ x.prc.sealed = s.dev.prc.sealed ∧ x.prc.key = s.dev.prc.key ∧
        (s.dev.glb.phase = 5 ∨ s.dev.glb.phase = 6 → x.boot.warm = true ∧ x.hif.rings = [] ∧ x.buf.frames = [] ∧ x.bdy.state = .off) := by
  let d := s.dev.elapse dt
  have idle : d.hif.inflight = [] := by simpa [d] using none_flies
  have stopped := Only.blocksStopped idle
  let y := d.when (runsPhase d) fun d => (blocksStopped d).bootM fun b => { b with warm := true }
  have same : y.glb = s.dev.glb ∧ y.prc = s.dev.prc := by
    rw [← Dev.elapse_glb s.dev dt, ← Dev.elapse_prc s.dev dt]
    cases up : runsPhase d with
    | true => simp [y, up, Dev.when, stopped.glb (by decide), stopped.prc (by decide), d]
    | false => simp [y, up, Dev.when, d]
  obtain ⟨glb, prc⟩ := same
  refine Gives.act (exec_warmReset dt k s) quiet ?_
  have row : ((s.dev.elapse dt).when ((s.dev.elapse dt).boot.warmDue == some k && (s.dev.elapse dt).boot.stopped == .no &&
      (s.dev.elapse dt).glb.phase != 15 && (s.dev.elapse dt).prc.zeroizing.isNone) fun d => d.warmReset k) = restartsWarm y k := by
    rw [← warmReset_stops]
    exact if_pos (by simp [due, runs, not_halted, kept])
  rw [row, Dev.settle_glb, Dev.settle_prc, Dev.settle_boot, Dev.settle_hif, Dev.settle_buf, Dev.settle_bdy, restartsWarm_glb, restartsWarm_prc,
    restartsWarm_boot, glb, prc]
  refine ⟨rfl, rfl, rfl, satTo_min _ _, rfl, rfl, rfl, rfl, rfl, fun up => ?_⟩
  have up' : runsPhase d = true := by simpa [runsPhase, d] using up
  have whole : y = (blocksStopped d).bootM fun b => { b with warm := true } := if_pos up'
  have later := (Calm.refl y).restartsWarm k
  obtain ⟨rings, frames, pair⟩ := blocksStopped_down idle
  refine ⟨?_, later.rings ?_, later.frames ?_, later.state.trans ?_⟩
  · rw [whole, Dev.bootM_boot]
  · rw [whole, Dev.bootM_hif]; exact rings
  · rw [whole, Dev.bootM_buf]; exact frames
  · rw [whole, Dev.bootM_bdy]; exact pair

/-- Settles O51: a warm reset stops what runs and starts over with its cause, and each row of start-up is one phase. -/
theorem warmResetsAndStartUp : Obligations.WarmResetsAndStartUp :=
  ⟨watchdog_asks, activation_asks, reset_warm, clock_stable, clock_fails, flash_released, bank_verified, no_bank, tests_pass, memory_initialised,
    dram_trained⟩

end Sys2Proof

namespace Sys2Proof

open Sys2Proof.Machine

/-! ## Substitutes and wear (16) -/

theorem exec_wearEvaluation (dt k u v : Nat) (s : State) : exec (.wearEvaluation dt k u v) s = execWearEvaluation dt k u v s := rfl
theorem exec_autoSubstitutionStart (dt k u : Nat) (s : State) :
    exec (.autoSubstitutionStart dt k u) s = s.actUp dt fun d => d.inNextBell fun d => d.autoStart k u := rfl
theorem exec_subLaneAgreed (dt k : Nat) (s : State) : exec (.subLaneAgreed dt k) s = execSubLaneAgreed dt k s := rfl
theorem exec_agreeTimeout (dt k : Nat) (s : State) : exec (.agreeTimeout dt k) s = execAgreeTimeout dt k s := rfl
theorem exec_subCopyDone (dt k : Nat) (s : State) : exec (.subCopyDone dt k) s = execSubCopyDone dt k s := rfl
theorem exec_lingerExpiry (dt l : Nat) (s : State) : exec (.lingerExpiry dt l) s = execLingerExpiry dt l s := rfl

/-! ### Wear levels (16 R507) -/

/-- The level that the runs of a unit give it. -/
def levelled (w : Wear) (persist : Nat) : Wear :=
  if w.level < 2 ∧ persist ≤ w.worseAct then { w with level := 2, better := 0 }
  else if w.level = 0 ∧ persist ≤ w.worse then { w with level := 1, better := 0 }
  else if w.level ≠ 0 ∧ persist ≤ w.better then { w with level := w.level - 1, better := 0 }
  else w

/-- The runs of a unit after one more value. -/
def runsOn (w : Wear) (kind persist report act : Nat) (v : Int) : Wear :=
  { w with
    value := v
    worse := runStep persist w.worse (worseThan kind v report)
    worseAct := runStep persist w.worseAct (worseThan kind v act)
    better := runStep persist w.better (w.level != 0 && wellBetter kind v (if w.level = 2 then act else report)) }

theorem evaluate_levelled (w : Wear) (kind persist report act : Nat) (v : Int) :
    w.evaluate kind persist report act v = levelled (runsOn w kind persist report act v) persist := rfl

/-- A level rises only after a full run of worse values. -/
theorem levelled_rises {w : Wear} {persist : Nat} (rises : w.level < (levelled w persist).level) :
    persist ≤ (levelled w persist).worse ∨ persist ≤ (levelled w persist).worseAct := by
  by_cases acts : w.level < 2 ∧ persist ≤ w.worseAct
  · rw [levelled, if_pos acts]
    exact .inr acts.2
  · by_cases reports : w.level = 0 ∧ persist ≤ w.worse
    · rw [levelled, if_neg acts, if_pos reports]
      exact .inl reports.2
    · rw [levelled, if_neg acts, if_neg reports] at rises
      split at rises
      next => exact absurd rises (Nat.not_lt.2 (Nat.sub_le _ _))
      next => exact absurd rises (lt_irrefl _)

/-- A level falls by one at a time. -/
theorem levelled_falls {w : Wear} {persist : Nat} (falls : (levelled w persist).level < w.level) : (levelled w persist).level + 1 = w.level := by
  unfold levelled at falls ⊢
  split at falls
  next acts => dsimp only at falls; omega
  next idle =>
    rw [if_neg idle]
    split at falls
    next reports => dsimp only at falls; omega
    next held =>
      rw [if_neg held]
      split at falls
      next better => rw [if_pos better]; dsimp only; omega
      next => exact absurd falls (lt_irrefl _)

theorem levelled_value (w : Wear) (persist : Nat) : (levelled w persist).value = w.value := by
  unfold levelled
  repeat' split
  all_goals rfl

/-- A unit's wear after an evaluation. -/
def wearNow (d : Dev) (kind u measured : Nat) : Wear :=
  { (d.wear kind u).evaluate kind d.sub.persist (nth d.sub.thresh kind (0, 0)).1 (nth d.sub.thresh kind (0, 0)).2 (d.wearValue kind u measured) with
    fresh := false, lastAt := some d.now }

/-- A unit that reaches level 2 changes no unit's wear, and no time passes. -/
theorem reachedAct_wears (d : Dev) (kind u : Nat) : Only [.out, .cnt, .hif, .sub] d (d.reachedAct kind u) ∧
    (d.reachedAct kind u).sub.wear = d.sub.wear := by
  unfold Dev.reachedAct
  split
  · exact ⟨Only.refl _ d, rfl⟩
  · split
    · exact ⟨Only.refl _ d, rfl⟩
    · split
      · have told : Only [.out, .cnt, .hif] d ((d.count (cDev 289) 1).post 0x1006 [.code kind, .index u, .code ‹Nat›]) :=
          ((Only.count _ _ _).mono (by decide)).trans (Only.postIn _ _ _)
        exact ⟨told.mono (by decide), by rw [told.sub (by decide)]⟩
      · split
        · exact ⟨(Only.subM _ _).mono (by decide), rfl⟩
        · exact ⟨Only.refl _ d, rfl⟩

theorem evaluateWear_wears (d : Dev) (kind u measured : Nat) : Only [.out, .cnt, .hif, .sub] d (d.evaluateWear kind u measured) ∧
    (d.evaluateWear kind u measured).wear kind u = wearNow d kind u measured := by
  let y := d.subM fun s => { s with wear := AMap.set s.wear (wearKey kind u) (wearNow d kind u measured) }
  have kept : Only [.out, .cnt, .hif, .sub] d y := (Only.subM _ _).mono (by decide)
  have noted : y.wear kind u = wearNow d kind u measured := by simp [y, Dev.wear]
  let told := (y.post 0x1001 [.code kind, .index (y.eventUnit kind u), .code (d.wear kind u).level, .code (wearNow d kind u measured).level,
    .value (twos 32 (d.wearValue kind u measured))]).when (decide (kind < 2) && decide (u < 1152)) fun d =>
      d.count (cCluster (if u < 1024 then u / 8 else u - 1024) 0) 1
  have only : Only [.out, .cnt, .hif] y told := (Only.postIn _ _ _).trans (Only.when _ ((Only.count _ _ _).mono (by decide)))
  have sub : told.sub = y.sub := only.sub (by decide)
  have steps : d.evaluateWear kind u measured = if (wearNow d kind u measured).level = (d.wear kind u).level then y
      else if (wearNow d kind u measured).level = 2 then told.reachedAct kind u else told := rfl
  rw [steps]
  split
  · exact ⟨kept, noted⟩
  · split
    · obtain ⟨reached, wear⟩ := reachedAct_wears told kind u
      exact ⟨kept.trans ((only.mono (by decide)).trans reached), by rw [Dev.wear, wear, sub]; exact noted⟩
    · exact ⟨kept.trans (only.mono (by decide)), by rw [Dev.wear, sub]; exact noted⟩

@[simp] theorem wear_elapse (d : Dev) (dt kind u : Nat) : (d.elapse dt).wear kind u = d.wear kind u := by simp [Dev.wear]

@[simp] theorem wear_settle (d : Dev) (kind u : Nat) : d.settle.wear kind u = d.wear kind u := by simp [Dev.wear]

@[simp] theorem slotOf_elapse (d : Dev) (dt k : Nat) : (d.elapse dt).slotOf k = d.slotOf k := by simp [Dev.slotOf]

@[simp] theorem slotOf_settle (d : Dev) (k : Nat) : d.settle.slotOf k = d.slotOf k := by simp [Dev.slotOf]

@[simp] theorem monitored_elapse (d : Dev) (dt kind u : Nat) : (d.elapse dt).monitored kind u = d.monitored kind u := by
  unfold Dev.monitored Dev.hasLane Dev.topLane
  simp

/-- An evaluation says of a unit's wear what its own rule says. -/
theorem evaluateWear_levels (d : Dev) (kind u measured : Nat) :
    ((d.wear kind u).level < ((d.evaluateWear kind u measured).wear kind u).level →
      d.sub.persist ≤ ((d.evaluateWear kind u measured).wear kind u).worse ∨ d.sub.persist ≤ ((d.evaluateWear kind u measured).wear kind u).worseAct) ∧
    (((d.evaluateWear kind u measured).wear kind u).level < (d.wear kind u).level →
      ((d.evaluateWear kind u measured).wear kind u).level + 1 = (d.wear kind u).level) := by
  rw [(evaluateWear_wears d kind u measured).2]
  let w := runsOn (d.wear kind u) kind d.sub.persist (nth d.sub.thresh kind (0, 0)).1 (nth d.sub.thresh kind (0, 0)).2 (d.wearValue kind u measured)
  exact ⟨levelled_rises (w := w), levelled_falls (w := w)⟩

/-- The instant at which a unit's interval ends, where it has been evaluated before. -/
def wearDue (d : Dev) (k u : Nat) : Dev :=
  match (d.wear k u).lastAt with
  | some t => d.reach (t + d.wearInterval k)
  | none => d

theorem Only.wearDue (d : Dev) (k u : Nat) : Only [.time, .cnt] d (wearDue d k u) := by
  unfold Sys2Proof.wearDue
  split
  · exact Only.reach _ _
  · exact Only.refl _ d

theorem interval_evaluated (dt k u v : Nat) (s : State) (up : Serving s) (kind : 3 ≤ k ∧ k < 7) (has : s.dev.monitored k u = true) :
    Does (.wearEvaluation dt k u v) s [.sub] fun x =>
      (x.wear k u).value = (if k = 5 then signed 16 v else (v : Int)) ∧ (x.wear k u).lastAt = some x.now ∧
        ((s.dev.wear k u).level < (x.wear k u).level → s.dev.sub.persist ≤ (x.wear k u).worse ∨ s.dev.sub.persist ≤ (x.wear k u).worseAct) ∧
        ((x.wear k u).level < (s.dev.wear k u).level → (x.wear k u).level + 1 = (s.dev.wear k u).level) := by
  let d := wearDue (s.dev.elapse dt) k u
  have reached : Only [.time, .cnt] (s.dev.elapse dt) d := Only.wearDue _ k u
  have sub : d.sub = s.dev.sub := (reached.sub (by decide)).trans (Dev.elapse_sub _ _)
  have wear : d.wear k u = s.dev.wear k u := by rw [Dev.wear, sub]; rfl
  obtain ⟨only, noted⟩ := evaluateWear_wears d k u v
  have levels := evaluateWear_levels d k u v
  rw [wear, sub] at levels
  refine Does.upTo (x := d.evaluateWear k u v) (exec_wearEvaluation dt k u v s) up ?_ ((reached.mono (by decide)).trans (only.mono (by decide))) ?_
  · have due : readingKind k = false := by simp [readingKind]; omega
    have fit : (decide (7 ≤ k) || !(s.dev.elapse dt).monitored k u) = false := by
      simp [has]; omega
    rw [fit, due]
    rfl
  · rw [wear_settle, Dev.settle_now, only.now (by decide)]
    refine ⟨?_, by rw [noted]; rfl, levels⟩
    rw [noted]
    refine (levelled_value _ _).trans ?_
    obtain ⟨low, high⟩ := kind
    unfold Dev.wearValue
    interval_cases k <;> rfl

theorem reading_evaluated (dt k u v : Nat) (s : State) (up : Serving s) (kind : k < 3) (has : s.dev.monitored k u = true)
    (fresh : (s.dev.wear k u).fresh = true) : Does (.wearEvaluation dt k u v) s [.sub] fun x =>
      (x.wear k u).value = (if k = 0 then ((s.dev.lane u).vert : Int) else if k = 1 then ((s.dev.lane u).horiz : Int) else ((s.dev.chan u).ceLast : Int)) ∧
        (x.wear k u).fresh = false ∧
        ((s.dev.wear k u).level < (x.wear k u).level → s.dev.sub.persist ≤ (x.wear k u).worse ∨ s.dev.sub.persist ≤ (x.wear k u).worseAct) ∧
        ((x.wear k u).level < (s.dev.wear k u).level → (x.wear k u).level + 1 = (s.dev.wear k u).level) := by
  obtain ⟨only, noted⟩ := evaluateWear_wears (s.dev.elapse dt) k u v
  have levels := evaluateWear_levels (s.dev.elapse dt) k u v
  rw [wear_elapse, Dev.elapse_sub] at levels
  refine Does.upTo (x := (s.dev.elapse dt).evaluateWear k u v) (exec_wearEvaluation dt k u v s) up ?_ (only.mono (by decide)) ?_
  · have due : readingKind k = true := by simpa [readingKind] using kind
    have fit : (decide (7 ≤ k) || !(s.dev.elapse dt).monitored k u) = false := by
      simp [has]; omega
    rw [fit, due]
    have fresh' : ((s.dev.elapse dt).wear k u).fresh = true := by rw [wear_elapse]; exact fresh
    exact if_pos fresh'
  · rw [wear_settle]
    refine ⟨?_, by rw [noted]; rfl, levels⟩
    rw [noted]
    refine (levelled_value _ _).trans ?_
    interval_cases k <;> simp [Dev.wearValue, Dev.lane, Dev.chan]

/-! ### What belongs to the next bell (01 R28) -/

/-- The module under the number of the bell whose instant has come, after its flip. -/
def nextBell (d : Dev) : Dev := (d.belM fun b => { b with seq := b.seq + 1 }).flipAt (d.bel.seq + 1)

theorem inNextBell_reached {d : Dev} (reached : d.bel.nextAt ≤ d.now) (f : Dev → Dev) :
    d.inNextBell f = (f (nextBell d)).belM fun b => { b with seq := b.seq - 1 } := if_neg (Nat.not_lt.2 reached)

theorem nextBell_bel (d : Dev) : (nextBell d).bel = { d.bel with seq := d.bel.seq + 1 } := (Only.flipAt _ _).bel (by decide)

theorem Only.nextBell (d : Dev) : Only [.bel, .out, .cnt, .hif] d (nextBell d) :=
  ((Only.belM _ _).mono (by decide)).trans ((Only.flipAt _ _).mono (by decide))

/-- A fault action of the next bell that leaves the bell block alone leaves it as it was. -/
theorem Only.inNextBell {as : List Area} {d : Dev} (reached : d.bel.nextAt ≤ d.now) {f : Dev → Dev} (o : Only as (Sys2Proof.nextBell d) (f (Sys2Proof.nextBell d)))
    (apart : Area.bel ∉ as) : Only ([.out, .cnt, .hif] ++ as) d (d.inNextBell f) := by
  rw [inNextBell_reached reached]
  intro a other
  by_cases bell : a = .bel
  · subst bell
    have same : (f (Sys2Proof.nextBell d)).bel = { d.bel with seq := d.bel.seq + 1 } := (o.bel apart).trans (nextBell_bel d)
    exact congrArg (fun b : Bel => { b with seq := b.seq - 1 }) same
  · have steps : Only ([.bel, .out, .cnt, .hif] ++ as) d ((f (Sys2Proof.nextBell d)).belM fun b => { b with seq := b.seq - 1 }) :=
      ((Only.nextBell d).mono (List.subset_append_left _ _)).trans ((o.mono (List.subset_append_right _ _)).trans
        ((Only.belM _ _).mono fun x m => List.mem_append_left _ (by simp_all)))
    exact steps a (by simp_all)

/-! ### Automatic substitution of a bank (16 R509, R511) -/

/-- Bank u has its copy in spare sp begun in slot k. -/
def bankClaimed (d : Dev) (k u sp : Nat) : Dev :=
  let d := (d.subM fun s => { s with autoDue := s.autoDue.filter fun x => x != (3, u) }).slotM k fun _ =>
    { kind := 3, auto := true, unit := u, total := subTotal 3 u, deadline := d.now + d.sub.autoAgree * qPerS }
  let d := ((d.setUnit 3 u { d.unitAt 3 u with state := 2 }).setUnit 3 sp { d.unitAt 3 sp with state := 2, logical := (d.unitAt 3 u).logical }).slotM k
    fun x => { x with step := 5 }
  d.slotM k fun y => { y with claimed := true, spare := sp }

/-- The claim of a bank's spare is counted and posted. -/
def bankTold (d : Dev) (k u : Nat) : Dev := ((d.count (cDev 284) 1).count (cDev 288) 1).post 0x1002 [.index k, .code 3, .index u, .code 1]

theorem Only.bankClaimed (d : Dev) (k u sp : Nat) : Only [.sub] d (bankClaimed d k u sp) := by
  simp [Sys2Proof.bankClaimed, (Only.slotM _ _ _).iff, (Only.setUnit _ _ _ _).iff, (Only.subM _ _).iff, Only.refl]

theorem Only.bankTold (d : Dev) (k u : Nat) : Only [.out, .cnt, .hif] d (bankTold d k u) :=
  ((Only.count _ _ _).mono (by decide)).trans (((Only.count _ _ _).mono (by decide)).trans (Only.postIn _ _ _))

theorem slotOf_slotM (d : Dev) (k : Nat) (f : SubSlot → SubSlot) : (d.slotM k f).slotOf k = f (d.slotOf k) :=
  (AMap.getD_upd _ _ _ _ _).trans (if_pos rfl)

theorem slotOf_setUnit (d : Dev) (u : Nat) (x : SpareUnit) (k : Nat) : (d.setUnit 3 u x).slotOf k = d.slotOf k := rfl

theorem bankClaimed_due (d : Dev) (k u sp : Nat) : (bankClaimed d k u sp).sub.autoDue = d.sub.autoDue.filter fun x => x != (3, u) := by
  simp [bankClaimed, Dev.slotM, Dev.setUnit]

theorem bankClaimed_spare (d : Dev) (k u sp : Nat) : ((bankClaimed d k u sp).bank sp).state = 2 := by
  simp [bankClaimed, Dev.slotM, Dev.setUnit, Dev.bank]

theorem autoStart_bank {d : Dev} {k u sp : Nat} (due : d.sub.autoDue.contains (3, u) = true) (free : d.freeSlot = some k)
    (idle : d.substituting 3 u = false) (serves : d.unitInService 3 u = true) (spare : d.spareFor 3 u = some sp) :
    d.autoStart 3 u = bankTold (bankClaimed d k u sp) k u := by
  let new : SubSlot := { kind := 3, auto := true, unit := u, total := subTotal 3 u, deadline := d.now + d.sub.autoAgree * qPerS }
  let taken := (d.subM fun s => { s with autoDue := s.autoDue.filter fun x => x != (3, u) }).slotM k fun _ => new
  have slot : taken.slotOf k = new := slotOf_slotM _ _ _
  have spare' : taken.spareFor new.kind new.unit = some sp := spare
  have claim : taken.subClaim k = some (bankTold (bankClaimed d k u sp) k u) := by
    unfold Dev.subClaim
    rw [slot]
    dsimp only
    rw [spare']
    rfl
  have place : (if d.sub.autoDue.contains (3, u) && !((3 : Nat) == 4 && d.stackBusy (u / 32)) then d.freeSlot else none) = some k := by
    rw [due]; exact free
  unfold Dev.autoStart
  rw [place]
  dsimp only
  rw [idle, serves]
  change (match taken.subClaim k with | some d => d | none => _) = _
  rw [claim]

theorem bank_starts (dt k u sp : Nat) (s : State) (up : Serving s) (due : s.dev.sub.autoDue.contains (3, u) = true)
    (reached : s.dev.bel.nextAt ≤ s.dev.now + dt) (free : s.dev.freeSlot = some k) (idle : s.dev.substituting 3 u = false)
    (serves : s.dev.unitInService 3 u = true) (spare : s.dev.spareFor 3 u = some sp) : Does (.autoSubstitutionStart dt 3 u) s [.sub] fun x =>
      (x.slotOf k).claimed = true ∧ (x.slotOf k).kind = 3 ∧ (x.slotOf k).unit = u ∧ (x.slotOf k).spare = sp ∧ (x.slotOf k).auto = true ∧
        (x.bank sp).state = 2 ∧ x.sub.autoDue.contains (3, u) = false := by
  let d := nextBell (s.dev.elapse dt)
  have now : (s.dev.elapse dt).bel.nextAt ≤ (s.dev.elapse dt).now := by simpa using reached
  have sub : d.sub = s.dev.sub := ((Only.nextBell _).sub (by decide)).trans (Dev.elapse_sub _ _)
  have starts : d.autoStart 3 u = bankTold (bankClaimed d k u sp) k u := by
    refine autoStart_bank (by rw [sub]; exact due) ?_ ?_ ?_ ?_
    · rw [Dev.freeSlot, sub]; exact free
    · rw [Dev.substituting, sub]; exact idle
    · simp only [Dev.unitInService, Dev.unitAt, Dev.bank, sub]; exact serves
    · simp only [Dev.spareFor, Dev.unitAt, Dev.bank, sub]; exact spare
  have only : Only [.sub, .out, .cnt, .hif] d (d.autoStart 3 u) := by
    rw [starts]
    exact ((Only.bankClaimed _ _ _ _).mono (by decide)).trans ((Only.bankTold _ _ _).mono (by decide))
  have sub' : ((s.dev.elapse dt).inNextBell fun d => d.autoStart 3 u).settle.sub = (bankClaimed d k u sp).sub := by
    rw [Dev.settle_sub, inNextBell_reached now, Dev.belM_sub]
    exact (congrArg Dev.sub starts).trans ((Only.bankTold _ _ _).sub (by decide))
  refine Does.up (exec_autoSubstitutionStart dt 3 u s) up ((Only.inNextBell now only (by decide)).mono (by decide)) ?_
  have slot : ((s.dev.elapse dt).inNextBell fun d => d.autoStart 3 u).settle.slotOf k = (bankClaimed d k u sp).slotOf k := by
    rw [Dev.slotOf, sub']; rfl
  have bank : ((s.dev.elapse dt).inNextBell fun d => d.autoStart 3 u).settle.bank sp = (bankClaimed d k u sp).bank sp := by
    rw [Dev.bank, sub']; rfl
  have claimed : (bankClaimed d k u sp).slotOf k = { kind := 3, auto := true, unit := u, total := subTotal 3 u, step := 5, claimed := true, spare := sp
                                                     deadline := d.now + d.sub.autoAgree * qPerS } := by
    rw [bankClaimed, slotOf_slotM, slotOf_slotM, slotOf_setUnit, slotOf_setUnit, slotOf_slotM]
  rw [slot, claimed, bank, sub']
  refine ⟨rfl, rfl, rfl, rfl, rfl, ?_, ?_⟩
  · rw [bankClaimed_spare]
  · rw [bankClaimed_due]
    simp

/-! ### Steps of a substitution (16 R513 to R517) -/

theorem lane_agrees (dt k : Nat) (s : State) (up : Serving s) (claimed : (s.dev.slotOf k).claimed = true) (kind : (s.dev.slotOf k).kind = 1)
    (step : (s.dev.slotOf k).step = 2) (matched : 3 ≤ (s.dev.slotOf k).matched) : Does (.subLaneAgreed dt k) s [.sub] fun x =>
      x.slotOf k = { s.dev.slotOf k with step := 3, pos := 3, agreedAt := s.dev.now + dt } := by
  refine Does.upTo (x := (s.dev.elapse dt).slotM k fun x => { x with step := 3, pos := 3, agreedAt := (s.dev.elapse dt).now })
    (exec_subLaneAgreed dt k s) up ?_ ((Only.slotM _ _ _).mono (by decide)) ?_
  · exact if_pos (by simp [SubSlot.compares, claimed, kind, step, matched])
  · rw [slotOf_settle, slotOf_slotM, slotOf_elapse, Dev.elapse_now]

theorem copy_whole (dt k : Nat) (s : State) (up : Serving s) (claimed : (s.dev.slotOf k).claimed = true) (step : (s.dev.slotOf k).step = 5)
    (kind : (s.dev.slotOf k).kind ≠ 4) (granted : s.dev.bgPaused = false) (free : s.dev.subHeld (s.dev.slotOf k) = false) :
    Does (.subCopyDone dt k) s [.sub] fun x => x.slotOf k = { s.dev.slotOf k with step := 6, pos := (s.dev.slotOf k).total } := by
  have free' : (s.dev.elapse dt).subHeld (s.dev.slotOf k) = false := by
    rw [← free]
    unfold Dev.subHeld
    simp only [cmdAt_elapse]
  refine Does.upTo (x := (s.dev.elapse dt).slotM k fun x => { x with step := 6, pos := x.total }) (exec_subCopyDone dt k s) up ?_
    ((Only.slotM _ _ _).mono (by decide)) ?_
  · have paused : (s.dev.elapse dt).bgPaused = false := by simpa [Dev.bgPaused] using granted
    exact if_pos (by rw [slotOf_elapse]; exact ⟨claimed, step, kind, paused, free'⟩)
  · rw [slotOf_settle, slotOf_slotM, slotOf_elapse]

/-! ### Lanes that go OFF -/

/-- A lane that is not UP now begins no step of a substitution. -/
theorem Only.zubenLaneDown {d : Dev} {i : Nat} (down : (d.lane i).state ≠ .up) (wasUp : Bool) :
    Only [.free, .out, .cnt, .hif, .zbn, .ttb, .fwd, .buf, .drc, .bdy] d (d.zubenLaneChange i wasUp) := by
  have not_up : ((d.lane i).state == .up) = false := by simpa using down
  unfold Dev.zubenLaneChange
  rw [not_up]
  dsimp only
  (repeat' split) <;> simp_all [(Only.buddyLosesSync _ _).iff, (Only.leaveSync _ _).iff, (Only.failMgmt _ _).iff, (Only.huntLane _ _).iff,
    (Only.superviseLane _ _).iff, Only.refl]

theorem lane_laneM (d : Dev) (i : Nat) (f : Lane → Lane) : (d.laneM i f).lane i = f (d.lane i) := (AMap.getD_upd _ _ _ _ _).trans (if_pos rfl)

/-- A lane put into a state that is not UP reaches no substitution and is left as it was put. -/
theorem laneTo_down (d : Dev) (i : Nat) {new : LaneState} (down : new ≠ .up) (f : Lane → Lane) :
    Only [.free, .out, .cnt, .hif, .lne, .zbn, .ttb, .fwd, .buf, .drc, .bdy] d (d.laneTo i new f) ∧
      (d.laneTo i new f).lane i = { f (d.lane i) with state := new, since := d.now } := by
  let put := d.laneM i fun x => { f x with state := new, since := d.now }
  let counted := put.when ((d.lane i).state == .up && new != .up) fun d => d.countLane i 0
  let told := counted.when (isBuddyIx i && (d.lane i).state != new) fun x => x.post 0x1108 [.index (i - 1152), .code (d.lane i).state.code, .code new.code]
  have tell : Only [.out, .cnt, .hif] put told :=
    (Only.when _ ((Only.countLane _ _ _).mono (by decide))).trans (Only.when _ (Only.postIn _ _ _))
  have lane : told.lane i = { f (d.lane i) with state := new, since := d.now } := by
    rw [Dev.lane, tell.lne (by decide)]
    exact lane_laneM d i _
  have changes := Only.zubenLaneDown (d := told) (i := i) (by rw [lane]; exact down) ((d.lane i).state == .up)
  have steps : d.laneTo i new f = told.zubenLaneChange i ((d.lane i).state == .up) := rfl
  rw [steps]
  refine ⟨((Only.laneM _ _ _).mono (by decide)).trans ((tell.mono (by decide)).trans (changes.mono (by decide))), ?_⟩
  rw [Dev.lane, changes.lne (by decide)]
  exact lane

/-- A substitution that ends frees its slot. -/
theorem subEnd_slots {d : Dev} (k status result : Nat) (runs : (AMap.find? d.sub.slots k).isSome = true) :
    (d.subEnd k status result).sub.slots = AMap.erase d.sub.slots k := by
  obtain ⟨x, found⟩ := Option.isSome_iff_exists.1 runs
  unfold Dev.subEnd
  rw [found]
  dsimp only
  (repeat' split) <;> simp

theorem subEnd_gone (d : Dev) (k status result : Nat) : AMap.find? (d.subEnd k status result).sub.slots k = none := by
  cases found : AMap.find? d.sub.slots k with
  | none => simp [Dev.subEnd, found]
  | some x => rw [subEnd_slots k status result (by rw [found]; rfl), AMap.find?_erase, if_pos rfl]

theorem agreement_late (dt k : Nat) (s : State) (up : Serving s) (runs : (AMap.find? s.dev.sub.slots k).isSome = true)
    (kind : (s.dev.slotOf k).kind = 2) (step : (s.dev.slotOf k).step < 3) : Does (.agreeTimeout dt k) s (.lne :: .sub :: watched) fun x =>
      AMap.find? x.sub.slots k = none ∧ x.now = max (s.dev.now + dt) (s.dev.slotOf k).deadline := by
  let d := ((s.dev.elapse dt).reach (s.dev.slotOf k).deadline).undoSub (s.dev.slotOf k)
  have undone : Only [.free, .out, .cnt, .hif, .lne, .zbn, .ttb, .fwd, .buf, .drc, .sub, .bdy] ((s.dev.elapse dt).reach (s.dev.slotOf k).deadline) d :=
    Only.undoSub _ _
  have ended := Only.subEnd d k stFailed (if (s.dev.slotOf k).step = 2 then 1 else 2)
  refine Does.upTo (x := d.subEnd k stFailed (if (s.dev.slotOf k).step = 2 then 1 else 2)) (exec_agreeTimeout dt k s) up ?_ ?_ ?_
  · have late : ((s.dev.slotOf k).kind = 1 ∨ (s.dev.slotOf k).kind = 2) ∧ (s.dev.slotOf k).step < 3 ∧
        (AMap.find? (s.dev.elapse dt).sub.slots k).isSome = true := ⟨.inr kind, step, by rw [Dev.elapse_sub]; exact runs⟩
    rw [slotOf_elapse]
    exact if_pos late
  · exact ((Only.reach _ _).mono (by decide)).trans ((undone.mono (by decide)).trans (ended.mono (by decide)))
  · rw [Dev.settle_sub, subEnd_gone, Dev.settle_now, ended.now (by decide), undone.now (by decide), Dev.reach_now, Dev.elapse_now]
    exact ⟨rfl, rfl⟩

theorem linger_ends (dt l t : Nat) (s : State) (up : Serving s) (lingers : AMap.find? s.dev.sub.linger l = some t) :
    Does (.lingerExpiry dt l) s (.lne :: .sub :: watched) fun x =>
      (x.lane l).state = .off ∧ (x.lane l).signal = false ∧ AMap.find? x.sub.linger l = none ∧ x.now = max (s.dev.now + dt) t := by
  let d := ((s.dev.elapse dt).reach t).subM fun s => { s with linger := AMap.erase s.linger l }
  obtain ⟨only, lane⟩ := laneTo_down d l (new := .off) (by decide) fun x => { x with signal := false, cdrLock := false, blockLock := false }
  refine Does.upTo (x := d.laneTo l .off fun x => { x with signal := false, cdrLock := false, blockLock := false }) (exec_lingerExpiry dt l s) up ?_ ?_ ?_
  · simp [lingers, d]
  · exact ((Only.reach _ _).mono (by decide)).trans (((Only.subM _ _).mono (by decide)).trans (only.mono (by decide)))
  · rw [Dev.lane, Dev.settle_lne]
    change ((d.laneTo l .off _).lane l).state = .off ∧ ((d.laneTo l .off _).lane l).signal = false ∧ _
    rw [lane, Dev.settle_sub, only.sub (by decide), Dev.settle_now, only.now (by decide)]
    refine ⟨rfl, rfl, ?_, ?_⟩
    · exact (AMap.find?_erase _ _ _).trans (if_pos rfl)
    · simp [d]

/-- Settles O44: an evaluation is its own rule, each other row one step of a substitution, and a lane that goes OFF begins none. -/
theorem substituteRows : Obligations.SubstituteRows :=
  ⟨interval_evaluated, reading_evaluated, bank_starts, lane_agrees, agreement_late, copy_whole, linger_ends⟩

end Sys2Proof

namespace Sys2Proof

open Sys2Proof.Machine

/-! ## The link of a buddy pair (17 R528 to R533, R539 to R543, R548) -/

theorem exec_pairLinkTimeout (dt : Nat) (s : State) : exec (.pairLinkTimeout dt) s = execPairLinkTimeout dt s := rfl
theorem exec_buddyLinkUp (dt : Nat) (b : BuddyId) (s : State) : exec (.buddyLinkUp dt b) s = execBuddyLinkUp dt b s := rfl
theorem exec_buddyLinkDown (dt p : Nat) (s : State) : exec (.buddyLinkDown dt p) s = execBuddyLinkDown dt p s := rfl
theorem exec_buddyHeartbeatRx (dt : Nat) (h : Heartbeat) (s : State) : exec (.buddyHeartbeatRx dt h) s = execBuddyHeartbeatRx dt h s := rfl
theorem exec_buddyBeatEdge (dt : Nat) (s : State) : exec (.buddyBeatEdge dt) s = execBuddyBeatEdge dt s := rfl
theorem exec_buddyCreditRx (dt c n : Nat) (s : State) : exec (.buddyCreditRx dt c n) s = execBuddyCreditRx dt c n s := rfl
theorem exec_buddyFrameRx (dt : Nat) (f : TransitFrame) (s : State) : exec (.buddyFrameRx dt f) s = s.arrive dt (.buddy f) := rfl
theorem exec_buddySkewAlarm (dt : Nat) (s : State) : exec (.buddySkewAlarm dt) s = execBuddySkewAlarm dt s := rfl
theorem exec_cfgMismatchHeld (dt : Nat) (s : State) : exec (.cfgMismatchHeld dt) s = execCfgMismatchHeld dt s := rfl

/-! ### What the pair's operations leave of its block -/

theorem setPair_bdy (d : Dev) (new : PairState) : (d.setPair new).bdy = { d.bdy with state := new } := by
  unfold Dev.setPair
  dsimp only
  split
  next same => rw [← eq_of_beq same]
  next => rw [Dev.post_bdy]; rfl

/-- The comparison of settings as it stands. -/
def cfgNoted (d : Dev) : Dev :=
  d.bdyM fun b => { b with cfgMismatch := d.cfgDiff != 0, cfgBells := if d.cfgDiff != 0 then b.cfgBells else 0 }

/-- A reading of the pair that leaves out the comparison of settings is the same after they have been compared. -/
theorem cfgLook_reads {α : Type} (f : Bdy → α) (d : Dev)
    (k : ∀ b on n p, f { b with cfgMismatch := on, cfgBells := n, cfgPosted := p } = f b := by intros; rfl) : f d.cfgLook.bdy = f d.bdy := by
  have steps : d.cfgLook = if !(d.cfgDiff != 0) && (cfgNoted d).bdy.cfgPosted then
      ((cfgNoted d).bdyM fun b => { b with cfgPosted := false }).post 0x1107 [.set (cfgNoted d).bdy.cfgSet] else cfgNoted d := rfl
  rw [steps]
  split
  · rw [Dev.post_bdy]
    exact k d.bdy _ _ _
  · exact k d.bdy _ _ d.bdy.cfgPosted

/-- With nothing queued for the link nothing is sent on it. -/
theorem buddyDrain_idle {d : Dev} (none_queued : d.bdy.txq = []) : d.buddyDrain = d := by rw [Dev.buddyDrain, none_queued]; rfl

/-- Every buddy lane is OFF. -/
def lanesOff (d : Dev) : Dev := d.each (List.range 18) fun k d => d.buddyLaneTo k .off

theorem linkOff_lanes (d : Dev) : d.linkOff = (lanesOff d).bdyM fun b => { b with linkUp := false } := rfl

theorem Calm.lanesOff {d e : Dev} (h : Calm d e) : Calm d (lanesOff e) := h.each _ fun i _ k => k.buddyLaneTo i .off

theorem Only.lanesOff (d : Dev) : Only [.free, .out, .cnt, .hif, .lne, .zbn, .ttb, .fwd, .buf, .drc, .bdy] d (lanesOff d) :=
  Only.each _ (fun _ x => (laneTo_down x _ (by decide) _).1) d

/-! ### The pairing ends (17 R548) -/

/-- A pairing is taken back. -/
def unpairing (p : Pairing) (b : Bdy) : Bdy :=
  { b with pairing := none, index := p.prevIndex, authority := p.previous == .solo, summary := if p.previous = .off then none else b.summary }

theorem pairUndo_steps (d : Dev) (p : Pairing) : d.pairUndo p = ((d.bdyM (unpairing p)).linkOff.setPair p.previous).cfgLook := rfl

theorem Only.pairUndo_lanes (d : Dev) (p : Pairing) :
    Only [.free, .out, .cnt, .hif, .lne, .zbn, .ttb, .fwd, .buf, .drc, .bdy] d (d.pairUndo p) := by
  rw [pairUndo_steps, linkOff_lanes]
  simp [(Only.cfgLook _).iff, (Only.setPair _ _).iff, (Only.bdyM _ _).iff, (Only.lanesOff _).iff, Only.refl]

theorem pairUndo_bdy (d : Dev) (p : Pairing) : (d.pairUndo p).bdy.state = p.previous ∧ (d.pairUndo p).bdy.pairing = none ∧
    (d.pairUndo p).bdy.index = p.prevIndex ∧ (d.pairUndo p).bdy.linkUp = false := by
  have off := (Calm.refl (d.bdyM (unpairing p))).lanesOff
  rw [pairUndo_steps, cfgLook_reads Bdy.state, cfgLook_reads Bdy.pairing, cfgLook_reads Bdy.index, cfgLook_reads Bdy.linkUp, setPair_bdy, linkOff_lanes]
  generalize lanesOff (d.bdyM (unpairing p)) = y at off ⊢
  exact ⟨rfl, off.reads Bdy.pairing fun _ => rfl, off.reads Bdy.index fun _ => rfl, rfl⟩

theorem link_timeout (dt : Nat) (p : Pairing) (s : State) (u : Serving s) (pairs : s.dev.bdy.pairing = some p) :
    Does (.pairLinkTimeout dt) s (.lne :: watched) fun x =>
      x.bdy.state = p.previous ∧ x.bdy.pairing = none ∧ x.bdy.index = p.prevIndex ∧ x.bdy.linkUp = false ∧ x.cmdAt p.ring p.tag = none ∧
        x.now = max (s.dev.now + dt) p.deadline := by
  obtain ⟨d, undoes⟩ : ∃ d, ((s.dev.elapse dt).reach p.deadline).pairUndo p = d := ⟨_, rfl⟩
  have undone := Only.pairUndo_lanes ((s.dev.elapse dt).reach p.deadline) p
  rw [undoes] at undone
  have ends := Only.finishAtIn d p.ring p.tag stFailed 1
  refine Does.upTo (x := d.finishAt p.ring p.tag stFailed 1) (exec_pairLinkTimeout dt s) u (by simp [pairs, undoes]) ?_ ?_
  · exact ((Only.reach _ _).mono (by decide)).trans ((undone.mono (by decide)).trans (ends.mono (by decide)))
  · obtain ⟨state, pairing, index, link⟩ := pairUndo_bdy ((s.dev.elapse dt).reach p.deadline) p
    rw [undoes] at state pairing index link
    have ended := (Calm.refl d).finishAt p.ring p.tag stFailed 1
    rw [Dev.settle_bdy, settle_cmdAt, Dev.settle_now, ended.state, ended.reads Bdy.pairing fun _ => rfl, ended.reads Bdy.index fun _ => rfl,
      ended.reads Bdy.linkUp fun _ => rfl, ends.now (by decide), undone.now (by decide), Dev.reach_now, Dev.elapse_now]
    exact ⟨state, pairing, index, link, finishAt_cmdAt _ _ _ _ _, rfl⟩

/-! ### The link comes up (17 R529, R531) -/

@[simp] theorem linkWhole_elapse (d : Dev) (dt : Nat) : (d.elapse dt).linkWhole = d.linkWhole := by
  simp [Dev.linkWhole, Dev.positions, Dev.buddyLane, Dev.zlane]

/-- The link is up, with full credit. -/
def linkStarted (d : Dev) : Dev := d.bdyM fun x => { x with linkUp := true, credit := fullCredit, creditOwed := [] }

/-- What the protection indexes then find. -/
def linkSeen (d : Dev) : Dev := (linkStarted d).protScan

theorem linkSeen_calm (d : Dev) : Calm (linkStarted d) (linkSeen d) := (Calm.refl _).protScan

theorem Only.linkSeen (d : Dev) : Only [.free, .out, .cnt, .hif, .ttb, .fwd, .buf, .drc, .bdy] d (linkSeen d) :=
  ((Only.bdyM _ _).mono (by decide)).trans (Only.protScan _)

/-- What a link that has come up means for the pair. -/
def linkMet (d : Dev) (b : BuddyId) : Dev :=
  if d.bdy.state == .linking then
    match d.bdy.pairing with
    | some p =>
      match d.pairFails p b with
      | some r => (d.pairUndo p).finishAt p.ring p.tag stFailed r
      | none => (d.linked b).finishAt p.ring p.tag stOk 0
    | none => if b.serial = d.bdy.peerSerial then d.linked b else d
  else d

theorem linkUp_row {dt : Nat} {b : BuddyId} {s : State} {as : List Area} {P : Dev → Prop} (u : Serving s) (down : s.dev.bdy.linkUp = false)
    (whole : s.dev.linkWhole = true) (apart : s.dev.bdy.state ≠ .off ∧ s.dev.bdy.state ≠ .solo)
    (only : Only (.time :: tells ++ as) (s.dev.elapse dt) (linkMet (linkSeen (s.dev.elapse dt)) b).buddyDrain)
    (holds : P (linkMet (linkSeen (s.dev.elapse dt)) b).buddyDrain.settle) : Does (.buddyLinkUp dt b) s as P := by
  refine Does.upTo (exec_buddyLinkUp dt b s) u ?_ only holds
  exact if_neg (by simp [down, whole, apart])

theorem linkStarted_queue {d : Dev} (none_queued : d.bdy.txq = []) : (linkSeen d).bdy.txq = [] :=
  ((linkSeen_calm d).reads Bdy.txq fun _ => rfl).trans none_queued

theorem link_isolated (dt : Nat) (b : BuddyId) (s : State) (u : Serving s) (down : s.dev.bdy.linkUp = false) (whole : s.dev.linkWhole = true)
    (isolated : s.dev.bdy.state = .isolated) (none_queued : s.dev.bdy.txq = []) : Does (.buddyLinkUp dt b) s (.ttb :: triggered) fun x =>
      x.bdy.linkUp = true ∧ x.bdy.credit = fullCredit ∧ x.bdy.state = .isolated := by
  let d := linkSeen (s.dev.elapse dt)
  have calm := linkSeen_calm (s.dev.elapse dt)
  have state : d.bdy.state = .isolated := calm.state.trans ((congrArg Bdy.state (Dev.elapse_bdy _ _)).trans isolated)
  have met : (linkMet d b).buddyDrain = d := by
    have unmoved : linkMet d b = d := by simp [linkMet, state]
    rw [unmoved]
    exact buddyDrain_idle (linkStarted_queue (by rw [Dev.elapse_bdy]; exact none_queued))
  refine linkUp_row u down whole (by simp [isolated]) ?_ ?_
  · rw [met]
    exact (Only.linkSeen _).mono (by decide)
  · rw [met, Dev.settle_bdy]
    exact ⟨calm.reads Bdy.linkUp fun _ => rfl, calm.reads Bdy.credit fun _ => rfl, state⟩

/-- The pages of the shadow are reserved when the pair is first linked. -/
def shadowHeld (d : Dev) : Dev := d.when (!d.bdy.shadowReserved) fun d => d.bufM fun x => { x with farReserved := x.farReserved + 4096 }

theorem shadowHeld_bdy (d : Dev) : (shadowHeld d).bdy = d.bdy := by
  unfold shadowHeld Dev.when
  split <;> rfl

theorem linked_bdy (d : Dev) (b : BuddyId) : (d.linked b).bdy = { d.bdy with
    pairing := none, peerSerial := b.serial, shadowReserved := true, state := .linked
    authority := match d.bdy.pairing with | some p => authorityOf (p.previous == .solo) b.survivor d.bdy.index | none => d.bdy.authority } := by
  have steps : d.linked b = ((shadowHeld d).bdyM fun x => { x with
    pairing := none, peerSerial := b.serial, shadowReserved := true
    authority := match x.pairing with | some p => authorityOf (p.previous == .solo) b.survivor x.index | none => x.authority }).setPair .linked := rfl
  rw [steps, setPair_bdy, Dev.bdyM_bdy, shadowHeld_bdy]

theorem Only.linked (d : Dev) (b : BuddyId) : Only [.out, .cnt, .hif, .buf, .bdy] d (d.linked b) := by
  simp [Dev.linked, (Only.setPair _ _).iff, (Only.bdyM _ _).iff, (Only.bufM _ _).iff, Only.when_iff, Only.refl]

/-- With no protection index there is none to look at. -/
theorem protScan_none {d : Dev} (none_set : d.ttb.prots = []) : d.protScan = d := by rw [Dev.protScan, none_set]; rfl

/-- The reason for which a pairing fails is the same once the link is up, for the far store holds the shadow or has changed nothing. -/
theorem pairFails_linkSeen {d : Dev} (held : d.bdy.shadowReserved = true ∨ d.ttb.prots = []) (p : Pairing) (b : BuddyId) :
    (linkSeen d).pairFails p b = d.pairFails p b := by
  have only := Only.linkSeen d
  have calm := linkSeen_calm d
  have index : (linkSeen d).bdy.index = d.bdy.index := calm.reads Bdy.index fun _ => rfl
  have shadow : (linkSeen d).bdy.shadowReserved = d.bdy.shadowReserved := calm.reads Bdy.shadowReserved fun _ => rfl
  rcases held with reserved | none_set
  · rw [Dev.pairFails, Dev.pairFails, only.glb (by decide), only.bel (by decide), index, shadow, reserved]
    simp
  · have same : linkSeen d = linkStarted d := protScan_none none_set
    rw [same]
    rfl

/-- Steps that change only the counters, one after another, change only the counters. -/
theorem each_counts {α : Type} (xs : List α) {f : α → Dev → Dev} (step : ∀ a x, ∃ c, f a x = { x with cnt := c }) (d : Dev) :
    ∃ c, d.each xs f = { d with cnt := c } := by
  induction xs generalizing d with
  | nil => exact ⟨d.cnt, rfl⟩
  | cons a as ih =>
    obtain ⟨c, counted⟩ := step a d
    obtain ⟨e, rest⟩ := ih (f a d)
    refine ⟨e, rest.trans ?_⟩
    rw [counted]

/-- As time passes only the clock and the counters go on. -/
theorem elapse_whole (d : Dev) (dt : Nat) : ∃ c, d.elapse dt = { d with now := d.now + dt, cnt := c } := by
  have step (a : Nat × Monitor) (x : Dev) : ∃ c, (x.when (a.2.live && a.2.hits (d.occupancy a.2.kind a.2.index)) fun x =>
      x.count (cMon a.1 0) (coreCycles d.now (d.now + dt))) = { x with cnt := c } := by
    unfold Dev.when
    split
    · exact ⟨_, rfl⟩
    · exact ⟨x.cnt, rfl⟩
  obtain ⟨c, counted⟩ := each_counts d.cnt.monitors step d
  exact ⟨c, congrArg (fun x : Dev => { x with now := d.now + dt }) counted⟩

@[simp] theorem pairFails_elapse (d : Dev) (dt : Nat) (p : Pairing) (b : BuddyId) : (d.elapse dt).pairFails p b = d.pairFails p b := by
  obtain ⟨c, passed⟩ := elapse_whole d dt
  rw [passed]
  rfl

theorem pair_linked (dt : Nat) (b : BuddyId) (p : Pairing) (s : State) (u : Serving s) (down : s.dev.bdy.linkUp = false)
    (whole : s.dev.linkWhole = true) (linking : s.dev.bdy.state = .linking) (pairs : s.dev.bdy.pairing = some p)
    (agrees : s.dev.pairFails p b = none) (held : s.dev.bdy.shadowReserved = true ∨ s.dev.ttb.prots = []) (none_queued : s.dev.bdy.txq = []) :
    Does (.buddyLinkUp dt b) s (.ttb :: triggered) fun x =>
      x.bdy.linkUp = true ∧ x.bdy.state = .linked ∧ x.bdy.pairing = none ∧ x.bdy.peerSerial = b.serial ∧ x.bdy.shadowReserved = true ∧
        x.cmdAt p.ring p.tag = none := by
  let d := linkSeen (s.dev.elapse dt)
  have calm := linkSeen_calm (s.dev.elapse dt)
  have state : d.bdy.state = .linking := calm.state.trans ((congrArg Bdy.state (Dev.elapse_bdy _ _)).trans linking)
  have pairing : d.bdy.pairing = some p := (calm.reads Bdy.pairing fun _ => rfl).trans ((congrArg Bdy.pairing (Dev.elapse_bdy _ _)).trans pairs)
  have link : d.bdy.linkUp = true := calm.reads Bdy.linkUp fun _ => rfl
  have queue : d.bdy.txq = [] := linkStarted_queue (by rw [Dev.elapse_bdy]; exact none_queued)
  have fails : d.pairFails p b = none := by
    rw [pairFails_linkSeen (by rw [Dev.elapse_bdy, Dev.elapse_ttb]; exact held), pairFails_elapse]
    exact agrees
  have ended := (Calm.refl (d.linked b)).finishAt p.ring p.tag stOk 0
  have met : (linkMet d b).buddyDrain = (d.linked b).finishAt p.ring p.tag stOk 0 := by
    have steps : linkMet d b = (d.linked b).finishAt p.ring p.tag stOk 0 := by simp [linkMet, state, pairing, fails]
    rw [steps]
    exact buddyDrain_idle ((ended.reads Bdy.txq fun _ => rfl).trans (by rw [linked_bdy]; exact queue))
  refine linkUp_row u down whole (by simp [linking]) ?_ ?_
  · rw [met]
    exact ((Only.linkSeen _).mono (by decide)).trans (((Only.linked _ _).mono (by decide)).trans ((Only.finishAtIn _ _ _ _ _).mono (by decide)))
  · rw [met, Dev.settle_bdy, settle_cmdAt, ended.reads Bdy.linkUp fun _ => rfl, ended.state, ended.reads Bdy.pairing fun _ => rfl,
      ended.reads Bdy.peerSerial fun _ => rfl, ended.reads Bdy.shadowReserved fun _ => rfl, linked_bdy]
    exact ⟨link, rfl, rfl, rfl, rfl, finishAt_cmdAt _ _ _ _ _⟩

/-! ### The link goes down (17 R530) -/

@[simp] theorem positionHeld_elapse (d : Dev) (dt p : Nat) : (d.elapse dt).positionHeld p = d.positionHeld p := by
  simp [Dev.positionHeld, Dev.buddyLane, Dev.zlane]

/-- The link is down, and the protection indexes find it so. -/
def linkFallen (d : Dev) : Dev := (d.bdyM fun b => { b with linkUp := false }).protScan

theorem linkFallen_calm (d : Dev) : Calm (d.bdyM fun b => { b with linkUp := false }) (linkFallen d) := (Calm.refl _).protScan

theorem link_lost_linking (dt p : Nat) (s : State) (u : Serving s) (up : s.dev.bdy.linkUp = true) (linked : s.dev.bdy.state = .linked)
    (none_joins : s.dev.bdy.rejoin = none) (lost : 16 ≤ p ∨ s.dev.positionHeld p = false) :
    Does (.buddyLinkDown dt p) s (.ttb :: triggered) fun x => x.bdy.linkUp = false ∧ x.bdy.state = .linking ∧ x.bdy.index = s.dev.bdy.index := by
  let d := linkFallen (s.dev.elapse dt)
  have calm := linkFallen_calm (s.dev.elapse dt)
  have state : d.bdy.state = .linked := calm.state.trans ((congrArg Bdy.state (Dev.elapse_bdy _ _)).trans linked)
  have rejoin : d.bdy.rejoin = none := (calm.reads Bdy.rejoin fun _ => rfl).trans ((congrArg Bdy.rejoin (Dev.elapse_bdy _ _)).trans none_joins)
  have index : d.bdy.index = s.dev.bdy.index := by
    rw [calm.reads Bdy.index fun _ => rfl, Dev.bdyM_bdy, Dev.elapse_bdy]
  refine Does.upTo (x := d.setPair .linking) (exec_buddyLinkDown dt p s) u ?_ ?_ ?_
  · have falls : (s.dev.elapse dt).bdy.linkUp = true ∧ ¬(p < 16 ∧ (s.dev.elapse dt).positionHeld p = true) := by
      simp only [Dev.elapse_bdy, positionHeld_elapse, up, true_and, not_and, Bool.not_eq_true]
      intro lt
      exact lost.resolve_left (by omega)
    refine (if_pos falls).trans ?_
    change (if d.bdy.state == .linked || d.bdy.state == .syncing then (d.rejoinEnd stFailed).setPair .linking else d) = _
    rw [state]
    have ends : d.rejoinEnd stFailed = d := by simp [Dev.rejoinEnd, rejoin]
    exact congrArg (fun d : Dev => d.setPair .linking) ends
  · exact ((Only.bdyM _ _).mono (by decide)).trans (((Only.protScan _).mono (by decide)).trans ((Only.setPair _ _).mono (by decide)))
  · rw [Dev.settle_bdy, setPair_bdy]
    exact ⟨calm.reads Bdy.linkUp fun _ => rfl, rfl, index⟩

/-! ### Heartbeats and credit (17 R531, R539 to R542) -/

/-- The buddy's summary is kept, and completions that it has written need no keeping. -/
def heartbeatKept (d : Dev) (h : Heartbeat) : Dev := ((d.bdyM fun b => { b with linkSeen := true, summary := some h }).exchange h).trimStored h.writtenMark

theorem heartbeat_kept (dt : Nat) (h : Heartbeat) (s : State) (u : Serving s) (paired : s.dev.bdy.state ≠ .off) :
    Does (.buddyHeartbeatRx dt h) s [.bdy] fun x =>
      x.bdy.summary = some h ∧ x.bdy.linkSeen = true ∧ (∀ y ∈ x.bdy.stored, h.writtenMark < y.1) ∧ x.bdy.state = s.dev.bdy.state := by
  refine Does.upTo (x := (heartbeatKept (s.dev.elapse dt) h).cfgLook) (exec_buddyHeartbeatRx dt h s) u ?_ ?_ ?_
  · exact if_neg (by simpa using paired)
  · have kept : Only [.bdy] (s.dev.elapse dt) (heartbeatKept (s.dev.elapse dt) h) :=
      ((Only.bdyM _ _).trans (Only.bdyM _ _)).trans (Only.bdyM _ _)
    exact (kept.mono (by decide)).trans ((Only.cfgLook _).mono (by decide))
  · rw [Dev.settle_bdy, cfgLook_reads Bdy.summary, cfgLook_reads Bdy.linkSeen, cfgLook_reads Bdy.stored, cfgLook_reads Bdy.state]
    refine ⟨rfl, rfl, fun y stored => ?_, ?_⟩
    · simpa using (List.mem_filter.1 stored).2
    · change (s.dev.elapse dt).bdy.state = _
      rw [Dev.elapse_bdy]

theorem beat_seen (dt : Nat) (s : State) (u : Serving s) : Does (.buddyBeatEdge dt) s [.bdy] fun x => x.bdy = { s.dev.bdy with beatSeen := true } := by
  refine Does.up (exec_buddyBeatEdge dt s) u ((Only.bdyM _ _).mono (by decide)) ?_
  simp

theorem credit_added (dt c n : Nat) (s : State) (u : Serving s) (up : s.dev.bdy.linkUp = true) (none_queued : s.dev.bdy.txq = []) :
    Does (.buddyCreditRx dt c n) s [.bdy] fun x => AMap.getD x.bdy.credit c 0 = AMap.getD s.dev.bdy.credit c 0 + n := by
  let d := (s.dev.elapse dt).bdyM fun b => { b with credit := AMap.upd b.credit c 0 (· + n) }
  have drained : d.buddyDrain = d := buddyDrain_idle (by simpa [d] using none_queued)
  refine Does.upTo (x := d) (exec_buddyCreditRx dt c n s) u ?_ ((Only.bdyM _ _).mono (by decide)) ?_
  · rw [Dev.elapse_bdy, up]
    exact drained
  · rw [Dev.settle_bdy, Dev.bdyM_bdy, Dev.elapse_bdy]
    dsimp only
    rw [AMap.getD_upd, if_pos rfl]

theorem atBell_elapse {d : Dev} {dt : Nat} (bell : d.now + dt = d.bel.lastAt) : (d.elapse dt).atBell = true := by simp [Dev.atBell, bell]

@[simp] theorem cfgDiff_elapse (d : Dev) (dt : Nat) : (d.elapse dt).cfgDiff = d.cfgDiff := by
  have bells : (d.elapse dt).cnt.autoBells = d.cnt.autoBells := (Told.elapse d dt).counts Cnt.autoBells
  unfold Dev.cfgDiff Dev.sharedRegs
  simp [bells]

theorem skew_posted (dt : Nat) (s : State) (u : Serving s) (third : 3 ≤ s.dev.bdy.skewBells) (first : s.dev.bdy.skewPosted = false)
    (bell : s.dev.now + dt = s.dev.bel.lastAt) : Does (.buddySkewAlarm dt) s [.bdy] fun x => x.bdy = { s.dev.bdy with skewPosted := true } := by
  refine Does.upTo (x := ((s.dev.elapse dt).bdyM fun b => { b with skewPosted := true }).post 0x1105
    [.value (twos 32 (divFloor (s.dev.elapse dt).bdy.offset 4))]) (exec_buddySkewAlarm dt s) u ?_ ?_ ?_
  · exact if_pos (by simp [third, first, atBell_elapse bell])
  · exact ((Only.bdyM _ _).mono (by decide)).trans ((Only.postIn _ _ _).mono (by decide))
  · simp

theorem settings_posted (dt : Nat) (s : State) (u : Serving s) (third : 3 ≤ s.dev.bdy.cfgBells) (first : s.dev.bdy.cfgPosted = false)
    (bell : s.dev.now + dt = s.dev.bel.lastAt) : Does (.cfgMismatchHeld dt) s [.bdy] fun x =>
      x.bdy = { s.dev.bdy with cfgPosted := true, cfgSet := s.dev.cfgDiff } := by
  refine Does.upTo (x := ((s.dev.elapse dt).bdyM fun b => { b with cfgPosted := true, cfgSet := (s.dev.elapse dt).cfgDiff }).post 0x1106
    [.set (s.dev.elapse dt).cfgDiff]) (exec_cfgMismatchHeld dt s) u ?_ ?_ ?_
  · exact if_pos (by simp [third, first, atBell_elapse bell])
  · exact ((Only.bdyM _ _).mono (by decide)).trans ((Only.postIn _ _ _).mono (by decide))
  · simp

/-! ### Transit frames (17 R533) -/

theorem Calm.flushCopy {d e : Dev} (h : Calm d e) (q : Nat) (c : Copy) : Calm d (e.flushCopy q c) :=
  (((h.count _ _).count _ _).count _ _).dropCopy _ _

theorem Calm.join {d e : Dev} (h : Calm d e) (n cls : Nat) (c : Copy) : Calm d (e.join n cls c) := by
  unfold Dev.join
  dsimp only
  split
  · exact ((h.bufM id).when _ fun k => k.wake _).xoffScan
  · split
    · exact ((h.queueM _ _).queueM _ _).when _ fun k => k.count _ _
    · split
      · exact ((h.queueM _ _).when _ fun k => k.wake _).spillStep _
      · exact (h.queueM _ _).spillStep _

theorem Calm.enqueue {d e : Dev} (h : Calm d e) (n cls : Nat) (c : Copy) : Calm d (e.enqueue n cls c) := ite (h.join n cls c) (h.flushCopy _ c)

theorem Calm.mirrorToPort {d e : Dev} (h : Calm d e) (s : Nat) (x : Mirror) (f : Nat) (data : List Byte) : Calm d (e.mirrorToPort s x f data) := by
  unfold Dev.mirrorToPort
  dsimp only
  split
  · exact h.only (Only.discardMirror _ _) (by decide)
  · exact ((((h.mirrorM s _).frameM f _).settleFrame f).schM _).count _ _

/-- A mirror copy is of a frame that is stored already. -/
theorem mirrorFrame_next (d : Dev) (s : Nat) (set : Mirror) (f port : Nat) (egress : Bool) (cls : Nat) (data : List Byte) (rx : Option Nat) :
    (d.mirrorFrame s set f port egress cls data rx).buf.nextFrame = d.buf.nextFrame := by
  have sampled : (d.sampled s set.sample).2.buf = d.buf := (Only.sampled d s set.sample).buf (by decide)
  unfold Dev.mirrorFrame
  dsimp only
  split
  · rw [sampled]
  · split
    · rw [((Calm.refl _).mirrorToPort s set f data).next, sampled]
    · split
      · rw [(Only.rxM _ _ _).buf (by decide), sampled]
      · rw [(Only.writeMirror _ _ _ _).buf (by decide), sampled]

theorem queueCopy_next (d : Dev) (n cls f period : Nat) (data : List Byte) (cut : Bool) (egr : Option (Nat × Mirror)) (rx : Option Nat) :
    (d.queueCopy n cls f period data cut egr rx).buf.nextFrame = d.buf.nextFrame := by
  have joins (c : Copy) : (d.enqueue n cls c).buf.nextFrame = d.buf.nextFrame := ((Calm.refl d).enqueue n cls c).next
  unfold Dev.queueCopy
  dsimp only
  split
  · unfold Dev.when
    split
    · rw [mirrorFrame_next, joins]
    · exact joins _
  · exact joins _

/-- The copies of a frame on ports of this module are of that frame. -/
theorem fan_next (d : Dev) (f : Nat) (o : Origin) (cls : Nat) (data bdata : List Byte) (ports : List Nat) (egr : AMap (Nat × Mirror))
    (stream : Option Nat) : (d.fan f o cls data bdata ports egr none stream).buf.nextFrame = d.buf.nextFrame := by
  have copies (ps : List Nat) (x : Dev) : (x.each ps fun p d => d.queueCopy p cls f o.period data o.cut (AMap.find? egr p) o.rx).buf.nextFrame =
      x.buf.nextFrame := by
    induction ps generalizing x with
    | nil => rfl
    | cons p ps ih => exact (ih _).trans (queueCopy_next x p cls f o.period data o.cut (AMap.find? egr p) o.rx)
  unfold Dev.fan
  dsimp only
  refine (((Calm.refl _).frameM f _).settleFrame f).next.trans ?_
  exact (copies ports _).trans rfl

theorem Calm.acctM {d e : Dev} (h : Calm d e) (point cls : Nat) (f : Account → Account) : Calm d (e.acctM point cls f) := h.bufM id

theorem Calm.takeCells {d e : Dev} (h : Calm d e) (point cls n : Nat) : Calm d (e.takeCells point cls n).1 := by
  have told (x : Dev) (k : Calm d x) : Calm d (if x.buf.hdrmPosted then x.occur 0x0B03 [.index point, .index cls]
      else x.post 0x0B03 [.index point, .index cls]) := ite (k.only (Only.occur _ _ _) (by decide)) (k.post _ _)
  unfold Dev.takeCells
  dsimp only
  split
  · refine acctM (when (when h _ fun k => k.setXoff point cls true) _ fun k => ?_) _ _ _
    exact (told _ (k.count _ _)).bufM id
  · exact when (when h _ fun k => k.setXoff point cls true) _ fun k => (told _ (k.count _ _)).bufM id

theorem Calm.govCount {d e : Dev} (h : Calm d e) (cls len : Nat) : Calm d (e.govCount cls len) := h.only (Only.govCount e cls len) (by decide)

/-- A frame's cells are charged to headroom while only the governor holds XOFF, and to what admits them otherwise. -/
def charged (d : Dev) (point cls n : Nat) : Dev × Option CellSource :=
  if d.govXoff point cls && decide ((d.acct point cls).minCells < (d.acct point cls).useMin + n) &&
      decide ((d.acct point cls).useHead + n ≤ (d.acct point cls).headroom) then
    (d.acctM point cls fun a => a.charge .headroom n, some .headroom)
  else d.takeCells point cls n

theorem Calm.charged {d e : Dev} (h : Calm d e) (point cls n : Nat) : Calm d (charged e point cls n).1 := by
  unfold Sys2Proof.charged
  split
  · exact h.acctM _ _ _
  · exact h.takeCells _ _ _

/-- The buddy link loses no frame for want of a cell. -/
theorem admitFor_buddy (d : Dev) (cls n len : Nat) : Calm d (d.admitFor ptBuddy cls n len).1 ∧ ∃ src, (d.admitFor ptBuddy cls n len).2 = some src := by
  have taken := (Calm.refl d).charged ptBuddy cls n
  have steps : d.admitFor ptBuddy cls n len = match (charged d ptBuddy cls n).2 with
    | some _ => ((charged d ptBuddy cls n).1.govCount cls len, (charged d ptBuddy cls n).2)
    | none => (((charged d ptBuddy cls n).1.acctM ptBuddy cls fun a => a.charge .shared n).govCount cls len, some .shared) := rfl
  rw [steps]
  split
  next src found => exact ⟨taken.govCount cls len, src, found⟩
  next => exact ⟨(taken.acctM _ _ _).govCount cls len, .shared, rfl⟩

/-- A frame from the buddy is stored, and its copies are of it. -/
theorem place_buddy (d : Dev) {o : Origin} (link : o.point = ptBuddy) (cls : Nat) (data : List Byte) (ports : List Nat) (stream : Option Nat) :
    (d.place o cls data data ports none stream).2.buf.nextFrame = d.buf.nextFrame + 1 := by
  obtain ⟨calm, src, admits⟩ := admitFor_buddy d cls (cellsOf (data.length + 4)) (data.length + 4)
  unfold Dev.place Dev.takeFrame
  rw [link]
  generalize d.admitFor ptBuddy cls (cellsOf (data.length + 4)) (data.length + 4) = admitted at calm admits
  obtain ⟨y, chosen⟩ := admitted
  subst admits
  dsimp only
  rw [fan_next]
  exact congrArg (· + 1) calm.next

/-- A transit frame is charged to the link, in the period of its home where that is the one under way. -/
def transitOrigin (d : Dev) (f : TransitFrame) : Origin where
  point := ptBuddy
  ingress := f.ingress
  sof := f.sof
  period := if f.periodTai = d.bel.lastTai then d.bel.seq else d.bel.seq - 1
  fate := f.home
  onestep := f.onestep

/-- A frame for one port that exists, of no stream, is placed there. -/
theorem transitRx_port {d : Dev} {f : TransitFrame} (no_stream : f.stream = none) (one : f.isGroup = false) (stands : d.portExists f.dest = true) :
    d.transitRx f = (d.place (transitOrigin d f) f.cls f.data f.data [f.dest] none none).2 := by
  have ports : (if f.isGroup then d.groupPorts f.dest else [f.dest]).filter d.portExists = [f.dest] := by simp [one, stands]
  unfold Dev.transitRx
  rw [ports]
  unfold Dev.transitStream
  rw [no_stream]
  rfl

theorem transit_stored (dt : Nat) (f : TransitFrame) (s : State) (u : Serving s) (up : s.dev.bdy.linkUp = true) (no_stream : f.stream = none)
    (one : f.isGroup = false) (stands : s.dev.portExists f.dest = true) : Decides (.buddyFrameRx dt f) s (.gov :: wayOfFrames) fun x =>
      x.buf.nextFrame = s.dev.buf.nextFrame + 1 := by
  have stands' : (s.dev.elapse dt).settle.portExists f.dest = true := by simpa [Dev.portExists, Dev.port] using stands
  have link : (s.dev.elapse dt).settle.bdy.linkUp = true := by simpa using up
  have decided : (s.dev.elapse dt).settle.decideOne (.buddy f) = (s.dev.elapse dt).settle.transitRx f := if_pos link
  have placed := decided.trans (transitRx_port no_stream one stands')
  refine decides_settled (a := .buddy f) (l := [.free, .out, .cnt, .hif, .mac, .fwd, .buf, .sch, .drc, .bdy, .gov]) (exec_buddyFrameRx dt f s) u ?_
    (by decide) (by decide) ?_
  · rw [placed]
    exact Only.place _ _ _ _ _ _ _ _
  · rw [placed, Dev.settle_buf, place_buddy _ rfl, Dev.settle_buf, Dev.elapse_buf]

/-- Settles O46: what watches the link changes nothing of the pair, so that each row leaves what it sets itself. -/
theorem buddyLink : Obligations.BuddyLink :=
  ⟨fun dt p s u => link_timeout dt p s u, link_isolated, pair_linked, link_lost_linking, heartbeat_kept, beat_seen, credit_added,
    fun dt f _ s u up no_stream one stands _ _ => transit_stored dt f s u up no_stream one stands, skew_posted, settings_posted⟩

end Sys2Proof

namespace Sys2Proof

open Sys2Proof.Machine

/-! ## The life of a pair (17 R543 to R550) -/

theorem exec_linkHeartbeatsMissed (dt : Nat) (s : State) : exec (.linkHeartbeatsMissed dt) s = execLinkHeartbeatsMissed dt s := rfl
theorem exec_takeOver (dt : Nat) (s : State) : exec (.takeOver dt) s = s.actUp dt fun d => d.inNextBell Dev.bellPair := rfl
theorem exec_takeoverReportWrite (dt : Nat) (s : State) : exec (.takeoverReportWrite dt) s = execTakeoverReportWrite dt s := rfl
theorem exec_isolatedHeartbeatsBack (dt : Nat) (s : State) : exec (.isolatedHeartbeatsBack dt) s = execIsolatedHeartbeatsBack dt s := rfl
theorem exec_isolatedHolddownExpiry (dt : Nat) (s : State) : exec (.isolatedHolddownExpiry dt) s = execIsolatedHolddownExpiry dt s := rfl
theorem exec_rejoinCutover (dt : Nat) (s : State) : exec (.rejoinCutover dt) s = execRejoinCutover dt s := rfl
theorem exec_unpairDrained (dt : Nat) (s : State) : exec (.unpairDrained dt) s = execUnpairDrained dt s := rfl

/-! ### What waited for the buddy -/

/-- Giving the completions that waited for the buddy to the host leaves the pair without any. -/
theorem releaseOwn_bdy (d : Dev) : d.releaseOwn.bdy = { d.bdy with own := [] } := by
  have each : Only [.out, .cnt, .hif] (d.bdyM fun b => { b with own := [] }) d.releaseOwn := by
    refine Only.each _ (fun o x => ?_) _
    cases o with
    | completion n k c => exact Only.deliverIn x k c
    | fetch n k c => exact Only.refl _ x
  exact each.bdy (by decide)

theorem freeJournalled_idle {d : Dev} (none_flies : d.hif.inflight = []) (alone : Bool) : d.freeJournalled alone = d := by
  unfold Dev.freeJournalled
  rw [none_flies]
  rfl

theorem settleUpTo_idle {d : Dev} (none_flies : d.hif.inflight = []) (last : Nat) : d.settleUpTo last = d := by
  unfold Dev.settleUpTo Dev.openPeriods
  rw [none_flies]
  rfl

theorem releaseOwn_inflight {d : Dev} (none_flies : d.hif.inflight = []) : d.releaseOwn.hif.inflight = [] :=
  (Calm.refl _).releaseOwn.flight none_flies

theorem setPair_inflight (d : Dev) (new : PairState) : (d.setPair new).hif.inflight = d.hif.inflight := by
  unfold Dev.setPair
  dsimp only
  split
  · rfl
  · exact (HostKept.post _ _ _).inflight

/-! ### Isolation (17 R543 to R545) -/

/-- The module is isolated: it decides alone where it is module 0. -/
def isolatedNow (d : Dev) : Dev :=
  ((d.setPair .isolated).count (cDev 294) 1).bdyM fun b =>
    { b with authority := b.index == 0, holdUntil := d.now + d.buf.holddown * qPerMs, backBells := 0 }

theorem Only.isolatedNow (d : Dev) : Only [.out, .cnt, .hif, .bdy] d (isolatedNow d) := by
  simp [Sys2Proof.isolatedNow, (Only.bdyM _ _).iff, (Only.count _ _ _).iff, (Only.setPair _ _).iff, Only.refl]

theorem isolatedNow_bdy (d : Dev) : (isolatedNow d).bdy = { d.bdy with
    state := .isolated, authority := d.bdy.index == 0, holdUntil := d.now + d.buf.holddown * qPerMs, backBells := 0 } := by
  rw [isolatedNow, Dev.bdyM_bdy, Dev.count_bdy, setPair_bdy]

theorem isolates (dt : Nat) (s : State) (u : Serving s) (paired : s.dev.bdy.state = .paired) (third : 3 ≤ s.dev.bdy.linkMissed)
    (beats : s.dev.bdy.missed < 3) (none_flies : s.dev.hif.inflight = []) (bell : s.dev.now + dt = s.dev.bel.lastAt) :
    Does (.linkHeartbeatsMissed dt) s [.bdy] fun x =>
      x.bdy.state = .isolated ∧ x.bdy.authority = (s.dev.bdy.index == 0) ∧ x.bdy.own = [] ∧
        x.bdy.holdUntil = s.dev.now + dt + s.dev.buf.holddown * qPerMs := by
  let d := isolatedNow (s.dev.elapse dt)
  have idle : d.releaseOwn.hif.inflight = [] := releaseOwn_inflight ((setPair_inflight _ _).trans (by rw [Dev.elapse_hif]; exact none_flies))
  refine Does.upTo (x := d.releaseOwn) (exec_linkHeartbeatsMissed dt s) u ?_ ?_ ?_
  · have now : ((s.dev.elapse dt).setPair .isolated).now = (s.dev.elapse dt).now := (Only.setPair _ _).now (by decide)
    have buf : ((s.dev.elapse dt).setPair .isolated).buf = (s.dev.elapse dt).buf := (Only.setPair _ _).buf (by decide)
    have steps : (isolatedNow (s.dev.elapse dt)) = (((s.dev.elapse dt).setPair .isolated).count (cDev 294) 1).bdyM fun b =>
        { b with authority := b.index == 0, holdUntil := (((s.dev.elapse dt).setPair .isolated).count (cDev 294) 1).now +
            (((s.dev.elapse dt).setPair .isolated).count (cDev 294) 1).buf.holddown * qPerMs, backBells := 0 } := by
      rw [Dev.count_now, Dev.count_buf, now, buf]
      rfl
    refine (if_pos (by simp [paired, third, beats, atBell_elapse bell])).trans ?_
    dsimp only
    rw [← steps, freeJournalled_idle idle, settleUpTo_idle idle]
  · exact ((Only.isolatedNow _).mono (by decide)).trans ((Only.releaseOwn _).mono (by decide))
  · rw [Dev.settle_bdy, releaseOwn_bdy, isolatedNow_bdy]
    simp

theorem heartbeats_back (dt : Nat) (s : State) (u : Serving s) (isolated : s.dev.bdy.state = .isolated) (third : 3 ≤ s.dev.bdy.backBells)
    (bell : s.dev.now + dt = s.dev.bel.lastAt) : Does (.isolatedHeartbeatsBack dt) s [.bdy] fun x => x.bdy = { s.dev.bdy with state := .linked } := by
  refine Does.upTo (x := (s.dev.elapse dt).setPair .linked) (exec_isolatedHeartbeatsBack dt s) u ?_ ((Only.setPair _ _).mono (by decide)) ?_
  · exact if_pos (by simp [isolated, third, atBell_elapse bell])
  · rw [Dev.settle_bdy, setPair_bdy, Dev.elapse_bdy]

/-! ### What crosses the link no more (17 R545, R546) -/

/-- The copies queued for the link are flushed, and nothing else of the pair changes. -/
theorem flushBuddyTx_calm (d : Dev) : Calm (d.bdyM fun b => { b with txq := [] }) d.flushBuddyTx :=
  (Calm.refl _).each _ fun _ _ k => ((k.count _ _).count _ _).dropCopy _ _

/-- Every entry that is left is of a group, or names this module. -/
theorem dropOtherModule_fdb (d : Dev) (fault : Bool) : ∀ y ∈ (d.dropOtherModule fault).fwd.fdb, y.2.group = true ∨ y.2.module = d.module := by
  have fdb : (d.dropOtherModule fault).fwd.fdb = d.fwd.fdb.filter fun x => !(!x.2.group && x.2.module != d.module) := by
    unfold Dev.dropOtherModule Dev.fdbRemove
    dsimp only
    rw [(Only.each _ (fun _ _ => Only.fdbTell _ _ _ _ _ _) _).fwd (by decide)]
    rfl
  intro y listed
  rw [fdb] at listed
  have kept := (List.mem_filter.1 listed).2
  simp only [Bool.not_and, Bool.not_not, Bool.or_eq_true, bne_eq_false_iff_eq, Bool.not_eq_true'] at kept
  exact kept

theorem holddown_ends (dt : Nat) (s : State) (u : Serving s) (held : s.dev.bdy.holdUntil ≠ 0) (apart : s.dev.bdy.state ≠ .paired) :
    Does (.isolatedHolddownExpiry dt) s wayOfFrames fun x =>
      x.bdy.holdUntil = 0 ∧ x.bdy.txq = [] ∧ (∀ y ∈ x.fwd.fdb, y.2.group = true ∨ y.2.module = s.dev.module) ∧
        x.now = max (s.dev.now + dt) s.dev.bdy.holdUntil := by
  let d := (s.dev.elapse dt).reach s.dev.bdy.holdUntil
  have calm := flushBuddyTx_calm d
  have flush := Only.flushBuddyTx d
  have drop := Only.dropOtherModule d.flushBuddyTx true
  have only : Only [.out, .cnt, .hif, .mac, .fwd, .buf, .bdy] d (d.flushBuddyTx.dropOtherModule true) := flush.trans (drop.mono (by decide))
  refine Does.upTo (x := (d.flushBuddyTx.dropOtherModule true).bdyM fun b => { b with holdUntil := 0 }) (exec_isolatedHolddownExpiry dt s) u ?_ ?_ ?_
  · have waits : (s.dev.elapse dt).bdy.holdUntil ≠ 0 ∧ (s.dev.elapse dt).bdy.state ≠ .paired := by
      rw [Dev.elapse_bdy]
      exact ⟨held, apart⟩
    refine (if_pos waits).trans ?_
    rw [Dev.elapse_bdy]
  · exact ((Only.reach _ _).mono (by decide)).trans ((only.mono (by decide)).trans ((Only.bdyM _ _).mono (by decide)))
  · have module : d.flushBuddyTx.module = s.dev.module := by
      rw [Dev.module, calm.reads Bdy.index fun _ => rfl]
      simp [d, Dev.module]
    have queue : (d.flushBuddyTx.dropOtherModule true).bdy.txq = [] := by
      rw [drop.bdy (by decide), calm.reads Bdy.txq fun _ => rfl, Dev.bdyM_bdy]
    rw [Dev.settle_bdy, Dev.settle_fwd, Dev.settle_now, Dev.bdyM_bdy, Dev.bdyM_fwd, Dev.bdyM_now, only.now (by decide), Dev.reach_now, Dev.elapse_now]
    exact ⟨rfl, queue, fun y listed => by rw [← module]; exact dropOtherModule_fdb _ _ y listed, rfl⟩

/-! ### Take-over (17 R546, R547) -/

theorem nextBell_inflight (d : Dev) : (nextBell d).hif.inflight = d.hif.inflight := by
  unfold nextBell Dev.flipAt
  split
  · rfl
  · unfold Dev.flip
    rw [(HostKept.post _ _ _).inflight, (Only.restartPeaks _).hif (by decide)]
    rfl


/-- The survivor stands alone, with the authority. -/
def soloNow (d : Dev) : Dev := ((d.setPair .solo).count (cDev 293) 1).bdyM fun b => { b with authority := true, holdUntil := 0 }

/-- Nothing crosses the link any more, and no entry of the table names the other module. -/
def linkCut (d : Dev) : Dev := ((soloNow d).flushBuddyTx.loseAway.dropOtherModule true).releaseOwn

/-- The take-over's last steps: what was lost is counted and posted. -/
def tookOver (d : Dev) (failed : Nat) : Dev :=
  let d := (d.trigger 5).protScan
  let (lost, d) := d.countLost
  let tai := match d.bdy.summary with | some h => h.bellTai | none => 0
  let d := d.postAs 0x1102 [.code failed, .wide (tai * qPerNs), .value lost] failed 1
  d.bdyM fun b => { b with report := d.buildReport failed, reported := 0, echoes := 0, reportPending := true }

theorem takeOver_steps (d : Dev) : d.takeOver = tookOver ((linkCut d).freeJournalled true) (1 - d.module) := rfl

theorem soloNow_bdy (d : Dev) : (soloNow d).bdy = { d.bdy with state := .solo, authority := true, holdUntil := 0 } := by
  rw [soloNow, Dev.bdyM_bdy, Dev.count_bdy, setPair_bdy]

theorem Only.soloNow (d : Dev) : Only [.out, .cnt, .hif, .bdy] d (soloNow d) := by
  simp [Sys2Proof.soloNow, (Only.bdyM _ _).iff, (Only.count _ _ _).iff, (Only.setPair _ _).iff, Only.refl]

theorem Only.linkCut (d : Dev) : Only [.out, .cnt, .hif, .mac, .fwd, .buf, .bdy] d (linkCut d) := by
  simp [Sys2Proof.linkCut, (Only.releaseOwn _).iff, (Only.dropOtherModule _ _).iff, (Only.loseAway _).iff, (Only.flushBuddyTx _).iff,
    (Only.soloNow _).iff, Only.refl]

/-- What stands of the pair once nothing crosses the link. -/
theorem linkCut_pair (d : Dev) : (linkCut d).bdy.state = .solo ∧ (linkCut d).bdy.authority = true ∧ (linkCut d).bdy.txq = [] ∧
    (linkCut d).bdy.own = [] ∧ (∀ y ∈ (linkCut d).fwd.fdb, y.2.group = true ∨ y.2.module = d.module) ∧
    (d.hif.inflight = [] → (linkCut d).hif.inflight = []) := by
  have calm : Calm ((soloNow d).bdyM fun b => { b with txq := [] }) (soloNow d).flushBuddyTx.loseAway := (flushBuddyTx_calm _).loseAway
  have solo := soloNow_bdy d
  have flights : (soloNow d).hif.inflight = d.hif.inflight := setPair_inflight d .solo
  have cut : linkCut d = ((soloNow d).flushBuddyTx.loseAway.dropOtherModule true).releaseOwn := rfl
  generalize soloNow d = y at calm solo flights cut
  have drop := Only.dropOtherModule y.flushBuddyTx.loseAway true
  have module : y.flushBuddyTx.loseAway.module = d.module := by
    rw [Dev.module, calm.reads Bdy.index fun _ => rfl, Dev.bdyM_bdy, solo]
    rfl
  rw [cut, releaseOwn_bdy, drop.bdy (by decide), (Only.releaseOwn _).fwd (by decide)]
  refine ⟨?_, ?_, ?_, rfl, ?_, fun none_flies => ?_⟩
  · refine calm.state.trans ?_
    rw [Dev.bdyM_bdy, solo]
  · refine (calm.reads Bdy.authority fun _ => rfl).trans ?_
    rw [Dev.bdyM_bdy, solo]
  · exact (calm.reads Bdy.txq fun _ => rfl).trans (by rw [Dev.bdyM_bdy])
  · rw [← module]
    exact dropOtherModule_fdb _ _
  · refine releaseOwn_inflight ?_
    rw [drop.hif (by decide)]
    exact calm.flight (by rw [Dev.bdyM_hif, flights]; exact none_flies)

theorem Only.tookOver (d : Dev) (failed : Nat) : Only [.free, .out, .cnt, .hif, .ttb, .fwd, .buf, .drc, .bdy] d (tookOver d failed) := by
  simp [Sys2Proof.tookOver, (Only.bdyM _ _).iff, (Only.postAsIn _ _ _ _ _).iff, (Only.countLost _).iff, (Only.protScan _).iff, (Only.trigger _ _).iff,
    Only.refl]

/-- What the take-over counts and posts leaves the pair, but for the report. -/
theorem tookOver_pair (d : Dev) (failed : Nat) : (tookOver d failed).bdy.reportPending = true ∧
    (tookOver d failed).bdy.state = d.bdy.state ∧ (tookOver d failed).bdy.authority = d.bdy.authority ∧ (tookOver d failed).bdy.txq = d.bdy.txq ∧
    (d.bdy.state ≠ .paired → (tookOver d failed).bdy.own = d.bdy.own) ∧ (tookOver d failed).fwd.fdb = d.fwd.fdb := by
  have calm : Calm d (d.trigger 5).protScan := ((Calm.refl d).trigger 5).protScan
  have told (x : Dev) (ev : Nat) (items : List Item) (m b : Nat) : (x.countLost.2.postAs ev items m b).bdy = x.bdy ∧
      (x.countLost.2.postAs ev items m b).fwd = x.fwd := by
    have only : Only [.out, .cnt, .hif] x (x.countLost.2.postAs ev items m b) := ((Only.countLost x).mono (by decide)).trans (Only.postAsIn _ _ _ _ _)
    exact ⟨only.bdy (by decide), only.fwd (by decide)⟩
  unfold tookOver
  dsimp only
  rw [Dev.bdyM_bdy, Dev.bdyM_fwd, (told _ _ _ _ _).1, (told _ _ _ _ _).2]
  exact ⟨rfl, calm.state, calm.reads Bdy.authority fun _ => rfl, calm.reads Bdy.txq fun _ => rfl, calm.own, calm.fdb⟩

theorem Only.takeOver {d : Dev} (none_flies : d.hif.inflight = []) :
    Only [.free, .out, .cnt, .hif, .mac, .ttb, .fwd, .buf, .drc, .bdy] d d.takeOver := by
  obtain ⟨_, _, _, _, _, idle⟩ := linkCut_pair d
  rw [takeOver_steps, freeJournalled_idle (idle none_flies)]
  exact ((Only.linkCut d).mono (by decide)).trans ((Only.tookOver _ _).mono (by decide))

theorem takeOver_pair {d : Dev} (none_flies : d.hif.inflight = []) : d.takeOver.bdy.state = .solo ∧ d.takeOver.bdy.authority = true ∧
    d.takeOver.bdy.reportPending = true ∧ d.takeOver.bdy.txq = [] ∧ d.takeOver.bdy.own = [] ∧
    (∀ y ∈ d.takeOver.fwd.fdb, y.2.group = true ∨ y.2.module = d.module) := by
  obtain ⟨state, authority, queue, own, fdb, idle⟩ := linkCut_pair d
  rw [takeOver_steps, freeJournalled_idle (idle none_flies)]
  obtain ⟨report, state', authority', queue', own', fdb'⟩ := tookOver_pair (linkCut d) (1 - d.module)
  rw [report, state', authority', queue', own' (by rw [state]; decide), fdb']
  exact ⟨state, authority, rfl, queue, own, fdb⟩

/-- The third heartbeat missed on both paths makes the module take over. -/
theorem bellPair_takes {d : Dev} (counts : d.bdy.state = .paired ∨ d.bdy.state = .isolated) (missed : 2 ≤ d.bdy.missed)
    (no_link : d.bdy.linkSeen = false) (no_beat : d.bdy.beatSeen = false) (first : d.bdy.countedFor ≠ some d.bel.seq) :
    d.bellPair = d.heartbeatCounts.takeOver := by
  have counting : (d.bdy.state == .paired || d.bdy.state == .isolated) = true := by rcases counts with h | h <;> rw [h] <;> rfl
  have state : d.heartbeatCounts.bdy.state = d.bdy.state := rfl
  have third : d.heartbeatCounts.bdy.missed = min 3 (d.bdy.missed + 1) := by
    simp only [Dev.heartbeatCounts, Dev.bdyM_bdy, counting, no_link, no_beat]
    rfl
  unfold Dev.bellPair
  rw [if_neg first]
  dsimp only
  rw [state, third, counting]
  exact if_pos (by simp; omega)

theorem takes_over (dt : Nat) (s : State) (u : Serving s) (counts : s.dev.bdy.state = .paired ∨ s.dev.bdy.state = .isolated)
    (missed : 2 ≤ s.dev.bdy.missed) (no_link : s.dev.bdy.linkSeen = false) (no_beat : s.dev.bdy.beatSeen = false)
    (first : s.dev.bdy.countedFor ≠ some (s.dev.bel.seq + 1)) (reached : s.dev.bel.nextAt ≤ s.dev.now + dt) (none_flies : s.dev.hif.inflight = []) :
    Does (.takeOver dt) s wayOfFrames fun x =>
      x.bdy.state = .solo ∧ x.bdy.authority = true ∧ x.bdy.reportPending = true ∧ x.bdy.txq = [] ∧ x.bdy.own = [] ∧
        (∀ y ∈ x.fwd.fdb, y.2.group = true ∨ y.2.module = s.dev.module) := by
  let d := nextBell (s.dev.elapse dt)
  have now : (s.dev.elapse dt).bel.nextAt ≤ (s.dev.elapse dt).now := by simpa using reached
  have bdy : d.bdy = s.dev.bdy := ((Only.nextBell _).bdy (by decide)).trans (Dev.elapse_bdy _ _)
  have seq : d.bel.seq = s.dev.bel.seq + 1 := by simp [d, nextBell_bel]
  have idle : d.heartbeatCounts.hif.inflight = [] := by
    have flip : d.hif.inflight = (s.dev.elapse dt).hif.inflight := nextBell_inflight _
    exact flip.trans (by rw [Dev.elapse_hif]; exact none_flies)
  have takes : d.bellPair = d.heartbeatCounts.takeOver := by
    refine bellPair_takes ?_ ?_ ?_ ?_ ?_
    all_goals rw [bdy]
    · exact counts
    · exact missed
    · exact no_link
    · exact no_beat
    · rw [seq]; exact first
  have only : Only [.free, .out, .cnt, .hif, .mac, .ttb, .fwd, .buf, .drc, .bdy] d d.bellPair := by
    rw [takes]
    exact ((Only.heartbeatCounts d).mono (by decide)).trans (Only.takeOver idle)
  have module : d.heartbeatCounts.module = s.dev.module := by
    change d.bdy.index = _
    rw [bdy]
    rfl
  refine Does.up (exec_takeOver dt s) u ((Only.inNextBell now only (by decide)).mono (by decide)) ?_
  rw [Dev.settle_bdy, Dev.settle_fwd, inNextBell_reached now, Dev.belM_bdy, Dev.belM_fwd, ← module]
  change d.bellPair.bdy.state = _ ∧ d.bellPair.bdy.authority = _ ∧ d.bellPair.bdy.reportPending = _ ∧ d.bellPair.bdy.txq = _ ∧
    d.bellPair.bdy.own = _ ∧ ∀ y ∈ d.bellPair.fwd.fdb, _
  rw [takes]
  exact takeOver_pair idle

/-! ### The report (17 R547) -/

/-- The ring marks of the report are posted. -/
def marksPosted (d : Dev) : Dev :=
  (d.each (List.range 32) fun r x => x.postAs 0x1103 [.code 0, .index r, .value (AMap.getD x.bdy.cmdMark r 0)] (1 - d.module) 1).each (List.range 64)
    fun r x => x.postAs 0x1103 [.code 1, .index r, .value (AMap.getD x.bdy.fetchIdx r 0)] (1 - d.module) 1

theorem Only.marksPosted (d : Dev) : Only [.out, .cnt, .hif] d (marksPosted d) :=
  (Only.each _ (fun _ _ => Only.postAsIn _ _ _ _ _) _).trans (Only.each _ (fun _ _ => Only.postAsIn _ _ _ _ _) _)

/-- Nothing of the buddy's is kept once the report has been written. -/
def reported (b : Bdy) : Bdy := { b with reportPending := false, held := [], stored := [], txOpen := [], fetchIdx := [], cmdMark := [] }

theorem reportEnd_steps (d : Dev) : d.reportEnd = ((marksPosted d).bdyM reported).postAs 0x1104
    [.value ((marksPosted d).bdyM reported).bdy.reported, .value ((marksPosted d).bdyM reported).bdy.echoes] (1 - d.module) 1 := by
  unfold Dev.reportEnd marksPosted
  rfl

theorem reportEnd_bdy (d : Dev) : d.reportEnd.bdy = reported d.bdy := by
  rw [reportEnd_steps, (Only.postAsIn _ _ _ _ _).bdy (by decide), Dev.bdyM_bdy, (Only.marksPosted d).bdy (by decide)]

theorem report_ends (dt : Nat) (s : State) (u : Serving s) (pending : s.dev.bdy.reportPending = true) (none_left : s.dev.bdy.report = []) :
    Does (.takeoverReportWrite dt) s [.bdy] fun x =>
      x.bdy.reportPending = false ∧ x.bdy.held = [] ∧ x.bdy.stored = [] ∧ x.bdy.txOpen = [] := by
  refine Does.upTo (x := (s.dev.elapse dt).reportEnd) (exec_takeoverReportWrite dt s) u ?_ ?_ ?_
  · refine (if_pos (by rw [Dev.elapse_bdy]; exact pending)).trans ?_
    rw [Dev.elapse_bdy, none_left]
    unfold Dev.writeReport
    rw [Dev.elapse_bdy, none_left]
  · rw [reportEnd_steps]
    exact ((Only.marksPosted _).mono (by decide)).trans (((Only.bdyM _ _).mono (by decide)).trans ((Only.postAsIn _ _ _ _ _).mono (by decide)))
  · rw [Dev.settle_bdy, reportEnd_bdy]
    exact ⟨rfl, rfl, rfl, rfl⟩

/-! ### The cut-over of a rejoin (17 R549) -/

/-- The pair is PAIRED again, with no heartbeat missed. -/
def rejoined (d : Dev) : Dev :=
  (d.bdyM fun b => { b with
    rejoin := none, authority := false, linkMissed := 0, missed := 0, holdUntil := 0, linkSeen := false, beatSeen := false
    held := b.held.filter d.stillOpen }).setPair .paired

theorem rejoined_bdy (d : Dev) : (rejoined d).bdy = { d.bdy with
    rejoin := none, authority := false, linkMissed := 0, missed := 0, holdUntil := 0, linkSeen := false, beatSeen := false
    held := d.bdy.held.filter d.stillOpen, state := .paired } := by
  rw [rejoined, setPair_bdy, Dev.bdyM_bdy]

/-- The command of the rejoin ends, where it has not ended. -/
def rejoinTold (d : Dev) (g t : Nat) : Dev :=
  match d.cmdAt g t with
  | some c => (d.cmdM c fun c => { c with pos := c.total }).finishAt g t stOk 0
  | none => d

theorem Only.rejoinTold (d : Dev) (g t : Nat) : Only [.out, .cnt, .hif, .bdy] d (rejoinTold d g t) := by
  unfold Sys2Proof.rejoinTold
  split
  · exact ((Only.cmdM _ _ _).mono (by decide)).trans (Only.finishAtIn _ _ _ _ _)
  · exact Only.refl _ d

theorem rejoinTold_cmdAt (d : Dev) (g t : Nat) : (rejoinTold d g t).cmdAt g t = none := by
  unfold rejoinTold
  split
  · exact finishAt_cmdAt _ _ _ _ _
  next none_found => exact none_found

theorem rejoinTold_reads {α : Type} (f : Bdy → α) (apart : ∀ b, f (standing b) = f b) (d : Dev) (g t : Nat) :
    f (rejoinTold d g t).bdy = f d.bdy := by
  unfold rejoinTold
  split
  · exact ((Calm.refl _).finishAt g t stOk 0).reads f apart
  · rfl

theorem cut_over (dt : Nat) (r : Rejoin) (s : State) (u : Serving s) (syncing : s.dev.bdy.state = .syncing) (joins : s.dev.bdy.rejoin = some r)
    (started : r.started = true) (source : r.source = true) (free : s.dev.rejoinHeld r = false) (none_queued : s.dev.bdy.txq = [])
    (bell : s.dev.now + dt = s.dev.bel.lastAt) : Does (.rejoinCutover dt) s (.ttb :: triggered) fun x =>
      x.bdy.state = .paired ∧ x.bdy.rejoin = none ∧ x.bdy.authority = false ∧ x.cmdAt r.ring r.tag = none := by
  let d := rejoinTold (rejoined (s.dev.elapse dt)) r.ring r.tag
  have calm : Calm d d.protScan := (Calm.refl d).protScan
  have pair {α : Type} (f : Bdy → α) (apart : ∀ b, f (standing b) = f b) : f d.protScan.bdy = f (rejoined (s.dev.elapse dt)).bdy :=
    (calm.reads f apart).trans (rejoinTold_reads f apart _ _ _)
  have free' : (s.dev.elapse dt).rejoinHeld r = false := by
    rw [← free]
    unfold Dev.rejoinHeld
    rw [cmdAt_elapse]
  have drained : d.protScan.buddyDrain = d.protScan := by
    refine buddyDrain_idle ((pair Bdy.txq fun _ => rfl).trans ?_)
    rw [rejoined_bdy, Dev.elapse_bdy]
    exact none_queued
  refine Does.upTo (x := d.protScan) (exec_rejoinCutover dt s) u ?_ ?_ ?_
  · have goes : ((s.dev.elapse dt).bdy.state != .syncing || !r.started || !(s.dev.elapse dt).atBell || (s.dev.elapse dt).rejoinHeld r) = false := by
      simp [syncing, started, atBell_elapse bell, free']
    rw [Dev.elapse_bdy, joins]
    dsimp only
    rw [← Dev.elapse_bdy s.dev dt, goes, source]
    exact drained
  · have joined : Only [.out, .cnt, .hif, .bdy] (s.dev.elapse dt) (rejoined (s.dev.elapse dt)) :=
      ((Only.bdyM _ _).mono (by decide)).trans (Only.setPair _ _)
    exact (joined.mono (by decide)).trans (((Only.rejoinTold _ _ _).mono (by decide)).trans ((Only.protScan _).mono (by decide)))
  · rw [Dev.settle_bdy, settle_cmdAt, pair Bdy.state fun _ => rfl, pair Bdy.rejoin fun _ => rfl, pair Bdy.authority fun _ => rfl, rejoined_bdy]
    exact ⟨rfl, rfl, rfl, calm.gone _ _ (rejoinTold_cmdAt _ _ _)⟩

/-! ### The end of a pair (17 R550) -/

/-- What the pair held is given back. -/
def pairLeft (d : Dev) : Dev := d.linkOff.loseAway.freeShadow.releaseOwn

/-- Nothing of a pair is left. -/
def unpaired (b : Bdy) : Bdy :=
  { b with
    unpairDraining := false, unpairing := none, authority := false, held := [], stored := [], txOpen := [], fetchIdx := [], cmdMark := []
    summary := none, linkMissed := 0, missed := 0, holdUntil := 0 }

/-- The module is OFF. -/
def offNow (d : Dev) : Dev := (((d.bdyM unpaired).setPair .off).protScan).cfgLook

/-- The command that unpaired the module completes. -/
def unpairTold (d : Dev) (who : Option (Nat × Nat)) : Dev :=
  match who with
  | some (ring, tag) => d.finishAt ring tag stOk 0
  | none => d

theorem Calm.unpairTold {d e : Dev} (h : Calm d e) (who : Option (Nat × Nat)) : Calm d (unpairTold e who) := by
  unfold Sys2Proof.unpairTold
  split
  · exact h.finishAt _ _ _ _
  · exact h

theorem Only.unpairTold (d : Dev) (who : Option (Nat × Nat)) : Only [.out, .cnt, .hif, .bdy] d (unpairTold d who) := by
  unfold Sys2Proof.unpairTold
  split
  · exact Only.finishAtIn _ _ _ _ _
  · exact Only.refl _ d

theorem Only.offNow (d : Dev) : Only [.free, .out, .cnt, .hif, .ttb, .fwd, .buf, .drc, .bdy] d (offNow d) := by
  simp [Sys2Proof.offNow, (Only.cfgLook _).iff, (Only.protScan _).iff, (Only.setPair _ _).iff, (Only.bdyM _ _).iff, Only.refl]

theorem Only.pairLeft (d : Dev) : Only [.free, .out, .cnt, .hif, .lne, .zbn, .ttb, .mac, .fwd, .buf, .sch, .drc, .sub, .bdy] d (pairLeft d) := by
  simp [Sys2Proof.pairLeft, (Only.releaseOwn _).iff, (Only.freeShadow _).iff, (Only.loseAway _).iff, (Only.linkOff _).iff, Only.refl]

/-- The shadow is given up. -/
def shadowGone (b : Bdy) : Bdy := { b with shadowReserved := false, shadow := [] }

theorem freeShadow_reads {α : Type} (f : Bdy → α) {d : Dev} (reserved : d.bdy.shadowReserved = true) :
    f d.freeShadow.bdy = f (shadowGone (shadowPages d).bdy) := by
  rw [freeShadow_reserved reserved, Dev.bdyM_bdy]
  rfl

/-- A reading of the pair apart from the shadow is the same once the shadow is given up. -/
theorem freeShadow_keeps {α : Type} (f : Bdy → α) (apart : ∀ b, f (standing b) = f b) (gone : ∀ b, f (shadowGone b) = f b) (d : Dev) :
    f d.freeShadow.bdy = f d.bdy := by
  cases reserved : d.bdy.shadowReserved with
  | true => exact ((freeShadow_reads f reserved).trans (gone _)).trans ((Calm.refl d).shadowPages.reads f apart)
  | false => rw [freeShadow_none reserved]

theorem freeShadow_shadow (d : Dev) : d.freeShadow.bdy.shadow = if d.bdy.shadowReserved then [] else d.bdy.shadow := by
  have gone (b : Bdy) : (shadowGone b).shadow = [] := rfl
  cases reserved : d.bdy.shadowReserved with
  | true => exact ((freeShadow_reads Bdy.shadow reserved).trans (gone _)).trans (if_pos rfl).symm
  | false => rw [freeShadow_none reserved, if_neg (by decide)]

/-- What the pair held is gone; no command has come, and the shadow is empty where its pages were reserved. -/
theorem pairLeft_pair (d : Dev) : (pairLeft d).bdy.linkUp = false ∧ (pairLeft d).bdy.own = [] ∧
    (pairLeft d).bdy.shadow = (if d.bdy.shadowReserved then [] else d.bdy.shadow) ∧ (d.hif.inflight = [] → (pairLeft d).hif.inflight = []) := by
  have lanes := (Calm.refl d).lanesOff
  have left : pairLeft d = ((lanesOff d).bdyM fun b => { b with linkUp := false }).loseAway.freeShadow.releaseOwn := rfl
  rw [left]
  generalize lanesOff d = y at lanes
  have calm : Calm (y.bdyM fun b => { b with linkUp := false }) (y.bdyM fun b => { b with linkUp := false }).loseAway := (Calm.refl _).loseAway
  generalize (y.bdyM fun b => { b with linkUp := false }).loseAway = z at calm
  rw [releaseOwn_bdy]
  refine ⟨?_, rfl, ?_, fun none_flies => ?_⟩
  · exact (freeShadow_keeps Bdy.linkUp (fun _ => rfl) (fun _ => rfl) z).trans ((calm.reads Bdy.linkUp fun _ => rfl).trans (by rw [Dev.bdyM_bdy]))
  · refine (freeShadow_shadow z).trans ?_
    rw [calm.reads Bdy.shadow fun _ => rfl, calm.reads Bdy.shadowReserved fun _ => rfl, Dev.bdyM_bdy, ← lanes.reads Bdy.shadow fun _ => rfl,
      ← lanes.reads Bdy.shadowReserved fun _ => rfl]
  · exact releaseOwn_inflight (freeShadow_inflight (calm.flight (lanes.flight none_flies)))

theorem offNow_pair (d : Dev) : (offNow d).bdy.state = .off ∧ (offNow d).bdy.unpairDraining = false ∧ (offNow d).bdy.authority = false ∧
    (offNow d).bdy.linkUp = d.bdy.linkUp ∧ (offNow d).bdy.own = d.bdy.own ∧ (offNow d).bdy.shadow = d.bdy.shadow := by
  have off : ((d.bdyM unpaired).setPair .off).bdy = { unpaired d.bdy with state := .off } := by rw [setPair_bdy, Dev.bdyM_bdy]
  have calm : Calm ((d.bdyM unpaired).setPair .off) ((d.bdyM unpaired).setPair .off).protScan := (Calm.refl _).protScan
  have now : offNow d = ((d.bdyM unpaired).setPair .off).protScan.cfgLook := rfl
  rw [now, cfgLook_reads Bdy.state, cfgLook_reads Bdy.unpairDraining, cfgLook_reads Bdy.authority, cfgLook_reads Bdy.linkUp, cfgLook_reads Bdy.own,
    cfgLook_reads Bdy.shadow, calm.state, calm.reads Bdy.unpairDraining fun _ => rfl, calm.reads Bdy.authority fun _ => rfl,
    calm.reads Bdy.linkUp fun _ => rfl, calm.own (by rw [off]; exact nofun), calm.reads Bdy.shadow fun _ => rfl, off]
  exact ⟨rfl, rfl, rfl, rfl, rfl, rfl⟩

theorem unpair_drained (dt : Nat) (s : State) (u : Serving s) (drains : s.dev.bdy.unpairDraining = true) (none_queued : s.dev.bdy.txq = [])
    (none_waits : s.dev.bdy.pairing = none ∧ s.dev.bdy.rejoin = none) (none_flies : s.dev.hif.inflight = []) :
    Does (.unpairDrained dt) s wayOfFrames fun x =>
      x.bdy.state = .off ∧ x.bdy.linkUp = false ∧ x.bdy.unpairDraining = false ∧ x.bdy.authority = false ∧ x.bdy.own = [] ∧
        x.bdy.shadow = (if s.dev.bdy.shadowReserved then [] else s.dev.bdy.shadow) := by
  obtain ⟨no_pairing, no_rejoin⟩ := none_waits
  obtain ⟨link, own, shadow, idle⟩ := pairLeft_pair (s.dev.elapse dt)
  rw [Dev.elapse_bdy] at shadow
  rw [Dev.elapse_hif] at idle
  let d := offNow (pairLeft (s.dev.elapse dt))
  have told := (Calm.refl d).unpairTold s.dev.bdy.unpairing
  obtain ⟨state, draining, authority, link', own', shadow'⟩ := offNow_pair (pairLeft (s.dev.elapse dt))
  refine Does.upTo (x := unpairTold d s.dev.bdy.unpairing) (exec_unpairDrained dt s) u ?_ ?_ ?_
  · refine (if_pos (by simp [drains, none_queued, no_pairing, no_rejoin])).trans ?_
    change unpairTold (offNow ((pairLeft (s.dev.elapse dt)).freeJournalled true)) (s.dev.elapse dt).bdy.unpairing = _
    rw [freeJournalled_idle (idle none_flies), Dev.elapse_bdy]
  · exact ((Only.pairLeft _).mono (by decide)).trans (((Only.offNow _).mono (by decide)).trans ((Only.unpairTold _ _).mono (by decide)))
  · rw [Dev.settle_bdy, told.state, told.reads Bdy.linkUp fun _ => rfl, told.reads Bdy.unpairDraining fun _ => rfl,
      told.reads Bdy.authority fun _ => rfl, told.own (by rw [state]; decide), told.reads Bdy.shadow fun _ => rfl, state, draining, authority,
      link', own', shadow', link, own, shadow]
    exact ⟨rfl, rfl, rfl, rfl, rfl, rfl⟩

/-- Settles O48: each row sets what it says of the pair, and what follows it on other blocks leaves the pair alone. -/
theorem pairLife : Obligations.PairLife :=
  ⟨isolates, takes_over, report_ends, heartbeats_back, holddown_ends, cut_over, unpair_drained⟩

end Sys2Proof
